-- ==== Sys2Proof/Word.lean ====
section
/-!
DEFINITION. Word.lean: the word types of the part (R6) and the plain sparse tables the state is made of.

A `Tab` is a list of (key, value) pairs in ONE canonical form: keys strictly rising and no entry equal to the value an
unlisted key reads as.  Equal tables are therefore equal lists.
-/
namespace Sys2Proof

/-- A byte (R6). -/
abbrev Byte := BitVec 8
/-- A 32-bit word (R6). -/
abbrev Word := BitVec 32
/-- A 64-bit dword (R6). -/
abbrev Dword := BitVec 64
/-- A 256-byte vector register value: lane i (R222) is bits 32·i+31 : 32·i. -/
abbrev Vec := BitVec 2048
/-- An 80-bit op word (R166). -/
abbrev OpWord := BitVec 80
/-- A 512-bit bundle (R163). -/
abbrev BundleWord := BitVec 512

/-- A sparse table: (key, value) pairs, keys strictly rising. -/
abbrev Tab (α : Type) := List (Nat × α)

namespace Tab

/-- The value at a key; `d` is what an unlisted key reads as. -/
def get {α : Type} (d : α) : Tab α → Nat → α
  | [], _ => d
  | (k, v) :: t, n => if n = k then v else get d t n

/-- Remove a key. -/
def erase {α : Type} : Tab α → Nat → Tab α
  | [], _ => []
  | (k, v) :: t, n => if n = k then erase t n else (k, v) :: erase t n

/-- Insert a value (not the default one) at a key, keeping the keys rising. -/
def insert {α : Type} : Tab α → Nat → α → Tab α
  | [], n, a => [(n, a)]
  | (k, v) :: t, n, a =>
    if n < k then (n, a) :: (k, v) :: t
    else if n = k then (n, a) :: t
    else (k, v) :: insert t n a

/-- Write a value at a key, keeping the canonical form: writing the default removes the entry. -/
def put {α : Type} [DecidableEq α] (d : α) (t : Tab α) (n : Nat) (a : α) : Tab α :=
  if a = d then erase t n else insert t n a

/-- Keys strictly rising. -/
def sorted {α : Type} : Tab α → Bool
  | [] => true
  | [_] => true
  | (k, _) :: (k', v') :: t => decide (k < k') && sorted ((k', v') :: t)

/-- The canonical form. -/
def wf {α : Type} [DecidableEq α] (d : α) (t : Tab α) : Bool :=
  sorted t && t.all (fun e => decide (e.2 ≠ d))

/-- The entries with keys in [lo, hi). -/
def slice {α : Type} (t : Tab α) (lo hi : Nat) : Tab α :=
  t.filter (fun e => decide (lo ≤ e.1) && decide (e.1 < hi))

end Tab

/-- Memory: (address, byte) pairs; an unlisted address reads as zero. -/
abbrev Mem := Tab Byte

/-- A sign-extension of the low n bits of a 64-bit value to 64 bits (R9, R194; n from 1 to 64). -/
def sextN (n : Nat) (v : Dword) : Dword := BitVec.ofInt 64 ((BitVec.ofNat n v.toNat).toInt)

/-- A zero-extension of the low n bits of a 64-bit value to 64 bits. -/
def zextN (n : Nat) (v : Dword) : Dword := BitVec.ofNat 64 (v.toNat % 2 ^ n)

/-- Bits hi:lo of a natural number. -/
def bitsN (n hi lo : Nat) : Nat := (n / 2 ^ lo) % 2 ^ (hi + 1 - lo)

/-- Bit i of a natural number. -/
def bitN (n i : Nat) : Bool := decide ((n / 2 ^ i) % 2 = 1)

/-- The little-endian bytes of a number, n of them (R6). -/
def toBytes : Nat → Nat → List Byte
  | 0, _ => []
  | n + 1, v => BitVec.ofNat 8 v :: toBytes n (v / 256)

/-- The number little-endian bytes stand for (R6). -/
def ofBytes : List Byte → Nat
  | [] => 0
  | b :: t => b.toNat + 256 * ofBytes t

/-- 1 for true, 0 for false. -/
def b2n (b : Bool) : Nat := if b then 1 else 0

end Sys2Proof
end

