-- ==== Sys2Proof/Machine/Float.lean ====
section
/-!
DEFINITION. Float.lean: the number formats and their arithmetic (R131 to R148): exact values, one rounding, and the functions the
vector, matrix, copy and reduction units share.  A format or element type is named by its code of R80.
-/
namespace Sys2Proof.Machine

/-- A value: NaN, an infinity, or (−1)^neg · m · 2^e (a zero keeps its sign, R132). -/
inductive Fv where
  | nan
  | inf (neg : Bool)
  | fin (neg : Bool) (m : Nat) (e : Int)
  deriving DecidableEq, Repr

/-- Fraction bits, exponent bias, magnitude bits of the largest finite value, canonical NaN, sign bit (R131). -/
def fmtF (t : Nat) : Nat := match t with | 0 => 23 | 1 => 10 | 2 => 7 | 3 => 3 | _ => 2
@[inherit_doc fmtF] def fmtBias (t : Nat) : Nat := match t with | 0 => 127 | 1 => 15 | 2 => 127 | 3 => 7 | _ => 15
@[inherit_doc fmtF] def fmtMax (t : Nat) : Nat := match t with | 0 => 0x7F7FFFFF | 1 => 0x7BFF | 2 => 0x7F7F | 3 => 0x7E | _ => 0x7B
@[inherit_doc fmtF] def fmtNan (t : Nat) : Nat := match t with | 0 => 0x7FC00000 | 1 => 0x7E00 | 2 => 0x7FC0 | 3 => 0x7F | _ => 0x7E
@[inherit_doc fmtF] def fmtSign (t : Nat) : Nat := match t with | 0 => 0x80000000 | 1 => 0x8000 | 2 => 0x8000 | _ => 0x80
/-- The type is one of the five floating formats. -/
def isFloat (t : Nat) : Bool := decide (t < 5)
/-- Exponent of the least significant bit of subnormals. -/
def fmtQ (t : Nat) : Int := 1 - (fmtBias t : Int) - fmtF t

/-- The value of a floating encoding (R131, R132). -/
def fdec (t bits : Nat) : Fv :=
  let neg := decide (bits / fmtSign t % 2 = 1)
  let mag := bits % fmtSign t
  if fmtMax t < mag then
    if t = 3 then .nan else if mag = fmtMax t + 1 then .inf neg else .nan
  else if mag < 2 ^ fmtF t then .fin neg mag (fmtQ t)
  else .fin neg (2 ^ fmtF t + mag % 2 ^ fmtF t) (fmtQ t + (mag / 2 ^ fmtF t : Nat) - 1)

/-- Does a magnitude that lies `rem` (with `sticky` below) of 2^d past `keep` round up? (R136) -/
def roundsUp (mode : Nat) (neg : Bool) (keep rem d : Nat) (sticky : Bool) : Bool :=
  let exact := decide (rem = 0) && !sticky
  match mode with
  | 0 =>
    let half := 2 ^ d
    decide (half < 2 * rem) || (decide (half = 2 * rem) && (sticky || decide (keep % 2 = 1)))
  | 1 => false
  | 2 => !exact && !neg
  | _ => !exact && neg

/-- The rounded magnitude as format bits with an unbounded exponent (R136): (m + sticky·ε)·2^e. -/
def roundMag (t mode : Nat) (neg : Bool) (m : Nat) (e : Int) (sticky : Bool) : Nat :=
  if m = 0 ∧ sticky = false then 0
  else
    let q := max (e + (Nat.log2 m + 1 : Nat) - (fmtF t + 1 : Nat)) (fmtQ t)
    if q ≤ e then (q - fmtQ t).toNat * 2 ^ fmtF t + m * 2 ^ (e - q).toNat
    else
      let d := (q - e).toNat
      let keep := m / 2 ^ d
      (q - fmtQ t).toNat * 2 ^ fmtF t + keep + b2n (roundsUp mode neg keep (m % 2 ^ d) d sticky)

/-- Sign and magnitude bits. -/
def withSign (t : Nat) (neg : Bool) (mag : Nat) : Nat := b2n neg * fmtSign t + mag

/-- Overflow of arithmetic (R137): infinity, or the largest finite value where the mode rounds away from infinity; .f8a gives ±448. -/
def overflowBits (t mode : Nat) (neg : Bool) : Nat :=
  if t = 3 then fmtMax t
  else match mode with
    | 0 => fmtMax t + 1
    | 1 => fmtMax t
    | 2 => if neg then fmtMax t else fmtMax t + 1
    | _ => if neg then fmtMax t + 1 else fmtMax t

/-- Round an exact value to a format as IEEE 754 does (R136, R137). -/
def fenc (t mode : Nat) (v : Fv) (sticky : Bool := false) : Nat :=
  match v with
  | .nan => fmtNan t
  | .inf neg => withSign t neg (if t = 3 then fmtMax t else fmtMax t + 1)
  | .fin neg m e =>
    let mag := roundMag t mode neg m e sticky
    withSign t neg (if fmtMax t < mag then overflowBits t mode neg else mag)

/-- Conversion to a floating format (R138, R140): finite overflow saturates, or gives infinity for .f8b in mode INF. -/
def fconv (t mode : Nat) (ovfInf : Bool) (v : Fv) : Nat :=
  match v with
  | .nan => fmtNan t
  | .inf neg =>
    withSign t neg (if t = 3 ∨ (t = 4 ∧ ovfInf = false) then fmtMax t else fmtMax t + 1)
  | .fin neg m e =>
    let mag := roundMag t mode neg m e false
    withSign t neg (if fmtMax t < mag then (if t = 4 ∧ ovfInf then fmtMax t + 1 else fmtMax t) else mag)

/-- The signed integer a finite value is at exponent e (e at or below its own). -/
def scaled (neg : Bool) (m : Nat) (e' e : Int) : Int :=
  (if neg then -1 else 1) * ((m * 2 ^ (e' - e).toNat : Nat) : Int)

/-- Exact negation. -/
def fneg : Fv → Fv
  | .nan => .nan
  | .inf n => .inf !n
  | .fin n m e => .fin (!n) m e

/-- Exact product (R137): 0·∞ is a NaN. -/
def fmulX : Fv → Fv → Fv
  | .nan, _ => .nan
  | _, .nan => .nan
  | .inf n, .inf n' => .inf (n != n')
  | .inf n, .fin n' m _ => if m = 0 then .nan else .inf (n != n')
  | .fin n m _, .inf n' => if m = 0 then .nan else .inf (n != n')
  | .fin n m e, .fin n' m' e' => .fin (n != n') (m * m') (e + e')

/-- Exact sum; the sign of an exact zero sum follows the mode (R137). -/
def faddX (mode : Nat) : Fv → Fv → Fv
  | .nan, _ => .nan
  | _, .nan => .nan
  | .inf n, .inf n' => if n = n' then .inf n else .nan
  | .inf n, .fin _ _ _ => .inf n
  | .fin _ _ _, .inf n' => .inf n'
  | .fin n m e, .fin n' m' e' =>
    if m = 0 ∧ m' = 0 then .fin (if n = n' then n else decide (mode = 3)) 0 0
    else
      let lo := min e e'
      let s := scaled n m e lo + scaled n' m' e' lo
      if s = 0 then .fin (decide (mode = 3)) 0 0 else .fin (decide (s < 0)) s.natAbs lo

/-- Add, subtract, multiply and fused multiply-add, rounded once. -/
def fadd (t mode a b : Nat) : Nat := fenc t mode (faddX mode (fdec t a) (fdec t b))
@[inherit_doc fadd] def fsub (t mode a b : Nat) : Nat := fenc t mode (faddX mode (fdec t a) (fneg (fdec t b)))
@[inherit_doc fadd] def fmul (t mode a b : Nat) : Nat := fenc t mode (fmulX (fdec t a) (fdec t b))
/-- RNE_T(a·b + c) of exact values. -/
def ffma (t : Nat) (a b c : Fv) : Nat := fenc t 0 (faddX 0 (fmulX a b) c)

/-- a / b rounded once (R137). -/
def fdivV (t mode : Nat) (a b : Fv) : Nat :=
  match a, b with
  | .nan, _ => fmtNan t
  | _, .nan => fmtNan t
  | .inf _, .inf _ => fmtNan t
  | .inf n, .fin n' _ _ => fenc t mode (.inf (n != n'))
  | .fin n _ _, .inf n' => fenc t mode (.fin (n != n') 0 0)
  | .fin n m e, .fin n' m' e' =>
    if m' = 0 then (if m = 0 then fmtNan t else fenc t mode (.inf (n != n')))
    else
      let s := fmtF t + 4 + Nat.log2 m'
      fenc t mode (.fin (n != n') (m * 2 ^ s / m') (e - e' - s)) (decide (m * 2 ^ s % m' ≠ 0))
/-- a / b on encodings. -/
def fdiv (t mode a b : Nat) : Nat := fdivV t mode (fdec t a) (fdec t b)

/-- Floor square root: k bits, from the top one down. -/
def isqrtAux (n : Nat) : Nat → Nat → Nat
  | 0, r => r
  | k + 1, r => if (r + 2 ^ k) * (r + 2 ^ k) ≤ n then isqrtAux n k (r + 2 ^ k) else isqrtAux n k r
@[inherit_doc isqrtAux] def isqrt (n : Nat) : Nat := isqrtAux n (Nat.log2 n / 2 + 1) 0

/-- Square root (R141). -/
def fsqrt (t mode a : Nat) : Nat :=
  match fdec t a with
  | .nan => fmtNan t
  | .inf neg => if neg then fmtNan t else fmtMax t + 1
  | .fin neg m e =>
    if m = 0 then withSign t neg 0
    else if neg then fmtNan t
    else
      let s := 2 * fmtF t + 6
      let (m, e) := if e % 2 = 0 then (m, e) else (2 * m, e - 1)
      let r := isqrt (m * 2 ^ (2 * s))
      fenc t mode (.fin false r (e / 2 - s)) (decide (r * r ≠ m * 2 ^ (2 * s)))

/-- Reciprocal (R141). -/
def frcp (t mode a : Nat) : Nat :=
  match fdec t a with
  | .fin neg m e => if m = 0 then withSign t neg (fmtMax t + 1) else fdivV t mode (.fin false 1 0) (.fin neg m e)
  | v => fdivV t mode (.fin false 1 0) v

/-- Reciprocal square root (R141). -/
def frsqrt (t mode a : Nat) : Nat :=
  match fdec t a with
  | .nan => fmtNan t
  | .inf neg => if neg then fmtNan t else 0
  | .fin neg m e =>
    if m = 0 then fenc t mode (.inf neg)
    else if neg then fmtNan t
    else
      let (m, e) := if e % 2 = 0 then (m, e) else (2 * m, e - 1)
      let s := fmtF t + 6 + Nat.log2 m
      let r := isqrt (2 ^ (2 * s) / m)
      fenc t mode (.fin false r (-(e / 2) - s)) (decide (r * r * m ≠ 2 ^ (2 * s)))

/-- Fixed-point bits the transcendental functions are computed with. -/
def fixP : Nat := 320
/-- ln 2 in fixed point: Σ 1/(k·2^k). -/
def ln2Fix : Nat := ((List.range 330).map fun k => 2 ^ fixP / ((k + 1) * 2 ^ (k + 1))).sum
/-- Σ z^k/k! in fixed point from a term on. -/
def expAux (z : Nat) : Nat → Nat → Nat → Nat
  | 0, _, _ => 0
  | n + 1, k, term => term + expAux z n (k + 1) (term * z / 2 ^ fixP / (k + 1))
/-- Σ t^(2k+1)/(2k+1) in fixed point. -/
def atanhAux (t2 : Nat) : Nat → Nat → Nat → Nat
  | 0, _, _ => 0
  | n + 1, k, pw => pw / (2 * k + 1) + atanhAux t2 n (k + 1) (pw * t2 / 2 ^ fixP)

/-- 2^x rounded once (R141): 320 fixed-point bits decide the rounding of every .f32 input. -/
def fexp2 (t mode a : Nat) : Nat :=
  match fdec t a with
  | .nan => fmtNan t
  | .inf neg => if neg then 0 else fmtMax t + 1
  | .fin neg m e =>
    if m = 0 then fenc t mode (.fin false 1 0)
    else if 8 < e + (Nat.log2 m : Nat) then fenc t mode (.fin false 1 (if neg then -400 else 400)) 
    else
      let x : Int := if e + fixP < 0 then 0 else scaled neg m (e + fixP) 0
      let n := x / 2 ^ fixP
      let f := (x % 2 ^ fixP).toNat
      let v := expAux (f * ln2Fix / 2 ^ fixP) 100 0 (2 ^ fixP)
      fenc t mode (.fin false (if f = 0 then 2 ^ fixP else v) (n - fixP)) (decide (f ≠ 0))

/-- log2 x rounded once (R141). -/
def flog2 (t mode a : Nat) : Nat :=
  match fdec t a with
  | .nan => fmtNan t
  | .inf neg => if neg then fmtNan t else fmtMax t + 1
  | .fin neg m e =>
    if m = 0 then fenc t mode (.inf true)
    else if neg then fmtNan t
    else
      let l := Nat.log2 m
      let k : Int := e + (l : Nat)
      let d := m - 2 ^ l
      if d = 0 then fenc t mode (.fin (decide (k < 0)) k.natAbs 0)
      else
        let tt := d * 2 ^ fixP / (m + 2 ^ l)
        let fr := 2 * atanhAux (tt * tt / 2 ^ fixP) 120 0 tt * 2 ^ fixP / ln2Fix
        let v : Int := k * 2 ^ fixP + fr
        if 0 ≤ v then fenc t mode (.fin false v.toNat (-fixP)) true
        else fenc t mode (.fin true ((-v).toNat - 1) (-fixP)) true

/-- Order of two numbers: a < b, with −0 and +0 equal. -/
def fltV : Fv → Fv → Bool
  | .nan, _ => false
  | _, .nan => false
  | .inf n, .inf n' => n && !n'
  | .inf n, .fin _ _ _ => n
  | .fin _ _ _, .inf n' => !n'
  | .fin n m e, .fin n' m' e' => decide (scaled n m e (min e e') < scaled n' m' e' (min e e'))
/-- The value is a NaN, an infinity, a zero. -/
def Fv.isNan : Fv → Bool | .nan => true | _ => false
@[inherit_doc Fv.isNan] def Fv.isInf : Fv → Bool | .inf _ => true | _ => false
@[inherit_doc Fv.isNan] def Fv.isZero : Fv → Bool | .fin _ m _ => decide (m = 0) | _ => false
@[inherit_doc Fv.isNan] def Fv.neg : Fv → Bool | .nan => false | .inf n => n | .fin n _ _ => n

/-- a orders below b with −0 below +0 (R137). -/
def fbelow (a b : Fv) : Bool := fltV a b || (a.isZero && b.isZero && a.neg && !b.neg)
/-- max and min (R137): a NaN operand gives the canonical NaN. -/
def fmax (t a b : Nat) : Nat :=
  if (fdec t a).isNan || (fdec t b).isNan then fmtNan t else if fbelow (fdec t a) (fdec t b) then b else a
@[inherit_doc fmax] def fmin (t a b : Nat) : Nat :=
  if (fdec t a).isNan || (fdec t b).isNan then fmtNan t else if fbelow (fdec t b) (fdec t a) then b else a

/-- RNDI (R136): a finite value to an integer. -/
def rndi (mode : Nat) (neg : Bool) (m : Nat) (e : Int) : Int :=
  let mag := if 0 ≤ e then m * 2 ^ e.toNat
    else m / 2 ^ (-e).toNat + b2n (roundsUp mode neg (m / 2 ^ (-e).toNat) (m % 2 ^ (-e).toNat) (-e).toNat false)
  if neg then -(mag : Int) else mag

/-- Range of an integer type (R133). -/
def intLo (t : Nat) : Int := match t with | 5 => -2147483648 | 6 => -32768 | 7 => -128 | 8 => -8 | _ => 0
@[inherit_doc intLo] def intHi (t : Nat) : Int :=
  match t with | 5 => 2147483647 | 6 => 32767 | 7 => 127 | 8 => 7 | 9 => 4294967295 | 10 => 65535 | _ => 255
/-- Width in bits of a type (R220). -/
def tyW (t : Nat) : Nat :=
  match t with
  | 0 => 32 | 5 => 32 | 9 => 32
  | 1 => 16 | 2 => 16 | 6 => 16 | 10 => 16
  | 3 => 8 | 4 => 8 | 7 => 8 | 11 => 8
  | _ => 4
/-- The type is signed. -/
def tySigned (t : Nat) : Bool := decide (5 ≤ t ∧ t ≤ 8)
/-- The integer a raw element stands for (R220); for .o4 and .s4 as two's complement. -/
def intOf (t raw : Nat) : Int :=
  if tySigned t && decide (2 ^ (tyW t - 1) ≤ raw % 2 ^ tyW t) then (raw % 2 ^ tyW t : Nat) - (2 ^ tyW t : Nat) else (raw % 2 ^ tyW t : Nat)
/-- Raw bits of an integer modulo the type's width. -/
def rawOf (t : Nat) (v : Int) : Nat := (v % (2 ^ tyW t : Nat)).toNat
/-- Saturate an integer to a type. -/
def satInt (t : Nat) (v : Int) : Nat := rawOf t (min (max v (intLo t)) (intHi t))

/-- An exact integer as a value. -/
def fvInt (v : Int) : Fv := .fin (decide (v < 0)) v.natAbs 0

/-- Conversion to an integer type (R139). -/
def toIntTy (t mode : Nat) (v : Fv) : Nat :=
  match v with
  | .nan => 0
  | .inf neg => rawOf t (if neg then intLo t else intHi t)
  | .fin neg m e => satInt t (rndi mode neg m e)

/-- Decode a .o4 byte (R134): even and odd element. -/
def o4Decode (lo hi : Nat) : Int × Int :=
  let s (n : Nat) : Int := if 8 ≤ n then (n : Int) - 16 else n
  let out (n : Nat) : Int := (if 8 ≤ n then -1 else 1) * (8 * 2 ^ (n % 8))
  if lo = 8 then (out hi, 0) else if hi = 8 then (0, out lo) else (s lo, s hi)

/-- nearest(v) of R135. -/
def o4Nearest (v : Fv) : Int :=
  match v with
  | .nan => 0
  | .inf neg => if neg then -1024 else 1024
  | .fin neg m e =>
    let le (h : Nat) : Bool := if 0 ≤ e then decide (2 * m * 2 ^ e.toNat ≤ h) else decide (2 * m ≤ h * 2 ^ (-e).toNat)
    let mag : Nat :=
      if le 1 then 0 else if le 3 then 1 else if le 5 then 2 else if le 7 then 3 else if le 9 then 4 else if le 11 then 5
      else if le 13 then 6 else if le 15 then 7 else if le 24 then 8 else if le 48 then 16 else if le 96 then 32
      else if le 192 then 64 else if le 384 then 128 else if le 768 then 256 else if le 1536 then 512 else 1024
    if neg then -(mag : Int) else mag

/-- code(q) of R135. -/
def o4Code (q : Int) : Nat := (if q < 0 then 8 else 0) + Nat.log2 (q.natAbs / 8)

/-- Quantise a pair to a .o4 byte (R135): low and high nibble. -/
def o4Pair (a b : Fv) : Nat × Nat :=
  let qa := o4Nearest a
  let qb := o4Nearest b
  let nib (q : Int) : Nat := (q % 16).toNat
  let sat (q : Int) : Int := if q.natAbs ≤ 7 then q else if q < 0 then -7 else 7
  if qa.natAbs ≤ 7 ∧ qb.natAbs ≤ 7 then (nib qa, nib qb)
  else if qb.natAbs ≤ 7 ∨ (7 < qa.natAbs ∧ qb.natAbs ≤ qa.natAbs) then (8, o4Code qa)
  else if qb = -8 then (nib (sat qa), nib (-7))
  else (o4Code qb, 8)

/-- Exact values of raw elements (R132 to R134); .o4 elements decode in pairs. -/
def decodeElems (t : Nat) : List Nat → List Fv
  | [] => []
  | [a] => [if isFloat t then fdec t a else fvInt (intOf t a)]
  | a :: b :: r =>
    if t = 12 then fvInt (o4Decode a b).1 :: fvInt (o4Decode a b).2 :: decodeElems t r
    else (if isFloat t then fdec t a else fvInt (intOf t a)) :: decodeElems t (b :: r)

/-- Convert exact values to raw elements of a type (R138 to R140, R135). -/
def encodeElems (t mode : Nat) (ovfInf : Bool) : List Fv → List Nat
  | [] => []
  | [a] => [if t = 12 then (o4Pair a (.fin false 0 0)).1 else if isFloat t then fconv t mode ovfInf a else toIntTy t mode a]
  | a :: b :: r =>
    if t = 12 then (o4Pair a b).1 :: (o4Pair a b).2 :: encodeElems t mode ovfInf r
    else (if isFloat t then fconv t mode ovfInf a else toIntTy t mode a) :: encodeElems t mode ovfInf (b :: r)

/-! ### Companding (R146 to R148) -/

/-- Knot coordinates x_k, y_k as .f32 encodings. -/
def knotX (tab : List Dword) (k : Nat) : Nat := (tab.getD k 0).toNat % 2 ^ 32
@[inherit_doc knotX] def knotY (tab : List Dword) (k : Nat) : Nat := (tab.getD k 0).toNat / 2 ^ 32
/-- An .f32 encoding is finite. -/
def f32Finite (a : Nat) : Bool := match fdec 0 a with | .fin _ _ _ => true | _ => false
/-- a < b of .f32 encodings. -/
def f32lt (a b : Nat) : Bool := fltV (fdec 0 a) (fdec 0 b)
/-- A valid compand table (R146). -/
def ctabValid (tab : List Dword) : Bool :=
  (List.range 17).all (fun k => f32Finite (knotX tab k) && f32Finite (knotY tab k))
    && (List.range 16).all (fun k => f32lt (knotX tab k) (knotX tab (k + 1)) && f32lt (knotY tab k) (knotY tab (k + 1)))
/-- Slope m_k (R146). -/
def ctabSlope (tab : List Dword) (k : Nat) : Nat :=
  fdiv 0 0 (fsub 0 0 (knotY tab (k + 1)) (knotY tab k)) (fsub 0 0 (knotX tab (k + 1)) (knotX tab k))
/-- The largest k in 0..15 with knot k at or below u. -/
def ctabSeg (knot : Nat → Nat) (u : Nat) : Nat :=
  (List.range 16).foldl (fun r k => if f32lt u (knot k) then r else k) 0
/-- Clamp between two .f32 values. -/
def f32clamp (u lo hi : Nat) : Nat := if f32lt u lo then lo else if f32lt hi u then hi else u
/-- q of R147, an exact value. -/
def vquantQ (tab : List Dword) (x s : Nat) : Fv :=
  let u := fdiv 0 0 x s
  if (fdec 0 u).isNan then .fin false 0 0
  else
    let u := f32clamp u (knotX tab 0) (knotX tab 16)
    let k := ctabSeg (knotX tab) u
    let d := fsub 0 0 u (knotX tab k)
    fdec 0 (ffma 0 (fdec 0 d) (fdec 0 (ctabSlope tab k)) (fdec 0 (knotY tab k)))
/-- The compand inverse of R148: exact stored value t and .f32 scale s, rounded to OFMT by RNE. -/
def companded (tab : List Dword) (t : Fv) (s ofmt : Nat) : Nat :=
  let t0 := if fltV t (fdec 0 (knotY tab 0)) then fdec 0 (knotY tab 0)
    else if fltV (fdec 0 (knotY tab 16)) t then fdec 0 (knotY tab 16) else t
  let k := (List.range 16).foldl (fun r k => if fltV t0 (fdec 0 (knotY tab k)) then r else k) 0
  let e := fenc 0 0 (faddX 0 t0 (fneg (fdec 0 (knotY tab k))))
  let g := fdiv 0 0 e (ctabSlope tab k)
  let v := fadd 0 0 (knotX tab k) g
  let x := fmul 0 0 s v
  fconv ofmt 0 false (fdec 0 x)

/-! ### Readiness summaries (R45, R231) -/

/-- The tests of R231 over raw elements of a type: zero, ones, nan, inf, pinf, ninf. -/
def testElems (t test : Nat) (l : List Nat) : Bool :=
  let v (e : Nat) : Fv := if isFloat t then fdec t e else .fin false 0 0
  match test with
  | 0 => l.all fun e => if isFloat t then (fdec t e).isZero else decide (e = 0)
  | 1 => l.all fun e => decide (e = 2 ^ tyW t - 1)
  | 2 => isFloat t && l.any fun e => (v e).isNan
  | 3 => isFloat t && l.any fun e => (v e).isInf
  | 4 => isFloat t && l.all fun e => (v e).isInf && !(v e).neg
  | _ => isFloat t && l.all fun e => (v e).isInf && (v e).neg

/-- The 7-bit summary of R45 over raw elements; 0 over none (R232). -/
def summaryOf (t : Nat) (l : List Nat) : Nat :=
  if l.isEmpty then 0
  else b2n (testElems t 0 l) + 2 * b2n (testElems t 1 l) + 4 * b2n (testElems t 2 l) + 8 * b2n (testElems t 3 l)
    + (if testElems t 4 l then 16 else if testElems t 5 l then 32 else 0) + 64 * b2n (isFloat t)

/-- Combine two summaries as vst.sum does (R269). -/
def summaryJoin (a b : Nat) : Nat :=
  (a % 4 &&& b % 4) + (a / 4 % 4 ||| b / 4 % 4) * 4 + (if a / 16 % 4 = b / 16 % 4 then a / 16 % 4 else 0) * 16 + (a / 64 % 2 * (b / 64 % 2)) * 64

end Sys2Proof.Machine
end

