-- ==== Sys2Proof/Syntax.lean ====
section
/-!
DEFINITION. Syntax.lean: the one inductive `Instr`, a constructor for every row of the opcode table: the operations of the
five slot classes (R185 to R189) and the events of the part, with the operand forms of R166 to R172.
-/
namespace Sys2Proof

/-- The op slots of a bundle, in slot order (R103). -/
inductive Slot where
  | S | V0 | V1 | M | L | A
  deriving DecidableEq, Repr

/-- The slot's number in latches and TSLOT (R84, R207). -/
def Slot.num : Slot → Nat
  | .S => 0 | .V0 => 1 | .V1 => 2 | .M => 3 | .L => 4 | .A => 5

/-- Which of the two vector slots a V op stands in. -/
inductive VUnit where
  | v0 | v1
  deriving DecidableEq, Repr

/-- The slot of a vector unit. -/
def VUnit.slot : VUnit → Slot
  | .v0 => .V0 | .v1 => .V1

/-- A 14-bit operand field: level and index (R153, R168). -/
structure Operand where
  level : BitVec 2
  index : BitVec 12
  deriving DecidableEq, Repr

/-- Predicate and tag fields of an op word, bits 72:56 (R166). -/
structure Head where
  n   : Bool
  p   : BitVec 4
  ta  : BitVec 4
  tc0 : BitVec 4
  tc1 : BitVec 4
  deriving DecidableEq, Repr

/-- Format Q4, and MEM.i with D data, A base, B index, C displacement (R169). -/
structure Q4 where
  h : Head
  d : Operand
  a : Operand
  b : Operand
  c : Operand
  deriving DecidableEq, Repr

/-- Format I28, and MEM.w with a 28-bit displacement (R169). -/
structure I28 where
  h   : Head
  d   : Operand
  a   : Operand
  imm : BitVec 28
  deriving DecidableEq, Repr

/-- Formats I42 and BRX (R169). -/
structure I42 where
  h   : Head
  d   : Operand
  imm : BitVec 42
  deriving DecidableEq, Repr

/-- Format STR: BEATS − 1 and MOD (R169, R172). -/
structure Str where
  h     : Head
  d     : Operand
  a     : Operand
  b     : Operand
  beats : BitVec 8
  mod   : BitVec 6
  deriving DecidableEq, Repr

/-- Format SYS: an unsigned 28-bit system field (R169). -/
structure Sys where
  h   : Head
  d   : Operand
  a   : Operand
  sys : BitVec 28
  deriving DecidableEq, Repr

/-- A core of the package: logical die and core index (R18). -/
structure CoreId where
  die  : Nat
  core : Nat
  deriving DecidableEq, Repr

/-- A member context: VD number and member index (R26). -/
structure MemberId where
  vd     : Nat
  member : Nat
  deriving DecidableEq, Repr

/-- A fabric packet, with every header field of R320, its stamp entries and its payload. -/
structure Pkt where
  vc    : Nat
  type  : Nat
  mark  : Bool
  echo  : Bool
  ddie  : Nat
  sdie  : Nat
  gang  : Nat
  dmem  : Nat
  smem  : Nat
  /-- The dword at 0x08, read by TYPE (R320). -/
  addr  : Dword
  seq   : Nat
  nent  : Nat
  /-- PL: a payload follows; LENM1: payload bytes − 1, or the bytes a READ asks for − 1 (R320). -/
  pl    : Bool
  lenm1 : Nat
  rtag  : Nat
  cid   : Nat
  opx   : Nat
  /-- Reserved header bits, zero unless the part has failed (R414). -/
  rsvd  : Nat
  /-- Stamp dwords: member index and clock entry (R320, R323). -/
  stamp : List (Nat × Nat)
  data  : List Byte
  /-- The received mark of a packet delivered from a network save area (R66). -/
  counted : Bool
  /-- The packet carries a release of its origin (R110); poison travels as a mark (R464); the bytes of a CDATA packet's message.  R320 gives
  none of the three a place in the header: they are the model's own (log 44). -/
  rel     : Bool
  poison  : Bool
  mlen    : Nat
  /-- How many packets its source had injected before it: the order of R64 (the model's own). -/
  inj     : Nat
  deriving DecidableEq, Repr

/-- A datagram of the scale-out transport (R355). -/
structure Dgram where
  kind  : Nat
  epair : Nat
  psn   : Nat
  off   : Nat
  job   : Nat
  len   : Nat
  apsn  : Nat
  /-- Arrived with an ECN mark (R357). -/
  ecn   : Bool
  /-- The GCM tag or a reserved field does not check (R355). -/
  bad   : Bool
  data  : List Byte
  deriving DecidableEq, Repr

/-- The parameters of a VD creation request (R368). -/
structure VdParams where
  n : Nat
  memory : Nat
  winLo : Nat
  winHi : Nat
  wakeClass : Nat
  keep : List (Nat × Nat)
  initLaunch : Option Nat
  idleTimeout : Option Nat
  hangt : Nat
  nswmax : Nat
  priority : Nat
  homeSlot : Option Nat
  homeDies : Option (List Nat)
  backfill : Bool
  deadline : Nat
  signalPages : List (Nat × Nat)
  deriving DecidableEq, Repr

/-- An endpoint creation request (R356). -/
structure EndpointParams where
  vd : Nat
  index : Nat
  ports : Nat
  peerAddr : Nat
  udpPort : Nat
  peerVd : Nat
  peerIndex : Nat
  winBase : Nat
  winLen : Nat
  counter : Nat
  priority : Nat
  deriving DecidableEq, Repr

/-- One constructor for every row of the opcode table. -/
inductive Instr where
  /-- R192: add S op: D := val(A) + val(B), wrapping modulo 2^64. -/
  | add (o : Q4)
  /-- R192: sub S op: D := val(A) - val(B), wrapping. -/
  | sub (o : Q4)
  /-- R192: addi S op: D := val(A) plus the sign-extended 28-bit immediate. -/
  | addi (o : I28)
  /-- R192: mul S op: D := low 64 bits of the product. -/
  | mul (o : Q4)
  /-- R192: mulh.s S op: D := high 64 bits of the signed 128-bit product. -/
  | mulhS (o : Q4)
  /-- R192: mulh.z S op: D := high 64 bits of the unsigned 128-bit product. -/
  | mulhZ (o : Q4)
  /-- R193: div.s S op: signed quotient on the shared divider; a zero divisor traps when TRAPEN.DZ is 1. -/
  | divS (o : Q4)
  /-- R193: div.z S op: unsigned quotient on the shared divider. -/
  | divZ (o : Q4)
  /-- R193: rem.s S op: signed remainder with the sign of the dividend. -/
  | remS (o : Q4)
  /-- R193: rem.z S op: unsigned remainder. -/
  | remZ (o : Q4)
  /-- R194: and S op: bitwise and. -/
  | and (o : Q4)
  /-- R194: or S op: bitwise or. -/
  | or (o : Q4)
  /-- R194: xor S op: bitwise exclusive or. -/
  | xor (o : Q4)
  /-- R194: andn S op: val(A) and not val(B). -/
  | andn (o : Q4)
  /-- R194: shl S op: shift left by val(B)<5:0>. -/
  | shl (o : Q4)
  /-- R194: shr S op: logical shift right. -/
  | shr (o : Q4)
  /-- R194: sar S op: arithmetic shift right. -/
  | sar (o : Q4)
  /-- R194: rotr S op: rotate right. -/
  | rotr (o : Q4)
  /-- R194: min.s S op: signed minimum. -/
  | minS (o : Q4)
  /-- R194: min.z S op: unsigned minimum. -/
  | minZ (o : Q4)
  /-- R194: max.s S op: signed maximum. -/
  | maxS (o : Q4)
  /-- R194: max.z S op: unsigned maximum. -/
  | maxZ (o : Q4)
  /-- R194: clz S op: count leading zero bits of val(A). -/
  | clz (o : Q4)
  /-- R194: popc S op: count one bits of val(A). -/
  | popc (o : Q4)
  /-- R194: sext S op: sign-extend the low n bits of val(A). -/
  | sext (o : Q4)
  /-- R194: zext S op: zero-extend the low n bits of val(A). -/
  | zext (o : Q4)
  /-- R194: li S op: load the sign-extended 42-bit immediate. -/
  | li (o : I42)
  /-- R194: lea S op: D := val(A) + val(B) scaled by 2^(val(C)<2:0>). -/
  | lea (o : Q4)
  /-- R194: sel S op: select val(A) or val(B) by bit 0 of a predicate. -/
  | sel (o : Q4)
  /-- R195: pcmp S op: set a predicate to all ones or zeros by a comparison of two operands. -/
  | pcmp (o : Q4)
  /-- R195: pcmpi S op: set a predicate by comparing with a 24-bit immediate. -/
  | pcmpi (o : I28)
  /-- R195: pand S op: predicate and. -/
  | pand (o : Q4)
  /-- R195: por S op: predicate or. -/
  | por (o : Q4)
  /-- R195: pxor S op: predicate exclusive or. -/
  | pxor (o : Q4)
  /-- R195: pnot S op: predicate not. -/
  | pnot (o : Q4)
  /-- R195: pmov S op with C = 0: copy val(A) into a predicate. -/
  | pmovToPred (o : Q4)
  /-- R195: pmov S op with C = 1: copy a predicate into a register. -/
  | pmovFromPred (o : Q4)
  /-- R197: br S op: relative branch when the predicate holds, 2 transfer clk. -/
  | br (o : I42)
  /-- R197: jmp S op: jump to an absolute bundle index. -/
  | jmp (o : I42)
  /-- R197: jr S op: jump to the bundle index in val(A), 3 transfer clk. -/
  | jr (o : Q4)
  /-- R197: call S op: relative branch writing the link i + 1. -/
  | call (o : I42)
  /-- R197: ret S op: jump to val(A), x63 by default. -/
  | ret (o : Q4)
  /-- R199: lnest S op: read a loop-nest record and start the loop sequencer. -/
  | lnest (o : Q4)
  /-- R199: lbrk S op: mark the active nest to end at the next END issue. -/
  | lbrk (o : Sys)
  /-- R200: trap S op: raise a software trap, cause 0x12. -/
  | trap (o : Sys)
  /-- R201: tret S op: return one trap level and issue the trapping bundle again. -/
  | tret (o : Sys)
  /-- R201: tret.skip S op with SKIP = 1: return one trap level to the bundle after the trapping one. -/
  | tretSkip (o : Sys)
  /-- R202: rstart S op: return one trap level to the last restart point, restoring the checkpoint. -/
  | rstart (o : Sys)
  /-- R203: crr S op: read a control register. -/
  | crr (o : Sys)
  /-- R203: crw S op: write a control register, subject to its access at the trap level. -/
  | crw (o : Sys)
  /-- R210: svc svc to the memory wick: back a range with new zeroed writable pages. -/
  | svcMap (o : Sys)
  /-- R210: svc svc to the memory wick: release a range after invalidation. -/
  | svcUnmap (o : Sys)
  /-- R210: svc svc to the memory wick: set W in every leaf of a range, clearing COW. -/
  | svcProtect (o : Sys)
  /-- R210: svc svc to the error wick: signal the owning process with a value. -/
  | svcReport (o : Sys)
  /-- R216: yield S op: suspend the task as ready and free the core. -/
  | yield (o : Sys)
  /-- R216: await S op: suspend the task until a readiness word is full. -/
  | await (o : Sys)
  /-- R216: done S op: end the task, fill its OUT word and retire its footprint. -/
  | done (o : Sys)
  /-- R217: park S op: end a core's pane work and free it at once. -/
  | park (o : Sys)
  /-- R214: spawn S op: read a continuation record and admit a task to the pool. -/
  | spawn (o : Sys)
  /-- R217: halt S op: end a core's pane work; the core stays out until the pane completes. -/
  | halt (o : Sys)
  /-- R218: nsw.on S op: open the core's no-switch window. -/
  | nswOn (o : Sys)
  /-- R218: nsw.off S op: close the core's no-switch window. -/
  | nswOff (o : Sys)
  /-- R219: dim S op: mark the member dimmed; when all are dimmed the VD collapses. -/
  | dim (o : Sys)
  /-- R225: vadd V op: element-wise add. -/
  | vadd (u : VUnit) (o : Q4)
  /-- R225: vsub V op: element-wise subtract. -/
  | vsub (u : VUnit) (o : Q4)
  /-- R225: vmul V op: element-wise multiply. -/
  | vmul (u : VUnit) (o : Q4)
  /-- R225: vmin V op: element-wise minimum. -/
  | vmin (u : VUnit) (o : Q4)
  /-- R225: vmax V op: element-wise maximum. -/
  | vmax (u : VUnit) (o : Q4)
  /-- R225: vabs V op: element-wise absolute value. -/
  | vabs (u : VUnit) (o : Q4)
  /-- R225: vneg V op: element-wise negation. -/
  | vneg (u : VUnit) (o : Q4)
  /-- R225: vmulh V op: high half of integer products. -/
  | vmulh (u : VUnit) (o : Q4)
  /-- R225: vadds V op: saturating integer add. -/
  | vadds (u : VUnit) (o : Q4)
  /-- R225: vsubs V op: saturating integer subtract. -/
  | vsubs (u : VUnit) (o : Q4)
  /-- R226: vfma.f32 V op: fused a*b + c in .f32. -/
  | vfmaF32 (u : VUnit) (o : Q4)
  /-- R226: vfma.f16 V op: fused a*b + c in .f16. -/
  | vfmaF16 (u : VUnit) (o : Q4)
  /-- R226: vfma.bf16 V op: fused a*b + c in .bf16. -/
  | vfmaBf16 (u : VUnit) (o : Q4)
  /-- R226: vfms.f32 V op: fused a*b - c in .f32. -/
  | vfmsF32 (u : VUnit) (o : Q4)
  /-- R226: vfms.f16 V op: fused a*b - c in .f16. -/
  | vfmsF16 (u : VUnit) (o : Q4)
  /-- R226: vfms.bf16 V op: fused a*b - c in .bf16. -/
  | vfmsBf16 (u : VUnit) (o : Q4)
  /-- R226: vfnma.f32 V op: fused c - a*b in .f32. -/
  | vfnmaF32 (u : VUnit) (o : Q4)
  /-- R226: vfnma.f16 V op: fused c - a*b in .f16. -/
  | vfnmaF16 (u : VUnit) (o : Q4)
  /-- R226: vfnma.bf16 V op: fused c - a*b in .bf16. -/
  | vfnmaBf16 (u : VUnit) (o : Q4)
  /-- R226: vclamp.f32 V op: min(max(a, b), c) in .f32. -/
  | vclampF32 (u : VUnit) (o : Q4)
  /-- R226: vclamp.s32 V op: signed clamp. -/
  | vclampS32 (u : VUnit) (o : Q4)
  /-- R226: vclamp.z32 V op: unsigned clamp. -/
  | vclampZ32 (u : VUnit) (o : Q4)
  /-- R227: vrcp V op: reciprocal in .f32. -/
  | vrcp (u : VUnit) (o : Q4)
  /-- R227: vrsqrt V op: reciprocal square root. -/
  | vrsqrt (u : VUnit) (o : Q4)
  /-- R227: vsqrt V op: square root. -/
  | vsqrt (u : VUnit) (o : Q4)
  /-- R227: vexp2 V op: base-2 exponential. -/
  | vexp2 (u : VUnit) (o : Q4)
  /-- R227: vlog2 V op: base-2 logarithm. -/
  | vlog2 (u : VUnit) (o : Q4)
  /-- R228: vcmp V op: element-wise comparison giving all-ones or zero elements. -/
  | vcmp (u : VUnit) (o : Q4)
  /-- R229: vsel V op: lane-wise select by a predicate. -/
  | vsel (u : VUnit) (o : Q4)
  /-- R230: vmovp.any V op: predicate bit set for lanes that are non-zero. -/
  | vmovpAny (u : VUnit) (o : Q4)
  /-- R230: vmovp.all V op: predicate bit set for lanes that are all ones. -/
  | vmovpAll (u : VUnit) (o : Q4)
  /-- R230: vmovp.v V op: expand a predicate into lane masks. -/
  | vmovpV (u : VUnit) (o : Q4)
  /-- R231: vtst V op: lane-wise absorb test into a predicate. -/
  | vtst (u : VUnit) (o : Q4)
  /-- R232: vtst.sum V op: compute the readiness summary over enabled lanes. -/
  | vtstSum (u : VUnit) (o : Q4)
  /-- R233: vand V op: bitwise and. -/
  | vand (u : VUnit) (o : Q4)
  /-- R233: vor V op: bitwise or. -/
  | vor (u : VUnit) (o : Q4)
  /-- R233: vxor V op: bitwise exclusive or. -/
  | vxor (u : VUnit) (o : Q4)
  /-- R233: vnot V op: bitwise not. -/
  | vnot (u : VUnit) (o : Q4)
  /-- R233: vshl V op: element-wise shift left. -/
  | vshl (u : VUnit) (o : Q4)
  /-- R233: vshr V op: element-wise logical shift right. -/
  | vshr (u : VUnit) (o : Q4)
  /-- R233: vsar V op: element-wise arithmetic shift right. -/
  | vsar (u : VUnit) (o : Q4)
  /-- R234: vcvt V op: convert elements between formats over a vector group. -/
  | vcvt (u : VUnit) (o : Q4)
  /-- R235: vquant V op: quantise .f32 through a compand table to an integer type. -/
  | vquant (u : VUnit) (o : Q4)
  /-- R236: vpack V op: interleave units of two vectors. -/
  | vpack (u : VUnit) (o : Q4)
  /-- R236: vunpack V op: separate even or odd units of two vectors. -/
  | vunpack (u : VUnit) (o : Q4)
  /-- R237: vbcast V op: broadcast one unit to every unit. -/
  | vbcast (u : VUnit) (o : Q4)
  /-- R237: vshuf V op: permute units by index vector. -/
  | vshuf (u : VUnit) (o : Q4)
  /-- R237: vrot V op: rotate units by a scalar. -/
  | vrot (u : VUnit) (o : Q4)
  /-- R237: vidx V op: generate an arithmetic index sequence. -/
  | vidx (u : VUnit) (o : Q4)
  /-- R239: vredadd V op: fixed-tree sum over a group of vectors. -/
  | vredadd (u : VUnit) (o : Str)
  /-- R240: vredmax V op: maximum over a group of vectors. -/
  | vredmax (u : VUnit) (o : Str)
  /-- R240: vredmin V op: minimum over a group of vectors. -/
  | vredmin (u : VUnit) (o : Str)
  /-- R241: vscan V op: running add, max or min across beats and lanes. -/
  | vscan (u : VUnit) (o : Str)
  /-- R243: vcpush V op: append lanes to a conditional queue. -/
  | vcpush (u : VUnit) (o : Q4)
  /-- R243: vcpop V op: remove the oldest record of each lane FIFO. -/
  | vcpop (u : VUnit) (o : Q4)
  /-- R244: vcbal V op: rebalance a conditional queue among active lanes. -/
  | vcbal (u : VUnit) (o : Str)
  /-- R253: mm M op: multiply A by B and add into an accumulator item, optionally from its shadow. -/
  | mm (o : Str)
  /-- R253: mmz M op: multiply A by B into an accumulator from zero. -/
  | mmz (o : Str)
  /-- R256: mzero M op: clear accumulator items. -/
  | mzero (o : Str)
  /-- R256: mldt M op: load accumulator rows from a stream. -/
  | mldt (o : Str)
  /-- R256: msdt M op: store accumulator rows through a stream, optionally filling a readiness word. -/
  | msdt (o : Str)
  /-- R256: mtr M op: transpose a tile or accumulator item. -/
  | mtr (o : Str)
  /-- R256: macc M op: add two accumulator items. -/
  | macc (o : Str)
  /-- R256: mcvt M op: convert an accumulator into a tile item. -/
  | mcvt (o : Str)
  /-- R256: mscal M op: scale an accumulator by a scalar into .f32. -/
  | mscal (o : Str)
  /-- R266: ld.s8 L op, MEM.i: load a sign-extended byte. -/
  | ldS8I (o : Q4)
  /-- R266: ld.s8 L op, MEM.w: load a sign-extended byte. -/
  | ldS8W (o : I28)
  /-- R266: ld.z8 L op, MEM.i: load a zero-extended byte. -/
  | ldZ8I (o : Q4)
  /-- R266: ld.z8 L op, MEM.w: load a zero-extended byte. -/
  | ldZ8W (o : I28)
  /-- R266: ld.s16 L op, MEM.i: load a sign-extended half. -/
  | ldS16I (o : Q4)
  /-- R266: ld.s16 L op, MEM.w: load a sign-extended half. -/
  | ldS16W (o : I28)
  /-- R266: ld.z16 L op, MEM.i: load a zero-extended half. -/
  | ldZ16I (o : Q4)
  /-- R266: ld.z16 L op, MEM.w: load a zero-extended half. -/
  | ldZ16W (o : I28)
  /-- R266: ld.s32 L op, MEM.i: load a sign-extended word. -/
  | ldS32I (o : Q4)
  /-- R266: ld.s32 L op, MEM.w: load a sign-extended word. -/
  | ldS32W (o : I28)
  /-- R266: ld.z32 L op, MEM.i: load a zero-extended word. -/
  | ldZ32I (o : Q4)
  /-- R266: ld.z32 L op, MEM.w: load a zero-extended word. -/
  | ldZ32W (o : I28)
  /-- R266: ld.64 L op, MEM.i: load a dword. -/
  | ld64I (o : Q4)
  /-- R266: ld.64 L op, MEM.w: load a dword. -/
  | ld64W (o : I28)
  /-- R267: st.8 L op, MEM.i: store a byte. -/
  | st8I (o : Q4)
  /-- R267: st.8 L op, MEM.w: store a byte. -/
  | st8W (o : I28)
  /-- R267: st.16 L op, MEM.i: store a half. -/
  | st16I (o : Q4)
  /-- R267: st.16 L op, MEM.w: store a half. -/
  | st16W (o : I28)
  /-- R267: st.32 L op, MEM.i: store a word. -/
  | st32I (o : Q4)
  /-- R267: st.32 L op, MEM.w: store a word. -/
  | st32W (o : I28)
  /-- R267: st.64 L op, MEM.i: store a dword; to a strike page it strikes. -/
  | st64I (o : Q4)
  /-- R267: st.64 L op, MEM.w: store a dword. -/
  | st64W (o : I28)
  /-- R268: vld L op, MEM.i: load 256 bytes into a vector register. -/
  | vldI (o : Q4)
  /-- R268: vld L op, MEM.w: load 256 bytes into a vector register. -/
  | vldW (o : I28)
  /-- R268: vst L op, MEM.i: store a vector register. -/
  | vstI (o : Q4)
  /-- R268: vst L op, MEM.w: store a vector register. -/
  | vstW (o : I28)
  /-- R269: vst.sum L op, MEM.i: store a vector and combine its summary into o15. -/
  | vstSumI (o : Q4)
  /-- R269: vst.sum L op, MEM.w: store a vector and combine its summary into o15. -/
  | vstSumW (o : I28)
  /-- R270: ld.acq.32 L op: tagged acquire load of a word at gang scope. -/
  | ldAcq32 (o : Q4)
  /-- R270: ld.acq.64 L op: tagged acquire load of a dword. -/
  | ldAcq64 (o : Q4)
  /-- R271: st.rel.32 L op: release store of a word, freezing until earlier accesses are performed. -/
  | stRel32 (o : Q4)
  /-- R271: st.rel.64 L op: release store of a dword. -/
  | stRel64 (o : Q4)
  /-- R272: ldfe.keep L op: wait until a vault word is full and read it. -/
  | ldfeKeep (o : Q4)
  /-- R272: ldfe.take L op: wait until full, read and set empty. -/
  | ldfeTake (o : Q4)
  /-- R272: stfe.fill L op: wait until empty, write and set full; a release. -/
  | stfeFill (o : Q4)
  /-- R272: fechk L op: return whether a vault word is full, without waiting. -/
  | fechk (o : Q4)
  /-- R272: feset L op: set a word full, data unchanged. -/
  | feset (o : Q4)
  /-- R272: feclr L op: set a word empty, data unchanged. -/
  | feclr (o : Q4)
  /-- R278: fence.c L op: order and wait for own-vault and register-space accesses. -/
  | fenceC (o : Sys)
  /-- R278: fence.d L op: order and wait for die-local accesses and drain reductions. -/
  | fenceD (o : Sys)
  /-- R278: fence.g L op: wait for every access, then act as release and acquire. -/
  | fenceG (o : Sys)
  /-- R276: amo.add.32 L op: atomic add of a word, or a reduction with D = x0. -/
  | amoAdd32 (o : Q4)
  /-- R276: amo.and.32 L op: atomic and of a word. -/
  | amoAnd32 (o : Q4)
  /-- R276: amo.or.32 L op: atomic or of a word. -/
  | amoOr32 (o : Q4)
  /-- R276: amo.xor.32 L op: atomic xor of a word. -/
  | amoXor32 (o : Q4)
  /-- R276: amo.max.s.32 L op: atomic signed max of a word. -/
  | amoMaxS32 (o : Q4)
  /-- R276: amo.max.z.32 L op: atomic unsigned max of a word. -/
  | amoMaxZ32 (o : Q4)
  /-- R276: amo.min.s.32 L op: atomic signed min of a word. -/
  | amoMinS32 (o : Q4)
  /-- R276: amo.min.z.32 L op: atomic unsigned min of a word. -/
  | amoMinZ32 (o : Q4)
  /-- R276: amo.swap.32 L op: atomic swap of a word. -/
  | amoSwap32 (o : Q4)
  /-- R277: cas.32 L op: compare-and-swap of a word. -/
  | cas32 (o : Q4)
  /-- R276: amo.fadd.f32 L op: atomic .f32 add. -/
  | amoFaddF32 (o : Q4)
  /-- R276: amo.fadd.bf16 L op: atomic .bf16 add. -/
  | amoFaddBf16 (o : Q4)
  /-- R276: amo.fmax.f32 L op: atomic .f32 max. -/
  | amoFmaxF32 (o : Q4)
  /-- R276: amo.add.64 L op: atomic add of a dword. -/
  | amoAdd64 (o : Q4)
  /-- R276: amo.and.64 L op: atomic and of a dword. -/
  | amoAnd64 (o : Q4)
  /-- R276: amo.or.64 L op: atomic or of a dword. -/
  | amoOr64 (o : Q4)
  /-- R276: amo.xor.64 L op: atomic xor of a dword. -/
  | amoXor64 (o : Q4)
  /-- R276: amo.max.s.64 L op: atomic signed max of a dword. -/
  | amoMaxS64 (o : Q4)
  /-- R276: amo.max.z.64 L op: atomic unsigned max of a dword. -/
  | amoMaxZ64 (o : Q4)
  /-- R276: amo.min.s.64 L op: atomic signed min of a dword. -/
  | amoMinS64 (o : Q4)
  /-- R276: amo.min.z.64 L op: atomic unsigned min of a dword. -/
  | amoMinZ64 (o : Q4)
  /-- R276: amo.swap.64 L op: atomic swap of a dword. -/
  | amoSwap64 (o : Q4)
  /-- R277: cas.64 L op: compare-and-swap of a dword. -/
  | cas64 (o : Q4)
  /-- R281: ldt L op: load a tile item through a stream, tagged. -/
  | ldt (o : Str)
  /-- R282: vldt L op: load n vectors through a stream, tagged. -/
  | vldt (o : Str)
  /-- R279: sdef L op: load a stream register from a 32-byte record. -/
  | sdef (o : Str)
  /-- R280: sset.base L op: set a stream's BASE. -/
  | ssetBase (o : Str)
  /-- R280: sset.space L op: set a stream's SPACE. -/
  | ssetSpace (o : Str)
  /-- R280: sset.rstride L op: set a stream's RSTRIDE. -/
  | ssetRstride (o : Str)
  /-- R280: sset.ctl L op: set a stream's control bits FMT to SFMT. -/
  | ssetCtl (o : Str)
  /-- R280: sset.sbase L op: set a stream's SBASE. -/
  | ssetSbase (o : Str)
  /-- R280: sset.sstride L op: set a stream's SSTRIDE. -/
  | ssetSstride (o : Str)
  /-- R279: sadv L op: advance a stream's BASE and SBASE. -/
  | sadv (o : Str)
  /-- R283: fbind L op: bind a port FIFO to a binding record. -/
  | fbind (o : Q4)
  /-- R285: fpush L op: push an element to a port FIFO's out side. -/
  | fpush (o : Q4)
  /-- R285: fpop L op: pop the oldest in-side element of a port FIFO. -/
  | fpop (o : Q4)
  /-- R287: stm.64 L op: multicast a dword to a rectangle of vaults on members. -/
  | stm64 (o : Q4)
  /-- R287: stm.v L op: multicast a vector to a rectangle of vaults. -/
  | stmV (o : Q4)
  /-- R293: cpy A op: start a copy job from a card. -/
  | cpy (o : Q4)
  /-- R293: cpyr A op: start a copy-with-reduce job from a card. -/
  | cpyr (o : Q4)
  /-- R293: coll A op: start a collective job from a card. -/
  | coll (o : Q4)
  /-- R306: binit A op: initialise a barrier object. -/
  | binit (o : Q4)
  /-- R306: bexp A op: add to a barrier's EXPECTED and run the phase loop. -/
  | bexp (o : Q4)
  /-- R306: barr A op: release arrival of bytes at a barrier object. -/
  | barr (o : Q4)
  /-- R307: bwait A op: acquire that waits until a barrier reaches a phase. -/
  | bwait (o : Q4)
  /-- R308: sred A op: contribute vault bytes to an in-switch reduction slot. -/
  | sred (o : Q4)
  /-- R311: ifill A op: copy bundles into the core's IMEM. -/
  | ifill (o : Q4)
  /-- R312: pref A op: preload die-TLB translations of a range. -/
  | pref (o : Q4)
  /-- R309: trig A op: arm a trigger on a counter and threshold. -/
  | trig (o : Q4)
  /-- R310: sig A op: release write of a dword to a global address. -/
  | sig (o : Q4)
  /-- R305: wdraw A op: send one withdraw to a readiness word's producer. -/
  | wdraw (o : Q4)
  /-- R313: jobq A op: report the state of a job, task or trigger handle. -/
  | jobq (o : Q4)
  /-- R314: heat A op: read the heat counter of a page region. -/
  | heat (o : Q4)
  /-- R315: mig A op: ask for a page move between HBM and the expansion tier. -/
  | mig (o : Q4)
  /-- R173: event BUNDLE_ISSUE. A core issues the next bundle, acting on its header and present ops. -/
  | bundleIssue
  /-- R85: event RESULT_WRITEBACK. A fixed-latency result lands at issue clk plus latency. -/
  | resultWriteback
  /-- R176: event TAGGED_RESULT_LAND. A tagged access's data land and its tag becomes ready. -/
  | taggedResultLand
  /-- R175: event TIMING_TRAP. A fixed-latency result more than 64 clk late raises cause 0x05. -/
  | timingTrap
  /-- R389: event DEFERRED_FAULT_FOUND. A fault of a running access is found and taken at the next boundary. -/
  | deferredFaultFound
  /-- R385: event TRAP_ENTRY. After the drain the core writes the bank and save area and enters the handler. -/
  | trapEntry
  /-- R396: event ABORTED_WRITE. After the kill vote the error wick writes ABORTED to pending signal locations. -/
  | abortedWrite
  /-- R218: event NSW_WINDOW_EXCEEDED. A no-switch window reaching NSWMAX raises cause 0x14. -/
  | nswWindowExceeded
  /-- R425: event NSW_WINDOW_KILL. A window still open at 4 NSWMAX kills the member context. -/
  | nswWindowKill
  /-- R52: event CLOCK_GATE. A wait reaching the clock-gate threshold stops the core clock. -/
  | clockGate
  /-- R52: event POWER_GATE. A wait reaching the power-gate threshold power-gates the core logic. -/
  | powerGate
  /-- R52: event HANGT_EXPIRY. A wait reaching HANGT sends one hang report. -/
  | hangtExpiry
  /-- R31: event PANE_PLACEMENT. Once the rectangle is free the front end loads IMEM, presets and releases the pane. -/
  | panePlacement
  /-- R39: event TASK_DISPATCH. The dispatcher pops a ready task by strict or relaxed order to the longest-free core. -/
  | taskDispatch
  /-- R73: event GRANULE_SEQUENCE_END. A spill/fill sequence ends and waiting accesses proceed one per clk. -/
  | granuleSequenceEnd
  /-- R94: event TRANSLATION_WALK_END. A page walk completes, filling the die TLB or faulting. -/
  | translationWalkEnd
  /-- R98: event REDUCTION_DRAIN. A merging write-queue entry drains, for instance after 64 clk idle. -/
  | reductionDrain
  /-- R99: event HEAT_DECAY. Each decay period halves the heat counters of a table. -/
  | heatDecay
  /-- R100: event MIGRATION_REQUEST. The memory wick starts a readable page migration. -/
  | migrationRequest
  /-- R100: event MIGRATION_HOLD_TIMEOUT. Step 3 exceeding 2 µs abandons the move at the source. -/
  | migrationHoldTimeout
  /-- R463: event ECC_ERROR. An access or scrub finds a correctable or uncorrectable error. -/
  | eccError
  /-- R463: event HBM_SCRUB. Each HBM row is read once in 24 h to scrub it. -/
  | hbmScrub
  /-- R463: event VAULT_SCRUB. The vault die reads every word once per second. -/
  | vaultScrub
  /-- R465: event RETIREMENT_RECORD_RETRY. A failed retirement record write is retried every 1 s. -/
  | retirementRecordRetry
  /-- R95: event TRANSLATION_INVALIDATE. System software invalidates a VD's translations through the memory wick. -/
  | translationInvalidate
  /-- R95: event INVAL. A die drops matching entries, waits for users and acknowledges. -/
  | inval
  /-- R55: event SLOT_QUANTUM_END. A slot's quantum ends: backfill, skip and start the vote. -/
  | slotQuantumEnd
  /-- R60: event SNUFF. A member refuses or stops injecting, finishes outside writes and latches counters. -/
  | snuff
  /-- R62: event COUNT_LATCH. At T0 plus 850k clk each party latches its counters and sends COUNT. -/
  | countLatch
  /-- R63: event REFUSE. The GC receives a refusal and sends ABORT. -/
  | refuse
  /-- R63: event COUNT. The GC compares summed counters and relights or continues summing. -/
  | count
  /-- R63: event SUMREQ. The GC asks for another counter round at its time. -/
  | sumreq
  /-- R62: event DRAIN_DEADLINE. The drain deadline passes with unequal sums and HOLD is sent. -/
  | drainDeadline
  /-- R64: event HOLD. Capture points write held packets of the gang to network save areas. -/
  | hold
  /-- R63: event HELD. The GC sends RELIGHT once every capture point has reported. -/
  | held
  /-- R63: event ABORT. Members resume injection and frozen fabric bundles reissue. -/
  | abort
  /-- R63: event BACKOFF_END. After 50 µs the GC sends SNUFF with the next vote number. -/
  | backoffEnd
  /-- R68: event RELIGHT. A die stops, saves the outgoing context, loads the incoming one and releases. -/
  | relight
  /-- R63: event LIT. The GC starts the next quantum once every die has relit. -/
  | lit
  /-- R427: event VOTE_PARTY_TIMEOUT. A party silent 100 µs is declared failed. -/
  | votePartyTimeout
  /-- R75: event COLLAPSE_REQUEST. The host asks a VD to collapse through the management path. -/
  | collapseRequest
  /-- R75: event IDLE_TIMEOUT. A VD's idle timeout expires and it starts collapsing. -/
  | idleTimeout
  /-- R77: event COLLAPSE_WORK. With the gang off its dies the keep-class work runs and the VD enters PILOT. -/
  | collapseWork
  /-- R76: event STRIKE. A store to a strike page wakes a collapsed VD, finding cells. -/
  | strike
  /-- R431: event WAKE_LATE. The class bound expires before the first packet starts. -/
  | wakeLate
  /-- R110: event BEACON_TIMER. Each member sends its clock entry in a beacon every 2 µs. -/
  | beaconTimer
  /-- R324: event BEACON. A die merges a received clock entry into its applied clock. -/
  | beacon
  /-- R110: event STAMP_WAIT_APPLY. A held packet is applied once its stamp is rebuilt and dominated. -/
  | stampWaitApply
  /-- R454: event STAMP_WAIT_TIMEOUT. A stamp undominated for 10 ms sends a long-stamp-wait record. -/
  | stampWaitTimeout
  /-- R317: event SWITCH_PACKET_FORWARD. A switch forwards, marks or drops a packet it receives. -/
  | switchPacketForward
  /-- R324: event WRITE_PACKET. A destination applies a remote write. -/
  | writePacket
  /-- R324: event READ_PACKET. A destination answers a remote read. -/
  | readPacket
  /-- R324: event RDRESP. Read data are merged with the responder's clock and delivered. -/
  | rdresp
  /-- R324: event ATOMIC_PACKET. A destination performs a remote atomic or reduction. -/
  | atomicPacket
  /-- R324: event ATRESP. An atomic's old value is delivered to its tag. -/
  | atresp
  /-- R322: event ACK_PACKET. An ACK releases acknowledged packets from the retransmit buffer. -/
  | ackPacket
  /-- R324: event FEOP. A destination applies a full/empty or barrier update. -/
  | feop
  /-- R284: event FIFO_PACKET. A push-to-peer element arrives in a peer FIFO's in side. -/
  | fifoPacket
  /-- R330: event CDATA. Collective data are written, reduced or held in the landing buffer. -/
  | cdata
  /-- R304: event DEMAND. A withdraw or demand increment changes a producer's demand count. -/
  | demand
  /-- R335: event SRED_PACKET. A reduction slot allocates, combines or refuses a contribution. -/
  | sredPacket
  /-- R455: event SRES. A reduction result overwrites the contribution and the completion word lands. -/
  | sres
  /-- R323: event CFLUSH. Clock entries of a chain's stamp are delivered. -/
  | cflush
  /-- R327: event TKREQ. A die in ticket mode gives a ticket number to a source. -/
  | tkreq
  /-- R327: event TKCALL. A called source sends up to 64 KiB. -/
  | tkcall
  /-- R330: event BARTOK. A collective BAR token arrives for a round. -/
  | bartok
  /-- R326: event RATE_LIMIT_RISE. After 4 µs without ECHO a rate limiter rises by 1/32 of line rate. -/
  | rateLimitRise
  /-- R327: event TICKET_WINDOW_END. At each 16 µs window a die enters or leaves ticket mode. -/
  | ticketWindowEnd
  /-- R327: event TICKET_CALL. A die calls the next ticket when its ingress queue falls below 16 KiB. -/
  | ticketCall
  /-- R446: event RETRANSMIT_TIMEOUT. An unacknowledged packet is resent after 50 µs, or the peer is unreachable. -/
  | retransmitTimeout
  /-- R319: event LINK_TRAINING. The fabric wick trains a link through detect, equalisation, deskew and lock. -/
  | linkTraining
  /-- R319: event LANE_DETECT_TIMEOUT. A peer silent for 100 ms leaves the link down. -/
  | laneDetectTimeout
  /-- R441: event LANE_FAILURE. A failing lane is spared, or the link degrades or closes. -/
  | laneFailure
  /-- R442: event BUFFER_BANK_ERROR. A receive buffer bank with an uncorrectable error leaves service. -/
  | bufferBankError
  /-- R445: event SWITCH_HEARTBEAT_LOSS. Three missed heartbeats declare a switch position lost. -/
  | switchHeartbeatLoss
  /-- R445: event SWITCH_TAKEOVER. A spare switch die takes over a lost position. -/
  | switchTakeover
  /-- R296: event JOB_ACTIVATE. A job whose predecessors retired joins an engine and is checked. -/
  | jobActivate
  /-- R296: event CHUNK_ISSUE. An engine issues the next chunk of an active job in round-robin. -/
  | chunkIssue
  /-- R292: event CHUNK_BOUNDARY. Every write of a chunk has been performed. -/
  | chunkBoundary
  /-- R295: event JOB_OUT_FILL. A finished job fills its OUT word when it is empty. -/
  | jobOutFill
  /-- R295: event JOB_BARRIER_ARRIVAL. A finished job arrives with LEN bytes at its barrier object. -/
  | jobBarrierArrival
  /-- R295: event JOB_SIGNAL_WRITE. A finished job writes SVAL to SADR and retires. -/
  | jobSignalWrite
  /-- R309: event TRIGGER_FIRE. A trigger whose counter reaches its threshold starts its card. -/
  | triggerFire
  /-- R284: event FIFO_OUT_TRANSFER. An out-side element leaves once the peer FIFO has room. -/
  | fifoOutTransfer
  /-- R284: event FIFO_LOAD_FETCH. The NI fetches load-stream elements into the in side. -/
  | fifoLoadFetch
  /-- R330: event STEP_END. Collective END: the program ends and completion actions follow. -/
  | stepEnd
  /-- R330: event STEP_SEND. Collective SEND of blocks as one message to a peer. -/
  | stepSend
  /-- R330: event STEP_RECV. Collective RECV consumes and writes the next message from a peer. -/
  | stepRecv
  /-- R330: event STEP_RRS. Collective RRS reduces the next message and forwards results. -/
  | stepRrs
  /-- R330: event STEP_RRD. Collective RRD reduces the next message without forwarding. -/
  | stepRrd
  /-- R330: event STEP_COPY. Collective COPY of blocks transformed by MODE. -/
  | stepCopy
  /-- R330: event STEP_WAIT. Collective WAIT until earlier messages are acknowledged. -/
  | stepWait
  /-- R330: event STEP_SIGNAL. Collective SIGNAL release write to a V-address. -/
  | stepSignal
  /-- R330: event STEP_LOOP. Collective LOOP resets a counter and sets its limit. -/
  | stepLoop
  /-- R330: event STEP_ENDL. Collective ENDL steps a counter and loops back. -/
  | stepEndl
  /-- R330: event STEP_PEER. Collective PEER sets a peer register. -/
  | stepPeer
  /-- R330: event STEP_BAR. Collective BAR runs a dissemination barrier. -/
  | stepBar
  /-- R451: event COLLECTIVE_ABORT_NOTICE. A collective job aborts on an abort notice for its key. -/
  | collectiveAbortNotice
  /-- R335: event REDUCTION_SLOT_DEADLINE. A slot's deadline completes it PARTIAL. -/
  | reductionSlotDeadline
  /-- R336: event SLOT_LINGER_END. A done slot is freed after lingering 100 µs. -/
  | slotLingerEnd
  /-- R362: event LAUNCH_PACKET. The front end parses a LAUNCH, reads image and arguments, and distributes work. -/
  | launchPacket
  /-- R365: event TASKS_PACKET. The front end sets dispatcher mode and spawns task records. -/
  | tasksPacket
  /-- R365: event COPY_PACKET. The front end starts a job card. -/
  | copyPacket
  /-- R366: event FENCE_PACKET. The front end holds the queue until its counters are satisfied. -/
  | fencePacket
  /-- R366: event FENCE_COUNTER_POLL. Each unsatisfied counter is read as an acquire at least every 2 µs. -/
  | fenceCounterPoll
  /-- R365: event SIGNAL_PACKET. The front end stores or adds SVAL at SADR. -/
  | signalPacket
  /-- R365: event STRIKE_PACKET. The front end strikes a strike page. -/
  | strikePacket
  /-- R365: event DIM_PACKET. Once earlier packets complete the member is marked dimmed. -/
  | dimPacket
  /-- R365: event BARRIER_PACKET. Later packets wait until earlier ones complete. -/
  | barrierPacket
  /-- R365: event NOP_PACKET. A packet with no action. -/
  | nopPacket
  /-- R361: event PACKET_COMPLETION. A completed packet with SV set has SVAL written to SADR as a release. -/
  | packetCompletion
  /-- R359: event QUEUE_DOORBELL. A write to WPTR is noticed within 1 µs and parsing proceeds. -/
  | queueDoorbell
  /-- R359: event QUEUE_POLL. WPTR is polled every 100 µs as a safeguard. -/
  | queuePoll
  /-- R368: event VD_CREATE. The schedule wick creates a VD or refuses the request. -/
  | vdCreate
  /-- R470: event VD_RESET. A VD is killed and its runtime state cleared, keeping pages and key. -/
  | vdReset
  /-- R470: event VD_DESTROY. A VD is reset, its pages zeroed and released and its key erased. -/
  | vdDestroy
  /-- R478: event VAULTLOAD. The memory wick writes a vault image into a member's vault or save area. -/
  | vaultload
  /-- R55: event SCHEDULE_CHANGE. A request changes the slot count or quanta at a slot boundary. -/
  | scheduleChange
  /-- R371: event LIVE_MIGRATION. A VD is pre-copied, stopped and relit on another package. -/
  | liveMigration
  /-- R372: event STUB_FORWARD. A forwarding stub forwards a write or read to the destination. -/
  | stubForward
  /-- R372: event STUB_EXPIRY. A forwarding stub's lifetime ends. -/
  | stubExpiry
  /-- R356: event ENDPOINT_CREATE. The fabric wick sets up an Ethernet endpoint with its peer. -/
  | endpointCreate
  /-- R356: event ENDPOINT_SETUP_TIMEOUT. No matching peer endpoint within 1 s refuses creation. -/
  | endpointSetupTimeout
  /-- R354: event ETH_PORT_SPLIT. A request sets an Ethernet port to one 800G or two 400G MACs. -/
  | ethPortSplit
  /-- R357: event ETH_WRITE. A receiver performs a WRITE datagram's writes in its window. -/
  | ethWrite
  /-- R357: event ETH_READ. A peer reads its window and returns RDDATA. -/
  | ethRead
  /-- R357: event ETH_RDDATA. Fetched data are written to the job's destination. -/
  | ethRddata
  /-- R357: event ETH_ACK. Acknowledged datagrams advance chunk boundaries. -/
  | ethAck
  /-- R357: event ETH_NOTE. The peer adds LEN to its arrival counter as a release. -/
  | ethNote
  /-- R357: event ETH_ECHO. An ECHO lowers the endpoint's sending rate by 7/8. -/
  | ethEcho
  /-- R355: event ETH_SETUP. An endpoint setup message is taken by the fabric wick. -/
  | ethSetup
  /-- R355: event ETH_KEEP. A keep-alive message is taken for an endpoint. -/
  | ethKeep
  /-- R357: event ETH_BUSY. A collapsed receiver's BUSY makes the sender retry. -/
  | ethBusy
  /-- R355: event ETH_KEEPALIVE_TIMER. Every 1 ms a keep-alive is sent on each endpoint in use. -/
  | ethKeepaliveTimer
  /-- R357: event ETH_ACK_TIMER. A receiver acknowledges at least every 10 µs. -/
  | ethAckTimer
  /-- R357: event ETH_RETRANSMIT_TIMEOUT. A datagram unacknowledged 100 µs is resent, or the endpoint is unreachable. -/
  | ethRetransmitTimeout
  /-- R357: event ETH_RATE_RISE. After 16 µs without ECHO the endpoint rate rises. -/
  | ethRateRise
  /-- R373: event POWER_ON_RESET. The boot ROM verifies firmware, applies records, trains and tests, and publishes. -/
  | powerOnReset
  /-- R374: event RECOVERY_IMAGE. A host-written recovery image is verified, made active and booted. -/
  | recoveryImage
  /-- R376: event WICK_UPDATE. A verified image is loaded and a wick hands over to its new bank. -/
  | wickUpdate
  /-- R376: event WICK_UPDATE_TIMEOUT. A new bank not started within 100 ms is refused. -/
  | wickUpdateTimeout
  /-- R25: event MANAGEMENT_DIE_TAKEOVER. The standby management die takes over from its mirrored state. -/
  | managementDieTakeover
  /-- R17: event CORE_COLUMN_REPAIR. A failed core column is replaced after its vaults are spilled. -/
  | coreColumnRepair
  /-- R430: event DIE_REPLACEMENT. The error wick replaces a compute die with its row's spare. -/
  | dieReplacement
  /-- R378: event POWER_SAMPLE. Every 100 µs package power is sampled and duty lowered above the cap. -/
  | powerSample
  /-- R378: event DUTY_RAISE. Each 1 ms below 97% of the cap raises duty by 1/16. -/
  | dutyRaise
  /-- R379: event JUNCTION_OVERTEMP. A die at 95 °C has its duty capped at 8/16. -/
  | junctionOvertemp
  /-- R379: event COOLANT_ALARM. Inlet above limit or low flow for 1 s caps every die's duty. -/
  | coolantAlarm
  /-- R379: event THERMAL_STOP. 115 °C or flow below 6 L/min stops every die and cuts the rails. -/
  | thermalStop
  /-- R381: event TELEMETRY_SAMPLE. The telemetry wick samples its quantities every 1 ms. -/
  | telemetrySample
  /-- R468: event OUTSIDE_PORT_TIMEOUT. A 50 ms completion timeout fails the access with cause 0x0D. -/
  | outsidePortTimeout
  /-- R468: event OUTSIDE_PORT_LOST. An expansion or host port is lost and its accesses fail. -/
  | outsidePortLost
  /-- R473: event SECURITY_VIOLATION. A monitor violation raises an alarm of level 1, 2 or 3. -/
  | securityViolation
  /-- R474: event UNFREEZE_REQUEST. A signed request ends a level-2 freeze. -/
  | unfreezeRequest
  /-- R475: event ATTESTATION. The security wick advances the XMSS index and signs, or refuses. -/
  | attestation
  /-- R209: event SVC_REPLY. The wick's reply to a svc arrives; D takes its value and the frozen core issues on, or cause 0x13 is raised on refusal. -/
  | svcReply
  /-- R100: event MIGRATION_COMPLETE. A migration engine finishes its copies, swaps the leaf, releases held writes, moves the heat counters and returns the mig status. -/
  | migrationComplete
  /-- R352: event HOST_PORT_ACCESS. A host read or write arrives through VF BAR0 or BAR2 and is performed in the VD's global space, or dropped or completed as unsupported at an expired stub. -/
  | hostPortAccess
  /-- R465: event POWER_LOSS. Package power is lost, losing remaps and record writes not yet completed. -/
  | powerLoss
  /-- R379: event JUNCTION_COOLED. A die whose duty was capped at 8/16 falls below 90 °C and the cap is lifted. -/
  | junctionCooled
  /-- R355: event PAIR_REKEY. Before an endpoint pair's PSN wraps, the pair is set up again with a fresh AES-256-GCM key. -/
  | pairRekey
  deriving DecidableEq, Repr

end Sys2Proof
end

