-- ==== Sys2Proof/WellFormed.lean ====
section
/-!
DEFINITION. WellFormed.lean: the checks of an op that its op word alone decides (R476): the predicate and tag fields, the levels
and indices of its operand fields, qualifier fields, reserved fields and BEATS ranges.  An op that fails one is an illegal operand
(cause 0x03), suppressed or not.
-/
namespace Sys2Proof

/-- The value of an operand's index field. -/
abbrev Operand.ix (o : Operand) : Nat := o.index.toNat

/-- P from 0 to 12, and N = 0 when P = 0 (R402). -/
def Head.ok (h : Head) : Bool := decide (h.p.toNat ≤ 12) && (!h.n || decide (h.p ≠ 0))

/-- A latch operand's index: slot 0, 1, 2, 4 or 5, bits 8:3 zero, distance 1 to 7 (R84, R402). -/
def latchOk (ix : Nat) : Bool :=
  (decide (ix / 512 < 3) || decide (ix / 512 = 4) || decide (ix / 512 = 5)) && decide (ix / 8 % 64 = 0) && decide (ix % 8 ≠ 0)

/-- A 64-bit source operand (R190). -/
def Operand.srcOk (o : Operand) : Bool :=
  match o.level.toNat with
  | 0 => decide (o.ix < 64)
  | 1 => decide (o.ix < 16)
  | 2 => latchOk o.ix
  | _ => true

/-- A 64-bit destination, or the data operand of a store: an x register or an operand-file entry (R191, R267). -/
def Operand.dstOk (o : Operand) : Bool :=
  match o.level.toNat with
  | 0 => decide (o.ix < 64)
  | 1 => decide (o.ix < 16)
  | _ => false

/-- A predicate operand (R190). -/
def Operand.predOk (o : Operand) : Bool := decide (o.level = 0) && decide (o.ix < 12)

/-- A vector source (R221). -/
def Operand.vsrcOk (o : Operand) : Bool :=
  match o.level.toNat with
  | 0 => decide (o.ix < 384)
  | 1 => decide (o.ix < 16)
  | 2 => latchOk o.ix
  | _ => true

/-- A group of g vectors, source or destination: only at levels 0b00 and 0b01 when g > 1 (R221, R406). -/
def Operand.grpOk (o : Operand) (g : Nat) : Bool :=
  match o.level.toNat with
  | 0 => decide (o.ix + g ≤ 384)
  | 1 => decide (o.ix + g ≤ 16)
  | 2 => decide (g = 1) && latchOk o.ix
  | _ => decide (g = 1)

/-- A vector destination, or a group of them (R222). -/
def Operand.vdstOk (o : Operand) (g : Nat) : Bool :=
  match o.level.toNat with
  | 0 => decide (o.ix + g ≤ 384)
  | 1 => decide (o.ix + g ≤ 16)
  | _ => false

/-- A vector register named at level 0b00 (R268, R287). -/
def Operand.vregOk (o : Operand) : Bool := decide (o.level = 0) && decide (o.ix < 384)

/-- A tile or accumulator item: view 1 to 7 and item (R250). -/
def Operand.itemOk (o : Operand) : Bool := decide (o.level = 0) && decide (512 ≤ o.ix)

/-- A stream register operand (R250). -/
def Operand.streamOk (o : Operand) : Bool := decide (o.level = 0) && decide (o.ix < 16)

/-- An item or a stream (R251). -/
def Operand.msrcOk (o : Operand) : Bool := o.itemOk || o.streamOk

/-- A port FIFO operand (R283). -/
def Operand.fifoOk (o : Operand) : Bool := decide (o.level = 0) && decide (o.ix < 4)

/-- The operand names x0. -/
def Operand.isX0 (o : Operand) : Bool := decide (o.level = 0) && decide (o.index = 0)

/-- Qualifier fields of C (R171). -/
def qType (o : Q4) : Nat := o.c.ix / 256
@[inherit_doc qType] def qRm (o : Q4) : Nat := o.c.ix / 64 % 4
@[inherit_doc qType] def qOvf (o : Q4) : Bool := bitN o.c.ix 5
@[inherit_doc qType] def qSum (o : Q4) : Bool := bitN o.c.ix 4
@[inherit_doc qType] def qSub (o : Q4) : Nat := o.c.ix % 16

/-- The type is in F, the set .f32, .f16, .bf16 (R220). -/
def tyF (t : Nat) : Bool := decide (t < 3)
/-- The type is in I, the set .s32, .s16, .s8, .z32, .z16, .z8 (R220). -/
def tyI (t : Nat) : Bool := decide (5 ≤ t ∧ t ≤ 7) || decide (9 ≤ t ∧ t ≤ 11)
/-- One of the thirteen types (R80). -/
def tyAny (t : Nat) : Bool := decide (t ≤ 12)
/-- Twice the element size in bytes (R220). -/
def size2 (t : Nat) : Nat :=
  match t with
  | 0 => 8 | 5 => 8 | 9 => 8
  | 1 => 4 | 2 => 4 | 6 => 4 | 10 => 4
  | 3 => 2 | 4 => 2 | 7 => 2 | 11 => 2
  | _ => 1

/-- S and V ops name no tag to allocate (R399). -/
def noTag (h : Head) : Bool := h.ok && decide (h.ta = 0)

/-- An op that returns a value must allocate a tag unless its D is x0 (R174, R275, R289). -/
def valTag (h : Head) (d : Operand) : Bool := h.ok && (decide (h.ta ≠ 0) || d.isX0)

/-- S: D, A and B (R190, R191). -/
def wfS3 (o : Q4) : Bool := noTag o.h && o.d.dstOk && o.a.srcOk && o.b.srcOk
/-- S: D and A. -/
def wfS2 (o : Q4) : Bool := noTag o.h && o.d.dstOk && o.a.srcOk
/-- Predicate logic: D, A and B predicates (R195). -/
def wfP3 (o : Q4) : Bool := noTag o.h && o.d.predOk && o.a.predOk && o.b.predOk
/-- SYS ops whose system field is reserved (R403). -/
def wfSys0 (o : Sys) : Bool := noTag o.h && decide (o.sys = 0)
/-- crr and crw name an assigned control register, bits 27:12 zero (R203, R204). -/
def crAssigned (n : Nat) : Bool :=
  decide (n < 3) || decide (0x10 ≤ n ∧ n ≤ 0x14) || decide (0x20 ≤ n ∧ n ≤ 0x24) || decide (n = 0x30) || decide (n = 0x31)
    || decide (0x40 ≤ n ∧ n ≤ 0x43) || decide (0x50 ≤ n ∧ n ≤ 0x52) || decide (n = 0x60) || decide (n = 0x61)
    || decide (0x80 ≤ n ∧ n ≤ 0x87) || decide (0x100 ≤ n ∧ n ≤ 0x187)

/-- Qualifier field at level 0b11 with the unused fields zero (R223, R406): allowed types, whether RM is used, whether OVF may be
set, the allowed SUB. -/
def vqOk (o : Q4) (ty : Bool) (rm ovf sub : Bool) : Bool :=
  noTag o.h && decide (o.c.level = 3) && ty && (rm || decide (qRm o = 0)) && (ovf || !qOvf o) && !qSum o && sub

/-- V: D, A, B with a qualifier field. -/
def wfV3 (o : Q4) (q : Bool) : Bool := q && o.d.vdstOk 1 && o.a.vsrcOk && o.b.vsrcOk
/-- V: D, A with a qualifier field. -/
def wfV2 (o : Q4) (q : Bool) : Bool := q && o.d.vdstOk 1 && o.a.vsrcOk
/-- V: D, A, B, C without qualifiers (R226). -/
def wfV4 (o : Q4) : Bool := noTag o.h && o.d.vdstOk 1 && o.a.vsrcOk && o.b.vsrcOk && o.c.vsrcOk
/-- Rounding arithmetic: F or I, RM for F only (R225). -/
def vqArith (o : Q4) : Bool := vqOk o (tyF (qType o) || tyI (qType o)) (tyF (qType o)) false (decide (qSub o = 0))
/-- F or I without RM. -/
def vqFI (o : Q4) (sub : Bool) : Bool := vqOk o (tyF (qType o) || tyI (qType o)) false false sub
/-- F and the signed types (R225, vabs and vneg). -/
def vqFS (o : Q4) : Bool :=
  vqOk o (tyF (qType o) || decide (5 ≤ qType o ∧ qType o ≤ 7)) false false (decide (qSub o = 0))
/-- I only. -/
def vqI (o : Q4) : Bool := vqOk o (tyI (qType o)) false false (decide (qSub o = 0))
/-- .f32 with RM (R227). -/
def vqFn (o : Q4) : Bool := vqOk o (decide (qType o = 0)) true false (decide (qSub o = 0))
/-- No TYPE. -/
def vqNone (o : Q4) (sub : Bool) : Bool := vqOk o (decide (qType o = 0)) false false sub
/-- Any type, no RM. -/
def vqAny (o : Q4) (sub : Bool) : Bool := vqOk o (tyAny (qType o)) false false sub

/-- Group sizes of vcvt (R234): source and destination. -/
def cvtSrcG (o : Q4) : Nat := if size2 (qType o) < size2 (qSub o) then size2 (qSub o) / size2 (qType o) else 1
@[inherit_doc cvtSrcG] def cvtDstG (o : Q4) : Nat :=
  if size2 (qSub o) < size2 (qType o) then size2 (qType o) / size2 (qSub o) else 1

/-- STR fields. -/
def Str.n (o : Str) : Nat := o.beats.toNat + 1
@[inherit_doc Str.n] def Str.m (o : Str) : Nat := o.mod.toNat
/-- The TYPE field MOD<5:2> of the reductions (R238). -/
def Str.ty (o : Str) : Nat := o.mod.toNat / 4

/-- MEM.i: base, index and displacement (R169). -/
def memI (o : Q4) : Bool := o.h.ok && o.a.srcOk && o.b.srcOk && o.c.srcOk
/-- MEM.w. -/
def memW (o : I28) : Bool := o.h.ok && o.a.srcOk
/-- Atomics: operand registers must follow D (R275, R408); k operands. -/
def amoOk (o : Q4) (k : Nat) : Bool :=
  memI o && valTag o.h o.d && o.d.dstOk && (if o.d.level = 0 then decide (o.d.ix + k < 64) else decide (o.d.ix + k < 16))
/-- M ops that never allocate a tag (R259). -/
def mNoTag (o : Str) : Bool := noTag o.h
/-- An mm with two tile items is fixed-latency and names no tag (R259, R399). -/
def mmTag (o : Str) : Bool := o.h.ok && (decide (o.h.ta = 0) || o.a.streamOk || o.b.streamOk)
/-- sred qualifiers: level 0b11, TYPE .f32, .s32 or .z32, OP 0 to 2, bits 5:0 zero (R308). -/
def sredQ (o : Q4) : Bool :=
  decide (o.c.level = 3) && (decide (qType o = 0) || decide (qType o = 5) || decide (qType o = 9)) && decide (qRm o < 3)
    && decide (o.c.ix % 64 = 0)

/-- An instruction's op word keeps every rule that the op word alone decides; an event has no op word. -/
def wellFormed : Instr → Bool
  | .add o => wfS3 o
  | .sub o => wfS3 o
  | .addi o => noTag o.h && o.d.dstOk && o.a.srcOk
  | .mul o => wfS3 o
  | .mulhS o => wfS3 o
  | .mulhZ o => wfS3 o
  | .divS o => wfS3 o
  | .divZ o => wfS3 o
  | .remS o => wfS3 o
  | .remZ o => wfS3 o
  | .and o => wfS3 o
  | .or o => wfS3 o
  | .xor o => wfS3 o
  | .andn o => wfS3 o
  | .shl o => wfS3 o
  | .shr o => wfS3 o
  | .sar o => wfS3 o
  | .rotr o => wfS3 o
  | .minS o => wfS3 o
  | .minZ o => wfS3 o
  | .maxS o => wfS3 o
  | .maxZ o => wfS3 o
  | .clz o => wfS2 o
  | .popc o => wfS2 o
  | .sext o => wfS3 o
  | .zext o => wfS3 o
  | .li o => noTag o.h && o.d.dstOk
  | .lea o => wfS3 o && o.c.srcOk
  | .sel o => wfS3 o && o.c.predOk
  | .pcmp o => noTag o.h && o.d.predOk && o.a.srcOk && o.b.srcOk && decide (o.c.level = 3) && decide (o.c.ix % 16 < 10)
  | .pcmpi o => noTag o.h && o.d.predOk && o.a.srcOk && decide (o.imm.toNat / 2 ^ 24 < 10)
  | .pand o => wfP3 o
  | .por o => wfP3 o
  | .pxor o => wfP3 o
  | .pnot o => noTag o.h && o.d.predOk && o.a.predOk
  | .pmovToPred o => noTag o.h && o.d.predOk && o.a.srcOk && decide (o.c = ⟨3, 0⟩)
  | .pmovFromPred o => noTag o.h && o.d.dstOk && o.a.predOk && decide (o.c = ⟨3, 1⟩)
  | .br o => noTag o.h && decide (o.d = ⟨0, 0⟩)
  | .jmp o => noTag o.h && decide (o.d = ⟨0, 0⟩)
  | .jr o => noTag o.h && o.a.srcOk
  | .call o => noTag o.h && o.d.dstOk
  | .ret o => noTag o.h && o.a.srcOk
  | .lnest o => noTag o.h && o.a.srcOk && o.b.srcOk && o.c.srcOk
  | .lbrk o => wfSys0 o
  | .trap o => noTag o.h
  | .tret o => wfSys0 o
  | .tretSkip o => noTag o.h && decide (o.sys = 1)
  | .rstart o => wfSys0 o
  | .crr o => noTag o.h && o.d.dstOk && decide (o.sys.toNat < 4096) && crAssigned o.sys.toNat
  | .crw o => noTag o.h && o.a.srcOk && decide (o.sys.toNat < 4096) && crAssigned o.sys.toNat
  | .svcMap o => noTag o.h && o.d.dstOk && decide (o.sys = 0x2000001)
  | .svcUnmap o => noTag o.h && o.d.dstOk && decide (o.sys = 0x2000002)
  | .svcProtect o => noTag o.h && o.d.dstOk && decide (o.sys = 0x2000003)
  | .svcReport o => noTag o.h && o.d.dstOk && decide (o.sys = 0x3000001)
  | .yield o => wfSys0 o
  | .await o => wfSys0 o && o.a.srcOk
  | .done o => wfSys0 o && o.a.srcOk
  | .park o => wfSys0 o
  | .spawn o => wfSys0 o && o.d.dstOk && o.a.srcOk
  | .halt o => wfSys0 o
  | .nswOn o => wfSys0 o
  | .nswOff o => wfSys0 o
  | .dim o => wfSys0 o
  | .vadd _ o => wfV3 o (vqArith o)
  | .vsub _ o => wfV3 o (vqArith o)
  | .vmul _ o => wfV3 o (vqArith o)
  | .vmin _ o => wfV3 o (vqFI o (decide (qSub o = 0)))
  | .vmax _ o => wfV3 o (vqFI o (decide (qSub o = 0)))
  | .vabs _ o => wfV2 o (vqFS o)
  | .vneg _ o => wfV2 o (vqFS o)
  | .vmulh _ o => wfV3 o (vqI o)
  | .vadds _ o => wfV3 o (vqI o)
  | .vsubs _ o => wfV3 o (vqI o)
  | .vfmaF32 _ o => wfV4 o
  | .vfmaF16 _ o => wfV4 o
  | .vfmaBf16 _ o => wfV4 o
  | .vfmsF32 _ o => wfV4 o
  | .vfmsF16 _ o => wfV4 o
  | .vfmsBf16 _ o => wfV4 o
  | .vfnmaF32 _ o => wfV4 o
  | .vfnmaF16 _ o => wfV4 o
  | .vfnmaBf16 _ o => wfV4 o
  | .vclampF32 _ o => wfV4 o
  | .vclampS32 _ o => wfV4 o
  | .vclampZ32 _ o => wfV4 o
  | .vrcp _ o => wfV2 o (vqFn o)
  | .vrsqrt _ o => wfV2 o (vqFn o)
  | .vsqrt _ o => wfV2 o (vqFn o)
  | .vexp2 _ o => wfV2 o (vqFn o)
  | .vlog2 _ o => wfV2 o (vqFn o)
  | .vcmp _ o => wfV3 o (vqFI o (decide (qSub o < 6) || (decide (qSub o < 8) && tyF (qType o))))
  | .vsel _ o => wfV3 o (vqNone o (decide (qSub o ≤ 11)))
  | .vmovpAny _ o => vqNone o (decide (qSub o = 0)) && o.d.predOk && o.a.vsrcOk
  | .vmovpAll _ o => vqNone o (decide (qSub o = 1)) && o.d.predOk && o.a.vsrcOk
  | .vmovpV _ o => vqNone o (decide (qSub o = 2)) && o.d.vdstOk 1 && o.a.predOk
  | .vtst _ o => vqAny o (decide (qSub o ≤ 5)) && o.d.predOk && o.a.vsrcOk
  | .vtstSum _ o => noTag o.h && decide (o.c.level = 3) && tyAny (qType o) && decide (qRm o = 0) && !qOvf o && qSum o && decide (qSub o = 0) && o.d.vdstOk 1 && o.a.vsrcOk
  | .vand _ o => wfV3 o (vqNone o (decide (qSub o = 0)))
  | .vor _ o => wfV3 o (vqNone o (decide (qSub o = 0)))
  | .vxor _ o => wfV3 o (vqNone o (decide (qSub o = 0)))
  | .vnot _ o => wfV2 o (vqNone o (decide (qSub o = 0)))
  | .vshl _ o => wfV3 o (vqI o)
  | .vshr _ o => wfV3 o (vqI o)
  | .vsar _ o => wfV3 o (vqI o)
  | .vcvt _ o => vqOk o (tyAny (qType o)) true (decide (qType o = 4)) (tyAny (qSub o)) && o.d.vdstOk (cvtDstG o) && o.a.grpOk (cvtSrcG o)
  | .vquant _ o => vqOk o (decide (5 ≤ qType o ∧ qType o ≤ 12)) (decide (qType o ≠ 12)) false (decide (qSub o < 8)) && o.d.vdstOk 1 && o.a.grpOk (8 / size2 (qType o)) && o.b.vsrcOk
  | .vpack _ o => wfV3 o (vqAny o (decide (qSub o < 2)))
  | .vunpack _ o => wfV3 o (vqAny o (decide (qSub o < 2)))
  | .vbcast _ o => wfV3 o (vqAny o (decide (qSub o = 0)))
  | .vshuf _ o => wfV3 o (vqAny o (decide (qSub o = 0)) && decide (qType o ≠ 8))
  | .vrot _ o => wfV3 o (vqAny o (decide (qSub o = 0)))
  | .vidx _ o => wfV3 o (vqI o)
  | .vredadd _ o => noTag o.h && (decide (o.ty < 3) || decide (o.ty = 5) || decide (o.ty = 9)) && decide (o.m % 2 = 0) && o.d.vdstOk 1 && o.a.grpOk o.n && (decide (o.m / 2 % 2 = 0) || o.b.vsrcOk)
  | .vredmax _ o => noTag o.h && (decide (o.ty = 0) || ((decide (o.ty = 5) || decide (o.ty = 9)) && decide (o.m % 4 = 0))) && o.d.vdstOk 1 && o.a.grpOk o.n
  | .vredmin _ o => noTag o.h && (decide (o.ty = 0) || ((decide (o.ty = 5) || decide (o.ty = 9)) && decide (o.m % 4 = 0))) && o.d.vdstOk 1 && o.a.grpOk o.n
  | .vscan _ o => noTag o.h && (decide (o.ty = 0) || decide (o.ty = 5) || decide (o.ty = 9)) && decide (o.m % 4 ≠ 3) && o.d.vdstOk o.n && o.a.grpOk o.n && o.b.vsrcOk
  | .vcpush _ o => vqNone o (decide (qSub o < 2)) && o.d.predOk && o.a.vsrcOk
  | .vcpop _ o => vqNone o (decide (qSub o < 2)) && o.d.vdstOk 1
  | .vcbal _ o => noTag o.h && decide (o.m < 2) && o.d.predOk
  | .mm o => mmTag o && decide (o.m < 2) && o.d.itemOk && o.a.msrcOk && o.b.msrcOk
  | .mmz o => mmTag o && decide (o.m = 0) && o.d.itemOk && o.a.msrcOk && o.b.msrcOk
  | .mzero o => mNoTag o && decide (o.n ≤ 16) && decide (o.m = 0) && o.d.itemOk
  | .mldt o => o.h.ok && decide (o.n ≤ 32) && decide (o.m = 0) && o.d.itemOk && o.a.streamOk
  | .msdt o => mNoTag o && decide (o.n ≤ 32) && decide (o.m < 16) && o.d.streamOk && o.a.itemOk && (decide (o.m < 8) || (decide (o.b.level = 2) && latchOk o.b.ix))
  | .mtr o => mNoTag o && decide (o.m = 0) && o.d.itemOk && o.a.itemOk
  | .macc o => mNoTag o && decide (o.n = 4) && decide (o.m = 0) && o.d.itemOk && o.a.itemOk && o.b.itemOk
  | .mcvt o => mNoTag o && decide (o.n = 4) && decide (o.m < 8) && o.d.itemOk && o.a.itemOk
  | .mscal o => mNoTag o && decide (o.n = 4) && decide (o.m = 0) && o.d.itemOk && o.a.itemOk && (decide (o.b.level = 3) || (decide (o.b.level = 2) && latchOk o.b.ix))
  | .ldS8I o => memI o && o.d.dstOk
  | .ldS8W o => memW o && o.d.dstOk
  | .ldZ8I o => memI o && o.d.dstOk
  | .ldZ8W o => memW o && o.d.dstOk
  | .ldS16I o => memI o && o.d.dstOk
  | .ldS16W o => memW o && o.d.dstOk
  | .ldZ16I o => memI o && o.d.dstOk
  | .ldZ16W o => memW o && o.d.dstOk
  | .ldS32I o => memI o && o.d.dstOk
  | .ldS32W o => memW o && o.d.dstOk
  | .ldZ32I o => memI o && o.d.dstOk
  | .ldZ32W o => memW o && o.d.dstOk
  | .ld64I o => memI o && o.d.dstOk
  | .ld64W o => memW o && o.d.dstOk
  | .st8I o => memI o && o.d.dstOk
  | .st8W o => memW o && o.d.dstOk
  | .st16I o => memI o && o.d.dstOk
  | .st16W o => memW o && o.d.dstOk
  | .st32I o => memI o && o.d.dstOk
  | .st32W o => memW o && o.d.dstOk
  | .st64I o => memI o && o.d.dstOk
  | .st64W o => memW o && o.d.dstOk
  | .vldI o => memI o && o.d.vregOk
  | .vldW o => memW o && o.d.vregOk
  | .vstI o => memI o && o.d.vregOk
  | .vstW o => memW o && o.d.vregOk
  | .vstSumI o => memI o && o.d.vregOk
  | .vstSumW o => memW o && o.d.vregOk
  | .ldAcq32 o => memI o && o.d.dstOk && decide (o.h.ta ≠ 0)
  | .ldAcq64 o => memI o && o.d.dstOk && decide (o.h.ta ≠ 0)
  | .stRel32 o => memI o && o.d.dstOk
  | .stRel64 o => memI o && o.d.dstOk
  | .ldfeKeep o => memI o && o.d.dstOk && decide (o.h.ta ≠ 0)
  | .ldfeTake o => memI o && o.d.dstOk && decide (o.h.ta ≠ 0)
  | .stfeFill o => memI o && o.d.dstOk
  | .fechk o => memI o && o.d.dstOk
  | .feset o => memI o
  | .feclr o => memI o
  | .fenceC o => o.h.ok && decide (o.sys = 0) && decide (o.d = ⟨0, 0⟩) && decide (o.a = ⟨0, 0⟩)
  | .fenceD o => o.h.ok && decide (o.sys = 0) && decide (o.d = ⟨0, 0⟩) && decide (o.a = ⟨0, 0⟩)
  | .fenceG o => o.h.ok && decide (o.sys = 0) && decide (o.d = ⟨0, 0⟩) && decide (o.a = ⟨0, 0⟩)
  | .amoAdd32 o => amoOk o 1
  | .amoAnd32 o => amoOk o 1
  | .amoOr32 o => amoOk o 1
  | .amoXor32 o => amoOk o 1
  | .amoMaxS32 o => amoOk o 1
  | .amoMaxZ32 o => amoOk o 1
  | .amoMinS32 o => amoOk o 1
  | .amoMinZ32 o => amoOk o 1
  | .amoSwap32 o => amoOk o 1
  | .cas32 o => amoOk o 2
  | .amoFaddF32 o => amoOk o 1
  | .amoFaddBf16 o => amoOk o 1
  | .amoFmaxF32 o => amoOk o 1
  | .amoAdd64 o => amoOk o 1
  | .amoAnd64 o => amoOk o 1
  | .amoOr64 o => amoOk o 1
  | .amoXor64 o => amoOk o 1
  | .amoMaxS64 o => amoOk o 1
  | .amoMaxZ64 o => amoOk o 1
  | .amoMinS64 o => amoOk o 1
  | .amoMinZ64 o => amoOk o 1
  | .amoSwap64 o => amoOk o 1
  | .cas64 o => amoOk o 2
  | .ldt o => o.h.ok && decide (o.n = 1) && decide (o.m = 0) && o.d.itemOk && o.a.streamOk
  | .vldt o => o.h.ok && decide (o.m = 0) && decide (o.d.level = 0) && o.d.vdstOk o.n && o.a.streamOk
  | .sdef o => o.h.ok && decide (o.n = 1) && decide (o.m = 0) && o.d.streamOk && o.a.srcOk
  | .ssetBase o => o.h.ok && decide (o.n = 1) && decide (o.m = 0) && o.d.streamOk && o.a.srcOk
  | .ssetSpace o => o.h.ok && decide (o.n = 1) && decide (o.m = 1) && o.d.streamOk && o.a.srcOk
  | .ssetRstride o => o.h.ok && decide (o.n = 1) && decide (o.m = 2) && o.d.streamOk && o.a.srcOk
  | .ssetCtl o => o.h.ok && decide (o.n = 1) && decide (o.m = 3) && o.d.streamOk && o.a.srcOk
  | .ssetSbase o => o.h.ok && decide (o.n = 1) && decide (o.m = 4) && o.d.streamOk && o.a.srcOk
  | .ssetSstride o => o.h.ok && decide (o.n = 1) && decide (o.m = 5) && o.d.streamOk && o.a.srcOk
  | .sadv o => o.h.ok && decide (o.n = 1) && decide (o.m = 0) && o.d.streamOk && o.a.srcOk && o.b.srcOk
  | .fbind o => memI o && o.d.fifoOk
  | .fpush o => o.h.ok && o.d.fifoOk && o.a.vsrcOk
  | .fpop o => o.h.ok && o.d.vdstOk 1 && o.a.fifoOk
  | .stm64 o => memI o && o.d.dstOk
  | .stmV o => memI o && o.d.vregOk
  | .cpy o => memI o && valTag o.h o.d && o.d.dstOk
  | .cpyr o => memI o && valTag o.h o.d && o.d.dstOk
  | .coll o => memI o && valTag o.h o.d && o.d.dstOk
  | .binit o => o.h.ok && o.a.srcOk && o.b.srcOk
  | .bexp o => o.h.ok && o.a.srcOk && o.b.srcOk
  | .barr o => o.h.ok && o.a.srcOk && o.b.srcOk
  | .bwait o => valTag o.h o.d && o.d.dstOk && o.a.srcOk && o.b.srcOk
  | .sred o => valTag o.h o.d && o.d.dstOk && o.a.srcOk && o.b.srcOk && sredQ o
  | .ifill o => memI o && o.d.dstOk
  | .pref o => memI o && o.d.dstOk
  | .trig o => valTag o.h o.d && o.d.dstOk && o.a.srcOk && o.b.srcOk && o.c.srcOk
  | .sig o => o.h.ok && o.a.srcOk && o.b.srcOk
  | .wdraw o => valTag o.h o.d && o.d.dstOk && o.a.srcOk
  | .jobq o => valTag o.h o.d && o.d.dstOk && o.a.srcOk
  | .heat o => valTag o.h o.d && o.d.dstOk && o.a.srcOk
  | .mig o => valTag o.h o.d && o.d.dstOk && o.a.srcOk && o.b.srcOk
  | .bundleIssue => true
  | .resultWriteback => true
  | .taggedResultLand => true
  | .timingTrap => true
  | .deferredFaultFound => true
  | .trapEntry => true
  | .abortedWrite => true
  | .nswWindowExceeded => true
  | .nswWindowKill => true
  | .clockGate => true
  | .powerGate => true
  | .hangtExpiry => true
  | .panePlacement => true
  | .taskDispatch => true
  | .granuleSequenceEnd => true
  | .translationWalkEnd => true
  | .reductionDrain => true
  | .heatDecay => true
  | .migrationRequest => true
  | .migrationHoldTimeout => true
  | .eccError => true
  | .hbmScrub => true
  | .vaultScrub => true
  | .retirementRecordRetry => true
  | .translationInvalidate => true
  | .inval => true
  | .slotQuantumEnd => true
  | .snuff => true
  | .countLatch => true
  | .refuse => true
  | .count => true
  | .sumreq => true
  | .drainDeadline => true
  | .hold => true
  | .held => true
  | .abort => true
  | .backoffEnd => true
  | .relight => true
  | .lit => true
  | .votePartyTimeout => true
  | .collapseRequest => true
  | .idleTimeout => true
  | .collapseWork => true
  | .strike => true
  | .wakeLate => true
  | .beaconTimer => true
  | .beacon => true
  | .stampWaitApply => true
  | .stampWaitTimeout => true
  | .switchPacketForward => true
  | .writePacket => true
  | .readPacket => true
  | .rdresp => true
  | .atomicPacket => true
  | .atresp => true
  | .ackPacket => true
  | .feop => true
  | .fifoPacket => true
  | .cdata => true
  | .demand => true
  | .sredPacket => true
  | .sres => true
  | .cflush => true
  | .tkreq => true
  | .tkcall => true
  | .bartok => true
  | .rateLimitRise => true
  | .ticketWindowEnd => true
  | .ticketCall => true
  | .retransmitTimeout => true
  | .linkTraining => true
  | .laneDetectTimeout => true
  | .laneFailure => true
  | .bufferBankError => true
  | .switchHeartbeatLoss => true
  | .switchTakeover => true
  | .jobActivate => true
  | .chunkIssue => true
  | .chunkBoundary => true
  | .jobOutFill => true
  | .jobBarrierArrival => true
  | .jobSignalWrite => true
  | .triggerFire => true
  | .fifoOutTransfer => true
  | .fifoLoadFetch => true
  | .stepEnd => true
  | .stepSend => true
  | .stepRecv => true
  | .stepRrs => true
  | .stepRrd => true
  | .stepCopy => true
  | .stepWait => true
  | .stepSignal => true
  | .stepLoop => true
  | .stepEndl => true
  | .stepPeer => true
  | .stepBar => true
  | .collectiveAbortNotice => true
  | .reductionSlotDeadline => true
  | .slotLingerEnd => true
  | .launchPacket => true
  | .tasksPacket => true
  | .copyPacket => true
  | .fencePacket => true
  | .fenceCounterPoll => true
  | .signalPacket => true
  | .strikePacket => true
  | .dimPacket => true
  | .barrierPacket => true
  | .nopPacket => true
  | .packetCompletion => true
  | .queueDoorbell => true
  | .queuePoll => true
  | .vdCreate => true
  | .vdReset => true
  | .vdDestroy => true
  | .vaultload => true
  | .scheduleChange => true
  | .liveMigration => true
  | .stubForward => true
  | .stubExpiry => true
  | .endpointCreate => true
  | .endpointSetupTimeout => true
  | .ethPortSplit => true
  | .ethWrite => true
  | .ethRead => true
  | .ethRddata => true
  | .ethAck => true
  | .ethNote => true
  | .ethEcho => true
  | .ethSetup => true
  | .ethKeep => true
  | .ethBusy => true
  | .ethKeepaliveTimer => true
  | .ethAckTimer => true
  | .ethRetransmitTimeout => true
  | .ethRateRise => true
  | .powerOnReset => true
  | .recoveryImage => true
  | .wickUpdate => true
  | .wickUpdateTimeout => true
  | .managementDieTakeover => true
  | .coreColumnRepair => true
  | .dieReplacement => true
  | .powerSample => true
  | .dutyRaise => true
  | .junctionOvertemp => true
  | .coolantAlarm => true
  | .thermalStop => true
  | .telemetrySample => true
  | .outsidePortTimeout => true
  | .outsidePortLost => true
  | .securityViolation => true
  | .unfreezeRequest => true
  | .attestation => true
  | .svcReply => true
  | .migrationComplete => true
  | .hostPortAccess => true
  | .powerLoss => true
  | .junctionCooled => true
  | .pairRekey => true

end Sys2Proof
end

