-- ==== Sys2Proof/Decode.lean ====
section
/-!
DEFINITION. Decode.lean: op words and bundles read into instructions (R163 to R189), total on any bits and rejecting by name,
and after it the encoder, written from the same maps.  An op word is a number below 2^80, a bundle a number below 2^512.
-/
namespace Sys2Proof

/-- Why an op word stands for no instruction. -/
inductive DecodeError where
  /-- An unassigned OPC (R401): cause 0x02. -/
  | unassigned
  /-- A sub-encoding that selects no op (pmov C, vmovp SUB, sset MOD): cause 0x03. -/
  | illegal
  /-- A service number R210 does not list: cause 0x13, refusal code 0x1 (R403, R405). -/
  | notOffered
  deriving DecidableEq, Repr

/-- OPC, bits 79:73 (R166). -/
def opcOf (w : Nat) : Nat := w / 2 ^ 73 % 128

/-- Predicate and tag fields, bits 72:56 (R166). -/
def headOf (w : Nat) : Head :=
  ⟨bitN w 72, BitVec.ofNat 4 (w / 2 ^ 68), BitVec.ofNat 4 (w / 2 ^ 64), BitVec.ofNat 4 (w / 2 ^ 60), BitVec.ofNat 4 (w / 2 ^ 56)⟩

/-- A 14-bit operand field standing at the low end of a number (R153). -/
def operandOf (w : Nat) : Operand := ⟨BitVec.ofNat 2 (w / 2 ^ 12), BitVec.ofNat 12 w⟩

/-- Fields of the formats of R169. -/
def q4Of (w : Nat) : Q4 := ⟨headOf w, operandOf (w / 2 ^ 42), operandOf (w / 2 ^ 28), operandOf (w / 2 ^ 14), operandOf w⟩
@[inherit_doc q4Of] def i28Of (w : Nat) : I28 := ⟨headOf w, operandOf (w / 2 ^ 42), operandOf (w / 2 ^ 28), BitVec.ofNat 28 w⟩
@[inherit_doc q4Of] def i42Of (w : Nat) : I42 := ⟨headOf w, operandOf (w / 2 ^ 42), BitVec.ofNat 42 w⟩
@[inherit_doc q4Of] def strOf (w : Nat) : Str :=
  ⟨headOf w, operandOf (w / 2 ^ 42), operandOf (w / 2 ^ 28), operandOf (w / 2 ^ 14), BitVec.ofNat 8 (w / 2 ^ 6), BitVec.ofNat 6 w⟩
@[inherit_doc q4Of] def sysOf (w : Nat) : Sys := ⟨headOf w, operandOf (w / 2 ^ 42), operandOf (w / 2 ^ 28), BitVec.ofNat 28 w⟩

/-- pmov (R195): C at level 0b11 holding 0 or 1 selects the direction. -/
def decodePmov (w : Nat) : Except DecodeError Instr :=
  if (q4Of w).c = ⟨3, 0⟩ then .ok (.pmovToPred (q4Of w))
  else if (q4Of w).c = ⟨3, 1⟩ then .ok (.pmovFromPred (q4Of w))
  else .error .illegal

/-- tret (R201): system-field bit 0 is SKIP. -/
def decodeTret (w : Nat) : Except DecodeError Instr :=
  if w % 2 = 1 then .ok (.tretSkip (sysOf w)) else .ok (.tret (sysOf w))

/-- svc (R209, R210): the service number selects the function. -/
def decodeSvc (w : Nat) : Except DecodeError Instr :=
  if (sysOf w).sys = 0x2000001 then .ok (.svcMap (sysOf w))
  else if (sysOf w).sys = 0x2000002 then .ok (.svcUnmap (sysOf w))
  else if (sysOf w).sys = 0x2000003 then .ok (.svcProtect (sysOf w))
  else if (sysOf w).sys = 0x3000001 then .ok (.svcReport (sysOf w))
  else .error .notOffered

/-- vmovp (R230): SUB selects the form. -/
def decodeVmovp (u : VUnit) (w : Nat) : Except DecodeError Instr :=
  if w % 16 = 0 then .ok (.vmovpAny u (q4Of w))
  else if w % 16 = 1 then .ok (.vmovpAll u (q4Of w))
  else if w % 16 = 2 then .ok (.vmovpV u (q4Of w))
  else .error .illegal

/-- vtst (R231, R232): SUM selects the summary form. -/
def decodeVtst (u : VUnit) (w : Nat) : Except DecodeError Instr :=
  if w / 16 % 2 = 1 then .ok (.vtstSum u (q4Of w)) else .ok (.vtst u (q4Of w))

/-- sset (R280): MOD selects the field. -/
def decodeSset (w : Nat) : Except DecodeError Instr :=
  if (strOf w).mod = 0 then .ok (.ssetBase (strOf w))
  else if (strOf w).mod = 1 then .ok (.ssetSpace (strOf w))
  else if (strOf w).mod = 2 then .ok (.ssetRstride (strOf w))
  else if (strOf w).mod = 3 then .ok (.ssetCtl (strOf w))
  else if (strOf w).mod = 4 then .ok (.ssetSbase (strOf w))
  else if (strOf w).mod = 5 then .ok (.ssetSstride (strOf w))
  else .error .illegal

/-- The S map (R185): the op an op word of that slot class stands for. -/
def decodeS (w : Nat) : Except DecodeError Instr :=
  match opcOf w with
  | 0x01 => .ok (.add (q4Of w))
  | 0x02 => .ok (.sub (q4Of w))
  | 0x03 => .ok (.addi (i28Of w))
  | 0x04 => .ok (.mul (q4Of w))
  | 0x05 => .ok (.mulhS (q4Of w))
  | 0x06 => .ok (.mulhZ (q4Of w))
  | 0x07 => .ok (.divS (q4Of w))
  | 0x08 => .ok (.divZ (q4Of w))
  | 0x09 => .ok (.remS (q4Of w))
  | 0x0A => .ok (.remZ (q4Of w))
  | 0x10 => .ok (.and (q4Of w))
  | 0x11 => .ok (.or (q4Of w))
  | 0x12 => .ok (.xor (q4Of w))
  | 0x13 => .ok (.andn (q4Of w))
  | 0x14 => .ok (.shl (q4Of w))
  | 0x15 => .ok (.shr (q4Of w))
  | 0x16 => .ok (.sar (q4Of w))
  | 0x17 => .ok (.rotr (q4Of w))
  | 0x18 => .ok (.minS (q4Of w))
  | 0x19 => .ok (.minZ (q4Of w))
  | 0x1A => .ok (.maxS (q4Of w))
  | 0x1B => .ok (.maxZ (q4Of w))
  | 0x1C => .ok (.clz (q4Of w))
  | 0x1D => .ok (.popc (q4Of w))
  | 0x20 => .ok (.sext (q4Of w))
  | 0x21 => .ok (.zext (q4Of w))
  | 0x22 => .ok (.li (i42Of w))
  | 0x23 => .ok (.lea (q4Of w))
  | 0x24 => .ok (.sel (q4Of w))
  | 0x28 => .ok (.pcmp (q4Of w))
  | 0x29 => .ok (.pcmpi (i28Of w))
  | 0x2A => .ok (.pand (q4Of w))
  | 0x2B => .ok (.por (q4Of w))
  | 0x2C => .ok (.pxor (q4Of w))
  | 0x2D => .ok (.pnot (q4Of w))
  | 0x2E => decodePmov w
  | 0x30 => .ok (.br (i42Of w))
  | 0x31 => .ok (.jmp (i42Of w))
  | 0x32 => .ok (.jr (q4Of w))
  | 0x33 => .ok (.call (i42Of w))
  | 0x34 => .ok (.ret (q4Of w))
  | 0x38 => .ok (.lnest (q4Of w))
  | 0x39 => .ok (.lbrk (sysOf w))
  | 0x40 => .ok (.trap (sysOf w))
  | 0x41 => decodeTret w
  | 0x42 => .ok (.rstart (sysOf w))
  | 0x44 => .ok (.crr (sysOf w))
  | 0x45 => .ok (.crw (sysOf w))
  | 0x46 => decodeSvc w
  | 0x48 => .ok (.yield (sysOf w))
  | 0x49 => .ok (.await (sysOf w))
  | 0x4A => .ok (.done (sysOf w))
  | 0x4B => .ok (.park (sysOf w))
  | 0x4C => .ok (.spawn (sysOf w))
  | 0x4D => .ok (.halt (sysOf w))
  | 0x50 => .ok (.nswOn (sysOf w))
  | 0x51 => .ok (.nswOff (sysOf w))
  | 0x52 => .ok (.dim (sysOf w))
  | _ => .error .unassigned

/-- The V map (R186): the op an op word of that slot class stands for. -/
def decodeV (u : VUnit) (w : Nat) : Except DecodeError Instr :=
  match opcOf w with
  | 0x01 => .ok (.vadd u (q4Of w))
  | 0x02 => .ok (.vsub u (q4Of w))
  | 0x03 => .ok (.vmul u (q4Of w))
  | 0x04 => .ok (.vmin u (q4Of w))
  | 0x05 => .ok (.vmax u (q4Of w))
  | 0x06 => .ok (.vabs u (q4Of w))
  | 0x07 => .ok (.vneg u (q4Of w))
  | 0x30 => .ok (.vmulh u (q4Of w))
  | 0x31 => .ok (.vadds u (q4Of w))
  | 0x32 => .ok (.vsubs u (q4Of w))
  | 0x08 => .ok (.vfmaF32 u (q4Of w))
  | 0x09 => .ok (.vfmaF16 u (q4Of w))
  | 0x0A => .ok (.vfmaBf16 u (q4Of w))
  | 0x0B => .ok (.vfmsF32 u (q4Of w))
  | 0x0C => .ok (.vfmsF16 u (q4Of w))
  | 0x0D => .ok (.vfmsBf16 u (q4Of w))
  | 0x0E => .ok (.vfnmaF32 u (q4Of w))
  | 0x0F => .ok (.vfnmaF16 u (q4Of w))
  | 0x10 => .ok (.vfnmaBf16 u (q4Of w))
  | 0x11 => .ok (.vclampF32 u (q4Of w))
  | 0x12 => .ok (.vclampS32 u (q4Of w))
  | 0x13 => .ok (.vclampZ32 u (q4Of w))
  | 0x18 => .ok (.vrcp u (q4Of w))
  | 0x19 => .ok (.vrsqrt u (q4Of w))
  | 0x1A => .ok (.vsqrt u (q4Of w))
  | 0x1B => .ok (.vexp2 u (q4Of w))
  | 0x1C => .ok (.vlog2 u (q4Of w))
  | 0x20 => .ok (.vcmp u (q4Of w))
  | 0x21 => .ok (.vsel u (q4Of w))
  | 0x23 => decodeVmovp u w
  | 0x22 => decodeVtst u w
  | 0x28 => .ok (.vand u (q4Of w))
  | 0x29 => .ok (.vor u (q4Of w))
  | 0x2A => .ok (.vxor u (q4Of w))
  | 0x2B => .ok (.vnot u (q4Of w))
  | 0x2C => .ok (.vshl u (q4Of w))
  | 0x2D => .ok (.vshr u (q4Of w))
  | 0x2E => .ok (.vsar u (q4Of w))
  | 0x38 => .ok (.vcvt u (q4Of w))
  | 0x39 => .ok (.vquant u (q4Of w))
  | 0x3A => .ok (.vpack u (q4Of w))
  | 0x3B => .ok (.vunpack u (q4Of w))
  | 0x40 => .ok (.vbcast u (q4Of w))
  | 0x41 => .ok (.vshuf u (q4Of w))
  | 0x42 => .ok (.vrot u (q4Of w))
  | 0x43 => .ok (.vidx u (q4Of w))
  | 0x48 => .ok (.vredadd u (strOf w))
  | 0x49 => .ok (.vredmax u (strOf w))
  | 0x4A => .ok (.vredmin u (strOf w))
  | 0x4B => .ok (.vscan u (strOf w))
  | 0x50 => .ok (.vcpush u (q4Of w))
  | 0x51 => .ok (.vcpop u (q4Of w))
  | 0x52 => .ok (.vcbal u (strOf w))
  | _ => .error .unassigned

/-- The M map (R187): the op an op word of that slot class stands for. -/
def decodeM (w : Nat) : Except DecodeError Instr :=
  match opcOf w with
  | 0x01 => .ok (.mm (strOf w))
  | 0x02 => .ok (.mmz (strOf w))
  | 0x03 => .ok (.mzero (strOf w))
  | 0x04 => .ok (.mldt (strOf w))
  | 0x05 => .ok (.msdt (strOf w))
  | 0x06 => .ok (.mtr (strOf w))
  | 0x07 => .ok (.macc (strOf w))
  | 0x08 => .ok (.mcvt (strOf w))
  | 0x09 => .ok (.mscal (strOf w))
  | _ => .error .unassigned

/-- The L map (R188): the op an op word of that slot class stands for. -/
def decodeL (w : Nat) : Except DecodeError Instr :=
  match opcOf w with
  | 0x01 => .ok (.ldS8I (q4Of w))
  | 0x41 => .ok (.ldS8W (i28Of w))
  | 0x02 => .ok (.ldZ8I (q4Of w))
  | 0x42 => .ok (.ldZ8W (i28Of w))
  | 0x03 => .ok (.ldS16I (q4Of w))
  | 0x43 => .ok (.ldS16W (i28Of w))
  | 0x04 => .ok (.ldZ16I (q4Of w))
  | 0x44 => .ok (.ldZ16W (i28Of w))
  | 0x05 => .ok (.ldS32I (q4Of w))
  | 0x45 => .ok (.ldS32W (i28Of w))
  | 0x06 => .ok (.ldZ32I (q4Of w))
  | 0x46 => .ok (.ldZ32W (i28Of w))
  | 0x07 => .ok (.ld64I (q4Of w))
  | 0x47 => .ok (.ld64W (i28Of w))
  | 0x08 => .ok (.st8I (q4Of w))
  | 0x48 => .ok (.st8W (i28Of w))
  | 0x09 => .ok (.st16I (q4Of w))
  | 0x49 => .ok (.st16W (i28Of w))
  | 0x0A => .ok (.st32I (q4Of w))
  | 0x4A => .ok (.st32W (i28Of w))
  | 0x0B => .ok (.st64I (q4Of w))
  | 0x4B => .ok (.st64W (i28Of w))
  | 0x0C => .ok (.vldI (q4Of w))
  | 0x4C => .ok (.vldW (i28Of w))
  | 0x0D => .ok (.vstI (q4Of w))
  | 0x4D => .ok (.vstW (i28Of w))
  | 0x0E => .ok (.vstSumI (q4Of w))
  | 0x4E => .ok (.vstSumW (i28Of w))
  | 0x10 => .ok (.ldAcq32 (q4Of w))
  | 0x11 => .ok (.ldAcq64 (q4Of w))
  | 0x12 => .ok (.stRel32 (q4Of w))
  | 0x13 => .ok (.stRel64 (q4Of w))
  | 0x14 => .ok (.ldfeKeep (q4Of w))
  | 0x15 => .ok (.ldfeTake (q4Of w))
  | 0x16 => .ok (.stfeFill (q4Of w))
  | 0x17 => .ok (.fechk (q4Of w))
  | 0x18 => .ok (.feset (q4Of w))
  | 0x19 => .ok (.feclr (q4Of w))
  | 0x1A => .ok (.fenceC (sysOf w))
  | 0x1B => .ok (.fenceD (sysOf w))
  | 0x1C => .ok (.fenceG (sysOf w))
  | 0x20 => .ok (.amoAdd32 (q4Of w))
  | 0x21 => .ok (.amoAnd32 (q4Of w))
  | 0x22 => .ok (.amoOr32 (q4Of w))
  | 0x23 => .ok (.amoXor32 (q4Of w))
  | 0x24 => .ok (.amoMaxS32 (q4Of w))
  | 0x25 => .ok (.amoMaxZ32 (q4Of w))
  | 0x26 => .ok (.amoMinS32 (q4Of w))
  | 0x27 => .ok (.amoMinZ32 (q4Of w))
  | 0x28 => .ok (.amoSwap32 (q4Of w))
  | 0x29 => .ok (.cas32 (q4Of w))
  | 0x2A => .ok (.amoFaddF32 (q4Of w))
  | 0x2B => .ok (.amoFaddBf16 (q4Of w))
  | 0x2C => .ok (.amoFmaxF32 (q4Of w))
  | 0x30 => .ok (.amoAdd64 (q4Of w))
  | 0x31 => .ok (.amoAnd64 (q4Of w))
  | 0x32 => .ok (.amoOr64 (q4Of w))
  | 0x33 => .ok (.amoXor64 (q4Of w))
  | 0x34 => .ok (.amoMaxS64 (q4Of w))
  | 0x35 => .ok (.amoMaxZ64 (q4Of w))
  | 0x36 => .ok (.amoMinS64 (q4Of w))
  | 0x37 => .ok (.amoMinZ64 (q4Of w))
  | 0x38 => .ok (.amoSwap64 (q4Of w))
  | 0x39 => .ok (.cas64 (q4Of w))
  | 0x50 => .ok (.ldt (strOf w))
  | 0x51 => .ok (.vldt (strOf w))
  | 0x52 => .ok (.sdef (strOf w))
  | 0x53 => decodeSset w
  | 0x54 => .ok (.sadv (strOf w))
  | 0x58 => .ok (.fbind (q4Of w))
  | 0x59 => .ok (.fpush (q4Of w))
  | 0x5A => .ok (.fpop (q4Of w))
  | 0x5B => .ok (.stm64 (q4Of w))
  | 0x5C => .ok (.stmV (q4Of w))
  | _ => .error .unassigned

/-- The A map (R189): the op an op word of that slot class stands for. -/
def decodeA (w : Nat) : Except DecodeError Instr :=
  match opcOf w with
  | 0x01 => .ok (.cpy (q4Of w))
  | 0x02 => .ok (.cpyr (q4Of w))
  | 0x03 => .ok (.coll (q4Of w))
  | 0x04 => .ok (.binit (q4Of w))
  | 0x05 => .ok (.bexp (q4Of w))
  | 0x06 => .ok (.barr (q4Of w))
  | 0x07 => .ok (.bwait (q4Of w))
  | 0x08 => .ok (.sred (q4Of w))
  | 0x09 => .ok (.ifill (q4Of w))
  | 0x0A => .ok (.pref (q4Of w))
  | 0x0B => .ok (.trig (q4Of w))
  | 0x0C => .ok (.sig (q4Of w))
  | 0x0D => .ok (.wdraw (q4Of w))
  | 0x0E => .ok (.jobq (q4Of w))
  | 0x0F => .ok (.heat (q4Of w))
  | 0x10 => .ok (.mig (q4Of w))
  | _ => .error .unassigned

/-- The op an op word of a slot stands for. -/
def decodeOp (sl : Slot) (w : Nat) : Except DecodeError Instr :=
  match sl with
  | .S => decodeS w
  | .V0 => decodeV .v0 w
  | .V1 => decodeV .v1 w
  | .M => decodeM w
  | .L => decodeL w
  | .A => decodeA w

/-- Lowest bundle bit of a slot's op word (R163). -/
def Slot.bit : Slot → Nat
  | .S => 32 | .V0 => 112 | .V1 => 192 | .M => 272 | .L => 352 | .A => 432

/-- The header bit that says a slot is present (R164). -/
def Slot.maskBit : Slot → Nat
  | .S => 24 | .V0 => 23 | .V1 => 22 | .M => 21 | .L => 20 | .A => 19

/-- The slots in slot order. -/
def allSlots : List Slot := [.S, .V0, .V1, .M, .L, .A]

/-- A bundle's 32-bit header (R164). -/
def bundleHeader (b : Nat) : Nat := b % 2 ^ 32

/-- The slots a bundle carries, in slot order (R165). -/
def bundleSlots (b : Nat) : List Slot := allSlots.filter (fun sl => bitN b sl.maskBit)

/-- A slot's 80-bit op word (R163). -/
def bundleOpWord (b : Nat) (sl : Slot) : Nat := b / 2 ^ sl.bit % 2 ^ 80

/-- Header fields (R164). -/
def hdrRp (h : Nat) : Bool := bitN h 31
@[inherit_doc hdrRp] def hdrLe (h : Nat) : Bool := bitN h 30
@[inherit_doc hdrRp] def hdrIt (h : Nat) : Nat := h / 2 ^ 28 % 4
@[inherit_doc hdrRp] def hdrLvl (h : Nat) : Nat := h / 2 ^ 25 % 8
@[inherit_doc hdrRp] def hdrIdle (h : Nat) : Nat := h / 2 ^ 8 % 256

/-- Reserved header bits and values (R402, first three rows): cause 0x01. -/
def hdrReserved (h : Nat) : Bool :=
  decide (h / 2 ^ 16 % 8 ≠ 0) || decide (h % 256 ≠ 0) || decide (hdrIt h = 3) || (decide (hdrIt h ≠ 0) && decide (6 ≤ hdrLvl h))

/-- The bits of the head of an op word with an opcode. -/
def headWord (opc : Nat) (h : Head) : Nat :=
  opc * 2 ^ 73 + b2n h.n * 2 ^ 72 + h.p.toNat * 2 ^ 68 + h.ta.toNat * 2 ^ 64 + h.tc0.toNat * 2 ^ 60 + h.tc1.toNat * 2 ^ 56

/-- A 14-bit operand field as a number. -/
def operandWord (o : Operand) : Nat := o.level.toNat * 2 ^ 12 + o.index.toNat

/-- The op words of the formats of R169. -/
def q4Word (opc : Nat) (o : Q4) : Nat :=
  headWord opc o.h + operandWord o.d * 2 ^ 42 + operandWord o.a * 2 ^ 28 + operandWord o.b * 2 ^ 14 + operandWord o.c
@[inherit_doc q4Word] def i28Word (opc : Nat) (o : I28) : Nat :=
  headWord opc o.h + operandWord o.d * 2 ^ 42 + operandWord o.a * 2 ^ 28 + o.imm.toNat
@[inherit_doc q4Word] def i42Word (opc : Nat) (o : I42) : Nat :=
  headWord opc o.h + operandWord o.d * 2 ^ 42 + o.imm.toNat
@[inherit_doc q4Word] def strWord (opc : Nat) (o : Str) : Nat :=
  headWord opc o.h + operandWord o.d * 2 ^ 42 + operandWord o.a * 2 ^ 28 + operandWord o.b * 2 ^ 14 + o.beats.toNat * 2 ^ 6 + o.mod.toNat
@[inherit_doc q4Word] def sysWord (opc : Nat) (o : Sys) : Nat :=
  headWord opc o.h + operandWord o.d * 2 ^ 42 + operandWord o.a * 2 ^ 28 + o.sys.toNat

/-- The encoder: slot and op word of an op (R166 to R189); none for an event, which has no encoding. -/
def encode : Instr → Option (Slot × Nat)
  | .add o => some (.S, q4Word 0x01 o)
  | .sub o => some (.S, q4Word 0x02 o)
  | .addi o => some (.S, i28Word 0x03 o)
  | .mul o => some (.S, q4Word 0x04 o)
  | .mulhS o => some (.S, q4Word 0x05 o)
  | .mulhZ o => some (.S, q4Word 0x06 o)
  | .divS o => some (.S, q4Word 0x07 o)
  | .divZ o => some (.S, q4Word 0x08 o)
  | .remS o => some (.S, q4Word 0x09 o)
  | .remZ o => some (.S, q4Word 0x0A o)
  | .and o => some (.S, q4Word 0x10 o)
  | .or o => some (.S, q4Word 0x11 o)
  | .xor o => some (.S, q4Word 0x12 o)
  | .andn o => some (.S, q4Word 0x13 o)
  | .shl o => some (.S, q4Word 0x14 o)
  | .shr o => some (.S, q4Word 0x15 o)
  | .sar o => some (.S, q4Word 0x16 o)
  | .rotr o => some (.S, q4Word 0x17 o)
  | .minS o => some (.S, q4Word 0x18 o)
  | .minZ o => some (.S, q4Word 0x19 o)
  | .maxS o => some (.S, q4Word 0x1A o)
  | .maxZ o => some (.S, q4Word 0x1B o)
  | .clz o => some (.S, q4Word 0x1C o)
  | .popc o => some (.S, q4Word 0x1D o)
  | .sext o => some (.S, q4Word 0x20 o)
  | .zext o => some (.S, q4Word 0x21 o)
  | .li o => some (.S, i42Word 0x22 o)
  | .lea o => some (.S, q4Word 0x23 o)
  | .sel o => some (.S, q4Word 0x24 o)
  | .pcmp o => some (.S, q4Word 0x28 o)
  | .pcmpi o => some (.S, i28Word 0x29 o)
  | .pand o => some (.S, q4Word 0x2A o)
  | .por o => some (.S, q4Word 0x2B o)
  | .pxor o => some (.S, q4Word 0x2C o)
  | .pnot o => some (.S, q4Word 0x2D o)
  | .pmovToPred o => some (.S, q4Word 0x2E o)
  | .pmovFromPred o => some (.S, q4Word 0x2E o)
  | .br o => some (.S, i42Word 0x30 o)
  | .jmp o => some (.S, i42Word 0x31 o)
  | .jr o => some (.S, q4Word 0x32 o)
  | .call o => some (.S, i42Word 0x33 o)
  | .ret o => some (.S, q4Word 0x34 o)
  | .lnest o => some (.S, q4Word 0x38 o)
  | .lbrk o => some (.S, sysWord 0x39 o)
  | .trap o => some (.S, sysWord 0x40 o)
  | .tret o => some (.S, sysWord 0x41 o)
  | .tretSkip o => some (.S, sysWord 0x41 o)
  | .rstart o => some (.S, sysWord 0x42 o)
  | .crr o => some (.S, sysWord 0x44 o)
  | .crw o => some (.S, sysWord 0x45 o)
  | .svcMap o => some (.S, sysWord 0x46 o)
  | .svcUnmap o => some (.S, sysWord 0x46 o)
  | .svcProtect o => some (.S, sysWord 0x46 o)
  | .svcReport o => some (.S, sysWord 0x46 o)
  | .yield o => some (.S, sysWord 0x48 o)
  | .await o => some (.S, sysWord 0x49 o)
  | .done o => some (.S, sysWord 0x4A o)
  | .park o => some (.S, sysWord 0x4B o)
  | .spawn o => some (.S, sysWord 0x4C o)
  | .halt o => some (.S, sysWord 0x4D o)
  | .nswOn o => some (.S, sysWord 0x50 o)
  | .nswOff o => some (.S, sysWord 0x51 o)
  | .dim o => some (.S, sysWord 0x52 o)
  | .vadd u o => some (u.slot, q4Word 0x01 o)
  | .vsub u o => some (u.slot, q4Word 0x02 o)
  | .vmul u o => some (u.slot, q4Word 0x03 o)
  | .vmin u o => some (u.slot, q4Word 0x04 o)
  | .vmax u o => some (u.slot, q4Word 0x05 o)
  | .vabs u o => some (u.slot, q4Word 0x06 o)
  | .vneg u o => some (u.slot, q4Word 0x07 o)
  | .vmulh u o => some (u.slot, q4Word 0x30 o)
  | .vadds u o => some (u.slot, q4Word 0x31 o)
  | .vsubs u o => some (u.slot, q4Word 0x32 o)
  | .vfmaF32 u o => some (u.slot, q4Word 0x08 o)
  | .vfmaF16 u o => some (u.slot, q4Word 0x09 o)
  | .vfmaBf16 u o => some (u.slot, q4Word 0x0A o)
  | .vfmsF32 u o => some (u.slot, q4Word 0x0B o)
  | .vfmsF16 u o => some (u.slot, q4Word 0x0C o)
  | .vfmsBf16 u o => some (u.slot, q4Word 0x0D o)
  | .vfnmaF32 u o => some (u.slot, q4Word 0x0E o)
  | .vfnmaF16 u o => some (u.slot, q4Word 0x0F o)
  | .vfnmaBf16 u o => some (u.slot, q4Word 0x10 o)
  | .vclampF32 u o => some (u.slot, q4Word 0x11 o)
  | .vclampS32 u o => some (u.slot, q4Word 0x12 o)
  | .vclampZ32 u o => some (u.slot, q4Word 0x13 o)
  | .vrcp u o => some (u.slot, q4Word 0x18 o)
  | .vrsqrt u o => some (u.slot, q4Word 0x19 o)
  | .vsqrt u o => some (u.slot, q4Word 0x1A o)
  | .vexp2 u o => some (u.slot, q4Word 0x1B o)
  | .vlog2 u o => some (u.slot, q4Word 0x1C o)
  | .vcmp u o => some (u.slot, q4Word 0x20 o)
  | .vsel u o => some (u.slot, q4Word 0x21 o)
  | .vmovpAny u o => some (u.slot, q4Word 0x23 o)
  | .vmovpAll u o => some (u.slot, q4Word 0x23 o)
  | .vmovpV u o => some (u.slot, q4Word 0x23 o)
  | .vtst u o => some (u.slot, q4Word 0x22 o)
  | .vtstSum u o => some (u.slot, q4Word 0x22 o)
  | .vand u o => some (u.slot, q4Word 0x28 o)
  | .vor u o => some (u.slot, q4Word 0x29 o)
  | .vxor u o => some (u.slot, q4Word 0x2A o)
  | .vnot u o => some (u.slot, q4Word 0x2B o)
  | .vshl u o => some (u.slot, q4Word 0x2C o)
  | .vshr u o => some (u.slot, q4Word 0x2D o)
  | .vsar u o => some (u.slot, q4Word 0x2E o)
  | .vcvt u o => some (u.slot, q4Word 0x38 o)
  | .vquant u o => some (u.slot, q4Word 0x39 o)
  | .vpack u o => some (u.slot, q4Word 0x3A o)
  | .vunpack u o => some (u.slot, q4Word 0x3B o)
  | .vbcast u o => some (u.slot, q4Word 0x40 o)
  | .vshuf u o => some (u.slot, q4Word 0x41 o)
  | .vrot u o => some (u.slot, q4Word 0x42 o)
  | .vidx u o => some (u.slot, q4Word 0x43 o)
  | .vredadd u o => some (u.slot, strWord 0x48 o)
  | .vredmax u o => some (u.slot, strWord 0x49 o)
  | .vredmin u o => some (u.slot, strWord 0x4A o)
  | .vscan u o => some (u.slot, strWord 0x4B o)
  | .vcpush u o => some (u.slot, q4Word 0x50 o)
  | .vcpop u o => some (u.slot, q4Word 0x51 o)
  | .vcbal u o => some (u.slot, strWord 0x52 o)
  | .mm o => some (.M, strWord 0x01 o)
  | .mmz o => some (.M, strWord 0x02 o)
  | .mzero o => some (.M, strWord 0x03 o)
  | .mldt o => some (.M, strWord 0x04 o)
  | .msdt o => some (.M, strWord 0x05 o)
  | .mtr o => some (.M, strWord 0x06 o)
  | .macc o => some (.M, strWord 0x07 o)
  | .mcvt o => some (.M, strWord 0x08 o)
  | .mscal o => some (.M, strWord 0x09 o)
  | .ldS8I o => some (.L, q4Word 0x01 o)
  | .ldS8W o => some (.L, i28Word 0x41 o)
  | .ldZ8I o => some (.L, q4Word 0x02 o)
  | .ldZ8W o => some (.L, i28Word 0x42 o)
  | .ldS16I o => some (.L, q4Word 0x03 o)
  | .ldS16W o => some (.L, i28Word 0x43 o)
  | .ldZ16I o => some (.L, q4Word 0x04 o)
  | .ldZ16W o => some (.L, i28Word 0x44 o)
  | .ldS32I o => some (.L, q4Word 0x05 o)
  | .ldS32W o => some (.L, i28Word 0x45 o)
  | .ldZ32I o => some (.L, q4Word 0x06 o)
  | .ldZ32W o => some (.L, i28Word 0x46 o)
  | .ld64I o => some (.L, q4Word 0x07 o)
  | .ld64W o => some (.L, i28Word 0x47 o)
  | .st8I o => some (.L, q4Word 0x08 o)
  | .st8W o => some (.L, i28Word 0x48 o)
  | .st16I o => some (.L, q4Word 0x09 o)
  | .st16W o => some (.L, i28Word 0x49 o)
  | .st32I o => some (.L, q4Word 0x0A o)
  | .st32W o => some (.L, i28Word 0x4A o)
  | .st64I o => some (.L, q4Word 0x0B o)
  | .st64W o => some (.L, i28Word 0x4B o)
  | .vldI o => some (.L, q4Word 0x0C o)
  | .vldW o => some (.L, i28Word 0x4C o)
  | .vstI o => some (.L, q4Word 0x0D o)
  | .vstW o => some (.L, i28Word 0x4D o)
  | .vstSumI o => some (.L, q4Word 0x0E o)
  | .vstSumW o => some (.L, i28Word 0x4E o)
  | .ldAcq32 o => some (.L, q4Word 0x10 o)
  | .ldAcq64 o => some (.L, q4Word 0x11 o)
  | .stRel32 o => some (.L, q4Word 0x12 o)
  | .stRel64 o => some (.L, q4Word 0x13 o)
  | .ldfeKeep o => some (.L, q4Word 0x14 o)
  | .ldfeTake o => some (.L, q4Word 0x15 o)
  | .stfeFill o => some (.L, q4Word 0x16 o)
  | .fechk o => some (.L, q4Word 0x17 o)
  | .feset o => some (.L, q4Word 0x18 o)
  | .feclr o => some (.L, q4Word 0x19 o)
  | .fenceC o => some (.L, sysWord 0x1A o)
  | .fenceD o => some (.L, sysWord 0x1B o)
  | .fenceG o => some (.L, sysWord 0x1C o)
  | .amoAdd32 o => some (.L, q4Word 0x20 o)
  | .amoAnd32 o => some (.L, q4Word 0x21 o)
  | .amoOr32 o => some (.L, q4Word 0x22 o)
  | .amoXor32 o => some (.L, q4Word 0x23 o)
  | .amoMaxS32 o => some (.L, q4Word 0x24 o)
  | .amoMaxZ32 o => some (.L, q4Word 0x25 o)
  | .amoMinS32 o => some (.L, q4Word 0x26 o)
  | .amoMinZ32 o => some (.L, q4Word 0x27 o)
  | .amoSwap32 o => some (.L, q4Word 0x28 o)
  | .cas32 o => some (.L, q4Word 0x29 o)
  | .amoFaddF32 o => some (.L, q4Word 0x2A o)
  | .amoFaddBf16 o => some (.L, q4Word 0x2B o)
  | .amoFmaxF32 o => some (.L, q4Word 0x2C o)
  | .amoAdd64 o => some (.L, q4Word 0x30 o)
  | .amoAnd64 o => some (.L, q4Word 0x31 o)
  | .amoOr64 o => some (.L, q4Word 0x32 o)
  | .amoXor64 o => some (.L, q4Word 0x33 o)
  | .amoMaxS64 o => some (.L, q4Word 0x34 o)
  | .amoMaxZ64 o => some (.L, q4Word 0x35 o)
  | .amoMinS64 o => some (.L, q4Word 0x36 o)
  | .amoMinZ64 o => some (.L, q4Word 0x37 o)
  | .amoSwap64 o => some (.L, q4Word 0x38 o)
  | .cas64 o => some (.L, q4Word 0x39 o)
  | .ldt o => some (.L, strWord 0x50 o)
  | .vldt o => some (.L, strWord 0x51 o)
  | .sdef o => some (.L, strWord 0x52 o)
  | .ssetBase o => some (.L, strWord 0x53 o)
  | .ssetSpace o => some (.L, strWord 0x53 o)
  | .ssetRstride o => some (.L, strWord 0x53 o)
  | .ssetCtl o => some (.L, strWord 0x53 o)
  | .ssetSbase o => some (.L, strWord 0x53 o)
  | .ssetSstride o => some (.L, strWord 0x53 o)
  | .sadv o => some (.L, strWord 0x54 o)
  | .fbind o => some (.L, q4Word 0x58 o)
  | .fpush o => some (.L, q4Word 0x59 o)
  | .fpop o => some (.L, q4Word 0x5A o)
  | .stm64 o => some (.L, q4Word 0x5B o)
  | .stmV o => some (.L, q4Word 0x5C o)
  | .cpy o => some (.A, q4Word 0x01 o)
  | .cpyr o => some (.A, q4Word 0x02 o)
  | .coll o => some (.A, q4Word 0x03 o)
  | .binit o => some (.A, q4Word 0x04 o)
  | .bexp o => some (.A, q4Word 0x05 o)
  | .barr o => some (.A, q4Word 0x06 o)
  | .bwait o => some (.A, q4Word 0x07 o)
  | .sred o => some (.A, q4Word 0x08 o)
  | .ifill o => some (.A, q4Word 0x09 o)
  | .pref o => some (.A, q4Word 0x0A o)
  | .trig o => some (.A, q4Word 0x0B o)
  | .sig o => some (.A, q4Word 0x0C o)
  | .wdraw o => some (.A, q4Word 0x0D o)
  | .jobq o => some (.A, q4Word 0x0E o)
  | .heat o => some (.A, q4Word 0x0F o)
  | .mig o => some (.A, q4Word 0x10 o)
  | .bundleIssue => none
  | .resultWriteback => none
  | .taggedResultLand => none
  | .timingTrap => none
  | .deferredFaultFound => none
  | .trapEntry => none
  | .abortedWrite => none
  | .nswWindowExceeded => none
  | .nswWindowKill => none
  | .clockGate => none
  | .powerGate => none
  | .hangtExpiry => none
  | .panePlacement => none
  | .taskDispatch => none
  | .granuleSequenceEnd => none
  | .translationWalkEnd => none
  | .reductionDrain => none
  | .heatDecay => none
  | .migrationRequest => none
  | .migrationHoldTimeout => none
  | .eccError => none
  | .hbmScrub => none
  | .vaultScrub => none
  | .retirementRecordRetry => none
  | .translationInvalidate => none
  | .inval => none
  | .slotQuantumEnd => none
  | .snuff => none
  | .countLatch => none
  | .refuse => none
  | .count => none
  | .sumreq => none
  | .drainDeadline => none
  | .hold => none
  | .held => none
  | .abort => none
  | .backoffEnd => none
  | .relight => none
  | .lit => none
  | .votePartyTimeout => none
  | .collapseRequest => none
  | .idleTimeout => none
  | .collapseWork => none
  | .strike => none
  | .wakeLate => none
  | .beaconTimer => none
  | .beacon => none
  | .stampWaitApply => none
  | .stampWaitTimeout => none
  | .switchPacketForward => none
  | .writePacket => none
  | .readPacket => none
  | .rdresp => none
  | .atomicPacket => none
  | .atresp => none
  | .ackPacket => none
  | .feop => none
  | .fifoPacket => none
  | .cdata => none
  | .demand => none
  | .sredPacket => none
  | .sres => none
  | .cflush => none
  | .tkreq => none
  | .tkcall => none
  | .bartok => none
  | .rateLimitRise => none
  | .ticketWindowEnd => none
  | .ticketCall => none
  | .retransmitTimeout => none
  | .linkTraining => none
  | .laneDetectTimeout => none
  | .laneFailure => none
  | .bufferBankError => none
  | .switchHeartbeatLoss => none
  | .switchTakeover => none
  | .jobActivate => none
  | .chunkIssue => none
  | .chunkBoundary => none
  | .jobOutFill => none
  | .jobBarrierArrival => none
  | .jobSignalWrite => none
  | .triggerFire => none
  | .fifoOutTransfer => none
  | .fifoLoadFetch => none
  | .stepEnd => none
  | .stepSend => none
  | .stepRecv => none
  | .stepRrs => none
  | .stepRrd => none
  | .stepCopy => none
  | .stepWait => none
  | .stepSignal => none
  | .stepLoop => none
  | .stepEndl => none
  | .stepPeer => none
  | .stepBar => none
  | .collectiveAbortNotice => none
  | .reductionSlotDeadline => none
  | .slotLingerEnd => none
  | .launchPacket => none
  | .tasksPacket => none
  | .copyPacket => none
  | .fencePacket => none
  | .fenceCounterPoll => none
  | .signalPacket => none
  | .strikePacket => none
  | .dimPacket => none
  | .barrierPacket => none
  | .nopPacket => none
  | .packetCompletion => none
  | .queueDoorbell => none
  | .queuePoll => none
  | .vdCreate => none
  | .vdReset => none
  | .vdDestroy => none
  | .vaultload => none
  | .scheduleChange => none
  | .liveMigration => none
  | .stubForward => none
  | .stubExpiry => none
  | .endpointCreate => none
  | .endpointSetupTimeout => none
  | .ethPortSplit => none
  | .ethWrite => none
  | .ethRead => none
  | .ethRddata => none
  | .ethAck => none
  | .ethNote => none
  | .ethEcho => none
  | .ethSetup => none
  | .ethKeep => none
  | .ethBusy => none
  | .ethKeepaliveTimer => none
  | .ethAckTimer => none
  | .ethRetransmitTimeout => none
  | .ethRateRise => none
  | .powerOnReset => none
  | .recoveryImage => none
  | .wickUpdate => none
  | .wickUpdateTimeout => none
  | .managementDieTakeover => none
  | .coreColumnRepair => none
  | .dieReplacement => none
  | .powerSample => none
  | .dutyRaise => none
  | .junctionOvertemp => none
  | .coolantAlarm => none
  | .thermalStop => none
  | .telemetrySample => none
  | .outsidePortTimeout => none
  | .outsidePortLost => none
  | .securityViolation => none
  | .unfreezeRequest => none
  | .attestation => none
  | .svcReply => none
  | .migrationComplete => none
  | .hostPortAccess => none
  | .powerLoss => none
  | .junctionCooled => none
  | .pairRekey => none

/-- The bundle that carries one op word, with a plain header (R163, R164). -/
def singleBundle (sl : Slot) (w : Nat) : Nat := w * 2 ^ sl.bit + 2 ^ sl.maskBit

/-- The op words of a bundle, decoded in slot order. -/
def decodeBundle (b : Nat) : List (Slot × Nat × Except DecodeError Instr) :=
  (bundleSlots b).map (fun sl => (sl, bundleOpWord b sl, decodeOp sl (bundleOpWord b sl)))

/-- The instruction a bundle given as one number stands for when it carries at most one op: that op, or, for an empty bundle,
the issue itself (the bits above nbits are zero). -/
def decodeTableWord (nbits w : Nat) : Option Instr :=
  match decodeBundle (w % 2 ^ nbits % 2 ^ 512) with
  | [] => some .bundleIssue
  | [(_, _, .ok i)] => some i
  | _ => none

end Sys2Proof
end

