-- ==== Sys2Proof/Config.lean ====
section
/-!
DEFINITION. Config.lean: constants of the DW64-P1 and the free values, opaque functions without a body (assumption log 3 to 5).
-/
namespace Sys2Proof.Config

/-- Times R479 leaves open, in clk: the n-th drawn (log 3). -/
opaque freeDelay : Nat → Nat
/-- Bytes and values the spec calls unpredictable or states no value for: the n-th drawn (log 4). -/
opaque freeValue : Nat → Nat
/-- HBM row of a line's address: pseudo-channel in bits 7:0, bank in bits 15:8, row above; the spec gives no address map (log 5). -/
opaque rowOf : Nat → Nat
/-- Which of several permitted choices is taken where the spec gives no rule (log 5). -/
opaque freeChoice : Nat → Nat

/-- Counts of R12, R18, R22 and R19. -/
def coresPerDie : Nat := 256
@[inherit_doc coresPerDie] def dies : Nat := 64
@[inherit_doc coresPerDie] def switches : Nat := 16
@[inherit_doc coresPerDie] def bundles : Nat := 2048
@[inherit_doc coresPerDie] def regSpace : Nat := 0x30000
/-- Vault geometry (R86, R73). -/
def vaultBytes : Nat := 0x300000
@[inherit_doc vaultBytes] def vaultStride : Nat := 0x400000
@[inherit_doc vaultBytes] def granule : Nat := 0x10000
@[inherit_doc vaultBytes] def granules : Nat := 12288
/-- One microsecond in clk (R5). -/
def us : Nat := 850
/-- Pool, job-queue, trigger and footprint sizes (R214, R293, R309, R300). -/
def poolSize : Nat := 4096
@[inherit_doc poolSize] def jobSlots : Nat := 256
@[inherit_doc poolSize] def triggerSlots : Nat := 64
@[inherit_doc poolSize] def footprintSlots : Nat := 512
/-- A second, an hour and a day in clk (R5). -/
def second : Nat := 850000000
@[inherit_doc second] def hour : Nat := 3600 * second
@[inherit_doc second] def day : Nat := 24 * hour
/-- A late fixed-latency result raises the timing trap past this many clk (R74). -/
def lateLimit : Nat := 64
/-- Clock-gate and power-gate thresholds (R52). -/
def clockGateAt : Nat := 4096
@[inherit_doc clockGateAt] def powerGateAt : Nat := 1048576
/-- ABORTED (R396). -/
def aborted : Nat := 0xFFFFFFFFFFFFFFFE

end Sys2Proof.Config
end

