-- ==== Sys2Proof/Machine/CoreState.lean ====
section
/-!
DEFINITION. CoreState.lean: the state of one Zheoft core and of the accesses it has under way, as plain data.
-/
namespace Sys2Proof.Machine

/-- A value a latch entry holds (R84): 8 bytes or 256 bytes. -/
inductive LatchVal where
  | s (v : Dword)
  | v (v : Vec)
  deriving DecidableEq, Repr

/-- The latch entry of one slot in one bundle (R84): the op made a fixed-latency result `rid`, readable from schedule clk `due`. -/
structure LatchEntry where
  slot : Nat
  rid  : Nat
  due  : Nat
  val  : LatchVal
  deriving DecidableEq, Repr

/-- The latch entries of one issued bundle. -/
abbrev BundleRec := List LatchEntry

/-- A stream register: the four dwords of its record, reserved fields as written (R246, R279). -/
structure StreamReg where
  d0 : Dword
  d1 : Dword
  d2 : Dword
  d3 : Dword
  deriving DecidableEq, Repr

/-- All fields zero (R245). -/
def StreamReg.zero : StreamReg := ⟨0, 0, 0, 0⟩

/-- Where a result goes. -/
inductive Dest where
  /-- Only a latch entry, or nothing (x0). -/
  | none
  /-- x register (R191). -/
  | x (n : Nat)
  /-- Predicate register (R191, R222). -/
  | p (n : Nat)
  /-- 8-byte operand-file entry of a slot (R83). -/
  | ofS (slot n : Nat)
  /-- 256-byte operand-file entry of V0 or V1 (R83). -/
  | ofV (slot n : Nat)
  /-- Register space from a byte offset (R82). -/
  | rs (a : Nat)
  /-- Stream register (R279). -/
  | stream (n : Nat)
  /-- The BASE field of a stream register, by the loop sequencer (R178). -/
  | base (n : Nat)
  /-- Control register, by crw (R203). -/
  | cr (n : Nat)
  deriving DecidableEq, Repr

/-- A value on its way to a destination. -/
inductive Val where
  /-- Not yet bound: the access has not been performed. -/
  | unbound
  | s (v : Dword)
  /-- Predicate bits `v` under a write mask (R222). -/
  | p (mask v : Dword)
  /-- Vector lanes `v` under a lane mask (R222). -/
  | v (mask : Dword) (v : Vec)
  | bytes (l : List Byte)
  | stream (r : StreamReg)
  deriving DecidableEq, Repr

/-- A fixed-latency result in flight (R85, R174): it lands at schedule clk `due`, once its value is bound and, for an access,
delivered at real clk `deliver`. -/
structure Result where
  rid     : Nat
  slot    : Nat
  due     : Nat
  dest    : Dest
  val     : Val
  deliver : Nat
  /-- Tag it makes ready as it lands, 0 none (R176). -/
  tag     : Nat
  /-- TVAL of its access for a timing trap (R394). -/
  tval    : Dword
  deriving DecidableEq, Repr

/-- A snapshot of a view register's geometry as an M op named it at issue (R258). -/
structure ItemRef where
  /-- First byte in register space. -/
  base : Nat
  ty   : Nat
  rows : Nat
  cols : Nat
  deriving DecidableEq, Repr

/-- No item. -/
def ItemRef.none : ItemRef := ⟨0, 0, 0, 0⟩

/-- An operand of an M op as it stands once read: nothing, elements (raw bits of `ty`), or a stream still to be fetched. -/
inductive MOperand where
  | none
  | elems (ty : Nat) (l : List Nat)
  /-- A stream operand: its record at issue and its compand table; `l` empty until its fetch is performed. -/
  | stream (r : StreamReg) (ctab : List Dword) (ready : Bool) (l : List Nat) (scales : List Nat)
  deriving DecidableEq, Repr

/-- An M op in progress (R253 to R259). -/
structure MOp where
  rid   : Nat
  kind  : Nat          -- OPC 1 to 9 (R251)
  pc    : Nat
  issue : Nat          -- schedule clk c
  beats : Nat
  m     : Nat          -- MOD
  d     : ItemRef
  /-- Item the addend is read from. -/
  add   : ItemRef
  a     : MOperand
  b     : MOperand
  aRef  : ItemRef
  bRef  : ItemRef
  scal  : Dword
  /-- Output stream of msdt and its readiness word (R257). -/
  out   : StreamReg
  word  : Dword
  tag   : Nat
  /-- Schedule clk at which the addend is read; the destination is written one clk later. -/
  bindAt : Nat
  /-- Real clk of the last fetch's arrival, and whether every fetch has been performed. -/
  arrive : Nat
  fetched : Bool
  /-- A fetch met a fault: nothing is written (R261). -/
  dead  : Bool
  deriving DecidableEq, Repr

/-- One affine target of a loop nest (R178): x register or stream base, strides per level, base at lnest. -/
structure Target where
  id      : Nat
  stream  : Bool
  strides : List Nat
  base    : Dword
  deriving DecidableEq, Repr

/-- The loop sequencer (R178, R179). -/
structure Nest where
  active : Bool
  start  : Nat
  stop   : Nat
  counts : List Nat
  ctr    : List Nat
  targets : List Target
  /-- lbrk has marked the nest to end at the next issue of END (R199). -/
  brk    : Bool
  deriving DecidableEq, Repr

/-- No nest. -/
def Nest.none : Nest := ⟨false, 0, 0, [], [], [], false⟩

/-- The restart checkpoint (R182): predicates and sequencer state. -/
structure Checkpoint where
  preds : Tab Dword
  nest  : Nest
  deriving DecidableEq, Repr

/-- Bank registers of a trap level (R207). -/
structure Bank where
  cause : Nat
  ret   : Nat
  val   : Dword
  slot  : Nat
  deriving DecidableEq, Repr

/-- A bank at reset. -/
def Bank.zero : Bank := ⟨0, 0, 0, 0⟩

/-- Precision classes of traps (R389). -/
inductive TrapClass where
  | I | C | D | B
  deriving DecidableEq, Repr

/-- A trap found and not yet entered (R385): what its bank will hold. -/
structure TrapReq where
  cls   : TrapClass
  cause : Nat
  ret   : Nat
  val   : Dword
  slot  : Nat
  /-- Issue clk of the op it comes from, for the order of R389. -/
  issue : Nat
  deriving DecidableEq, Repr

/-- A suspension op, park or halt waiting for the core's ops to finish (R216, R217); `pc` is its own bundle's index. -/
inductive EndKind where
  | yield (pc : Nat) | await (pc word : Nat) | done (summary : Nat) | park | halt
  deriving DecidableEq, Repr

/-- A core's run state (R32, R34). -/
inductive Run where
  /-- In no pane, or parked: takes tasks; free since this clk. -/
  | free (since : Nat)
  /-- Running a pane program or a task. -/
  | running
  /-- Has executed halt (R32). -/
  | halted
  deriving DecidableEq, Repr

/-- Clock and power gating of a waiting core (R52). -/
inductive Gate where
  | none | clock | power
  deriving DecidableEq, Repr

/-- An element on an out side, with the bundle and clk of its fpush, which a fault of its store names (R389), and the access that is its
write (R286). -/
structure FifoElem where
  v   : Vec
  pc  : Nat
  clk : Nat
  acc : Nat
  deriving DecidableEq, Repr

/-- One port FIFO (R283, R284): binding record, element counter, out and in sides (oldest first). -/
structure Fifo where
  d0 : Dword
  d1 : Dword
  d2 : Dword
  d3 : Dword
  /-- Elements pushed or fetched so far. -/
  n  : Nat
  out : List FifoElem
  inn : List Vec
  /-- Elements of a load stream requested and not yet arrived. -/
  asked : Nat
  /-- Bundle and clk of the fbind, for a load stream's faults. -/
  pc  : Nat
  clk : Nat
  deriving DecidableEq, Repr

/-- Unbound, both sides empty (R33). -/
def Fifo.zero : Fifo := ⟨0, 0, 0, 0, 0, [], [], 0, 0, 0⟩

/-- A pending fbind: the binding takes effect at a schedule clk (R283). -/
structure FifoBind where
  due : Nat
  k   : Nat
  f   : Fifo
  deriving DecidableEq, Repr

/-- An svc in progress (R209): request and the destination of the reply. -/
structure Svc where
  number : Nat
  x1 : Dword
  x2 : Dword
  x3 : Dword
  tl : Nat
  pc : Nat
  dest : Dest
  deriving DecidableEq, Repr

/-- A translation cached in a TLB (R93): VD, first page number in 4 KiB units, size in such units, leaf. -/
structure TlbEntry where
  vd   : Nat
  page : Nat
  size : Nat
  leaf : Dword
  deriving DecidableEq, Repr

/-- One core: operand levels, control registers and what it has in progress. -/
structure Core where
  /-- x0 to x63 (R190): 64 registers of 64 bits; x0 is never listed. -/
  x : Tab Dword
  /-- p0 to p11 (R195): 64-bit predicates. -/
  p : Tab Dword
  /-- Operand files of S, M, L and A (R83): key 16·slot + entry, 64 bits each. -/
  ofS : Tab Dword
  /-- Operand files of V0 and V1 (R83): key 16·slot + entry, 256 bytes each. -/
  ofV : Tab Vec
  /-- Register space (R80): 192 KiB. -/
  rs : Mem
  /-- Poisoned 8-byte words of register space (R463): byte offsets. -/
  rsPoison : Tab Bool
  /-- IMEM (R163): 2,048 bundles by index. -/
  imem : Tab BundleWord
  /-- Poisoned IMEM words (R463), by bundle index. -/
  imemPoison : Tab Bool
  /-- Bundles held by the loop buffer of the active nest, by index (R179). -/
  loopBuf : Tab (Option BundleWord)
  /-- Latch histories of TL0, TL1 and TL2, newest bundle first, at most 7 (R84, R384). -/
  hist0 : List BundleRec
  hist1 : List BundleRec
  hist2 : List BundleRec
  /-- Tags not ready (R176): tag number ↦ 1 + the access or result it waits for. -/
  tags : Tab Nat
  /-- Stream registers s0 to s15 (R245). -/
  streams : Tab StreamReg
  /-- Port FIFOs f0 to f3 (R283). -/
  fifos : Tab Fifo
  /-- Bindings on their way. -/
  binds : List FifoBind
  /-- Conditional queues (R242): key 64·k + lane, oldest record first. -/
  cq : Tab (List Word)
  /-- VIEW0 to VIEW7 (R80). -/
  views : Tab Dword
  /-- Compand tables: key 17·n + k (R146). -/
  ctab : Tab Dword
  /-- PC: index of the next bundle to issue (R163). -/
  pc : Nat
  /-- TLEVEL, TVEC, TRAPEN (R204). -/
  tl : Nat
  tvec : Dword
  trapen : Dword
  /-- Banks 1 and 2, and TSAVE1, TSAVE2 (R207). -/
  bank1 : Bank
  bank2 : Bank
  tsave1 : Dword
  tsave2 : Dword
  /-- RPA, RPSEQ and the restart checkpoint (R182). -/
  rpa : Nat
  rpseq : Nat
  ckpt : Checkpoint
  /-- PANE (R208). -/
  pane : Dword
  /-- WDRAWN (R204). -/
  wdrawn : Bool
  /-- Loop sequencer (R179). -/
  nest : Nest
  /-- Run state (R34). -/
  run : Run
  /-- Pool index of the running task (R215). -/
  task : Option Nat
  /-- Frozen clk so far: schedule clk = clk − frozen (R173, R175). -/
  frozen : Nat
  /-- One past the last clk in which it was frozen. -/
  frozeAt : Nat
  /-- The number of its last fence.c that acted, 0 for none: its later own-vault accesses follow the own-vault reads of the jobs it issued before (R105). -/
  fenceC : Nat
  /-- The clk from which a bundle that has waited for the granule of a record may issue (R73). -/
  recAt : Nat
  /-- Schedule clk of the next issue. -/
  next : Nat
  /-- Fixed-latency results in flight (R85). -/
  results : List Result
  /-- M ops in progress (R253). -/
  mops : List MOp
  /-- Busy slots and the divider (R174): slot number, 6 for the divider ↦ schedule clk up to which it is busy. -/
  busy : Tab Nat
  /-- Accesses later L, A and stream-reading M bundles wait for (R271, R278). -/
  waitFor : List Nat
  /-- Frozen clk of the late fixed-latency result (R175). -/
  late : Nat
  /-- A trap found and not yet entered (R385). -/
  trap : Option TrapReq
  /-- Trap entry waits for its save-area write (R385). -/
  entry : Bool
  /-- A suspension, park or halt that waits for the core to finish (R216). -/
  ending : Option EndKind
  /-- An svc whose reply has not arrived (R209). -/
  svc : Option Svc
  /-- Open no-switch window: clk of its nsw.on (R218). -/
  nsw : Option Nat
  /-- Cause 0x14 has been raised for the open window; and the level it was found at, once found (R390). -/
  nswRaised : Bool
  nswAt : Option Nat
  /-- Residency timer: clk of the current wait, gating, and whether its hang report has been sent (R52). -/
  waited : Nat
  /-- CYCLE at the start of that wait (R424). -/
  waitAt : Nat
  gate : Gate
  hung : Bool
  /-- Micro-TLB and stream TLB, most recently used first (R93). -/
  utlb : List TlbEntry
  stlb : List TlbEntry
  deriving DecidableEq, Repr

/-- A core as the member context is created (R204, R33): every register zero, TRAPEN 0x1. -/
def Core.reset : Core :=
  { x := [], p := [], ofS := [], ofV := [], rs := [], rsPoison := [], imem := [], imemPoison := [], loopBuf := [], hist0 := [],
    hist1 := [], hist2 := [], tags := [], streams := [], fifos := [], binds := [], cq := [], views := [], ctab := [], pc := 0,
    tl := 0, tvec := 0, trapen := 1, bank1 := Bank.zero, bank2 := Bank.zero, tsave1 := 0, tsave2 := 0, rpa := 0, rpseq := 0,
    ckpt := ⟨[], Nest.none⟩, pane := 0, wdrawn := false, nest := Nest.none, run := .free 0, task := none, frozen := 0, frozeAt := 0, fenceC := 0, recAt := 0, next := 0,
    results := [], mops := [], busy := [], waitFor := [], late := 0, trap := none, entry := false,
    ending := none, svc := none, nsw := none, nswRaised := false, nswAt := none, waited := 0, waitAt := 0, gate := .none, hung := false, utlb := [], stlb := [] }

/-- Full/empty operations (R272). -/
inductive FeOp where
  | keep | take | fill | chk | set | clr
  deriving DecidableEq, Repr

/-- Read-modify-write operations (R276, R277). -/
inductive AmoOp where
  | add | and | or | xor | maxS | maxZ | minS | minZ | swap | cas | faddF32 | faddBf16 | fmaxF32
  deriving DecidableEq, Repr

/-- Barrier operations (R306). -/
inductive BarOp where
  | init | exp | arr | wait
  deriving DecidableEq, Repr

/-- What an access does at its point of performance (R102). -/
inductive AccKind where
  /-- A load of n bytes; `sx` sign-extends (R266). -/
  | load (n : Nat) (sx : Bool)
  /-- A 256-byte vector load (R268). -/
  | loadV
  /-- A write of bytes (R267). -/
  | store (l : List Byte)
  /-- The trap-entry write of a level (R385). -/
  | entry (l : List Byte)
  | fe (op : FeOp) (v : Dword)
  /-- The fill of a readiness word by a task (2h+1), a job (2h+2) or an msdt.sum (0) (R302). -/
  | fill (v : Dword) (owner : Nat)
  /-- An atomic on n bytes, operands b and c; `red` is a reduction (R275). -/
  | amo (op : AmoOp) (n : Nat) (b c : Dword) (red : Bool)
  | bar (op : BarOp) (v : Dword)
  /-- The fetch of the streams of M op `rid` (R259). -/
  | mfetch (rid : Nat)
  /-- Piece `i` of a wide access: at most 256 bytes (R107), first needed by beat `j` of an M op (R259). -/
  | part (parent i n j : Nat)
  /-- Section `i` of a wide access that port FIFO k supplies (R249): n bytes, and those popped so far. -/
  | fifoPart (parent i n k : Nat) (got : List Byte)
  /-- ldt and vldt: the stream is read into register space (R281, R282). -/
  | ldt (r : StreamReg) (ctab : List Dword) (d : ItemRef)
  | vldt (r : StreamReg) (d n : Nat)
  /-- The fetch of element n, of `size` bytes, of a load stream (R284). -/
  | fifoLoad (k n size : Nat)
  /-- ifill of bundles from FIRST (R311). -/
  | ifill (first count : Nat)
  /-- A signal write or other one-write job (R310). -/
  | sig (v : Dword)
  /-- spawn (R214): the continuation record and its footprint list. -/
  | spawn (record fp : List Dword)
  /-- cpy, cpyr and coll (R293): the card and its footprint list. -/
  | card (card fp : List Dword)
  /-- trig (R309): counter, threshold, card and its footprint list. -/
  | trig (counter : Nat) (threshold : Dword) (card fp : List Dword)
  /-- wdraw (R305), jobq (R313), heat (R314), mig (R315) and pref (R312). -/
  | wdraw (word : Nat)
  | jobq (h : Dword)
  | heat
  | mig (toTier : Bool)
  | pref (n : Nat)
  /-- sred (R308): TYPE, OP, collective id and the contribution. -/
  | sred (ty op cid : Nat) (data : List Byte)
  /-- One destination of multicast `group`, whose ea was `ea` (R287, R115). -/
  | stm (group : Nat) (ea : Dword) (l : List Byte)
  /-- A write of msdt whose data its op `rid` has not yet supplied (R259, R260). -/
  | mstore (rid : Nat)
  /-- The write that an element pushed to FIFO k is, until the element has left for its peer or its address (R286). -/
  | fpush (k : Nat)
  /-- A fence of scope 0 core, 1 die, 2 gang (R105). -/
  | fence (scope : Nat)
  /-- A copy engine's chunk q of job h: it gathers the source bytes (R292). -/
  | chunk (h q : Nat)
  /-- A write of chunk q of job h: with a reduce operation, elements of `ety` are reduced into the destination (R294). -/
  | copyOut (h q : Nat) (rop : Option Nat) (ety : Nat) (l : List Byte)
  /-- A packet from another die that acts on a V-address here (R324). -/
  | served (p : Pkt)
  deriving DecidableEq, Repr

/-- Where an access stands. -/
inductive AccState where
  /-- On its way to its point; it reaches it at its agenda time. -/
  | travel
  /-- Waits for the granule sequence of that granule index (R73). -/
  | granule (g : Nat)
  /-- Some 16-byte parts of a wide access have been performed (R107): the key of its first byte, the parts still to come, and the bytes of the others. -/
  | parts (key : Nat) (left : List Nat) (got : List (Nat × List Byte))
  /-- Gathers the pieces of a wide access: how many are missing, and those that have come (R107). -/
  | gather (left : Nat) (got : List (Nat × List Byte))
  /-- Waits for a translation (R94). -/
  | walk
  /-- Waits in a full/empty or barrier queue (R273, R307). -/
  | queued
  /-- Waits until every earlier access of the core has been performed (R306, R310). -/
  | release
  /-- Stands in the hold buffer of a migration (R100). -/
  | held
  /-- Sent to another member's die with a SEQ (0 until it is injected); its answer is awaited (R322, R324). -/
  | remote (member seq : Nat)
  /-- Performed; its value returns at its agenda time. -/
  | done (v : Val)
  deriving DecidableEq, Repr

/-- An access under way: the core's own accesses and those of its M and A ops (R102). -/
structure Access where
  id    : Nat
  k     : CoreId
  vd    : Nat
  member : Nat
  slot  : Nat
  pc    : Nat
  issue : Nat
  ea    : Dword
  size  : Nat
  kind  : AccKind
  dest  : Dest
  /-- Tag to make ready, 0 none. -/
  tag   : Nat
  /-- The fixed-latency result it supplies, 0 none. -/
  rid   : Nat
  st    : AccState
  /-- The access is a release (R104). -/
  rel   : Bool
  deriving DecidableEq, Repr

end Sys2Proof.Machine
end

