-- ==== Sys2Proof/Machine/SysState.lean ====
section
/-!
DEFINITION. SysState.lean: the state of what stands around the cores: member contexts, virtual devices, dies, switch dies, the
gang controller, the wicks and the platform, as plain data.
-/
namespace Sys2Proof.Machine

/-! ### Member contexts -/

/-- Where a task stands (R313, R211). -/
inductive TaskState where
  | pending | waiting | ready | running (core : Nat) | suspended
  deriving DecidableEq, Repr

/-- A task-pool record (R211, R212): its eight dwords and what the dispatcher knows of it. -/
structure Task where
  ctl : Dword
  d1 : Dword
  d2 : Dword
  d3 : Dword
  x1 : Dword
  x2 : Dword
  x3 : Dword
  x4 : Dword
  st : TaskState
  /-- Has fired: normal (false) or absorbed (true) entry (R47). -/
  fired : Option Bool
  /-- Resumed work: CTL.PC is used whatever entry was taken first (R215). -/
  resumed : Bool
  /-- The word an await names (R216). -/
  awaits : Option Nat
  /-- Seeded by the queue packet of that key, if any (R361). -/
  packet : Option Nat
  /-- Demand count as a producer (R48); the clk it became ready; the core it last ran on is in `st`. -/
  demand : Nat
  readyAt : Nat
  /-- Its place in spawn order (R39): a number that rises with every admission. -/
  order : Nat
  /-- Stores of the spawning core that come before its events and were open at the spawn (R104, R290): access ids. -/
  prev : List Nat
  deriving DecidableEq, Repr

/-- Where a job stands (R295, R296, R313). -/
inductive JobState where
  | pending | waiting | ready | active (engine : Nat)
  /-- Completion actions: 0 OUT fill, 1 barrier arrival, 2 signal write, next to begin (R295). -/
  | finishing (stage : Nat)
  deriving DecidableEq, Repr

/-- A collective in progress (R328, R330). -/
structure Coll where
  step : Nat
  k : List Nat
  lim : List Nat
  peers : List Nat
  /-- Next message number to send to, and to consume from, each member (R330). -/
  sendMsg : Tab Nat
  recvMsg : Tab Nat
  /-- Bytes of the current step received so far, and BAR round (R67, R330). -/
  bytes : Nat
  round : Nat
  /-- Bytes read for the current step that did not come at once: address and bytes. -/
  got : List (Nat × List Byte)
  deriving DecidableEq, Repr

/-- No collective begun. -/
def Coll.start : Coll := ⟨0, [0, 0, 0, 0], [0, 0, 0, 0], [0, 0, 0, 0], [], [], 0, 0, []⟩

/-- A job-queue entry: its card (eight dwords, R291) and its progress. -/
structure Job where
  card : List Dword
  st : JobState
  demand : Nat
  /-- Chunks issued, and past their boundary in job order (R292). -/
  issued : Nat
  done : Nat
  inflight : List Nat
  /-- Ended by withdrawal (R304), or aborted (R413, R450). -/
  withdrawn : Bool
  aborted : Bool
  summary : Option Nat
  coll : Coll
  packet : Option Nat
  /-- Registered as the producer of OUT (R304). -/
  registered : Bool
  /-- PSNs of an endpoint job's datagrams not yet acknowledged; 0 alone stands for its NOTE (R357). -/
  unacked : List Nat
  /-- Stores of the issuing core that come before its events and were open at issue (R104, R290): access ids. -/
  prev : List Nat
  /-- The core that issued it, 256 the front end, a trigger or an engine, and the number its op had among accesses (R105). -/
  core : Nat
  born : Nat
  /-- The applied clock of its member as it was issued (R111). -/
  stamp : Tab Nat
  /-- Steps of a collective completed (R313). -/
  steps : Nat
  deriving DecidableEq, Repr

/-- Who owns a footprint declaration. -/
inductive Owner where
  | task (h : Nat)
  | job (h : Nat)
  deriving DecidableEq, Repr

/-- A region of a declaration (R298): space 0 vault of the member's die, 1 global; first unit and count of 256-byte units. -/
structure Region where
  space : Nat
  member : Nat
  lo : Nat
  len : Nat
  write : Bool
  deriving DecidableEq, Repr

/-- A footprint declaration, in admission order (R297, R301). -/
structure Decl where
  owner : Owner
  regions : List Region
  admitted : Bool
  /-- Its place in admission order (R297): issue clk, core and slot. -/
  key : Nat
  deriving DecidableEq, Repr

/-- A registered producer of a readiness word (R49, R304). -/
structure Producer where
  word : Nat
  member : Nat
  owner : Owner
  deriving DecidableEq, Repr

/-- An armed trigger (R309). -/
structure Trigger where
  counter : Nat
  threshold : Dword
  card : List Dword
  fired : Bool
  /-- Open stores of the arming core (R104, R290). -/
  prev : List Nat
  deriving DecidableEq, Repr

/-- A queue packet parsed and not yet completed (R361): its eight dwords, queue, index and progress. -/
structure Packet where
  q : Nat
  index : Nat
  dw : List Dword
  /-- Work left: panes, tasks or jobs of it that have not ended. -/
  left : Nat
  complete : Bool
  /-- Counters satisfied so far, for a FENCE (R366). -/
  sat : List Nat
  /-- Members that have reported completion, for a gang-wide LAUNCH (R361). -/
  reported : List Nat
  /-- The job of a COPY packet was aborted (R450). -/
  aborted : Bool
  deriving DecidableEq, Repr

/-- A LAUNCH waiting for its rectangle (R31): packet key and what was read at parse. -/
structure Launch where
  packet : Nat
  image : List BundleWord
  args : List Dword
  presets : List (Dword × Dword)
  x0 : Nat
  y0 : Nat
  lw : Nat
  lh : Nat
  deriving DecidableEq, Repr

/-- A pane in place (R32). -/
structure Pane where
  packet : Nat
  x0 : Nat
  y0 : Nat
  lw : Nat
  lh : Nat
  /-- Cores that have executed halt (their index) or park (256 + their index). -/
  left : List Nat
  deriving DecidableEq, Repr

/-- What a chain end keeps (R322, R323): sequence number and stamp of the last packet. -/
structure Chain where
  seq : Nat
  stamp : Tab Nat
  /-- At a destination: SEQs seen above the expected one; at an origin: highest acknowledged. -/
  seen : List Nat
  acked : Nat
  /-- At an origin: when the last packet reaches its first switch, since Q and P keep their order (R317). -/
  at_ : Nat
  deriving DecidableEq, Repr

/-- A chain before its first packet. -/
def Chain.start : Chain := ⟨0, [], [], 0, 0⟩

/-- A packet waiting in a retransmit buffer (R446): sends so far and the clk of the last one. -/
structure Sent where
  pkt : Pkt
  tries : Nat
  at_ : Nat
  deriving DecidableEq, Repr

/-- A reduction slot (R334 to R336). -/
structure RedSlot where
  gang : Nat
  cid : Nat
  ty : Nat
  op : Nat
  len : Nat
  partials : List Byte
  mask : List Nat
  /-- The stamps of the contributions it accepted, entry by entry the latest: what its result carries home (R111, R324). -/
  stamp : Tab Nat
  /-- Lowest member that contributed a NaN, and elements that are NaN. -/
  nan : Option Nat
  nanElems : List Nat
  /-- Contributors waiting: member, response tag, V-address. -/
  waiting : List (Nat × Nat × Nat)
  deadline : Nat
  /-- Done: the completion word, lingering until a clk (R336). -/
  done : Option (Dword × Nat)
  deriving DecidableEq, Repr

/-- A member context (R27, R69). -/
structure Member where
  /-- Exists (created and not destroyed). -/
  live : Bool
  /-- Home die, and the die-local number the GC gave (R54, R72). -/
  die : Nat
  localNo : Nat
  /-- Saved cores: register space, IMEM, control and snapshot area while off the dies (R69, R70). -/
  cores : Tab Core
  /-- Live bytes of the later parts of each core's control and snapshot area, as its last save recorded them (R69). -/
  saveLive : Tab (List Nat)
  /-- Saved map: granules whose data the vault save area holds (R72). -/
  saved : Tab Bool
  /-- Granules that are lost (R428): the next fill writes zero and poisons every word. -/
  lost : Tab Bool
  /-- Task pool, and per priority bank its ready tasks, oldest first, with the head's age (R39, R41). -/
  pool : Tab (Option Task)
  banks : Tab (List Nat)
  ages : Tab Nat
  relaxed : Bool
  lfsr : Nat
  /-- One past the clk of the last pop (R39). -/
  lastPop : Nat
  /-- SEED, LATECNT, NSWMAX (R204). -/
  seed : Dword
  latecnt : Nat
  /-- Footprint declarations in admission order (R297), producers of words of this die (R49). -/
  decls : List Decl
  producers : List Producer
  /-- One past the clk of the latest absorbed firing of a consumer of a word since the word's last fill (R50, R349). -/
  absorbed : Tab Nat
  jobs : Tab (Option Job)
  /-- Jobs whose predecessors have retired, in admission order, waiting for an engine (R296). -/
  jobOrder : List Nat
  triggers : Tab (Option Trigger)
  /-- Front end: parse positions per queue, packets not completed, waiting launches, panes (R28, R31, R359). -/
  parsed : Tab Nat
  packets : List Packet
  launches : List Launch
  panes : List Pane
  /-- Queues whose parsing waits (pool or job queue full): the packet has begun (R365). -/
  partials : Tab Nat
  dimmed : Bool
  /-- Applied clock A (R110), and the chains to and from each member: key 2·member + chain (R322). -/
  clock : Tab Nat
  outChain : Tab Chain
  inChain : Tab Chain
  /-- Packets beyond the 1,024 window, waiting at the origin (R322), and unacknowledged ones (R446). -/
  outWait : List Pkt
  retransmit : List Sent
  unreachable : List Nat
  /-- Vote counters (R61). -/
  sent : Nat
  received : Nat
  /-- Counter values latched for the vote under way. -/
  latched : Nat × Nat
  /-- Stamp wait buffer, collective landing buffer, network save area (R324, R330, R64). -/
  stampWait : List (Pkt × Nat)
  /-- Packets whose stamp cannot be rebuilt yet (R323). -/
  unbuilt : List (Pkt × Nat)
  landing : List Pkt
  netSave : List Pkt
  /-- Abort notices for collectives not active here (R451): CID and the member that aborted first. -/
  notices : List (Nat × Nat)
  /-- Slot records, held by member 0 (R65), and outside reads recorded (R60). -/
  slots : List RedSlot
  outside : List Access
  /-- Accesses under way when the context left its die (R70). -/
  accesses : List Access
  /-- The jobs of each engine, in round-robin order, while off the die (R67). -/
  engines : Tab (List Nat)
  /-- Snuffed: injects no packet (R60). -/
  snuffed : Bool
  /-- Clk at which the context left its die (R70, R71). -/
  offAt : Nat
  /-- Tickets (R327): destination member ↦ 0 none, 1 asked for, 1 + n called with n bytes left to send. -/
  tickets : Tab Nat
  /-- Rate limiters per target die (R326): a fraction of line rate, numerator and denominator, a multiple of 32. -/
  rate : Tab (Nat × Nat)
  /-- Clk of the last ECHO from, or rise toward, each target die (R326). -/
  echoAt : Tab Nat
  deriving DecidableEq, Repr

/-- A member context before it is created. -/
def Member.blank : Member :=
  { live := false, die := 0, localNo := 0, cores := [], saveLive := [], saved := [], lost := [], pool := [], banks := [], ages := [], relaxed := false, lfsr := 0xACE1, lastPop := 0,
    seed := 0, latecnt := 0, decls := [], producers := [], absorbed := [], jobs := [], jobOrder := [], triggers := [], parsed := [], packets := [],
    launches := [], panes := [], partials := [], dimmed := false, clock := [], outChain := [], inChain := [], outWait := [],
    retransmit := [], unreachable := [], sent := 0, received := 0, latched := (0, 0), stampWait := [], unbuilt := [], landing := [], netSave := [], notices := [],
    slots := [], outside := [], accesses := [], engines := [], snuffed := false, offAt := 0, tickets := [], rate := [], echoAt := [] }

/-! ### Virtual devices -/

/-- The states of a VD (R75, R396); the strike page reads their codes. -/
inductive VdState where
  | running | collapsing | pilot | waking | killed
  deriving DecidableEq, Repr

/-- What the strike page reads (R75, R396). -/
def VdState.code : VdState → Nat
  | .running => 0 | .collapsing => 1 | .pilot => 2 | .waking => 3 | .killed => 4

/-- An Ethernet endpoint of a VD (R356, R357). -/
structure Endpoint where
  params : EndpointParams
  pair : Nat
  up : Bool
  unreachable : Bool
  psn : Nat
  seen : List Nat
  expect : Nat
  unacked : List (Dgram × Nat × Nat)
  /-- Job tags of the datagrams received since the last ACK (R357). -/
  owed : List Nat
  /-- Rate as a fraction of the port rate, numerator and denominator, a multiple of 32 (R357). -/
  rate : Nat × Nat
  lastEcho : Nat
  peerLen : Nat
  /-- How many keys the pair has had (R355). -/
  keyNo : Nat
  deriving DecidableEq, Repr

/-- A virtual device (R26, R368). -/
structure VD where
  live : Bool
  params : VdParams
  gang : Nat
  vf : Nat
  state : VdState
  /-- Logical home dies, member m on the m-th (R54). -/
  dies : List Nat
  /-- Page table: key level·2^40 + index path, raw entry dwords (R92); entries in poisoned lines (R461). -/
  pt : Tab Dword
  ptPoison : Tab Bool
  queueVa : Nat
  strikeVa : Nat
  /-- Where BAR2's 4 GiB window begins (R352). -/
  bar2 : Nat
  /-- The model's own: where the queue table pages lie, member by member (R358). -/
  tables : List Nat
  /-- Bytes of declared memory in use per VD (R210). -/
  memUsed : Nat
  /-- A strike held until collapse ends (R76), and struck-at time for the bound of R77. -/
  struck : Bool
  struckAt : Nat
  /-- Idle timer and when it last ran (R75). -/
  idleSince : Option Nat
  /-- Since when the gang waits for backfill (R55). -/
  waitSince : Nat
  /-- Refusals and capture overflows in a row (R425, R426). -/
  refusals : Nat
  overflows : Nat
  /-- The first packet after a wake has started (R77); its wake is past its bound (R431). -/
  started : Bool
  late : Bool
  /-- What has held the wake (R424, KIND 0x08), and pages found poisoned during collapse and wake (R433). -/
  lateWhy : Nat
  badPages : List Nat
  endpoints : Tab (Option Endpoint)
  /-- Signal stub pages: VA, expiry clk, expired (R372). -/
  stubs : List (Nat × Nat × Bool)
  /-- Where the VD has moved to: package and VD (R371). -/
  movedTo : Option (Nat × Nat)
  /-- Number of encryption keys it has had; 0 once erased (R91, R471). -/
  keyNo : Nat
  deriving DecidableEq, Repr

/-- A VD before creation. -/
def VD.blank : VD :=
  { live := false,
    params := { n := 0, memory := 0, winLo := 0, winHi := 0, wakeClass := 1, keep := [], initLaunch := none, idleTimeout := none,
                hangt := 0, nswmax := 42500, priority := 0, homeSlot := none, homeDies := none, backfill := false, deadline := 8500,
                signalPages := [] },
    gang := 0, vf := 0, state := .running, dies := [], pt := [], ptPoison := [], queueVa := 0, strikeVa := 0, bar2 := 0, tables := [], memUsed := 0,
    struck := false, struckAt := 0, idleSince := none, waitSince := 0, refusals := 0, overflows := 0, started := true, late := false, lateWhy := 0, badPages := [], endpoints := [], stubs := [], movedTo := none,
    keyNo := 0 }

/-! ### Dies and switch dies -/

/-- A granule ownership entry (R72): OWNER and RES. -/
structure Granule where
  owner : Nat
  res : Nat
  deriving DecidableEq, Repr

/-- An entry with no data (R72). -/
def Granule.none : Granule := ⟨0xFF, 0⟩

/-- What an event of the opcode table is about: the operands of the event rows, which have no op word. -/
structure Subject where
  k : CoreId := ⟨0, 0⟩
  m : MemberId := ⟨0, 0⟩
  a : Nat := 0
  b : Nat := 0
  c : Nat := 0
  v : Dword := 0
  l : List Nat := []
  pkt : Option Pkt := none
  dgram : Option Dgram := none
  vd : Option VdParams := none
  ep : Option EndpointParams := none
  deriving DecidableEq, Repr

/-- What waits for a granule (R73): an access by number, an event of the dispatcher, an engine or a wick, or the bundle of a core. -/
inductive Waiter where
  | access (id : Nat)
  | event (i : Instr) (o : Subject)
  | bundle (k : CoreId)
  deriving DecidableEq, Repr

/-- A granule sequence under way (R73), for a member context, with what waits for it, in arrival order. -/
structure GranuleSeq where
  g : Nat
  vd : Nat
  member : Nat
  endAt : Nat
  started : Bool
  waiting : List Waiter
  deriving DecidableEq, Repr

/-- A page walk under way, and the accesses that wait for it; or a miss in the queue, which waits for a walker (R94). -/
structure Walk where
  vd : Nat
  page : Nat
  waiting : List Nat
  /-- Holds a walker (true) or stands in the miss queue. -/
  active : Bool
  write : Bool
  deriving DecidableEq, Repr

/-- A merging write-queue entry (R98): point, 64-byte line, operation, element bytes, pending operands by byte offset, the clk of
the last operand, the agents with a reduction in it. -/
structure Merge where
  line : Nat
  op : AmoOp
  n : Nat
  pend : Tab Dword
  last : Nat
  agents : List Nat
  deriving DecidableEq, Repr

/-- Power states of a die (R377). -/
inductive Power where
  | active | gated | retention | off
  deriving DecidableEq, Repr

/-- One logical Calsuer die with its vault die (R17, R19). -/
structure Die where
  /-- The member context that holds the die. -/
  ctx : Option MemberId
  gran : Tab Granule
  seqs : List GranuleSeq
  /-- Die TLB and walk cache, most recently used first (R93): of the walk cache the VD and the level and index path of a table entry. -/
  tlb : List TlbEntry
  wcache : List (Nat × Nat)
  walks : List Walk
  merges : List Merge
  /-- Full/empty and barrier wait queues: word key ↦ access ids in arrival order (R273). -/
  queues : Tab (List Nat)
  /-- Heat tables of the die's stacks: 64 KiB region ↦ 256·counter… as counter·64 + prescaler (R99). -/
  heat : Tab Nat
  /-- Active jobs of the four engines, in round-robin order (R296). -/
  engines : Tab (List Nat)
  /-- Another physical position than the one at reset, 17·(d div 16) + d mod 16 (R13, R58). -/
  position : Option Nat
  /-- The spare that stands ready to take the logical die's place at its next relight (R430). -/
  newPosition : Option Nat
  power : Power
  vaultPower : Power
  /-- HBM stacks, 0 and 1, in self-refresh (R14, R77). -/
  refresh : Tab Bool
  /-- Duty in sixteenths (R378), and the cap an over-temperature or coolant alarm sets (R379). -/
  duty : Nat
  dutyCap : Nat
  failed : Bool
  /-- Ticket mode: window counts, next ticket number, next to call, outstanding (R327). -/
  ticketMode : Bool
  arrivals : Nat
  marked : Nat
  ticketNext : Nat
  ticketCall : Nat
  lastCall : Nat
  ingress : Nat
  /-- Clk of the correctable errors of the last hour by row (R101); the stack's parity stands above the row. -/
  rowErrors : Tab (List Nat)
  /-- Rows retired without a spare (R101): every frame with a line in one of them is offline. -/
  offline : Tab Bool
  /-- Snuffed by the vote under way since this clk: an nsw.on freezes (R60). -/
  snuffing : Bool
  /-- Its cores are stopped by a relight under way (R68). -/
  stopped : Bool
  /-- The switch position of its next packet on X (R317). -/
  xnext : Nat
  /-- Who holds which ticket number (R327): number ↦ 1 + source member key. -/
  tickets : Tab Nat
  deriving DecidableEq, Repr

/-- A die at reset. -/
def Die.reset : Die :=
  { ctx := none, gran := [], seqs := [], tlb := [], wcache := [], walks := [], merges := [], queues := [], heat := [], engines := [],
    position := none, newPosition := none, power := .gated, vaultPower := .active, refresh := [], duty := 16, dutyCap := 16, failed := false,
    ticketMode := false, arrivals := 0, marked := 0, ticketNext := 0, ticketCall := 0, lastCall := 0, ingress := 0, rowErrors := [],
    offline := [], snuffing := false, stopped := false, xnext := 0, tickets := [] }

/-- One logical switch position (R15, R20). -/
structure Switch where
  slots : Tab (Option RedSlot)
  /-- Per gang: drop counter (R336), vote counters (R61). -/
  drops : Tab Nat
  sent : Tab Nat
  received : Tab Nat
  /-- Another physical switch die than the position's own number (R15); down. -/
  physical : Option Nat
  down : Bool
  heartbeats : Nat
  /-- Bytes queued per output die (R326). -/
  outQueue : Tab Nat
  /-- Expansion-tier heat (R99) and whether the expansion port is up (R468). -/
  heat : Tab Nat
  tierUp : Bool
  deriving DecidableEq, Repr

/-- A switch at reset. -/
def Switch.reset : Switch :=
  { slots := [], drops := [], sent := [], received := [], physical := none, down := false, heartbeats := 0, outQueue := [],
    heat := [], tierUp := true }

/-- A readable migration (R100): the page at `va` of `size` bytes goes from the byte `src` of its target to the byte `dst` of the other; the mig ops
that wait for its status (R315). -/
structure Migration where
  vd : Nat
  member : Nat
  va : Nat
  size : Nat
  toTier : Bool
  src : Nat
  dst : Nat
  waiting : List Nat
  /-- 0 waits for the engine of its switch (R20), 1 to 3 the step under way, and the clk at which step 3 began; a frame it had to give up (R467). -/
  step : Nat
  holdAt : Nat
  retried : Bool
  /-- The dirty map: 256-byte sectors of the page written and not yet copied again; and the hold buffer: accesses in arrival order. -/
  dirty : List Nat
  held : List Nat
  deriving DecidableEq, Repr

/-- An invalidation the memory wick has sent (R95): VD and address range, the dies that have not applied it, and those that have not acknowledged it. -/
structure Inval where
  no : Nat
  vd : Nat
  lo : Nat
  hi : Nat
  todo : List Nat
  left : List Nat
  deriving DecidableEq, Repr

/-! ### Gang controller, wicks, platform -/

/-- Cell states (R53), by VD number. -/
inductive Cell where
  | empty | home (vd : Nat) | idle (vd : Nat) | fill (vd : Nat)
  deriving DecidableEq, Repr

/-- States of a vote (R63). -/
inductive VoteState where
  | idle | snuffing | summing | holding | relighting | backoff
  deriving DecidableEq, Repr

/-- The vote under way (R59 to R63). -/
structure Vote where
  st : VoteState
  v : Nat
  round : Nat
  leaving : List Nat
  coming : List Nat
  /-- The slot that becomes current once the vote ends. -/
  slot : Nat
  sentAt : Nat
  /-- Clk of the last message that asks for an answer (R427). -/
  askedAt : Nat
  /-- Drain deadline in clk (R62). -/
  deadline : Nat
  /-- Counters received this round: party, gang, sent, received. -/
  counts : List (Nat × Nat × Nat × Nat)
  /-- Dies of the switch that relight. -/
  dies : List Nat
  /-- Parties that have reported: HELD or LIT. -/
  reported : List Nat
  hold : List Nat
  /-- A capture point has left packets (R426). -/
  overflow : Bool
  /-- Parties declared failed (R427). -/
  failed : List Nat
  /-- The kill vote of R396: members do not refuse. -/
  kill : Bool
  /-- A restricted vote that is not a slot switch. -/
  restricted : Bool
  /-- Cells that change when its RELIGHT is sent: key, state before, state after; until then the leaving gangs keep them (R63). -/
  changes : List (Nat × Cell × Cell)
  deriving DecidableEq, Repr

/-- No vote. -/
def Vote.none : Vote :=
  { st := .idle, v := 0, round := 0, leaving := [], coming := [], slot := 0, sentAt := 0, askedAt := 0, deadline := 17000, counts := [], dies := [],
    reported := [], hold := [], overflow := false, failed := [], kill := false, restricted := false, changes := [] }

/-- The gang controller (R53 to R58). -/
structure GC where
  slots : Nat
  quanta : Tab Nat
  cells : Tab Cell          -- key 256·slot + logical die
  cur : Nat
  vote : Vote
  backfill : List Nat
  voteNo : Nat
  quantumEnd : Nat
  running : Bool
  /-- A slot count and quanta to take over at the next slot boundary (R55). -/
  pending : Option (Nat × Tab Nat)
  deriving DecidableEq, Repr

/-- A report the part sends out: to a process, telemetry, the host (second half of the manual). -/
structure Report where
  /-- 0 gang event, 1 fabric event, 2 memory event, 3 kill record, 4 parse report, 5 REPORT svc, 6 telemetry, 7 alarm, 8 reply, 9 datagram. -/
  kind : Nat
  code : Nat
  vd : Nat
  member : Nat
  core : Nat
  clk : Nat
  args : List Nat
  deriving DecidableEq, Repr

/-- The gang controller at reset: one slot of 2 ms, every cell EMPTY (R55, R375). -/
def GC.reset : GC :=
  { slots := 1, quanta := [], cells := [], cur := 0, vote := Vote.none, backfill := [], voteNo := 0, quantumEnd := 0, running := false, pending := none }

/-- A wick (R367, R376). -/
structure Wick where
  /-- Mailboxes 0 to 7: messages, oldest first. -/
  boxes : Tab (List (List Dword))
  bank : Nat
  version : Nat
  pendingUpdate : Option (Nat × Nat)
  deriving DecidableEq, Repr

/-- A wick at reset. -/
def Wick.reset : Wick := ⟨[], 0, 0, none⟩

/-- A link or port (R319, R441, R442): active lanes that work, spare lanes left, receive buffer banks in service. -/
structure Link where
  up : Bool
  lanes : Nat
  spares : Nat
  banks : Nat
  /-- Stage of training it has passed (R319): 0 none, 1 lane detect, 2 equalisation, 3 deskew, 4 flit lock. -/
  stage : Nat
  deriving DecidableEq, Repr

/-- A fabric port at reset: 16 lanes of 18 active, 4 buffer banks. -/
def Link.reset : Link := ⟨true, 16, 2, 4, 4⟩
/-- A reach link at reset, before it is trained (R319). -/
def Link.untrained : Link := ⟨false, 16, 2, 4, 0⟩

/-- The platform (R373 to R382, R459 to R475). -/
structure Platform where
  /-- Boot step reached, 0 to 7; 7 accepts requests (R373). -/
  boot : Nat
  /-- Image slots A and B verify; the slot marker; recovery images failed in a row (R374). -/
  imageA : Bool
  imageB : Bool
  active : Nat
  badImages : Nat
  /-- Configuration (R375). -/
  powerCap : Nat
  inletLimit : Nat
  drain : Nat
  mgmtAddr : Nat
  slotCount : Nat
  slotQuanta : Tab Nat
  /-- The fields of the configuration record as the record store holds it (R375): module power cap, inlet limit, drain deadline in µs, management address,
  then the quantum of each slot; empty where the record holds the defaults. -/
  config : List Nat
  /-- Repair and retirement records of the record store of each management die, oldest first: kind, arguments (R20, R22, R101, R382, R465). -/
  records : Tab (List (Nat × List Nat))
  /-- Records whose write failed: record and retries (R465). -/
  pendingRecords : List (Nat × List Nat × Nat)
  /-- Remaps in force: row ↦ spare (R101); spare rows used per bank (R465). -/
  remaps : Tab Nat
  sparesUsed : Tab Nat
  /-- Spare compute dies used per row (R14), spare switch dies used (R15). -/
  spareDies : Tab Bool
  /-- Steering of each row's HBM switches (R14): 1 + the place whose two stacks are connected to the row's spare, 0 when none are. -/
  steer : Tab Nat
  spareSwitches : Nat
  /-- Active management die, 0 or 1, and whether the standby answers (R25). -/
  mgmtDie : Nat
  standby : Bool
  /-- Reach links and fabric ports by number (R15, R319, R441): 0 to 47 reach links, 3·position + peer, and 64 + 18·p + w the port of physical
  compute position p to switch die w. -/
  links : Tab Link
  /-- Unused physical core column per physical compute position, 16 where nothing is listed (R17). -/
  columns : Tab Nat
  ethSplit : Tab Bool
  /-- Priorities with flow control per Ethernet port, as a mask (R354); ports lost with their switch position (R15). -/
  ethPfc : Tab Nat
  ethDown : Tab Bool
  /-- Host ports that are lost (R468). -/
  hostPorts : Tab Bool
  /-- Telemetry samples, newest first, at most 1,024 (R381), and counters by name. -/
  samples : List (List Nat)
  counters : Tab Nat
  /-- Inlet temperature in tenths of °C, flow in tenths of L/min, package power in W (R378, R379). -/
  inlet : Nat
  flow : Nat
  power : Nat
  lastRaise : Nat
  /-- Rails off after a thermal stop (R379). -/
  stopped : Bool
  /-- Frozen by a level 2 alarm; erased by a level 3 alarm (R474). -/
  frozen : Bool
  erased : Bool
  /-- One past the clk of the last violation of code c (key 2·c) and of the one before it (2·c + 1) (R473). -/
  violations : Tab Nat
  /-- Next XMSS one-time index (R475). -/
  xmss : Nat
  updateFailures : Nat
  nextPair : Nat
  deriving DecidableEq, Repr

/-- The platform at power-on, before the boot ROM runs (R373, R375 defaults). -/
def Platform.reset : Platform :=
  { boot := 0, imageA := true, imageB := true, active := 0, badImages := 0, powerCap := 16500, inletLimit := 40, drain := 20, mgmtAddr := 0x4E, slotCount := 1, slotQuanta := [],
    config := [], records := [], pendingRecords := [], remaps := [], sparesUsed := [], spareDies := [], steer := [], spareSwitches := 0, mgmtDie := 0, standby := true,
    links := [], columns := [], ethSplit := [], ethPfc := [], ethDown := [], hostPorts := [], samples := [], counters := [], inlet := 250, flow := 240, power := 0,
    lastRaise := 0, stopped := false, frozen := false, erased := false, violations := [], xmss := 0, updateFailures := 0, nextPair := 1 }

end Sys2Proof.Machine
end

