-- ==== Sys2Proof/Machine/State.lean ====
section
/-!
DEFINITION. State.lean: the whole machine as plain data, what stops it, and the machine right after power-on reset.
-/
namespace Sys2Proof.Machine

/-- A thing due at a clk: an event of the table, or an access reaching its point of performance or returning. -/
inductive Act where
  /-- An event of the opcode table happens to a subject. -/
  | event (i : Instr) (o : Subject)
  /-- Access `id` reaches its point of performance (R102). -/
  | perform (id : Nat)
  deriving DecidableEq, Repr

/-- An agenda entry. -/
structure Due where
  at_ : Nat
  act : Act
  deriving DecidableEq, Repr

/-- The state of the package. -/
structure State where
  /-- CYCLE (R204): the clk counter, one for the package (the ±2 clk skew is not shown). -/
  clk : Nat
  /-- The model's own: how many free values have been drawn. -/
  fresh : Nat
  /-- The model's own: the core whose op is being executed. -/
  focus : CoreId
  /-- The model's own: the operands of the event being executed. -/
  subject : Subject
  /-- The model's own: what is due, by time of entry. -/
  agenda : List Due
  /-- The model's own: what was due for the cores and engines of a member context that is off its die, with the times it was due at (R68,
  R70), by member key. -/
  paused : Tab (List Due)
  /-- Every byte store of the package by physical key: vaults, HBM, expansion tier, host memory, vault save areas (R22, R69). -/
  mem : List Host.Cell
  /-- Full vault words (R88), by the key of the word. -/
  fe : Tab Bool
  /-- Poisoned 8-byte words (R463), by the key of the word. -/
  poison : Tab Bool
  /-- Cores by 512·die + core index (R18). -/
  cores : Tab Core
  /-- Accesses under way (R102), oldest first, and the next access or result number. -/
  accesses : List Access
  nextId : Nat
  dies : Tab Die
  switches : Tab Switch
  /-- Member contexts by 256·VD + member (R27). -/
  members : Tab Member
  vds : Tab VD
  gc : GC
  wicks : Tab Wick
  migrations : List Migration
  /-- Invalidations under way, oldest first (R95), and the number of the next. -/
  invals : List Inval
  nextInval : Nat
  /-- Records and settings of the platform. -/
  platform : Platform
  /-- Everything the part has sent out: event records, signals to processes, telemetry, oldest first (R423, R439, R459). -/
  reports : List Report
  deriving DecidableEq, Repr

/-- What stops the machine. -/
inductive Fault where
  /-- An op is executed at a core that runs no program (no member context on the die, a free or halted core, a core waiting for a
  trap entry): raised by the issue of a bundle; safe: the part issues nothing there. -/
  | notRunning
  /-- An event is asked for that cannot happen in this state (its unit, context, access or message is not there): raised by the
  events of the table; safe: the part never reaches it. -/
  | noSuchEvent
  deriving DecidableEq, Repr

/-- What the model gives no meaning. -/
inductive Refusal where
  /-- An arm without a meaning yet, by mnemonic; safe. -/
  | notModelled (mnemonic : String)
  deriving DecidableEq, Repr

/-- The outcome of a step. -/
abbrev Outcome := Host.Outcome State Fault Refusal

/-- The machine right after power-on reset (R7, R72, R204): nothing in memory, no member context on any die, an empty slot
matrix, every register at the reset value its map gives; the boot ROM is about to take its first step (R373). -/
def State.reset : State :=
  { clk := 0, fresh := 0, focus := ⟨0, 0⟩, subject := {}, agenda := [⟨0, .event .powerOnReset { a := 1 }⟩], paused := [], mem := [], fe := [], poison := [], cores := [], accesses := [], nextId := 1,
    dies := [], switches := [], members := [], vds := [], gc := GC.reset, wicks := [], migrations := [], invals := [], nextInval := 0, platform := Platform.reset,
    reports := [] }

end Sys2Proof.Machine
end

