-- ==== Sys2Proof/Machine/Ops.lean ====
section
/-!
DEFINITION. Ops.lean: the named operations over cores, register space, memory and the agenda, and taking a trap and returning
from one (R384 to R387).
-/
namespace Sys2Proof.Machine

/-! ### Reaching parts of the state -/

/-- The key of a core; index 256 stands for the die's own engines, which hold no core state. -/
def coreKey (k : CoreId) : Nat := 512 * k.die + k.core
/-- The key of a member context. -/
def memberKey (m : MemberId) : Nat := 256 * m.vd + m.member

/-- Read and write one core. -/
def State.core (s : State) (k : CoreId) : Core := Tab.get Core.reset s.cores (coreKey k)
@[inherit_doc State.core] def State.setCore (s : State) (k : CoreId) (c : Core) : State :=
  { s with cores := Tab.put Core.reset s.cores (coreKey k) c }
@[inherit_doc State.core] def State.modCore (s : State) (k : CoreId) (f : Core → Core) : State := s.setCore k (f (s.core k))
/-- Read and write one die. -/
def State.die (s : State) (d : Nat) : Die := Tab.get Die.reset s.dies d
@[inherit_doc State.die] def State.modDie (s : State) (d : Nat) (f : Die → Die) : State :=
  { s with dies := Tab.put Die.reset s.dies d (f (s.die d)) }
/-- Read and write one member context. -/
def State.member (s : State) (m : MemberId) : Member := Tab.get Member.blank s.members (memberKey m)
@[inherit_doc State.member] def State.modMember (s : State) (m : MemberId) (f : Member → Member) : State :=
  { s with members := Tab.put Member.blank s.members (memberKey m) (f (s.member m)) }
/-- Read and write one VD. -/
def State.vd (s : State) (n : Nat) : VD := Tab.get VD.blank s.vds n
@[inherit_doc State.vd] def State.modVd (s : State) (n : Nat) (f : VD → VD) : State :=
  { s with vds := Tab.put VD.blank s.vds n (f (s.vd n)) }
/-- Read and write one switch position. -/
def State.switch (s : State) (n : Nat) : Switch := Tab.get Switch.reset s.switches n
@[inherit_doc State.switch] def State.modSwitch (s : State) (n : Nat) (f : Switch → Switch) : State :=
  { s with switches := Tab.put Switch.reset s.switches n (f (s.switch n)) }

/-- Change the platform's record. -/
def State.modPlatform (s : State) (f : Platform → Platform) : State := { s with platform := f s.platform }
/-- Read and write one wick. -/
def State.wick (s : State) (w : Nat) : Wick := Tab.get Wick.reset s.wicks w
@[inherit_doc State.wick] def State.modWick (s : State) (w : Nat) (f : Wick → Wick) : State :=
  { s with wicks := Tab.put Wick.reset s.wicks w (f (s.wick w)) }
/-- Mailbox w of wick w, which hardware writes: its messages, oldest first (R367). -/
def State.box (s : State) (w : Nat) : List (List Dword) := Tab.get [] (s.wick w).boxes w
@[inherit_doc State.box] def State.setBox (s : State) (w : Nat) (l : List (List Dword)) : State :=
  s.modWick w fun x => { x with boxes := Tab.put [] x.boxes w l }
/-- Dword 0 of a message (R367): source kind, source wick or die column, function and sequence number. -/
def boxHead (kind col fn seq : Nat) : Dword := BitVec.ofNat 64 (kind * 2 ^ 60 + col % 256 * 2 ^ 48 + fn % 2 ^ 24 * 2 ^ 24 + seq % 2 ^ 24)

/-- The member context that runs on a core's die. -/
def State.ctx (s : State) (k : CoreId) : Option MemberId := (s.die k.die).ctx
/-- The same, member 0 of VD 0 when there is none. -/
def State.ctxD (s : State) (k : CoreId) : MemberId := (s.ctx k).getD ⟨0, 0⟩

/-- Put something on the agenda. -/
def State.due (s : State) (at_ : Nat) (a : Act) : State := { s with agenda := s.agenda ++ [⟨at_, a⟩] }
/-- An event of the table after some clk. -/
def State.after (s : State) (n : Nat) (i : Instr) (o : Subject) : State := s.due (s.clk + n) (.event i o)
@[inherit_doc State.after] def State.afterK (s : State) (n : Nat) (i : Instr) (k : CoreId) : State := s.after n i { k := k }
@[inherit_doc State.after] def State.afterM (s : State) (n : Nat) (i : Instr) (m : MemberId) (a : Nat := 0) : State :=
  s.after n i { m := m, a := a }
/-- Send a report out of the part. -/
def State.report (s : State) (r : Report) : State := { s with reports := s.reports ++ [r] }
/-- Draw a fresh free value. -/
def State.draw (s : State) : State := { s with fresh := s.fresh + 1 }
/-- A fresh time that R479 leaves open, at least one clk. -/
def State.delay (s : State) : Nat := Config.freeDelay s.fresh + 1

/-- The schedule clk of a core: clk in which it was not frozen (R173). -/
def schedOf (s : State) (c : Core) : Nat := s.clk - c.frozen

/-! ### Memory keys: one flat space of physical bytes -/

/-- Vault byte: die and 30-bit V-address. -/
def vaultKey (d a : Nat) : Nat := 1 * 2 ^ 80 + d * 2 ^ 64 + a
/-- HBM byte of a logical die's stacks. -/
def hbmKey (d a : Nat) : Nat := 2 * 2 ^ 80 + d * 2 ^ 64 + a
/-- Expansion-tier byte. -/
def tierKey (a : Nat) : Nat := 3 * 2 ^ 80 + a
/-- Host-memory byte, by VF (R352). -/
def hostKey (vf a : Nat) : Nat := 4 * 2 ^ 80 + vf * 2 ^ 64 + a
/-- Vault save area byte of a member: offset v·3 MiB + j·64 KiB (R69). -/
def saveKey (m : MemberId) (a : Nat) : Nat := 5 * 2 ^ 80 + memberKey m * 2 ^ 64 + a

/-- n bytes from a key. -/
def memBytes (m : Mem) (k : Nat) : Nat → List Byte
  | 0 => []
  | n + 1 => Tab.get 0 m k :: memBytes m (k + 1) n
/-- Write bytes from a key. -/
def memPut (m : Mem) (k : Nat) : List Byte → Mem
  | [] => m
  | b :: t => memPut (Tab.put 0 m k b) (k + 1) t
/-- A little-endian number of n bytes. -/
def memNat (m : Mem) (k n : Nat) : Nat := ofBytes (memBytes m k n)
/-- The dword at a key. -/
def memDword (m : Mem) (k : Nat) : Dword := BitVec.ofNat 64 (memNat m k 8)
/-- Write the n low bytes of a number. -/
def memPutNat (m : Mem) (k n v : Nat) : Mem := memPut m k (toBytes n v)

/-- The 256 bytes of a vector, byte 0 first. -/
def vecBytes (v : Vec) : List Byte := toBytes 256 v.toNat
/-- A vector from bytes. -/
def vecOf (l : List Byte) : Vec := BitVec.ofNat 2048 (ofBytes l)

/-- Poison units a write covers wholly lose their poison; partly covered ones keep it (R464). Unit u bytes. -/
def clearPoison (p : Tab Bool) (k n u : Nat) : Tab Bool :=
  p.filter (fun e => !(decide (k ≤ e.1 / u * u) && decide (e.1 / u * u + u ≤ k + n)))
/-- The poison unit of a key: 8 bytes in a vault, 64 in HBM and behind ports (R463). -/
def poisonUnit (k : Nat) : Nat := if k / 2 ^ 80 = 1 ∨ k / 2 ^ 80 = 5 then 8 else 64
/-- A byte of the range is poisoned. -/
def poisoned (s : State) (k n : Nat) : Bool :=
  s.poison.any (fun e => decide (e.1 < k + n) && decide (k < e.1 + 8))

/-- The address of a poisoned access as TVAL names it (R393): its own, or for a wide one that of the first failing 16-byte part; `k` is the
key of address `a`. -/
def poisonAddr (s : State) (k a n : Nat) : Nat :=
  if n ≤ 16 then a
  else match (List.range (n / 8)).find? fun i => poisoned s (k + 8 * i) 8 with
    | some i => (a + 8 * i) / 16 * 16
    | none => a

/-- Write bytes to physical memory, clearing poison (R464). -/
def State.store (s : State) (k : Nat) (l : List Byte) : State :=
  { s with mem := memPut s.mem k l, poison := clearPoison s.poison k l.length (poisonUnit k) }
/-- Read a number from physical memory. -/
def State.load (s : State) (k n : Nat) : Nat := memNat s.mem k n

/-! ### Control registers (R204) -/

/-- A view register's fields (R80). -/
def viewKind (v : Dword) : Nat := bitsN v.toNat 63 62
@[inherit_doc viewKind] def viewType (v : Dword) : Nat := bitsN v.toNat 61 58
@[inherit_doc viewKind] def viewBase (v : Dword) : Nat := bitsN v.toNat 57 48
@[inherit_doc viewKind] def viewCount (v : Dword) : Nat := bitsN v.toNat 47 39
@[inherit_doc viewKind] def viewRows (v : Dword) : Nat := bitsN v.toNat 38 28
@[inherit_doc viewKind] def viewCols (v : Dword) : Nat := bitsN v.toNat 27 17

/-- CORECOORD of a core (R208). -/
def coreCoord (k : CoreId) : Dword := BitVec.ofNat 64 (k.core * 256 + k.core / 16 * 16 + k.core % 16)

/-- Read a control register of a core at the issue clk (R203, R204). -/
def readCr (s : State) (k : CoreId) (n : Nat) : Dword :=
  let c := s.core k
  let m := s.ctxD k
  match n with
  | 0x000 => BitVec.ofNat 64 c.tl
  | 0x001 => c.tvec
  | 0x002 => c.trapen
  | 0x010 => BitVec.ofNat 64 c.bank1.cause
  | 0x011 => BitVec.ofNat 64 c.bank1.ret
  | 0x012 => c.bank1.val
  | 0x013 => BitVec.ofNat 64 c.bank1.slot
  | 0x014 => c.tsave1
  | 0x020 => BitVec.ofNat 64 c.bank2.cause
  | 0x021 => BitVec.ofNat 64 c.bank2.ret
  | 0x022 => c.bank2.val
  | 0x023 => BitVec.ofNat 64 c.bank2.slot
  | 0x024 => c.tsave2
  | 0x030 => BitVec.ofNat 64 c.rpa
  | 0x031 => BitVec.ofNat 64 c.rpseq
  | 0x040 => coreCoord k
  | 0x041 => c.pane
  | 0x042 => BitVec.ofNat 64 m.member
  | 0x043 => BitVec.ofNat 64 (s.vd m.vd).params.n
  | 0x050 => BitVec.ofNat 64 s.clk
  | 0x051 => (s.member m).seed
  | 0x052 => BitVec.ofNat 64 (s.vd m.vd).params.nswmax
  | 0x060 => BitVec.ofNat 64 (b2n c.wdrawn)
  | 0x061 => BitVec.ofNat 64 (s.member m).latecnt
  | n =>
    if 0x80 ≤ n ∧ n ≤ 0x87 then Tab.get 0 c.views (n - 0x80)
    else if 0x100 ≤ n ∧ n ≤ 0x187 then Tab.get 0 c.ctab (n - 0x100)
    else 0

/-- The access a control register allows: RW at TL0, RW at TL1 and TL2 (R204, R207). -/
def crRw (tl n : Nat) : Bool :=
  let tl0 := decide (n = 1) || decide (n = 2) || decide (n = 0x14) || decide (n = 0x24) || decide (n = 0x51)
    || decide (0x80 ≤ n ∧ n ≤ 0x87) || decide (0x100 ≤ n ∧ n ≤ 0x187)
  tl0 || (decide (tl ≠ 0) && (decide (0x10 ≤ n ∧ n ≤ 0x14) || decide (0x20 ≤ n ∧ n ≤ 0x24) || decide (n = 0x30) || decide (n = 0x31)))

/-- The bits a write keeps: reserved bits read as zero (R8, R205 to R207, R80, R411). -/
def crMask (n : Nat) : Dword :=
  if n = 1 then 0x000007FF000007FF
  else if n = 2 then 1
  else if n = 0x10 ∨ n = 0x20 then 0xFF
  else if n = 0x11 ∨ n = 0x21 ∨ n = 0x30 then 0x7FF
  else if n = 0x13 ∨ n = 0x23 then 7
  else if n = 0x14 ∨ n = 0x24 then 0x3FFFFE00
  else if n = 0x31 then 0xFFFFFFFF
  else if 0x80 ≤ n ∧ n ≤ 0x87 then 0xFFFFFFFFFFFE0000
  else 0xFFFFFFFFFFFFFFFF

/-- The dispatcher LFSR's load value (R41). -/
def lfsrOf (v : Dword) : Nat := if v.toNat % 65536 = 0 then 0xACE1 else v.toNat % 65536

/-- A crw lands (R203): the register takes the value; SEED reloads the LFSR (R41). -/
def writeCr (s : State) (k : CoreId) (n : Nat) (v0 : Dword) : State :=
  let v := v0 &&& crMask n
  let up (f : Core → Core) : State := s.modCore k f
  match n with
  | 0x001 => up fun c => { c with tvec := v }
  | 0x002 => up fun c => { c with trapen := v }
  | 0x010 => up fun c => { c with bank1 := { c.bank1 with cause := v.toNat } }
  | 0x011 => up fun c => { c with bank1 := { c.bank1 with ret := v.toNat } }
  | 0x012 => up fun c => { c with bank1 := { c.bank1 with val := v } }
  | 0x013 => up fun c => { c with bank1 := { c.bank1 with slot := v.toNat } }
  | 0x014 => up fun c => { c with tsave1 := v }
  | 0x020 => up fun c => { c with bank2 := { c.bank2 with cause := v.toNat } }
  | 0x021 => up fun c => { c with bank2 := { c.bank2 with ret := v.toNat } }
  | 0x022 => up fun c => { c with bank2 := { c.bank2 with val := v } }
  | 0x023 => up fun c => { c with bank2 := { c.bank2 with slot := v.toNat } }
  | 0x024 => up fun c => { c with tsave2 := v }
  | 0x030 => up fun c => { c with rpa := v.toNat }
  | 0x031 => up fun c => { c with rpseq := v.toNat }
  | 0x051 => s.modMember (s.ctxD k) fun m => { m with seed := v, lfsr := lfsrOf v }
  | n =>
    if 0x80 ≤ n ∧ n ≤ 0x87 then up fun c => { c with views := Tab.put 0 c.views (n - 0x80) v }
    else if 0x100 ≤ n ∧ n ≤ 0x187 then up fun c => { c with ctab := Tab.put 0 c.ctab (n - 0x100) v }
    else s

/-! ### Registers of a core -/

/-- x register n: x0 reads zero (R190). -/
def Core.readX (c : Core) (n : Nat) : Dword := if n = 0 then 0 else Tab.get 0 c.x n
/-- Write an x register: a write to x0 is discarded (R191). -/
def Core.writeX (c : Core) (n : Nat) (v : Dword) : Core := if n = 0 then c else { c with x := Tab.put 0 c.x n v }
/-- Predicate register n. -/
def Core.readP (c : Core) (n : Nat) : Dword := Tab.get 0 c.p n
/-- The history of the current trap level (R384). -/
def Core.hist (c : Core) : List BundleRec :=
  if c.tl = 0 then c.hist0 else if c.tl = 1 then c.hist1 else c.hist2

/-- Lane-masked write of a vector over an old one (R222). -/
def laneMerge (mask : Dword) (new old : Vec) : Vec :=
  vecOf ((List.range 256).map fun i =>
    if mask.getLsbD (i / 4) then BitVec.extractLsb' (8 * i) 8 new else BitVec.extractLsb' (8 * i) 8 old)

/-- Bytes of register space. -/
def Core.rsBytes (c : Core) (a n : Nat) : List Byte := memBytes c.rs a n
/-- Write bytes of register space; a whole 8-byte word written loses its error. -/
def Core.rsPut (c : Core) (a : Nat) (l : List Byte) : Core :=
  { c with rs := memPut c.rs a l, rsPoison := clearPoison c.rsPoison a l.length 8 }
/-- Write the lanes of a vector that a mask selects. -/
def Core.rsPutLanes (c : Core) (a : Nat) (mask : Dword) (v : Vec) : Core :=
  let c := (List.range 64).foldl (fun c i =>
    if mask.getLsbD i then c.rsPut (a + 4 * i) (toBytes 4 (BitVec.extractLsb' (32 * i) 32 v).toNat) else c) c
  { c with rsPoison := c.rsPoison.filter fun e =>
      !(decide (a ≤ e.1) && decide (e.1 < a + 256) && mask.getLsbD ((e.1 - a) / 8 * 2) && mask.getLsbD ((e.1 - a) / 8 * 2 + 1)) }

/-- Write the BASE field of a stream register (R178). -/
def Core.putBase (c : Core) (n : Nat) (v : Dword) : Core :=
  let r := Tab.get StreamReg.zero c.streams n
  { c with streams := Tab.put StreamReg.zero c.streams n { r with d0 := (r.d0 &&& 0xFFF0000000000000) ||| (v &&& 0x000FFFFFFFFFFFFF) } }

/-- A value lands at its destination (R85, R191, R222). -/
def landVal (s : State) (k : CoreId) (d : Dest) (v : Val) : State :=
  match d, v with
  | .x n, .s v => s.modCore k fun c => c.writeX n v
  | .p n, .p mask v => s.modCore k fun c => { c with p := Tab.put 0 c.p n ((c.readP n &&& ~~~mask) ||| (v &&& mask)) }
  | .p n, .s v => s.modCore k fun c => { c with p := Tab.put 0 c.p n v }
  | .ofS sl n, .s v => s.modCore k fun c => { c with ofS := Tab.put 0 c.ofS (16 * sl + n) v }
  | .ofV sl n, .v mask v =>
    s.modCore k fun c => { c with ofV := Tab.put 0 c.ofV (16 * sl + n) (laneMerge mask v (Tab.get 0 c.ofV (16 * sl + n))) }
  | .rs a, .v mask v => s.modCore k fun c => c.rsPutLanes a mask v
  | .rs a, .bytes l => s.modCore k fun c => c.rsPut a l
  | .stream n, .stream r => s.modCore k fun c => { c with streams := Tab.put StreamReg.zero c.streams n r }
  | .base n, .s v => s.modCore k fun c => c.putBase n v
  | .cr n, .s v => writeCr s k n v
  | _, _ => s

/-! ### Latches (R84) -/

/-- The entry a latch operand names, if that bundle made one. -/
def latchEntry (c : Core) (ix : Nat) : Option LatchEntry :=
  match c.hist[ix % 8 - 1]? with
  | some r => r.find? (fun e => decide (e.slot = ix / 512))
  | none => none

/-- Bind the value of result `rid` in every history. -/
def bindHist (rid : Nat) (v : LatchVal) (h : List BundleRec) : List BundleRec :=
  h.map fun r => r.map fun e => if e.rid = rid then { e with val := v } else e

/-! ### Traps (R385 to R387) -/

/-- The loop sequencer's targets keep their values; the nest is inactive (R180). -/
def Core.endNest (c : Core) : Core := { c with nest := Nest.none, loopBuf := [] }

/-- No fixed-latency result, divider, V or M engine and no tagged access of the core is under way, but for those in a full/empty
or barrier queue (R385). -/
def drained (s : State) (k : CoreId) : Bool :=
  let c := s.core k
  c.results.isEmpty && c.mops.isEmpty && c.binds.isEmpty && c.svc.isNone
    && c.busy.all (fun e => decide (e.2 ≤ schedOf s c))
    && s.accesses.all (fun a => decide (a.k ≠ k) || decide (a.tag = 0) || decide (a.st = .queued))

/-- Every op of the core has finished (R216): drained, and every tag ready. -/
def finished (s : State) (k : CoreId) : Bool := drained s k && (s.core k).tags.isEmpty

/-- The kill record of R396, step 1. -/
def killReport (s : State) (k : CoreId) (r : TrapReq) : Report :=
  let c := s.core k
  let m := s.ctxD k
  { kind := 3, code := r.cause, vd := m.vd, member := m.member, core := k.core, clk := s.clk,
    args := [r.cause, r.ret, r.val.toNat, r.slot, c.bank1.cause, c.bank1.ret, c.bank1.val.toNat, c.bank1.slot, c.bank2.cause, c.bank2.ret,
             c.bank2.val.toNat, c.bank2.slot, c.tl, c.rpa, c.rpseq, k.core] ++ (List.range 8).map (fun i => (c.readX (56 + i)).toNat)
            ++ (memBytes s.mem (vaultKey k.die c.tsave1.toNat) 512).map (·.toNat)
            ++ (memBytes s.mem (vaultKey k.die c.tsave2.toNat) 512).map (·.toNat) }

/-- The core cannot issue any more until its context is relit or its VD reset. -/
def stopCore (c : Core) : Core := { c with run := .halted, trap := none, ending := none, svc := none }

/-- A context kill begins (R396, steps 1 to 3): the record goes out, every core of the member stops, the VD is marked killed, and
the gang controller takes the gang off its dies by the kill vote; the rest follows in ABORTED_WRITE. -/
def contextKill (s : State) (k : CoreId) (r : TrapReq) : State :=
  let m := s.ctxD k
  let s := s.report (killReport s k r)
  if (s.vd m.vd).state = .killed then s
  else
    let s := { s with cores := s.cores.map fun (e : Nat × Core) => if e.1 / 512 = k.die then (e.1, stopCore e.2) else e }
    let s := s.modVd m.vd fun v => { v with state := .killed }
    s.after 1 .abortedWrite { a := m.vd }

/-- The save-area write of level n (R385): x60 to x63, p0, p1, CYCLE and zero. -/
def entryBytes (s : State) (c : Core) : List Byte :=
  ((List.range 4).map (fun i => c.readX (60 + i)) ++ [c.readP 0, c.readP 1, BitVec.ofNat 64 s.clk, 0]).flatMap fun v => toBytes 8 v.toNat

/-- The V-address is inside the vault window and the vault (R86): n bytes from a. -/
def vaultOk (s : State) (m : MemberId) (a n : Nat) : Bool :=
  decide (a < 2 ^ 30) && decide (a % Config.vaultStride + n ≤ Config.vaultBytes)
    && decide ((s.vd m.vd).params.winLo ≤ a % Config.vaultStride) && decide (a % Config.vaultStride + n ≤ (s.vd m.vd).params.winHi)

/-- Address form of TVAL (R393). -/
def addrForm (ea : Nat) (w deferred : Bool) : Dword :=
  BitVec.ofNat 64 (ea / 2 ^ 62 * 2 ^ 62 + b2n w * 2 ^ 61 + b2n deferred * 2 ^ 60 + ea % 2 ^ 52)

/-- A trap found at a boundary; one already found keeps its place unless the new one is a class D fault of an earlier op (R390). -/
def raiseTrap (s : State) (k : CoreId) (r : TrapReq) : State :=
  s.modCore k fun c =>
    match c.trap with
    | none => { c with trap := some r }
    | some old =>
      if r.cls = .D ∧ (old.cls ≠ .D ∨ r.issue < old.issue ∨ (r.issue = old.issue ∧ r.slot < old.slot)) then
        { c with trap := some r, nswRaised := if old.cause = 0x14 then false else c.nswRaised }
      else c

/-- Write bank n. -/
def Core.setBank (c : Core) (n : Nat) (b : Bank) : Core := if n = 1 then { c with bank1 := b } else { c with bank2 := b }
/-- Bank n. -/
def Core.bank (c : Core) (n : Nat) : Bank := if n = 1 then c.bank1 else c.bank2
/-- TSAVEn as an address (R207). -/
def Core.tsave (c : Core) (n : Nat) : Nat := if n = 1 then c.tsave1.toNat else c.tsave2.toNat
/-- The handler entry of level n (R205). -/
def Core.vector (c : Core) (n : Nat) : Nat := if n = 1 then bitsN c.tvec.toNat 10 0 else bitsN c.tvec.toNat 42 32

/-- Bank, level, history and PC of an entry to level n (R384, R385). -/
def enterLevel (c : Core) (n : Nat) (r : TrapReq) : Core :=
  let c := c.setBank n ⟨r.cause, r.ret, r.val, r.slot⟩
  { c with tl := n, trap := none, pc := c.vector n, hist1 := if n = 1 then [] else c.hist1, hist2 := if n = 2 then [] else c.hist2,
           entry := true, ending := none, svc := none, late := 0, waited := 0 }

/-- The drained core enters its trap (R385): bank, level and PC, and the 64-byte entry write, which is performed 6 clk later; the
handler's first bundle issues 8 clk after that.  A failing entry write leaves the bank written and traps at the next level. -/
def enterTrap (s : State) (k : CoreId) (r : TrapReq) : State :=
  let c := s.core k
  let m := s.ctxD k
  if c.tl + 1 = 3 then contextKill (s.modCore k fun c => { c with trap := none }) k r
  else
    let n := c.tl + 1
    let a := c.tsave n
    let bytes := entryBytes s c
    let s := s.setCore k (enterLevel c n r)
    if vaultOk s m a 64 then
      let acc : Access :=
        { id := s.nextId, k := k, vd := m.vd, member := m.member, slot := 7, pc := r.ret, issue := s.clk, ea := BitVec.ofNat 64 a, size := 64,
          kind := .entry bytes, dest := .none, tag := 0, rid := 0, st := .travel, rel := false }
      { s with accesses := s.accesses ++ [acc], nextId := s.nextId + 1 }.due (s.clk + 6) (.perform s.nextId)
    else
      let r2 : TrapReq := ⟨.I, 0x0A, c.vector n, addrForm a true false, 7, s.clk⟩
      if n = 2 then contextKill s k r2
      else
        let s := s.setCore k { enterLevel (s.core k) 2 r2 with trap := none }
        if vaultOk s m ((s.core k).tsave 2) 64 then
          let acc : Access :=
            { id := s.nextId, k := k, vd := m.vd, member := m.member, slot := 7, pc := r2.ret, issue := s.clk,
              ea := BitVec.ofNat 64 ((s.core k).tsave 2), size := 64,
              kind := .entry bytes, dest := .none, tag := 0, rid := 0, st := .travel, rel := false }
          { s with accesses := s.accesses ++ [acc], nextId := s.nextId + 1 }.due (s.clk + 6) (.perform s.nextId)
        else contextKill s k ⟨.I, 0x0A, (s.core k).vector 2, addrForm ((s.core k).tsave 2) true false, 7, s.clk⟩

/-- Enter a found trap once the core is drained. -/
def tryEnter (s : State) (k : CoreId) : State :=
  match (s.core k).trap with
  | some r => if drained s k && !(s.core k).entry then enterTrap s k r else s
  | none => s

/-- Taking a trap: it is found, and entered at once when nothing of the core is under way (R385). -/
def takeTrap (s : State) (k : CoreId) (r : TrapReq) : State := tryEnter (raiseTrap s k r) k

/-- Recompute a nest's targets from bases and counters (R179, R182). -/
def targetValue (t : Target) (ctr : List Nat) : Dword :=
  t.base + ((t.strides.zip ctr).map fun e => BitVec.ofNat 64 e.2 * BitVec.signExtend 64 (BitVec.ofNat 32 e.1)).foldl (· + ·) 0

/-- Write a loop target: x register, or the BASE field of a stream register (R178). -/
def Core.putTarget (c : Core) (t : Target) (v : Dword) : Core := if t.stream then c.putBase t.id v else c.writeX t.id v

/-- The level a return leaves from goes down by one; the next bundle issues after 3 transfer clk (R201, R202). -/
def leaveLevel (c : Core) (pc : Nat) : Core := { c with tl := c.tl - 1, pc := pc }

end Sys2Proof.Machine
end

