-- ==== Sys2Proof/Machine/Operands.lean ====
section
/-!
DEFINITION. Operands.lean: every operand form: 64-bit values (R190), vectors and groups (R221), predicates, view items (R81, R250),
effective addresses (R170, R262), and the checks of the registers they name.
-/
namespace Sys2Proof.Machine

/-- The low 8 bytes of a latch value (R84). -/
def LatchVal.dword : LatchVal → Dword
  | .s w => w
  | .v w => BitVec.extractLsb' 0 64 w

/-- A vector with one word in every lane. -/
def splat (w : Word) : Vec := vecOf ((List.range 64).flatMap fun _ => toBytes 4 w.toNat)

/-- A latch value as a V op reads it (R84): a V entry or the 256-byte L entry whole, else bits 31:0 in every lane. -/
def LatchVal.vec : LatchVal → Vec
  | .s w => splat (BitVec.extractLsb' 0 32 w)
  | .v w => w

/-- Lane i of a vector. -/
def lane (v : Vec) (i : Nat) : Word := BitVec.extractLsb' (32 * i) 32 v

/-- val(f) (R190) for the slot that carries the op. -/
def readS (c : Core) (sl : Nat) (o : Operand) : Dword :=
  match o.level.toNat with
  | 0 => c.readX o.ix
  | 1 => Tab.get 0 c.ofS (16 * sl + o.ix % 16)
  | 2 => match latchEntry c o.ix with
    | some e => e.val.dword
    | none => 0
  | _ => BitVec.signExtend 64 o.index

/-- Byte offset in register space of vector register n, an item of VIEW0 (R81). -/
def vregAddr (c : Core) (n : Nat) : Nat := viewBase (Tab.get 0 c.views 0) * 256 + 256 * n

/-- v[n] (R221). -/
def readVreg (c : Core) (n : Nat) : Vec := vecOf (c.rsBytes (vregAddr c n) 256)

/-- vval(f) (R221), the j-th vector of a group. -/
def readV (c : Core) (sl : Nat) (o : Operand) (j : Nat := 0) : Vec :=
  match o.level.toNat with
  | 0 => readVreg c (o.ix + j)
  | 1 => Tab.get 0 c.ofV (16 * sl + (o.ix + j) % 16)
  | 2 => match latchEntry c o.ix with
    | some e => e.val.vec
    | none => 0
  | _ => splat (BitVec.signExtend 32 o.index)

/-- A scalar taken from a vector operand: bits 31:0 of lane 0 (R221). -/
def readVS (c : Core) (sl : Nat) (o : Operand) : Word := lane (readV c sl o) 0

/-- p(X) (R195). -/
def readPred (c : Core) (o : Operand) : Dword := c.readP o.ix

/-- Destination of a 64-bit result (R191); x0 is discarded. -/
def sDest (sl : Nat) (o : Operand) : Dest :=
  if o.level = 0 then (if o.ix = 0 then .none else .x o.ix) else .ofS sl (o.ix % 16)

/-- Destination of the j-th vector of a group (R222): the bytes its view names at issue (R82). -/
def vDest (c : Core) (sl : Nat) (o : Operand) (j : Nat := 0) : Dest :=
  if o.level = 0 then .rs (vregAddr c (o.ix + j)) else .ofV sl ((o.ix + j) % 16)

/-- MEM.i address sum (R170). -/
def memAddr (c : Core) (sl : Nat) (o : Q4) : Dword := readS c sl o.a + readS c sl o.b + readS c sl o.c
/-- MEM.w address sum (R170). -/
def memAddrW (c : Core) (sl : Nat) (o : I28) : Dword := readS c sl o.a + BitVec.signExtend 64 o.imm

/-- Space of an effective address (R262). -/
def eaSpace (ea : Dword) : Nat := ea.toNat / 2 ^ 62
/-- The address in its space. -/
def eaAddr (ea : Dword) : Nat := ea.toNat % 2 ^ 62

/-! ### Views (R80, R81, R411) -/

/-- Bytes of one item of a view. -/
def itemBytes (v : Dword) : Nat :=
  match viewKind v with
  | 1 => 256
  | 2 => (viewRows v * viewCols v * size2 (viewType v) + 511) / 512 * 256
  | _ => 4096

/-- A view register is usable: enabled, TYPE assigned, BASE, COUNT, ROWS and COLS in range, accumulator TYPE .f32 or .s32, and its
extent ends at or below byte 0x2_FFFF (R81, R411). -/
def viewOk (v : Dword) : Bool :=
  decide (viewKind v ≠ 0) && decide (viewType v ≤ 12) && decide (viewBase v ≤ 767) && decide (viewCount v ≤ 384)
    && (decide (viewKind v ≠ 2) || (decide (1 ≤ viewRows v ∧ viewRows v ≤ 1024) && decide (1 ≤ viewCols v ∧ viewCols v ≤ 1024)))
    && (decide (viewKind v ≠ 3) || decide (viewType v = 0) || decide (viewType v = 5))
    && decide (viewBase v * 256 + viewCount v * itemBytes v ≤ Config.regSpace)

/-- VIEW0 is a usable vector view with g items from index n (R406). -/
def vregsOk (c : Core) (n g : Nat) : Bool :=
  let v := Tab.get 0 c.views 0
  viewOk v && decide (viewKind v = 1) && decide (n + g ≤ viewCount v)

/-- A vector operand or destination of g vectors meets VIEW0 when it names vector registers. -/
def vopOk (c : Core) (o : Operand) (g : Nat := 1) : Bool := decide (o.level ≠ 0) || vregsOk c o.ix g

/-- The view register an item operand names, and the item number (R250). -/
def itemView (c : Core) (o : Operand) : Dword := Tab.get 0 c.views (o.ix / 512)
@[inherit_doc itemView] def itemNo (o : Operand) : Nat := o.ix % 512

/-- An item operand names a usable view and an item below COUNT. -/
def itemUsable (c : Core) (o : Operand) : Bool := viewOk (itemView c o) && decide (itemNo o < viewCount (itemView c o))
/-- The item is a tile (KIND tile) or an accumulator item. -/
def isTile (c : Core) (o : Operand) : Bool := decide (viewKind (itemView c o) = 2)
@[inherit_doc isTile] def isAcc (c : Core) (o : Operand) : Bool := decide (viewKind (itemView c o) = 3)

/-- Item n of a view as bytes of register space (R81, R258). -/
def itemRefOf (v : Dword) (n : Nat) : ItemRef :=
  { base := viewBase v * 256 + n * itemBytes v, ty := viewType v,
    rows := if viewKind v = 2 then viewRows v else 32, cols := if viewKind v = 2 then viewCols v else 32 }
/-- The item an operand names. -/
def itemRef (c : Core) (o : Operand) : ItemRef := itemRefOf (itemView c o) (itemNo o)
/-- Its shadow partner, item n xor 1 (R254). -/
def itemPartner (c : Core) (o : Operand) : ItemRef := itemRefOf (itemView c o) (itemNo o ^^^ 1)

/-- Raw bits of element e of type t in a byte list (R81, R220): 4-bit elements low nibble first. -/
def elemOf (l : List Byte) (t e : Nat) : Nat :=
  match size2 t with
  | 8 => ofBytes ((l.drop (4 * e)).take 4)
  | 4 => ofBytes ((l.drop (2 * e)).take 2)
  | 2 => ofBytes ((l.drop e).take 1)
  | _ => ofBytes ((l.drop (e / 2)).take 1) / 16 ^ (e % 2) % 16

/-- Pack raw elements of type t into bytes. -/
def packElems (t : Nat) (l : List Nat) : List Byte :=
  match size2 t with
  | 8 => l.flatMap (toBytes 4)
  | 4 => l.flatMap (toBytes 2)
  | 2 => l.flatMap (toBytes 1)
  | _ => packNibbles l
where
  /-- Two 4-bit elements a byte, the even one low (R133). -/
  packNibbles : List Nat → List Byte
    | [] => []
    | [a] => [BitVec.ofNat 8 (a % 16)]
    | a :: b :: t => BitVec.ofNat 8 (a % 16 + b % 16 * 16) :: packNibbles t

/-- All raw elements of a byte list of type t. -/
def unpackElems (t : Nat) : List Byte → List Nat
  | [] => []
  | l@(b :: r) =>
    match size2 t with
    | 8 => unpackWide 4 l
    | 4 => unpackWide 2 l
    | 2 => unpackWide 1 l
    | _ => b.toNat % 16 :: b.toNat / 16 :: unpackNib r
where
  /-- Elements of w bytes. -/
  unpackWide (w : Nat) (l : List Byte) : List Nat :=
    (List.range (l.length / w)).map fun i => ofBytes ((l.drop (w * i)).take w)
  /-- Nibbles. -/
  unpackNib : List Byte → List Nat
    | [] => []
    | b :: r => b.toNat % 16 :: b.toNat / 16 :: unpackNib r

/-- Raw elements of a vector. -/
def vecElems (t : Nat) (v : Vec) : List Nat := unpackElems t (vecBytes v)
/-- A vector from raw elements. -/
def vecOfElems (t : Nat) (l : List Nat) : Vec := vecOf (packElems t l)

/-- Raw elements of an item, row-major. -/
def itemElems (c : Core) (r : ItemRef) : List Nat :=
  (unpackElems r.ty (c.rsBytes r.base ((r.rows * r.cols * size2 r.ty + 1) / 2))).take (r.rows * r.cols)

/-- A read of register space meets an uncorrectable word (R463): the offset of the failing 8 bytes. -/
def rsBad (c : Core) (a n : Nat) : Option Nat :=
  (c.rsPoison.find? fun e => decide (e.1 < a + n) && decide (a < e.1 + 8)).map (·.1)
/-- TVAL of a register-space error (R391): SPC 0b10 and the byte offset. -/
def rsTval (a : Nat) : Dword := addrForm (2 * 2 ^ 62 + a) false false

/-- Sum of the numbers 0 to n−1 where a test holds, as a bit mask. -/
def maskOf (n : Nat) (f : Nat → Bool) : Dword :=
  BitVec.ofNat 64 (((List.range n).map fun i => if f i then 2 ^ i else 0).sum)

/-- All 64 bits. -/
def allOnes : Dword := BitVec.allOnes 64

/-! ### Streams (R246) -/

/-- Fields of a stream register. -/
def StreamReg.space (r : StreamReg) : Nat := bitsN r.d0.toNat 63 62
@[inherit_doc StreamReg.space] def StreamReg.base (r : StreamReg) : Nat := bitsN r.d0.toNat 51 0
@[inherit_doc StreamReg.space] def StreamReg.rstride (r : StreamReg) : Int := (BitVec.ofNat 32 (r.d1.toNat / 2 ^ 32)).toInt
@[inherit_doc StreamReg.space] def StreamReg.fmt (r : StreamReg) : Nat := bitsN r.d1.toNat 31 28
@[inherit_doc StreamReg.space] def StreamReg.ofmt (r : StreamReg) : Nat := bitsN r.d1.toNat 27 24
@[inherit_doc StreamReg.space] def StreamReg.xp (r : StreamReg) : Nat := bitsN r.d1.toNat 23 22
@[inherit_doc StreamReg.space] def StreamReg.ce (r : StreamReg) : Bool := bitN r.d1.toNat 21
@[inherit_doc StreamReg.space] def StreamReg.ct (r : StreamReg) : Nat := bitsN r.d1.toNat 20 18
@[inherit_doc StreamReg.space] def StreamReg.bs (r : StreamReg) : Nat := bitsN r.d1.toNat 17 16
@[inherit_doc StreamReg.space] def StreamReg.sfmt (r : StreamReg) : Bool := bitN r.d1.toNat 15
@[inherit_doc StreamReg.space] def StreamReg.sbase (r : StreamReg) : Nat := bitsN r.d2.toNat 51 0
@[inherit_doc StreamReg.space] def StreamReg.sstride (r : StreamReg) : Int := (BitVec.ofNat 32 (r.d3.toNat / 2 ^ 32)).toInt
/-- Reserved fields of a stream record that are non-zero (R411). -/
def StreamReg.reserved (r : StreamReg) : Bool :=
  decide (bitsN r.d0.toNat 61 52 ≠ 0) || decide (bitsN r.d1.toNat 14 0 ≠ 0) || decide (bitsN r.d2.toNat 63 52 ≠ 0)
    || decide (bitsN r.d3.toNat 31 0 ≠ 0)

/-- The knots of CTABn. -/
def ctabOf (c : Core) (n : Nat) : List Dword := (List.range 17).map fun k => Tab.get 0 c.ctab (17 * n + k)

end Sys2Proof.Machine
end

