-- ==== Sys2Proof/Machine/Vault.lean ====
section
/-!
DEFINITION. Vault.lean: read-modify-write (R276, R277), vault granules and their engine (R72, R73), vault reads and writes, full/empty
bits (R88) and barrier objects (R89), and what a core reads of its own vault at issue (R104, R477).
-/
namespace Sys2Proof.Machine

/-! ### Read-modify-write (R276, R277) -/

/-- A w-bit number as signed. -/
def sgn (w n : Nat) : Int := if 2 ^ (w - 1) ≤ n then (n : Int) - (2 ^ w : Nat) else n
/-- New value of a location of n bytes: old value, operand, and for cas the new value. -/
def amoNew (op : AmoOp) (n old b c : Nat) : Nat :=
  let w := 8 * n
  let b := b % 2 ^ w
  match op with
  | .add => (old + b) % 2 ^ w
  | .and => old &&& b
  | .or => old ||| b
  | .xor => old ^^^ b
  | .maxS => if sgn w old < sgn w b then b else old
  | .maxZ => max old b
  | .minS => if sgn w b < sgn w old then b else old
  | .minZ => min old b
  | .swap => b
  | .cas => if old = b then c % 2 ^ w else old
  | .faddF32 => fadd 0 0 old b
  | .faddBf16 => fadd 2 0 old b
  | .fmaxF32 => fmax 0 old b

/-! ### Granules -/

/-- Granule 48·v + j of a V-address (R72). -/
def granOf (a : Nat) : Nat := 48 * (a / Config.vaultStride) + a % Config.vaultStride / Config.granule
/-- First V-address of a granule. -/
def granBase (g : Nat) : Nat := g / 48 * Config.vaultStride + g % 48 * Config.granule
/-- Its offset in the vault save area (R69). -/
def granSave (g : Nat) : Nat := g / 48 * Config.vaultBytes + g % 48 * Config.granule

/-- Move the entries of n keys from `src` to `dst`, over what stood there. -/
def moveRange {α : Type} (t : Tab α) (src dst n : Nat) : Tab α :=
  t.filter (fun e => decide (e.1 < dst)) ++ (t.slice src (src + n)).map (fun e => (e.1 - src + dst, e.2))
    ++ t.filter (fun e => decide (dst + n ≤ e.1))
/-- Drop the entries of n keys. -/
def clearRange {α : Type} (t : Tab α) (k n : Nat) : Tab α := t.filter (fun e => !(decide (k ≤ e.1) && decide (e.1 < k + n)))

/-- Copy n bytes with their full/empty bits and poison (R73, R464). -/
def State.copyAll (s : State) (src dst n : Nat) : State :=
  { s with mem := moveRange s.mem src dst n, fe := moveRange s.fe src dst n, poison := moveRange s.poison src dst n }
/-- Zero n bytes, every full/empty bit empty. -/
def State.zeroAll (s : State) (k n : Nat) : State :=
  { s with mem := clearRange s.mem k n, fe := clearRange s.fe k n, poison := clearRange s.poison k n }

/-- The ownership entry of a granule. -/
def State.gran (s : State) (d g : Nat) : Granule := Tab.get Granule.none (s.die d).gran g
@[inherit_doc State.gran] def State.setGran (s : State) (d g : Nat) (e : Granule) : State :=
  s.modDie d fun t => { t with gran := Tab.put Granule.none t.gran g e }

/-- The member context a die-local number stands for (R72). -/
def memberAt (s : State) (d no : Nat) : Option MemberId :=
  (s.members.find? fun e => e.2.live && decide (e.2.die = d ∧ e.2.localNo = no)).map fun e => ⟨e.1 / 256, e.1 % 256⟩

/-- The granule holds the context's data and is under no sequence. -/
def resident (s : State) (d : Nat) (m : MemberId) (g : Nat) : Bool :=
  decide ((s.gran d g).owner = (s.member m).localNo) && (s.die d).seqs.all fun q => decide (q.g ≠ g)

/-- A number the spec gives as about n: the drawn value lies within n/32 of it (log 3). -/
def State.about (s : State) (n : Nat) : Nat := n - n / 32 + Config.freeDelay s.fresh % (n / 16 + 1)

/-- Clk of a sequence (R73): about 260 for a spill and for a fill, 64 for a zero fill. -/
def seqClk (s : State) (d g : Nat) (m : MemberId) : Nat :=
  let e := s.gran d g
  (if e.res = 2 then s.about 260 else 0) + (if Tab.get false (s.member m).saved g then s.about 260 else 64)

/-- Start sequences while fewer than 16 run (R73). -/
def startSeqs (s : State) (d : Nat) : List GranuleSeq → Nat → List GranuleSeq × State
  | [], _ => ([], s)
  | q :: t, n =>
    if q.started then let r := startSeqs s d t n; (q :: r.1, r.2)
    else if n < 16 then
      let e := s.clk + seqClk s d q.g ⟨q.vd, q.member⟩
      let r := startSeqs (s.draw.due e (.event .granuleSequenceEnd { a := d, b := q.g })) d t (n + 1)
      ({ q with started := true, endAt := e } :: r.1, r.2)
    else let r := startSeqs s d t n; (q :: r.1, r.2)

/-- Start what may start. -/
def pumpSeqs (s : State) (d : Nat) : State :=
  let r := startSeqs s d (s.die d).seqs ((s.die d).seqs.countP (·.started))
  r.2.modDie d fun t => { t with seqs := r.1 }

/-- Something waits for a granule, once (R73, R477). -/
def waitGranule (s : State) (d g : Nat) (m : MemberId) (w : Waiter) : State :=
  match (s.die d).seqs.find? (fun q => decide (q.g = g)) with
  | some _ =>
    s.modDie d fun t => { t with seqs := t.seqs.map fun q => if q.g = g ∧ !q.waiting.contains w then { q with waiting := q.waiting ++ [w] } else q }
  | none =>
    pumpSeqs (s.modDie d fun t => { t with seqs := t.seqs ++ [⟨g, m.vd, m.member, 0, false, [w]⟩] }) d

/-- The data movement of a sequence for context m (R73); a lost granule is filled with poisoned zeros (R428). -/
def runSeq (s : State) (d g : Nat) (m : MemberId) : State :=
  let e := s.gran d g
  let v := vaultKey d (granBase g)
  let s := if e.res = 2 then
      match memberAt s d e.owner with
      | some o => (s.copyAll v (saveKey o (granSave g)) Config.granule).modMember o
          fun c => { c with saved := Tab.put false c.saved g true }
      | none => s
    else s
  let s := if Tab.get false (s.member m).lost g then
      let s := (s.zeroAll v Config.granule).modMember m fun c => { c with lost := Tab.put false c.lost g false }
      { s with poison := (List.range (Config.granule / 8)).foldl (fun p i => Tab.put false p (v + 8 * i) true) s.poison }
    else if Tab.get false (s.member m).saved g then s.copyAll (saveKey m (granSave g)) v Config.granule else s.zeroAll v Config.granule
  s.setGran d g ⟨(s.member m).localNo, 1⟩

/-- Its owner has changed a byte or a full/empty bit of the granule (R73). -/
def State.dirty (s : State) (d a : Nat) : State :=
  let e := s.gran d (granOf a)
  if e.res = 1 then s.setGran d (granOf a) { e with res := 2 } else s

/-- Write bytes at a V-address: 16-byte parts and wider (R86, R107). -/
def State.vput (s : State) (d a : Nat) (l : List Byte) : State :=
  ((s.store (vaultKey d a) l).dirty d a).dirty d (a + l.length - 1)

/-- Where a context's bytes of a V-address are now: the vault, its save area, or nowhere (zero) (R73). -/
def homeKey (s : State) (m : MemberId) (a : Nat) : Option Nat :=
  let g := granOf a
  if (s.gran (s.member m).die g).owner = (s.member m).localNo ∧ (s.member m).live then some (vaultKey (s.member m).die a)
  else if Tab.get false (s.member m).saved g then some (saveKey m (granSave g + a % Config.granule)) else none

/-- The full/empty bit of the word at a V-address, as the context sees it. -/
def feOf (s : State) (m : MemberId) (a : Nat) : Bool :=
  match homeKey s m a with
  | some k => Tab.get false s.fe k
  | none => false
/-- The dword at a V-address, as the context sees it. -/
def wordOf (s : State) (m : MemberId) (a : Nat) : Dword :=
  match homeKey s m a with
  | some k => memDword s.mem k
  | none => 0

/-- Set a full/empty bit. -/
def State.setFe (s : State) (d a : Nat) (b : Bool) : State :=
  ({ s with fe := Tab.put false s.fe (vaultKey d a) b }).dirty d a

/-! ### Barrier objects (R89) -/

/-- The flips of an arrival: ARRIVED and PHASE once EXPECTED has been taken out as often as it goes. -/
def barrierFlip (arrived expected : Nat) (phase : Bool) : Nat × Bool :=
  if expected = 0 then (arrived % 2 ^ 48, phase)
  else (arrived % expected % 2 ^ 48, if arrived / expected % 2 = 1 then !phase else phase)

/-- A barrier object from its two dwords: expected, phase, arrived. -/
def barrierOf (lo hi : Nat) : Nat × Bool × Nat := (lo % 2 ^ 48, bitN lo 63, hi % 2 ^ 48)
/-- Its two dwords; reserved bits as they were. -/
def barrierTo (lo hi expected : Nat) (phase : Bool) (arrived : Nat) : List Byte :=
  toBytes 8 (b2n phase * 2 ^ 63 + bitsN lo 62 48 * 2 ^ 48 + expected) ++ toBytes 8 (bitsN hi 63 48 * 2 ^ 48 + arrived)

/-- A barrier operation on an object (R306); bwait changes nothing. -/
def barrierOp (op : BarOp) (v lo hi : Nat) : List Byte :=
  let (e, p, a) := barrierOf lo hi
  match op with
  | .init => barrierTo lo hi (v % 2 ^ 48) false 0
  | .exp =>
    let e' := (e + v) % 2 ^ 48
    let r := barrierFlip a e' p
    barrierTo lo hi e' r.2 r.1
  | .arr =>
    let r := barrierFlip (a + v) e p
    barrierTo lo hi e r.2 r.1
  | .wait => barrierTo lo hi e p a

/-- The offset of a barrier object (R306). -/
def barrierAddrOk (s : State) (m : MemberId) (a : Nat) : Bool :=
  vaultOk s m a 16 && decide (0x2FE000 ≤ a % Config.vaultStride) && decide (a % Config.vaultStride < 0x300000)

/-! ### What a core reads of its own vault at issue (R104, R290, R477) -/

/-- How many bytes a write of the core puts at its address once performed, as far as its data is known at issue. -/
def AccKind.putLen : AccKind → Nat
  | .store l => l.length | .entry l => l.length | .stm _ _ l => l.length
  | .fe .fill _ => 8 | .fill _ _ => 8 | .amo _ n _ _ _ => n | .bar _ _ => 16
  | _ => 0
/-- The bytes it puts there over the old ones (R267, R272, R276, R306). -/
def AccKind.putOver (k : AccKind) (old : List Byte) : List Byte :=
  match k with
  | .store l => l | .entry l => l | .stm _ _ l => l
  | .fe .fill v => toBytes 8 v.toNat | .fill v _ => toBytes 8 v.toNat
  | .amo op n b c _ => toBytes n (amoNew op n (ofBytes old) b.toNat c.toNat)
  | .bar op v => barrierOp op v.toNat (ofBytes (old.take 8)) (ofBytes (old.drop 8))
  | _ => old
/-- Part of a list of bytes replaced, from index i on. -/
def spliceBytes (l : List Byte) (i : Nat) (b : List Byte) : List Byte := l.take i ++ b ++ l.drop (i + b.length)
/-- A write to a vault of the die by the core in focus that has issued and is not performed, over the bytes from address a (R104). -/
def overlay (s : State) (a : Nat) (l : List Byte) (w : Access) : List Byte :=
  let n := w.kind.putLen
  let b := w.ea.toNat % 2 ^ 52
  let away : Bool := match w.st with | .done _ => true | .remote _ _ => true | _ => false
  if w.k = s.focus ∧ w.ea.toNat / 2 ^ 62 = 0 ∧ !away ∧ (⟨w.vd, w.member⟩ : MemberId) = s.ctxD s.focus ∧ 0 < n ∧ b < a + l.length ∧ a < b + n then
    let new := w.kind.putOver ((l.drop (b - a)).take n)
    spliceBytes l (b - a) ((new.drop (a - b)).take (a + l.length - max a b))
  else l
/-- The bytes from key k with the reductions that wait in the die's vault write queues, as their drain would leave them (R98). -/
def mergedBytes (ms : List Merge) (k : Nat) (l : List Byte) : List Byte :=
  ms.foldl (fun l e => e.pend.foldl (fun l p =>
    let q := e.line * 64 + p.1
    if k ≤ q ∧ q + e.n ≤ k + l.length then
      spliceBytes l (q - k) (toBytes e.n (amoNew e.op e.n (ofBytes ((l.drop (q - k)).take e.n)) p.2.toNat 0))
    else l) l) l
/-- n bytes of a vault as the core in focus reads them in program order at issue: its earlier writes count though they are still on
their way (R104, R290, R477), and a pending reduction drains before the read (R98). -/
def ownBytes (s : State) (a n : Nat) : List Byte :=
  let a0 := a / 16 * 16
  let n0 := (a + n + 15) / 16 * 16 - a0
  let l := match homeKey s (s.ctxD s.focus) a0 with
    | some k => mergedBytes (s.die s.focus.die).merges k (memBytes s.mem k n0)
    | none => List.replicate n0 0
  ((s.accesses.foldl (overlay s a0) l).drop (a - a0)).take n
/-- n dwords so read. -/
def ownDwords (s : State) (a n : Nat) : List Dword := (List.range n).map fun i => BitVec.ofNat 64 (ofBytes (ownBytes s (a + 8 * i) 8))

end Sys2Proof.Machine
end

