-- ==== Sys2Proof/Machine/Tasks.lean ====
section
/-!
DEFINITION. Tasks.lean: continuation records (R211 to R214), the footprint unit (R43, R297 to R301), producers and withdrawal (R48,
R49, R304), readiness (R44 to R47) and the dispatcher (R39 to R42, R215).
-/
namespace Sys2Proof.Machine

/-! ### Records -/

/-- Fields of a continuation record's CTL (R211). -/
def ctlPc (v : Dword) : Nat := bitsN v.toNat 10 0
@[inherit_doc ctlPc] def ctlPrio (v : Dword) : Nat := bitsN v.toNat 14 12
@[inherit_doc ctlPc] def ctlNs (v : Dword) : Bool := bitN v.toNat 15
@[inherit_doc ctlPc] def ctlKind (v : Dword) : Nat := bitsN v.toNat 18 16
@[inherit_doc ctlPc] def ctlNin (v : Dword) : Nat := bitsN v.toNat 21 19
@[inherit_doc ctlPc] def ctlAmask (v : Dword) : Nat := bitsN v.toNat 25 22
@[inherit_doc ctlPc] def ctlApc (v : Dword) : Nat := bitsN v.toNat 36 26
@[inherit_doc ctlPc] def ctlWd (v : Dword) : Bool := bitN v.toNat 40

/-- Input readiness words of a record, as V-addresses (R212); inputs at or above NIN are ignored. -/
def recInputs (ctl d1 d2 : Dword) : List Nat :=
  ([bitsN d1.toNat 26 0, bitsN d1.toNat 53 27, bitsN d2.toNat 26 0, bitsN d2.toNat 53 27].take (ctlNin ctl)).map (8 * ·)
/-- OUT of a record or card dword 0x18, when OV = 1. -/
def recOut (d3 : Dword) : Option Nat := if bitN d3.toNat 27 then some (8 * bitsN d3.toNat 26 0) else none
/-- The footprint list of dword 0x18, when FV = 1. -/
def recFp (d3 : Dword) : Option Nat := if bitN d3.toNat 50 then some (256 * bitsN d3.toNat 49 28) else none

/-- n dwords of a context at a V-address. -/
def dwordsOf (s : State) (m : MemberId) (a : Nat) (n : Nat) : List Dword := (List.range n).map fun i => wordOf s m (a + 8 * i)

/-- The footprint list dwords a record names: the 31 dwords of R213, none with FV = 0. -/
def fpDwords (s : State) (m : MemberId) (d3 : Dword) : List Dword :=
  match recFp d3 with
  | some a => dwordsOf s m a 31
  | none => []

/-- The footprint list a record of the core in focus names, read at issue. -/
def ownFp (s : State) (d3 : Dword) : List Dword :=
  match recFp d3 with
  | some a => ownDwords s a 31
  | none => []

/-- The footprint list a record or a card names lies outside the window (R86): its address. -/
def listFault (s : State) (r : List Dword) : Option Nat :=
  match recFp (r.getD 3 0) with
  | some a => if vaultOk s (s.ctxD s.focus) a 256 then none else some a
  | none => none

/-- Region r of a footprint list (R213). -/
def fpRegion (mem : Nat) (l : List Dword) (r : Nat) : Region :=
  let a := (l.getD (1 + 2 * r) 0).toNat
  let b := (l.getD (2 + 2 * r) 0).toNat
  { space := b2n (bitN a 63), member := if bitN a 63 then 0 else mem, lo := bitsN a 51 0 / 256, len := bitsN b 31 0, write := bitN b 32 }
/-- The regions of a footprint list. -/
def fpRegions (mem : Nat) (l : List Dword) : List Region :=
  (List.range (bitsN (l.getD 0 0).toNat 3 0)).map (fpRegion mem l)
/-- A footprint list breaks R410. -/
def fpBad (l : List Dword) : Bool :=
  !l.isEmpty &&
    (decide ((l.getD 0 0).toNat / 16 ≠ 0) || decide (bitsN (l.getD 0 0).toNat 3 0 = 0)
      || (List.range (bitsN (l.getD 0 0).toNat 3 0)).any fun r =>
          let a := (l.getD (1 + 2 * r) 0).toNat
          let b := (l.getD (2 + 2 * r) 0).toNat
          decide (bitsN a 62 52 ≠ 0) || decide (a % 256 ≠ 0) || decide (bitsN b 63 33 ≠ 0) || decide (bitsN b 31 0 = 0))

/-- A continuation record breaks R410. -/
def recordBad (s : State) (m : MemberId) (r : List Dword) (fp : List Dword) : Bool :=
  let ctl := r.getD 0 0
  let d1 := (r.getD 1 0).toNat
  let d2 := (r.getD 2 0).toNat
  let d3 := r.getD 3 0
  decide (bitsN ctl.toNat 63 41 ≠ 0) || bitN ctl.toNat 37 || bitN ctl.toNat 11
    || decide (bitsN d1 63 54 ≠ 0) || decide (bitsN d2 63 54 ≠ 0) || decide (bitsN d3.toNat 63 51 ≠ 0)
    || decide (6 ≤ ctlKind ctl) || decide (4 < ctlNin ctl)
    || (ctlNs ctl && (decide (ctlAmask ctl = 0) || decide (ctlAmask ctl / 2 ^ ctlNin ctl ≠ 0)))
    || (recInputs ctl (r.getD 1 0) (r.getD 2 0)).any (fun a => !vaultOk s m a 8)
    || (match recOut d3 with | some a => !vaultOk s m a 8 | none => false)
    || fpBad fp

/-! ### Card fields (R291) -/

/-- Dword i of a card. -/
def cardDw (c : List Dword) (i : Nat) : Nat := (c.getD i 0).toNat
@[inherit_doc cardDw] def cardSsp (c : List Dword) : Nat := bitsN (cardDw c 0) 63 62
@[inherit_doc cardDw] def cardSmem (c : List Dword) : Nat := bitsN (cardDw c 0) 59 52
@[inherit_doc cardDw] def cardSaddr (c : List Dword) : Nat := bitsN (cardDw c 0) 51 0
@[inherit_doc cardDw] def cardDsp (c : List Dword) : Nat := bitsN (cardDw c 1) 63 62
@[inherit_doc cardDw] def cardDmem (c : List Dword) : Nat := bitsN (cardDw c 1) 59 52
@[inherit_doc cardDw] def cardDaddr (c : List Dword) : Nat := bitsN (cardDw c 1) 51 0
@[inherit_doc cardDw] def cardKind (c : List Dword) : Nat := bitsN (cardDw c 2) 63 62
@[inherit_doc cardDw] def cardRop (c : List Dword) : Nat := bitsN (cardDw c 2) 59 56
@[inherit_doc cardDw] def cardEtype (c : List Dword) : Nat := bitsN (cardDw c 2) 55 52
@[inherit_doc cardDw] def cardSum (c : List Dword) : Bool := bitN (cardDw c 2) 47
@[inherit_doc cardDw] def cardLen (c : List Dword) : Nat := bitsN (cardDw c 2) 39 0
@[inherit_doc cardDw] def cardOut (c : List Dword) : Option Nat := recOut (c.getD 3 0)
@[inherit_doc cardDw] def cardCmem (c : List Dword) : Nat := bitsN (cardDw c 4) 63 56
@[inherit_doc cardDw] def cardBv (c : List Dword) : Bool := bitN (cardDw c 4) 55
@[inherit_doc cardDw] def cardSv (c : List Dword) : Bool := bitN (cardDw c 4) 54
@[inherit_doc cardDw] def cardCid (c : List Dword) : Nat := bitsN (cardDw c 4) 47 32
@[inherit_doc cardDw] def cardBaddr (c : List Dword) : Nat := bitsN (cardDw c 4) 29 4 * 16
@[inherit_doc cardDw] def cardSadr (c : List Dword) : Nat := bitsN (cardDw c 5) 51 0
@[inherit_doc cardDw] def cardSval (c : List Dword) : Dword := c.getD 6 0
@[inherit_doc cardDw] def cardPaddr (c : List Dword) : Nat := bitsN (cardDw c 7) 61 0
/-- Chunks of a job (R292). -/
def cardChunks (c : List Dword) : Nat := (cardLen c + 4095) / 4096

/-- A card holds a value R291, R294 or R316 forbids (cause 0x11); `kind` is the op's. -/
def cardBad (kind : Nat) (c fp : List Dword) : Bool :=
  decide (bitsN (cardDw c 0) 61 60 ≠ 0) || decide (cardSsp c = 3) || decide (cardSaddr c % 16 ≠ 0)
    || decide (bitsN (cardDw c 1) 61 60 ≠ 0) || decide (cardDsp c = 3) || decide (cardDaddr c % 16 ≠ 0)
    || decide (cardKind c ≠ kind) || decide (bitsN (cardDw c 2) 61 60 ≠ 0) || decide (2 < cardRop c)
    || decide (12 < cardEtype c) || decide (bitsN (cardDw c 2) 51 48 ≠ 0) || decide (bitsN (cardDw c 2) 46 40 ≠ 0)
    || decide (cardLen c < 16) || decide (cardLen c % 16 ≠ 0)
    || (decide (kind = 0) && decide (cardRop c ≠ 0))
    || (decide (kind ≠ 0) && !(decide (cardEtype c < 3) || decide (cardEtype c = 5) || decide (cardEtype c = 9)))
    || decide (bitsN (cardDw c 3) 63 51 ≠ 0)
    || decide (bitsN (cardDw c 4) 53 48 ≠ 0) || decide (bitsN (cardDw c 4) 31 30 ≠ 0) || decide (bitsN (cardDw c 4) 3 0 ≠ 0)
    || decide (bitsN (cardDw c 5) 63 52 ≠ 0) || decide (cardSadr c % 8 ≠ 0)
    || decide (bitsN (cardDw c 7) 63 62 ≠ 0) || decide (cardPaddr c % 16 ≠ 0) || (decide (kind ≠ 2) && decide (cardPaddr c ≠ 0))
    || fpBad fp

/-- A card misuses a scale-out endpoint (R356). -/
def cardEpBad (v : VD) (c : List Dword) : Bool :=
  let side (a : Nat) : Bool := match Tab.get none v.endpoints (bitsN a 51 44) with
    | some e => decide (e.peerLen < bitsN a 43 0 + cardLen c)
    | none => true
  (decide (cardSsp c = 2) && decide (cardDsp c = 2)) || ((decide (cardSsp c = 2) || decide (cardDsp c = 2)) && decide (cardKind c ≠ 0))
    || (decide (cardSsp c = 2) && side (cardSaddr c)) || (decide (cardDsp c = 2) && side (cardDaddr c))

/-- The first member a card names that is at or above GANGSIZE (cause 0x0D, R316). -/
def cardMember (n : Nat) (c : List Dword) : Option Nat :=
  if cardSsp c = 0 ∧ n ≤ cardSmem c then some (cardSmem c)
  else if cardDsp c = 0 ∧ n ≤ cardDmem c then some (cardDmem c)
  else if ((cardOut c).isSome ∨ cardBv c) ∧ n ≤ cardCmem c then some (cardCmem c)
  else none

/-- The units of a byte range (R298). -/
def unitRegion (space member a n : Nat) (write : Bool) : Region :=
  { space := space, member := member, lo := a / 256, len := (a + n + 255) / 256 - a / 256, write := write }
/-- The implicit regions of a job (R298): endpoint ranges are none of the gang's. -/
def cardRegions (m : Nat) (c fp : List Dword) : List Region :=
  let side (sp mem a : Nat) (w : Bool) : List Region :=
    if sp = 0 then [unitRegion 0 mem a (cardLen c) w] else if sp = 1 then [unitRegion 1 0 a (cardLen c) w] else []
  (if cardKind c = 2 then [] else side (cardSsp c) (cardSmem c) (cardSaddr c) false ++ side (cardDsp c) (cardDmem c) (cardDaddr c) true)
    ++ fpRegions m fp

/-! ### Demand (R48, R49) -/

/-- A packet with only its route and the fields a local message needs. -/
def Pkt.local (m d ty : Nat) (addr : Dword) (opx : Nat) : Pkt :=
  { vc := 1, type := ty, mark := false, echo := false, ddie := 0, sdie := 0, gang := 0, dmem := d, smem := m, addr := addr, seq := 0,
    nent := 0, pl := false, lenm1 := 0, rtag := 0, cid := 0, opx := opx, rsvd := 0, stamp := [], data := [], counted := false, rel := false, poison := false, mlen := 0, inj := 0 }

/-- Tasks' inputs registered for a word and not fired (R49). -/
def consumers (c : Member) (word : Nat) : Nat :=
  (c.pool.map fun e => match e.2 with
    | some t => if t.fired.isNone then (recInputs t.ctl t.d1 t.d2).countP (· = word) else 0
    | none => 0).sum

/-- Record a producer of a word held on a member's die, unless the word has one (R49). -/
def registerProducer (c : Member) (word pm : Nat) (o : Owner) : Member × Bool :=
  if c.producers.any fun p => decide (p.word = word) then (c, false)
  else ({ c with producers := c.producers ++ [⟨word, pm, o⟩] }, true)

/-- Saturating demand arithmetic (R48). -/
def demandStep (n : Nat) (inc : Bool) : Nat := if n = 255 then 255 else if inc then n + 1 else n - 1

/-- A withdraw or an increment toward the registered producer of a word on member m's die (R48, R304): a message that the DEMAND
event carries out. -/
def sendDemand (s : State) (m : MemberId) (word : Nat) (inc : Bool) : State :=
  match (s.member m).producers.find? (fun p => decide (p.word = word)) with
  | some p => s.after 0 .demand { m := ⟨m.vd, p.member⟩, pkt := some (Pkt.local m.member p.member 0x0A (BitVec.ofNat 64 word) (b2n inc)) }
  | none => s
/-- The withdraw that an absorbed firing sends toward the producer of an input that is empty in this clk (R48, R349): it goes as the clk ends. -/
def withdrawInput (s : State) (m : MemberId) (word : Nat) : State :=
  match (s.member m).producers.find? (fun p => decide (p.word = word)) with
  | some p => s.after 1 .demand { m := ⟨m.vd, p.member⟩, b := 1, pkt := some (Pkt.local m.member p.member 0x0A (BitVec.ofNat 64 word) 0) }
  | none => s
/-- The word is filled in this clk after all: withdraws of this clk for it are not sent (R349). -/
def keepProducer (s : State) (m : MemberId) (word : Nat) : State :=
  { s with agenda := s.agenda.filter fun d => match d.act with
    | .event .demand o => !(decide (d.at_ = s.clk + 1 ∧ o.b = 1 ∧ o.m.vd = m.vd) &&
        (match o.pkt with | some p => decide (p.smem = m.member ∧ p.addr.toNat = word) | none => false))
    | _ => true }

/-! ### The footprint unit -/

/-- Two regions share a 256-byte unit and one of them writes it (R299). -/
def regionsConflict (a b : Region) : Bool :=
  decide (a.space = b.space ∧ a.member = b.member ∧ a.lo < b.lo + b.len ∧ b.lo < a.lo + a.len) && (a.write || b.write)
/-- Two declarations conflict. -/
def declsConflict (a b : Decl) : Bool := a.regions.any fun r => b.regions.any (regionsConflict r)

/-- Table entries in use (R300). -/
def declsUsed (l : List Decl) : Nat := ((l.filter (·.admitted)).map fun d => d.regions.length).sum
/-- Admit the head of the pending list while it fits (R301); what declares no region waits for no entry (R213). -/
def admitDecls (used : Nat) : List Decl → List Decl
  | [] => []
  | d :: t =>
    if d.admitted then d :: admitDecls used t
    else if used + d.regions.length ≤ Config.footprintSlots then { d with admitted := true } :: admitDecls (used + d.regions.length) t
    else d :: t.map fun e => if e.regions.isEmpty then { e with admitted := true } else e

/-- The place in admission order of what an access of a core declares (R297): issue clk, core index, slot. -/
def admitKey (clk core slot : Nat) : Nat := 8192 * clk + 8 * (core + 1) + slot
/-- The place of a packet's declaration: before every core issue of the clk (R297). -/
def parseKey (clk : Nat) : Nat := 8192 * clk
/-- The place of what a trigger or a step starts in a clk (R297). -/
def fireKey (clk : Nat) : Nat := 8192 * clk + 8191
/-- Put a declaration in its place of the admission order. -/
def placeDecl (l : List Decl) (d : Decl) : List Decl := l.filter (fun e => decide (e.key ≤ d.key)) ++ d :: l.filter fun e => decide (d.key < e.key)

/-- The owners whose declarations are admitted and conflict with none of `others` and no earlier one (R299), in admission order;
`others` are those of ops that have issued and are not admitted yet, each with its place (R297). -/
def clearOwners (others : List Decl) : List Decl → List Decl → List Owner
  | _, [] => []
  | before, d :: t =>
    if d.admitted && before.all (fun b => !declsConflict b d) && others.all (fun b => decide (d.key ≤ b.key) || !declsConflict b d) then
      d.owner :: clearOwners others (before ++ [d]) t
    else clearOwners others (before ++ [d]) t

/-- A task's record in the pool. -/
def Member.task (c : Member) (h : Nat) : Option Task := Tab.get none c.pool h
@[inherit_doc Member.task] def Member.setTask (c : Member) (h : Nat) (t : Option Task) : Member := { c with pool := Tab.put none c.pool h t }
/-- A job-queue entry. -/
def Member.job (c : Member) (h : Nat) : Option Job := Tab.get none c.jobs h
@[inherit_doc Member.job] def Member.setJob (c : Member) (h : Nat) (j : Option Job) : Member := { c with jobs := Tab.put none c.jobs h j }

/-- The lowest free index below n of a table. -/
def lowestFree {α : Type} (t : Tab (Option α)) (n : Nat) : Option Nat := (List.range n).find? fun i => (Tab.get none t i).isNone

/-! ### Readiness (R44 to R47) -/

/-- An absorbing input's value matches a kind (R46). -/
def absorbs (kind : Nat) (v : Dword) : Bool :=
  let n := v.toNat
  decide (bitsN n 11 8 = 1) &&
    match kind with
    | 0 => bitN n 0
    | 1 => bitN n 0 && !bitN n 6
    | 2 => bitN n 1 && !bitN n 6
    | 3 => bitN n 0 && !bitN n 6
    | 4 => decide (bitsN n 5 4 = 1) && bitN n 6
    | _ => decide (bitsN n 5 4 = 2) && bitN n 6

/-- How a task would become ready now: not, by its normal entry, or absorbed (R44, R47). -/
def readiness (s : State) (m : MemberId) (t : Task) : Option Bool :=
  let ins := recInputs t.ctl t.d1 t.d2
  let full := ins.map (feOf s m)
  let hits := (List.range ins.length).any fun j =>
    ctlNs t.ctl && bitN (ctlAmask t.ctl) j && full.getD j false && absorbs (ctlKind t.ctl) (wordOf s m (ins.getD j 0))
  if hits then some true else if full.all id then some false else none

/-- The idle timer of a VD starts again from its next idle clk (R75). -/
def notIdle (s : State) (vd : Nat) : State := s.modVd vd fun v => { v with idleSince := none }

/-- Where a task that becomes ready now enters its bank: after those that became ready before, in spawn order among those of this clk (R39). -/
def bankPlace (c : Member) (clk order : Nat) (q : List Nat) : Nat :=
  (q.findIdx? fun h => match c.task h with | some t => decide (t.readyAt = clk ∧ order < t.order) | none => false).getD q.length
/-- A task becomes ready: it enters its bank, and the member no longer counts as dimmed (R75); a new head has age 0 (R41). -/
def enqueueTask (s : State) (m : MemberId) (h : Nat) (t : Task) : State :=
  (notIdle s m.vd).modMember m fun c =>
    let b := ctlPrio t.ctl
    let q := Tab.get [] c.banks b
    let i := bankPlace c s.clk t.order q
    { (c.setTask h (some { t with st := .ready, readyAt := s.clk })) with
      banks := Tab.put [] c.banks b (q.take i ++ h :: q.drop i), ages := if i = 0 then Tab.put 0 c.ages b 0 else c.ages, dimmed := false }
/-- A task leaves the banks; where it was head the next one starts at age 0 (R41, R48). -/
def leaveBanks (c : Member) (h : Nat) : Member :=
  { c with banks := (c.banks.map fun (e : Nat × List Nat) => (e.1, e.2.filter fun x => decide (x ≠ h))).filter (fun e => !e.2.isEmpty),
           ages := c.banks.foldl (fun a e => if e.2.head? = some h then Tab.put 0 a e.1 0 else a) c.ages }

/-- Some access of a list has not been performed. -/
def prevOpen (s : State) (l : List Nat) : Bool := s.accesses.any fun a => l.contains a.id && (match a.st with | .done _ => false | _ => true)

/-- One task of the pool is looked at: it becomes ready when its conditions hold, and no store that its events follow is open (R104, R290). -/
def settleTask (clear : List Owner) (s : State) (m : MemberId) (h : Nat) : State :=
  match (s.member m).task h with
  | none => s
  | some t =>
    match t.st with
    | .suspended =>
      match t.awaits with
      | some w => if feOf s m w then enqueueTask s m h { t with awaits := none, resumed := true } else s
      | none => if t.readyAt ≤ s.clk then enqueueTask s m h t else s
    | .pending | .waiting =>
      if clear.contains (.task h) && !prevOpen s t.prev then
        match readiness s m t with
        | some ab =>
          let s := enqueueTask s m h { t with fired := some ab, prev := [] }
          if ab then
            ((recInputs t.ctl t.d1 t.d2).filter fun w => !feOf s m w).foldl (fun s w =>
              (withdrawInput s m w).modMember m fun c => { c with absorbed := Tab.put 0 c.absorbed w (s.clk + 1) }) s
          else s
        | none => s.modMember m fun c => c.setTask h (some { t with st := .waiting })
      else if t.st = .pending ∧ (s.member m).decls.any (fun d => decide (d.owner = .task h) && d.admitted) then
        s.modMember m fun c => c.setTask h (some { t with st := .waiting })
      else s
    | _ => s

/-- The jobs that wait for an engine, with h among them, in admission order (R296). -/
def jobTurn (c : Member) (h : Nat) : List Nat :=
  c.decls.filterMap fun d => match d.owner with
    | .job i => if i = h ∨ c.jobOrder.contains i then some i else none
    | .task _ => none
/-- One job is looked at: it queues for an engine once its predecessors have retired (R296). -/
def settleJob (clear : List Owner) (s : State) (m : MemberId) (h : Nat) : State :=
  match (s.member m).job h with
  | none => s
  | some j =>
    match j.st with
    | .pending | .waiting =>
      if clear.contains (.job h) then
        (s.modMember m fun c => { (c.setJob h (some { j with st := .ready })) with jobOrder := jobTurn c h }).afterM 1 .jobActivate m h
      else if (s.member m).decls.any (fun d => decide (d.owner = .job h) && d.admitted) then
        s.modMember m fun c => c.setJob h (some { j with st := .waiting })
      else s
    | _ => s

/-- Some bank holds a task. -/
def anyReady (c : Member) : Bool := c.banks.any fun e => !e.2.isEmpty

/-- Some task follows stores of the core that spawned it (R290). -/
def anyPrev (c : Member) : Bool := c.pool.any fun e => match e.2 with | some t => !t.prev.isEmpty | none => false
/-- Ask for a pop in the next clk while a task is ready (R34), or may become so. -/
def askDispatch (s : State) (m : MemberId) : State :=
  if anyReady (s.member m) || anyPrev (s.member m) then s.afterM 1 .taskDispatch m else s

/-- The key of packet i of queue q (R359). -/
def packetKey (q i : Nat) : Nat := q * 2 ^ 64 + i
/-- The key of a packet on the packet list. -/
def Packet.key (p : Packet) : Nat := packetKey p.q p.index

/-- A piece of a packet's work has ended; the packet completes with its last piece (R361). -/
def packetPart (s : State) (m : MemberId) (key : Nat) : State :=
  let s := s.modMember m fun c => { c with packets := c.packets.map fun p => if p.key = key then { p with left := p.left - 1 } else p }
  match (s.member m).packets.find? (fun p => decide (p.key = key)) with
  | some p => if p.left = 0 then s.afterM 0 .packetCompletion m key else s
  | none => s

/-- What the ops of the member's cores that have issued and are not admitted yet will declare (R297). -/
def openDecls (s : State) (m : MemberId) : List Decl :=
  s.accesses.filterMap fun a =>
    if a.vd = m.vd ∧ a.member = m.member then
      match a.kind with
      | .spawn _ fp => some ⟨.task 0, fpRegions m.member fp, false, admitKey a.issue a.k.core a.slot⟩
      | .card c fp => (match a.st with
        | .done _ => none
        | _ => some ⟨.job 0, cardRegions m.member c fp, false, admitKey a.issue a.k.core a.slot⟩)
      | _ => none
    else none

/-- Declarations are admitted, and tasks and jobs whose conditions now hold become ready (R44, R296, R301); in admission order. -/
def settle (s : State) (m : MemberId) : State :=
  let s := s.modMember m fun c => { c with decls := admitDecls (declsUsed c.decls) c.decls }
  let ds := (s.member m).decls
  let clear := clearOwners (openDecls s m) [] ds
  let s := ds.foldl (fun s d => match d.owner with
    | .task h => settleTask clear s m h
    | .job h => settleJob clear s m h) s
  askDispatch s m

/-- A declaration retires (R300). -/
def retire (s : State) (m : MemberId) (o : Owner) : State :=
  settle (s.modMember m fun c => { c with decls := c.decls.filter fun d => decide (d.owner ≠ o) }) m

/-- The registered producer of a word, of member `pm`, has filled it: its registration ends (R49). -/
def endProducer (s : State) (m : MemberId) (word pm : Nat) (o : Owner) : State :=
  s.modMember m fun c => { c with producers := c.producers.filter fun p => !decide (p.word = word ∧ p.member = pm ∧ p.owner = o) }

/-- A fill in clk `clk` is a late arrival (R50, R349): consumers of the word have fired absorbed before this clk and since its last fill, and
none waits. -/
def isLateArrival (c : Member) (clk word : Nat) : Bool :=
  decide (0 < Tab.get 0 c.absorbed word ∧ Tab.get 0 c.absorbed word ≤ clk) && decide (consumers c word = 0)

/-- Admit a task from a record at a place of the admission order (R214, R297): index and state, or none when the pool is full. -/
def admitTask (s : State) (m : MemberId) (r fp : List Dword) (packet : Option Nat) (key : Nat) (prev : List Nat := []) : Option Nat × State :=
  match lowestFree (s.member m).pool Config.poolSize with
  | none => (none, s)
  | some h =>
    let ctl := (r.getD 0 0) &&& (BitVec.ofNat 64 (2 ^ 64 - 1 - (2 ^ 38 + 2 ^ 39 + 2 ^ 40)))
    let d3 := r.getD 3 0
    let t : Task :=
      { ctl := ctl, d1 := r.getD 1 0, d2 := r.getD 2 0, d3 := d3, x1 := r.getD 4 0, x2 := r.getD 5 0, x3 := r.getD 6 0, x4 := r.getD 7 0,
        st := .pending, fired := none, resumed := false, awaits := none, packet := packet, demand := 255, readyAt := 0, order := s.nextId, prev := prev }
    let s := { s with nextId := s.nextId + 1 }.modMember m fun c =>
      { (c.setTask h (some t)) with decls := placeDecl c.decls ⟨.task h, fpRegions m.member fp, false, key⟩ }
    let s := (recInputs ctl t.d1 t.d2).foldl (fun s w => sendDemand s m w true) s
    let s := match recOut d3 with
      | some w =>
        let r := registerProducer (s.member m) w m.member (.task h)
        let n := min 255 (consumers (s.member m) w)
        s.modMember m fun _ => r.1.setTask h (some { t with demand := if r.2 then n else 255 })
      | none => s
    (some h, settle s m)

/-! ### The dispatcher -/

/-- The free core that has been free longest, lowest index on a tie (R34); `held` cores get no task (R31). -/
def longestFree (s : State) (d : Nat) (held : Nat → Bool) : Option Nat :=
  ((List.range Config.coresPerDie).foldl (fun (best : Option (Nat × Nat)) i =>
    if held i then best
    else match (s.core ⟨d, i⟩).run with
      | .free t => match best with
        | some (t0, _) => if t < t0 then some (t, i) else best
        | none => some (t, i)
      | _ => best) none).map (·.2)

/-- A core lies in a rectangle. -/
def inRect (x0 y0 w h i : Nat) : Bool := decide (x0 ≤ i % 16 ∧ i % 16 < x0 + w ∧ y0 ≤ i / 16 ∧ i / 16 < y0 + h)

/-- The heads of the non-empty banks whose tasks were ready before this clk, in increasing bank number. -/
def bankHeads (s : State) (m : MemberId) : List (Nat × Nat) :=
  (List.range 8).filterMap fun b =>
    match Tab.get [] (s.member m).banks b with
    | h :: _ => match (s.member m).task h with
      | some t => if t.readyAt < s.clk then some (b, h) else none
      | none => none
    | [] => none

/-- One step of the dispatcher's LFSR (R41). -/
def lfsrStep (l : Nat) : Nat :=
  (l * 2) % 65536 + b2n (((bitN l 15) ^^ (bitN l 13)) ^^ ((bitN l 12) ^^ (bitN l 10)))

/-- The bank a relaxed pop takes (R41), from LFSR value, heads and ages. -/
def relaxedPick (l : Nat) (heads : List Nat) (age : Nat → Nat) : Nat :=
  let forced := heads.filter fun b => decide (33 ≤ age b + heads.countP fun g => decide (age b ≤ age g))
  match forced with
  | b :: t => t.foldl (fun r b => if age r ≤ age b then b else r) b
  | [] =>
    let k := heads.length
    if k ≤ 1 then heads.getD 0 0
    else
      let i1 := l % 256 % k
      let i2 := l / 256 % (k - 1)
      let i2 := if i1 ≤ i2 then i2 + 1 else i2
      max (heads.getD i1 0) (heads.getD i2 0)

/-- Remove the head of a bank; the next head starts at age 0 and every other head ages (R41).  Only relaxed pops age heads (log 42). -/
def popBank (c : Member) (b : Nat) (heads : List Nat) : Member :=
  let ages := heads.foldl (fun a g => if g = b then Tab.put 0 a g 0 else Tab.put 0 a g (Tab.get 0 a g + 1)) c.ages
  { c with banks := Tab.put [] c.banks b (Tab.get [] c.banks b).tail, ages := ages }

/-- A core's state at a task's start or resume (R215, R33): it issues 4 clk after the pop. -/
def startTask (s : State) (k : CoreId) (m : MemberId) (h : Nat) (t : Task) : State :=
  let pc := if t.resumed then ctlPc t.ctl else if t.fired = some true then ctlApc t.ctl else ctlPc t.ctl
  let s := s.modMember m fun c => c.setTask h (some { t with st := .running k.core })
  s.modCore k fun c =>
    let c := (((c.writeX 1 t.x1).writeX 2 t.x2).writeX 3 t.x3).writeX 4 t.x4
    { c with run := .running, task := some h, pc := pc, wdrawn := ctlWd t.ctl, pane := 0x80000000, hist0 := [], hist1 := [], hist2 := [],
             tl := 0, rpa := pc, ckpt := ⟨c.p, Nest.none⟩, nest := Nest.none, loopBuf := [], next := schedOf s c + 4, waited := 0,
             waitFor := [], late := 0, nsw := none }

/-- Cores a waiting LAUNCH keeps from new tasks (R31). -/
def heldByLaunch (c : Member) (i : Nat) : Bool := c.launches.any fun l => inRect l.x0 l.y0 l.lw l.lh i

/-- A task that awaits a word found full re-enters its bank in this clk (R35), or one that follows stores is looked at again. -/
def rejoins (s : State) (m : MemberId) : Bool :=
  anyPrev (s.member m) || (s.member m).pool.any fun e => match e.2 with | some t => decide (t.st = .suspended ∧ t.awaits = none ∧ t.readyAt ≤ s.clk) | none => false

/-- One pop (R34, R39 to R42), to the core free longest. -/
def dispatch (s : State) (m : MemberId) : Option State :=
  let c := s.member m
  let heads := bankHeads s m
  if c.lastPop = s.clk + 1 ∨ (s.die c.die).ctx ≠ some m then none
  else match heads.map (·.1), longestFree s c.die (heldByLaunch c) with
    | b0 :: bs, some i =>
      let l := lfsrStep c.lfsr
      let banks := b0 :: bs
      let b := if c.relaxed then relaxedPick l banks (Tab.get 0 c.ages) else banks.foldl max b0
      let h := (Tab.get [] c.banks b).headD 0
      match c.task h with
      | some t =>
        let s := s.modMember m fun c =>
          let c := if c.relaxed then { popBank c b banks with lfsr := l } else popBank c b [b]
          { c with lastPop := s.clk + 1 }
        some (askDispatch (startTask s ⟨c.die, i⟩ m h t) m)
      | none => none
    | _, _ => none

/-- TASK_DISPATCH (R34, R35): tasks re-enter their banks, and one is popped. -/
def dispatchTurn (s : State) (m : MemberId) : Option State :=
  if rejoins s m then some ((dispatch (settle s m) m).getD (settle s m)) else dispatch s m

end Sys2Proof.Machine
end

