-- ==== Sys2Proof/Machine/Fabric.lean ====
section
/-!
DEFINITION. Fabric.lean: packets of a gang: chains, stamps and clocks (R110, R320 to R324), sending and accepting, tickets and rate
limiters (R326, R327).
-/
namespace Sys2Proof.Machine

/-- Clock comparison modulo 2^32 over a window of 2^31 (R110): a ≥ b. -/
def clockGe (a b : Nat) : Bool := decide ((a + 2 ^ 32 - b % 2 ^ 32) % 2 ^ 32 < 2 ^ 31)
/-- The larger of two clock entries. -/
def clockMax (a b : Nat) : Nat := if clockGe a b then a else b

/-- Channel numbers (R320) and packet types (R321). -/
def chanC : Nat := 0
@[inherit_doc chanC] def chanQ : Nat := 1
@[inherit_doc chanC] def chanP : Nat := 2
@[inherit_doc chanC] def chanX : Nat := 3

/-- The channels a packet type travels on (R321); none for a reserved type. -/
def typeChannels (t : Nat) : List Nat :=
  if t = 0x01 then [1, 3]
  else if t = 0x0D then [1, 2]
  else if t = 0x02 ∨ t = 0x04 ∨ t = 0x07 ∨ t = 0x08 ∨ t = 0x0A ∨ t = 0x0B ∨ t = 0x0E then [1]
  else if t = 0x03 ∨ t = 0x05 ∨ t = 0x06 ∨ t = 0x0C ∨ t = 0x0F then [2]
  else if t = 0x09 ∨ t = 0x10 then [3]
  else if 0x20 ≤ t ∧ t ≤ 0x23 then [0]
  else []

/-- Chain of a channel (R322): 0 request, 1 response. -/
def chainOf (vc : Nat) : Nat := if vc = 2 then 1 else 0

/-- The event of the table that happens when a packet of a type arrives. -/
def arrivalEvent (t : Nat) : Instr :=
  match t with
  | 0x01 => .writePacket | 0x02 => .readPacket | 0x03 => .rdresp | 0x04 => .atomicPacket | 0x05 => .atresp | 0x06 => .ackPacket
  | 0x07 => .feop | 0x08 => .fifoPacket | 0x09 => .cdata | 0x0A => .demand | 0x0B => .sredPacket | 0x0C => .sres | 0x0D => .cflush
  | 0x0E => .tkreq | 0x0F => .tkcall | 0x10 => .bartok | 0x21 => .beacon | 0x22 => .inval | _ => .switchPacketForward

/-- The hash of a reduction slot's key (R334). -/
def slotHash (gang cid : Nat) : Nat := (gang * 0x9E37 + cid * 0x79B9) % 2 ^ 16

/-! ### Packages, positions and paths (R13, R15, R53, R317, R319, R444)

Column 64·q + d is logical die d of package q (R53), and switch 16·q + w is its logical position w.  Package 0 is the part; packages 1 to 3 are
the peers of its quad, whose dies and switches the model holds as it holds its own, while their platforms stay outside (R1). -/

/-- The package of a die, and of a switch. -/
def pkgOf (d : Nat) : Nat := d / 64
@[inherit_doc pkgOf] def switchPkg (w : Nat) : Nat := w / 16
/-- Physical position of a logical die (R13). -/
def positionOf (s : State) (d : Nat) : Nat := (s.die d).position.getD (17 * (d / 16) + d % 16)
/-- Physical switch die of a position (R15). -/
def switchDie (s : State) (w : Nat) : Nat := (s.switch w).physical.getD (w % 16)
/-- The unused physical core column of a die (R17): it belongs to the physical die. -/
def columnOf (s : State) (d : Nat) : Nat := Tab.get 16 s.platform.columns (positionOf s d)
/-- What a link or port is at reset: a reach link is not yet trained (R319). -/
def linkReset (n : Nat) : Link := if n < 64 then Link.untrained else Link.reset
/-- A link or port by number. -/
def linkOf (s : State) (n : Nat) : Link := Tab.get (linkReset n) s.platform.links n
/-- The port between a compute die and a switch position, by the physical dies at its ends (R15). -/
def portOf (s : State) (d w : Nat) : Nat := 64 + 18 * positionOf s d + switchDie s w
/-- It is up (R443). -/
def portUp (s : State) (d w : Nat) : Bool := (linkOf s (portOf s d w)).up
/-- The reach link of a position between two packages is up: this package's three are 3·position + peer − 1; one between two peers is theirs. -/
def reachUp (s : State) (p q pos : Nat) : Bool := p = 0 && (linkOf s (3 * pos + q - 1)).up || q = 0 && (linkOf s (3 * pos + p - 1)).up || decide (p ≠ 0 ∧ q ≠ 0)
/-- The packages of the scale-up domain (R53, R319): this one, and the peers that some reach link joins to it. -/
def State.packages (s : State) : List Nat := 0 :: [1, 2, 3].filter fun q => (List.range 16).any (reachUp s 0 q)
/-- The logical dies and the switch positions of the domain (R53). -/
def State.dieList (s : State) : List Nat := s.packages.flatMap fun q => (List.range 64).map (64 * q + ·)
@[inherit_doc State.dieList] def State.switchList (s : State) : List Nat := s.packages.flatMap fun q => (List.range 16).map (16 * q + ·)
/-- The position a path takes (R317, R444): the rule's own, or the next one that is up on both dies and, between packages, has its reach link. -/
def livePos (s : State) (d1 d2 pos : Nat) : Option Nat :=
  let a := pkgOf d1
  let b := pkgOf d2
  ((List.range 16).map fun j => (pos + j) % 16).find? fun q =>
    !(s.switch (16 * a + q)).down && !(s.switch (16 * b + q)).down && portUp s d1 (16 * a + q) && portUp s d2 (16 * b + q)
      && (decide (a = b) || reachUp s a b q)

/-- The first switch of a packet (R317, R334, R444): 4096 stands for none.  A packet on X takes the position its source die is at. -/
def switchPos (s : State) (p : Pkt) : Nat :=
  let pos := if p.type = 0x0B then slotHash p.gang p.cid % 16 else if p.vc = 3 then (s.die p.sdie).xnext else (p.sdie + p.ddie) % 16
  match livePos s p.sdie p.ddie pos with
  | some q => 16 * pkgOf p.sdie + q
  | none => 4096
/-- The source die of a packet that leaves: on X its round-robin goes on (R317). -/
def turnX (s : State) (p : Pkt) : State := if p.vc = 3 then s.modDie p.sdie fun d => { d with xnext := (d.xnext + 1) % 16 } else s

/-- Bytes of a packet: header, stamp dwords and payload (R320). -/
def pktBytes (p : Pkt) : Nat := 32 + 8 * p.nent + p.data.length

/-- A packet on its way, in the agenda. -/
def Due.packet? (x : Due) : Option Pkt := match x.act with
  | .event _ o => o.pkt
  | .perform _ => none
/-- Clk from injection to the first switch (R318): with 30 from the last switch on, and 260 over a reach link, an unloaded packet of 64 bytes of payload
takes 70 or 330; any other takes at least 40, by a time the spec leaves open (log 3). -/
def injectTime (s : State) (p : Pkt) : Nat :=
  if p.data.length = 64 ∧ !s.agenda.any (fun x => x.packet?.any fun q => decide (q.vc ≠ 0)) then 40 else 10 + Config.freeDelay s.fresh
/-- A packet is on its way to its first switch from clk `t`. -/
def sendAt (s : State) (t : Nat) (p : Pkt) : State := (turnX s.draw p).due t (.event .switchPacketForward { a := switchPos s p, pkt := some p })

/-- The stamp entries that differ between an applied clock and a chain's last stamp (R323). -/
def stampDiff (n : Nat) (clock stamp : Tab Nat) : List (Nat × Nat) :=
  (List.range n).filterMap fun j => if Tab.get 0 clock j = Tab.get 0 stamp j then none else some (j, Tab.get 0 clock j)

/-- Little-endian clock entries of 64 members from `base` (R323). -/
def flushBytes (clock : Tab Nat) (base : Nat) : List Byte := (List.range 64).flatMap fun i => toBytes 4 (Tab.get 0 clock (base + i))

/-- The clock a packet of a chain is stamped with: its member's applied clock as it is injected, but for a packet of an engine the clock as its job was
issued (R111, R292), which such a packet holds until it is launched, NENT 1 telling that it does. -/
def pktClock (c : Member) (p : Pkt) : Tab Nat := if p.nent = 1 then p.stamp else c.clock
/-- PL and LENM1 of a packet with a payload (R320). -/
def payloadLen (p : Pkt) : Pkt := if p.data.isEmpty then p else { p with pl := true, lenm1 := p.data.length - 1 }
/-- The 64 entries of a CFLUSH from its base in ADDR, but those at or above GANGSIZE (R323), put over a stamp. -/
def flushInto (n : Nat) (base : Nat) (val : Nat → Nat) (stamp : Tab Nat) : Tab Nat :=
  (List.range 64).foldl (fun a i => if base + i < n then Tab.put 0 a (base + i) (val i) else a) stamp

/-- Put one packet of a chain on the wire: next SEQ, stamp, retransmit buffer, counter, and its way to the first switch. -/
def launchPkt (s : State) (m : MemberId) (p : Pkt) (stamp : List (Nat × Nat)) : State :=
  let c := s.member m
  let clock := pktClock c p
  let key := 2 * p.dmem + chainOf p.vc
  let ch := Tab.get Chain.start c.outChain key
  let n := (s.vd m.vd).params.n
  let seq := (ch.seq + 1) % 2 ^ 32
  let t := s.clk + injectTime s p
  let t := if p.vc = 3 then t else max t ch.at_
  let p : Pkt := { payloadLen p with seq := seq, inj := c.sent, stamp := stamp, nent := stamp.length }
  let newStamp := if p.type = 0x0D then flushInto n (p.addr.toNat % 256) (fun i => Tab.get 0 clock (p.addr.toNat % 256 + i)) ch.stamp
    else (stampDiff n clock ch.stamp).foldl (fun a e => Tab.put 0 a e.1 e.2) ch.stamp
  let s := s.modMember m fun c =>
    { c with outChain := Tab.put Chain.start c.outChain key { ch with seq := seq, stamp := newStamp, at_ := if p.vc = 3 then ch.at_ else t },
             retransmit := c.retransmit ++ [⟨p, 1, s.clk⟩], sent := c.sent + 1 }
  let s := { s with accesses := s.accesses.map fun (a : Access) =>
    if a.st = AccState.remote p.dmem 0 ∧ a.id % 65536 = p.rtag then { a with st := AccState.remote p.dmem seq } else a }
  (sendAt s t p).after 42500 .retransmitTimeout { m := m, a := p.dmem, b := chainOf p.vc, c := seq }

/-- The CFLUSH packets that go ahead of a packet when more than four entries differ (R323). -/
def flushFirst (s : State) (m : MemberId) (p : Pkt) : List Nat → State
  | [] => s
  | b :: t =>
    let q := { p with type := 0x0D, vc := if p.vc = 2 then 2 else 1, addr := BitVec.ofNat 64 b, data := flushBytes (pktClock (s.member m) p) b,
                      rel := false, rtag := 0, cid := 0, opx := 0, mlen := 0 }
    flushFirst (launchPkt s m q []) m p t

/-- Inject a packet of member m (R322, R323, R326): it waits at the origin when its window has no room for it and the CFLUSH packets it needs, or when
earlier packets of the chain wait.  An ACK takes no sequence number.  Neither does an SRED, which goes to a switch and so is of no pair of
members; it carries its origin's clock, and waits while the member is snuffed (R60). -/
def sendPkt (s : State) (m : MemberId) (p0 : Pkt) : State :=
  let c := s.member m
  let v := s.vd m.vd
  let dst := s.member ⟨m.vd, p0.dmem⟩
  let p := { p0 with smem := m.member, sdie := c.die, ddie := dst.die, gang := v.gang, inj := c.sent }
  if p.type = 0x06 then
    let key := 2 * p.dmem + 1
    let ch := Tab.get Chain.start c.outChain key
    let t := max (s.clk + injectTime s p) ch.at_
    sendAt (s.modMember m fun c => { c with outChain := Tab.put Chain.start c.outChain key { ch with at_ := t }, sent := c.sent + 1 }) t p
  else if p.type = 0x0B then
    if c.snuffed then s.modMember m fun c => { c with outWait := c.outWait ++ [p] }
    else sendAt (s.modMember m fun c => { c with sent := c.sent + 1 }) (s.clk + injectTime s p) { payloadLen p with stamp := c.clock }
  else
    let key := 2 * p.dmem + chainOf p.vc
    let ch := Tab.get Chain.start c.outChain key
    let ent := stampDiff v.params.n (pktClock c p) ch.stamp
    let bases := if ent.length ≤ 4 then [] else (List.range ((v.params.n + 63) / 64)).map (64 * ·)
    if decide (1024 ≤ (ch.seq + 2 ^ 32 - ch.acked) % 2 ^ 32 + bases.length)
        || c.outWait.any (fun q => decide (q.dmem = p.dmem ∧ q.type ≠ 0x0B ∧ chainOf q.vc = chainOf p.vc)) then
      s.modMember m fun c => { c with outWait := c.outWait ++ [p] }
    else launchPkt (flushFirst s m p bases) m p (if bases.isEmpty then ent else [])

/-- Let waiting packets of an origin go while their windows allow (R322); one pass over the queue. -/
def pumpOut (s : State) (m : MemberId) : State :=
  ((s.member m).outWait).foldl (fun s p => sendPkt s m p) (s.modMember m fun c => { c with outWait := [] })

/-! ### The destination -/


/-- Full stamp of the next packet of a chain of a gang of n members (R323). -/
def rebuildStamp (n : Nat) (ch : Chain) (p : Pkt) : Tab Nat :=
  if p.type = 0x0D then flushInto n (p.addr.toNat % 256) (fun i => ofBytes ((p.data.drop (4 * i)).take 4)) ch.stamp
  else p.stamp.foldl (fun a e => Tab.put 0 a e.1 e.2) ch.stamp

/-- The stamp is dominated: A[j] ≥ stamp[j] for every j but the origin (R110). -/
def dominated (clock : Tab Nat) (stamp : List (Nat × Nat)) (origin : Nat) : Bool :=
  stamp.all fun e => decide (e.1 = origin) || clockGe (Tab.get 0 clock e.1) e.2

/-- A response is never held for domination (R324). -/
def isResponse (t : Nat) : Bool := decide (t = 0x03) || decide (t = 0x05) || decide (t = 0x0C) || decide (t = 0x0F)

/-- Merge a stamp into an applied clock (R324). -/
def mergeClock (clock : Tab Nat) (stamp : List (Nat × Nat)) : Tab Nat :=
  stamp.foldl (fun a e => Tab.put 0 a e.1 (clockMax (Tab.get 0 a e.1) e.2)) clock

/-- The packet's SEQ has been seen on its chain (R322). -/
def seenBefore (ch : Chain) (seq : Nat) : Bool :=
  ch.seen.contains seq || clockGe ch.seq seq

/-- The collective landing buffer, 1 MiB, has no room for a packet (R330, R452). -/
def landingFull (c : Member) (p : Pkt) : Bool := decide (2 ^ 20 < (c.landing.map pktBytes).sum + pktBytes p)

/-- A packet of the wait buffer may be applied (R110, R324). -/
def mayApply (c : Member) (p : Pkt) : Bool :=
  (dominated c.clock p.stamp p.smem && !(decide (p.type = 0x09) && landingFull c p)) || isResponse p.type || decide (p.type = 0x0D)

/-- Ask for the packets whose stamps are now dominated (R110). -/
def checkHeld (s : State) (m : MemberId) : State :=
  if (s.member m).stampWait.any fun e => mayApply (s.member m) e.1 then s.afterM 0 .stampWaitApply m else s

/-- Raise one clock entry of a member's applied clock. -/
def raiseClock (s : State) (m : MemberId) (j v : Nat) : State :=
  checkHeld (s.modMember m fun c => { c with clock := Tab.put 0 c.clock j (clockMax (Tab.get 0 c.clock j) v) }) m

/-- A release at gang scope of a member is performed: A[m] := A[m] + 1 (R110). -/
def tick (s : State) (m : MemberId) : State :=
  s.modMember m fun c => { c with clock := Tab.put 0 c.clock m.member ((Tab.get 0 c.clock m.member + 1) % 2 ^ 32) }

/-- An ACK of the highest contiguous SEQ applied on a chain (R321, R446). -/
def sendAck (s : State) (m : MemberId) (smem chain : Nat) (echo : Bool) : State :=
  let ch := Tab.get Chain.start (s.member m).inChain (2 * smem + chain)
  sendPkt s m { (Pkt.local m.member smem 0x06 (BitVec.ofNat 64 (ch.acked + chain * 2 ^ 32)) 0) with vc := 2, echo := echo }

/-- A packet has been applied: the received counter (R61, R66), and the release rule of R110. -/
def countPkt (s : State) (m : MemberId) (p : Pkt) : State :=
  let s := s.modMember m fun c => { c with received := c.received + (if p.counted then 0 else 1) }
  if p.rel then
    match p.stamp.find? (fun e => decide (e.1 = p.smem)) with
    | some e => raiseClock s m p.smem e.2
    | none => s
  else s

/-- Record a SEQ as applied: the highest contiguous one applied is what ACKs carry (R321). -/
def noteApplied (ch : Chain) (seq : Nat) : Chain :=
  let done := seq :: ch.seen
  { ch with acked := (List.range 1024).foldl (fun a _ => if done.contains ((a + 1) % 2 ^ 32) then (a + 1) % 2 ^ 32 else a) ch.acked,
            seen := done.filter fun q => !clockGe ch.acked q }

/-- The SEQ of a packet is noted as applied and acknowledged (R321, R322). -/
def ackPkt (s : State) (m : MemberId) (p : Pkt) : State :=
  let key := 2 * p.smem + chainOf p.vc
  sendAck (s.modMember m fun c => { c with inChain := Tab.put Chain.start c.inChain key (noteApplied (Tab.get Chain.start c.inChain key) p.seq) })
    m p.smem (chainOf p.vc) p.mark

/-- An accepted packet has been applied: counters and clock, and its ACK (R322). -/
def appliedPkt (s : State) (m : MemberId) (p : Pkt) : State := ackPkt (countPkt s m p) m p

/-- The stamp wait buffer refuses a packet at the switch port (R324): of its 4,096 entries 256 are kept for P, which is never refused, and 256 for Q and X
packets that are the next expected of their chain; any other finds no shared entry. -/
def bufferFull (c : Member) (p : Pkt) : Bool :=
  let onP (e : Pkt × Nat) : Bool := decide (chainOf e.1.vc = 1)
  let resp := c.stampWait.countP onP + c.unbuilt.countP onP
  let next := c.stampWait.countP fun e => !onP e
  let wait := c.unbuilt.countP fun e => !onP e
  let shared := (resp - 256) + (next - 256) + wait
  let expected := decide (p.seq = ((Tab.get Chain.start c.inChain (2 * p.smem + chainOf p.vc)).seq + 1) % 2 ^ 32)
  decide (p.vc ≠ 2) && decide (3584 ≤ shared) && !(expected && decide (next < 256))

/-- A packet of a chain arrives at member m: rebuilt stamps in chain order, duplicates dropped (R110, R322, R323). The packets whose
stamps are rebuilt stand at the end of `stampWait`, to be applied once dominated. -/
def acceptPkt (s : State) (m : MemberId) (p : Pkt) : Option State :=
  let c := s.member m
  let key := 2 * p.smem + chainOf p.vc
  let ch := Tab.get Chain.start c.inChain key
  if !c.live then none
  else if seenBefore ch p.seq || c.unbuilt.any (fun e => decide (e.1.smem = p.smem ∧ chainOf e.1.vc = chainOf p.vc ∧ e.1.seq = p.seq)) then
    none
  else some (drain 1025 (s.modMember m fun c => { c with unbuilt := c.unbuilt ++ [(p, s.clk)] }) key)
where
  /-- Move packets that are next in their chain from `unbuilt` to `stampWait`. -/
  drain : Nat → State → Nat → State
    | 0, s, _ => s
    | n + 1, s, key =>
      let c := s.member m
      let ch := Tab.get Chain.start c.inChain key
      match c.unbuilt.find? (fun e => decide (2 * e.1.smem + chainOf e.1.vc = key ∧ e.1.seq = (ch.seq + 1) % 2 ^ 32)) with
      | none => s
      | some e =>
        let st := rebuildStamp (s.vd m.vd).params.n ch e.1
        let s := s.modMember m fun c =>
          { c with unbuilt := c.unbuilt.filter (fun x => decide (x ≠ e)),
                   inChain := Tab.put Chain.start c.inChain key { ch with seq := e.1.seq, stamp := st },
                   stampWait := c.stampWait ++ [({ e.1 with stamp := st }, e.2)] }
        drain n s key

/-- The first packet of the wait buffer that may be applied, taken out of it (R110, R324). -/
def takeDominated (s : State) (m : MemberId) : Option (Pkt × State) :=
  let c := s.member m
  match c.stampWait.find? (fun e => mayApply c e.1) with
  | none => none
  | some e =>
    some (e.1, s.modMember m fun c =>
      { c with stampWait := c.stampWait.filter (fun x => decide (x ≠ e)),
               clock := if isResponse e.1.type then mergeClock c.clock e.1.stamp else c.clock })

/-- Line rate, the lowest rate, and what an ECHO and 4 µs without one make of a rate (R326): a fraction of line rate. -/
def lineRate : Nat × Nat := (256, 256)
@[inherit_doc lineRate] def rateFall (r : Nat × Nat) : Nat × Nat := if 7 * r.1 * 256 < 8 * r.2 then (1, 256) else (7 * r.1, 8 * r.2)
@[inherit_doc lineRate] def rateRise (r : Nat × Nat) : Nat × Nat := if r.2 ≤ r.1 + r.2 / 32 then lineRate else (r.1 + r.2 / 32, r.2)

/-- The VD of a gang number. -/
def vdOfGang (s : State) (g : Nat) : Nat := ((s.vds.find? fun e => decide (e.2.gang = g) && e.2.live).map (·.1)).getD 0

/-- A switch puts a packet out toward its die: marked when the output's queue exceeds 32 KiB (R326). -/
def switchOut (s : State) (w : Nat) (p : Pkt) : State :=
  let q := Tab.get 0 (s.switch w).outQueue p.ddie
  let n := pktBytes p
  let p := { p with mark := p.mark || decide (32768 < q) }
  let s := (s.modSwitch w fun x => { x with outQueue := Tab.put 0 x.outQueue p.ddie (q + n) }).modDie p.ddie fun d => { d with ingress := d.ingress + n }
  s.after 30 (arrivalEvent p.type) { m := ⟨vdOfGang s p.gang, p.dmem⟩, a := w, pkt := some p }

/-- An ECHO from a die lowers its rate limiter to 7/8, and starts the 4 µs to its next rise (R326). -/
def echoRate (s : State) (m : MemberId) (d : Nat) : State :=
  (s.modMember m fun c => { c with rate := Tab.put lineRate c.rate d (rateFall (Tab.get lineRate c.rate d)), echoAt := Tab.put 0 c.echoAt d s.clk }).after 3400
    .rateLimitRise { m := m, a := d }

/-- What a packet's arrival does whatever its kind: queues and windows (R325, R327), echo (R326). -/
def arriveCommon (s : State) (m : MemberId) (w : Nat) (p : Pkt) : State :=
  let n := pktBytes p
  let s := (s.modSwitch w fun x => { x with outQueue := Tab.put 0 x.outQueue p.ddie (Tab.get 0 x.outQueue p.ddie - n) }).modDie p.ddie fun d =>
    { d with ingress := d.ingress - n, arrivals := d.arrivals + 1, marked := d.marked + b2n p.mark }
  if p.echo then echoRate s m p.sdie else s

/-- Hop count between two cores of a die (R87). -/
def hops (a b : Nat) : Nat :=
  (if a % 16 < b % 16 then b % 16 - a % 16 else a % 16 - b % 16) + (if a / 16 < b / 16 then b / 16 - a / 16 else a / 16 - b / 16)

end Sys2Proof.Machine
end

