-- ==== Sys2Proof/Machine/Memory.lean ====
section
/-!
DEFINITION. Memory.lean: accesses and their points of performance (R102): translation (R91 to R95), vault ports with their wait queues
(R272, R273), atomics and merging reductions (R97, R98, R275 to R277), heat counters (R99).
-/
namespace Sys2Proof.Machine

/-! ### Starting an access -/

/-- Real clk at which an access with an effective address reaches its point (R87): own vault +3, another vault +4+h, else a time R479
leaves open. -/
def accTime (s : State) (k : CoreId) (ea : Dword) : Nat :=
  if eaSpace ea = 0 then
    let v := eaAddr ea / Config.vaultStride
    if v = k.core then s.clk + 3 else s.clk + 4 + hops k.core v
  else s.clk + s.delay

/-- Clk from its performance to its return (R87). -/
def retTime (s : State) (a : Access) : Nat :=
  if eaSpace a.ea = 0 then
    let v := eaAddr a.ea / Config.vaultStride
    if v = a.k.core then 3 else 4 + hops a.k.core v
  else s.delay

/-- Start an access that reaches its point at a clk; its tag, if it names one, becomes not ready (R176). -/
def startAt (s : State) (k : CoreId) (sl : Nat) (kind : AccKind) (ea : Dword) (size : Nat) (dest : Dest) (tag rid t : Nat) (rel : Bool) : State :=
  let m := s.ctxD k
  let a : Access :=
    { id := s.nextId, k := k, vd := m.vd, member := m.member, slot := sl, pc := (s.core k).pc, issue := s.clk, ea := ea, size := size, kind := kind,
      dest := dest, tag := tag, rid := rid, st := .travel, rel := rel }
  let s := { s with accesses := s.accesses ++ [a], nextId := s.nextId + 1, fresh := s.fresh + 1 }
  let s := if tag = 0 then s else s.modCore k fun c => { c with tags := Tab.put 0 c.tags tag (a.id + 1) }
  s.due t (.perform a.id)
/-- Start an access at the time its address gives. -/
def startAccess (s : State) (k : CoreId) (sl : Nat) (kind : AccKind) (ea : Dword) (size : Nat) (dest : Dest) (tag rid : Nat) (rel : Bool) : State :=
  startAt s k sl kind ea size dest tag rid (accTime s k ea) rel

/-- The access just started belongs to the bundle that issued at pc in an earlier clk. -/
def State.ofBundle (s : State) (pc t : Nat) : State :=
  { s with accesses := s.accesses.map fun a => if a.id + 1 = s.nextId then { a with pc := pc, issue := t } else a }

/-- An access by number. -/
def State.access (s : State) (id : Nat) : Option Access := s.accesses.find? fun a => decide (a.id = id)
@[inherit_doc State.access] def State.setAccess (s : State) (a : Access) : State :=
  { s with accesses := s.accesses.map fun b => if b.id = a.id then a else b }
@[inherit_doc State.access] def State.dropAccess (s : State) (id : Nat) : State :=
  { s with accesses := s.accesses.filter fun a => decide (a.id ≠ id) }

/-- The member context of an access. -/
def Access.ctx (a : Access) : MemberId := ⟨a.vd, a.member⟩
/-- The access has been performed: only its value is still to come (R102). -/
def Access.performed (a : Access) : Bool := match a.st with | .done _ => true | _ => false

/-- Some of its parts have been performed and others have not (R107). -/
def Access.inParts (a : Access) : Bool := match a.st with | .parts _ _ _ => true | _ => false
/-- The access stands elsewhere, but for one that has performed some of its parts, which it keeps (R107). -/
def Access.moved (a : Access) (st : AccState) : Access := match a.st with
  | .parts _ _ _ => a
  | _ => { a with st := st }

/-- A tag becomes ready (R176). -/
def Core.ready (c : Core) (t : Nat) : Core := { c with tags := Tab.put 0 c.tags t 0 }

/-! ### Places -/

/-- A place an access acts on: a V-address of a die, or a physical byte. -/
inductive Loc where
  | vault (d a : Nat)
  | phys (k : Nat)
  deriving DecidableEq, Repr

/-- The key of a place. -/
def Loc.key : Loc → Nat
  | .vault d a => vaultKey d a
  | .phys k => k
/-- The die whose write queue serves a place. -/
def Loc.die : Loc → Nat
  | .vault d _ => d
  | .phys k => if k / 2 ^ 80 = 2 then k / 2 ^ 64 % 2 ^ 16 else 0

/-- Triggers whose counter a write has brought to its threshold fire (R309). -/
def checkTriggers (s : State) (m : MemberId) (a n : Nat) : State :=
  let c := s.member m
  c.triggers.foldl (fun s e => match e.2 with
    | some t =>
      if a < t.counter + 8 ∧ t.counter < a + n ∧ t.fired = false ∧ t.threshold.toNat ≤ (wordOf s m t.counter).toNat then
        (s.modMember m fun c => { c with triggers := Tab.put none c.triggers e.1 (some { t with fired := true }) }).afterM 0 .triggerFire m e.1
      else s
    | none => s) s

/-- A write to the WPTR of a queue of the VD is noticed within 1 µs (R359); the gang queue's by every member (R360). -/
def checkDoorbell (s : State) (vd k n : Nat) : State :=
  let v := s.vd vd
  (List.range v.tables.length).foldl (fun s i =>
    let p := v.tables.getD i 0
    if k < p + 1024 ∧ p < k + n then
      ((List.range 16).filter fun q => decide (k < p + 64 * q + 16 ∧ p + 64 * q + 8 < k + n)).foldl (fun s q =>
        (if i = 0 ∧ q = 15 then List.range v.params.n else [i]).foldl (fun s j =>
          s.draw.after (1 + Config.freeDelay s.fresh % Config.us) .queueDoorbell { m := ⟨vd, j⟩, a := q }) s) s
    else s) s

/-- RPTR of a queue descriptor of a VD is read-only (R7, R358): the bytes of a write that fall in one stay as they are. -/
def keepRptr (s : State) (vd k : Nat) (b : List Byte) : List Byte :=
  let ts := (s.vd vd).tables.filter fun p => decide (k < p + 1024 ∧ p < k + b.length)
  if ts.isEmpty then b
  else (List.range b.length).map fun i =>
    if ts.any fun p => decide (p ≤ k + i ∧ k + i < p + 1024 ∧ (k + i - p) % 64 / 8 = 2) then Tab.get 0 s.mem (k + i) else b.getD i 0

/-- The key of the first byte of the page a migration moves, where it is and where it goes (R100). -/
def Migration.srcKey (s : State) (g : Migration) : Nat := if g.toTier then hbmKey (s.member ⟨g.vd, g.member⟩).die g.src else tierKey g.src
@[inherit_doc Migration.srcKey] def Migration.dstKey (s : State) (g : Migration) : Nat :=
  if g.toTier then tierKey g.dst else hbmKey (s.member ⟨g.vd, g.member⟩).die g.dst
/-- The sectors of the page a migration moves that a write of n bytes at a key touches enter its dirty map (R100). -/
def Migration.note (s : State) (k n : Nat) (g : Migration) : Migration :=
  let src := g.srcKey s
  let qs := (List.range ((n + 255) / 256 + 1)).map fun i => (max k src - src) / 256 + i
  if g.step = 0 ∨ k + n ≤ src ∨ src + g.size ≤ k then g
  else { g with dirty := g.dirty ++ qs.filter fun q => decide (src + 256 * q < k + n ∧ 256 * q < g.size) && !g.dirty.contains q }

/-- A write to a word at which accesses wait: the first of them looks again in this clk (R273, R307). -/
def pokeQueues (s : State) (d a n : Nat) : State :=
  (s.die d).queues.foldl (fun s e => match e.2 with
    | id :: _ => if a < e.1 + 8 ∧ e.1 < a + n then s.due s.clk (.perform id) else s
    | [] => s) s

/-- Write bytes at a place for a context. -/
def putAt (s : State) (m : MemberId) (l : Loc) (b : List Byte) : State :=
  match l with
  | .vault d a => pokeQueues (checkTriggers (s.vput d a b) m a b.length) d a b.length
  | .phys k =>
    let s := checkDoorbell (s.store k (keepRptr s m.vd k b)) m.vd k b.length
    if s.migrations.isEmpty then s else { s with migrations := s.migrations.map (Migration.note s k b.length) }

/-- The expansion port that holds a byte of the tier (R20, R91, R353): a port serves 2 TiB; one past the 16 ports stands for no port. -/
def tierPort (k : Nat) : Nat := min 16 (k % 2 ^ 80 / 2 ^ 41)
/-- A heat counter counts one request (R99): 64·counter + prescaler, the counter saturating at 255. -/
def heatStep (v : Nat) : Nat := if v % 64 = 63 then (if v / 64 = 255 then 255 * 64 else v + 1) else v + 1
/-- Count the 64-byte requests of an access to HBM or the tier. -/
def countHeat (s : State) (l : Loc) (n : Nat) : State :=
  match l with
  | .vault _ _ => s
  | .phys k =>
    let reqs := (k % 2 ^ 64 + max n 1 - 1) / 64 - k % 2 ^ 64 / 64 + 1
    let bump (h : Tab Nat) : Tab Nat := Tab.put 0 h (k / 65536) ((List.range reqs).foldl (fun v _ => heatStep v) (Tab.get 0 h (k / 65536)))
    if k / 2 ^ 80 = 2 then s.modDie l.die fun d => { d with heat := bump d.heat }
    else if k / 2 ^ 80 = 3 then s.modSwitch (tierPort k) fun w => { w with heat := bump w.heat }
    else s

/-! ### Merging reductions (R98) -/

/-- The write queue of a line (R97, R98): one per vault port, one per HBM controller, which serves one stack of 48 GiB (R19, R99), and
one per outside port unit (log 19, 20). -/
def queueOf (line : Nat) : Nat :=
  let k := line * 64
  match k / 2 ^ 80 with
  | 2 => 2 * 2 ^ 80 + k / 2 ^ 64 % 2 ^ 16 * 2 + k % 2 ^ 64 / (48 * 2 ^ 30)
  | 3 => 3 * 2 ^ 80 + tierPort k
  | 4 => 4 * 2 ^ 80
  | _ => k / 2 ^ 22

/-- Apply a pending operand table to memory: mem := mem op P. -/
def drainMerge (s : State) (m : MemberId) (l : Loc) (e : Merge) : State :=
  e.pend.foldl (fun s p =>
    let k := e.line * 64 + p.1
    let v := amoNew e.op e.n (s.load k e.n) p.2.toNat 0
    match l with
    | .vault d a => putAt s m (.vault d (a / 64 * 64 + p.1)) (toBytes e.n v)
    | .phys _ => putAt s m (.phys k) (toBytes e.n v)) s

/-- The place of a line: a vault line keeps its V-address. -/
def lineLoc (d line : Nat) : Loc :=
  if line * 64 / 2 ^ 80 = 1 then .vault d (line * 64 % 2 ^ 64) else .phys (line * 64)

/-- Drain one entry of a die's write queues. -/
def drainEntry (s : State) (d : Nat) (m : MemberId) (e : Merge) : State :=
  drainMerge (s.modDie d fun t => { t with merges := t.merges.filter fun x => decide (x ≠ e) }) m (lineLoc d e.line) e

/-- Any other access to a line drains its entry first (R98). -/
def drainLine (s : State) (d : Nat) (m : MemberId) (line : Nat) : State :=
  ((s.die d).merges.filter fun e => decide (e.line = line)).foldl (fun s e => drainEntry s d m e) s

/-- The same for every line of n bytes from a key. -/
def drainRange (s : State) (d : Nat) (m : MemberId) (key n : Nat) : State :=
  ((s.die d).merges.filter fun e => decide (key / 64 ≤ e.line ∧ e.line ≤ (key + max n 1 - 1) / 64)).foldl (fun s e => drainEntry s d m e) s

/-- A record that the core in focus reads in its own vault at issue drains the reductions that wait on its lines (R98, R477). -/
def State.drainOwn (s : State) (a n : Nat) : State :=
  match homeKey s (s.ctxD s.focus) a with
  | some k => drainRange s s.focus.die (s.ctxD s.focus) k n
  | none => s
/-- The same for the footprint list that a record or a card names (R213). -/
def State.drainList (s : State) (d3 : Dword) : State :=
  match recFp d3 with
  | some a => s.drainOwn a 248
  | none => s

/-- Drain the entries that hold a reduction of a core (R105). -/
def drainAgent (s : State) (d : Nat) (m : MemberId) (agent : Nat) : State :=
  ((s.die d).merges.filter fun e => e.agents.contains agent).foldl (fun s e => drainEntry s d m e) s

/-- Accept a reduction: merge it into its line's entry of the same operation and size, or open one (R98). -/
def mergeReduction (s : State) (m : MemberId) (l : Loc) (op : AmoOp) (n : Nat) (b : Dword) (agent : Nat) : State :=
  let d := l.die
  let line := l.key / 64
  let off := l.key % 64
  match (s.die d).merges.find? (fun e => decide (e.line = line)) with
  | some e =>
    if e.op = op ∧ e.n = n then
      let p := match e.pend.find? (fun x => decide (x.1 = off)) with
        | some x => BitVec.ofNat 64 (amoNew op n x.2.toNat b.toNat 0)
        | none => BitVec.ofNat 64 (b.toNat % 2 ^ (8 * n))
      let e' := { e with pend := e.pend.insert off p, last := s.clk, agents := if e.agents.contains agent then e.agents else e.agents ++ [agent] }
      (s.modDie d fun t => { t with merges := t.merges.map fun x => if x = e then e' else x }).after 64 .reductionDrain { m := m, a := d, b := line }
    else openEntry (drainEntry s d m e) d line off
  | none => openEntry s d line off
where
  /-- Open an entry; with all 32 of the queue in use the earliest drains first. -/
  openEntry (s : State) (d line off : Nat) : State :=
    let mine := (s.die d).merges.filter fun e => decide (queueOf e.line = queueOf line)
    let s := match mine with
      | e :: _ => if 32 ≤ mine.length then drainEntry s d m e else s
      | [] => s
    (s.modDie d fun t => { t with merges := t.merges ++ [⟨line, op, n, [(off, BitVec.ofNat 64 (b.toNat % 2 ^ (8 * n)))], s.clk, [agent]⟩] }).after 64
      .reductionDrain { m := m, a := d, b := line }

/-! ### Translation (R91 to R94) -/

/-- Leaf and table entry fields (R92). -/
def ptMember (e : Dword) : Nat := bitsN e.toNat 63 56
@[inherit_doc ptMember] def ptPa (e : Dword) : Nat := bitsN e.toNat 55 12 * 4096
@[inherit_doc ptMember] def ptTgt (e : Dword) : Nat := bitsN e.toNat 11 8
@[inherit_doc ptMember] def ptD (e : Dword) : Bool := bitN e.toNat 6
@[inherit_doc ptMember] def ptC (e : Dword) : Bool := bitN e.toNat 4
@[inherit_doc ptMember] def ptW (e : Dword) : Bool := bitN e.toNat 2
@[inherit_doc ptMember] def ptType (e : Dword) : Nat := bitsN e.toNat 1 0

/-- The key of a page-table entry: level 1 to 4 and the index path. -/
def ptKey (level va : Nat) : Nat :=
  level * 2 ^ 40 + (match level with | 1 => va / 2 ^ 39 | 2 => va / 2 ^ 30 | 3 => va / 2 ^ 21 | _ => va / 2 ^ 12)

/-- The leaf that maps an address and its level (R92): none is a translation fault. -/
def findLeaf (v : VD) (va : Nat) : Option (Nat × Dword) :=
  let e1 := Tab.get 0 v.pt (ptKey 1 va)
  let e2 := Tab.get 0 v.pt (ptKey 2 va)
  let e3 := Tab.get 0 v.pt (ptKey 3 va)
  let e4 := Tab.get 0 v.pt (ptKey 4 va)
  if 2 ^ 52 ≤ va ∨ ptType e1 ≠ 2 then none
  else if ptType e2 = 1 then some (2, e2)
  else if ptType e2 ≠ 2 then none
  else if ptType e3 = 1 then some (3, e3)
  else if ptType e3 ≠ 2 then none
  else if ptType e4 = 1 then some (4, e4) else none

/-- First page and size in 4 KiB units of a leaf (R92). -/
def leafSpan (level va : Nat) (e : Dword) : Nat × Nat :=
  match level with
  | 2 => (va / 2 ^ 30 * 2 ^ 18, 2 ^ 18)
  | 3 => (va / 2 ^ 21 * 2 ^ 9, 2 ^ 9)
  | _ => if ptC e then (va / 65536 * 16, 16) else (va / 4096, 1)

/-- A TLB entry that maps an address; a write through one whose D is clear walks again (R92). -/
def tlbHit (l : List TlbEntry) (vd va : Nat) (write : Bool) : Option TlbEntry :=
  l.find? fun e => decide (e.vd = vd ∧ e.page ≤ va / 4096 ∧ va / 4096 < e.page + e.size) && (!write || !ptW e.leaf || ptD e.leaf)

/-- Put an entry first in a TLB of n entries, dropping the least recently used (R93). -/
def tlbFill (l : List TlbEntry) (n : Nat) (e : TlbEntry) : List TlbEntry :=
  (e :: l.filter fun x => !(decide (x.vd = e.vd ∧ x.page = e.page))).take n
/-- The set of the die TLB a page falls in: 2,048 sets of 8 ways. -/
def tlbSet (e : TlbEntry) : Nat := e.page % 2048
/-- Fill the die TLB: the least recently used of the set goes. -/
def dieTlbFill (l : List TlbEntry) (e : TlbEntry) : List TlbEntry :=
  let others := l.filter fun x => !(decide (x.vd = e.vd ∧ x.page = e.page))
  let mine := (others.filter fun x => decide (tlbSet x = tlbSet e)).take 7
  e :: others.filter fun x => decide (tlbSet x ≠ tlbSet e) || mine.contains x

/-- An access is write-class (R92, R102). -/
def AccKind.write : AccKind → Bool
  | .store _ => true | .mstore _ => true | .fpush _ => true | .entry _ => true | .amo _ _ _ _ _ => true | .sig _ => true | .fill _ _ => true | .stm _ _ _ => true
  | .copyOut _ _ _ _ _ => true | .served p => decide (p.type ≠ 0x02)
  | .fe op _ => decide (op ≠ .keep ∧ op ≠ .chk)
  | _ => false

/-- Physical address of a translated address. -/
def physOf (e : TlbEntry) (va : Nat) : Nat := ptPa e.leaf / (e.size * 4096) * (e.size * 4096) + va % (e.size * 4096)

/-- What a translation gives. -/
inductive Trans where
  | fault (cause : Nat) | loc (l : Loc) | remote (member pa : Nat) | strike | miss
  deriving DecidableEq, Repr

/-- A walk meets a poisoned table entry (R461). -/
def walkPoison (v : VD) (va : Nat) : Option Nat := [1, 2, 3, 4].find? fun lv => Tab.get false v.ptPoison (ptKey lv va)
/-- A leaf as the walker leaves it (R92): A set on every fill, D on the first write through it. -/
def walkedLeaf (e : Dword) (write : Bool) : Dword := e ||| (if write && ptW e then 0x60 else 0x20)
/-- The page table as a walk of a die reads it: a table entry that its walk cache holds is not read again (R93). -/
def cachedPt (l : List (Nat × Nat)) (vd : Nat) (v : VD) (va : Nat) : VD :=
  { v with pt := [1, 2, 3].foldl (fun t lv => if l.contains (vd, ptKey lv va) then Tab.put 0 t (ptKey lv va) 2 else t) v.pt }
/-- The walk cache after a walk that met a leaf at a level: its table entries are the most recently used of 256 (R93). -/
def cacheWalk (l : List (Nat × Nat)) (vd va level : Nat) : List (Nat × Nat) :=
  let new := ([1, 2, 3].filter fun lv => decide (lv < level)).map fun lv => (vd, ptKey lv va)
  (new ++ l.filter fun e => !new.contains e).take 256
/-- A walk completes: the entry it found, if any, with A and D set in the leaf, and the die TLB and the walk cache filled (R92 to R94). -/
def walk (s : State) (d vd va : Nat) (write : Bool) : Option TlbEntry × State :=
  match findLeaf (cachedPt (s.die d).wcache vd (s.vd vd) va) va with
  | some (lv, e) =>
    let e := walkedLeaf e write
    let sp := leafSpan lv va e
    let t : TlbEntry := ⟨vd, sp.1, sp.2, e⟩
    (some t, (s.modVd vd fun v => { v with pt := Tab.put 0 v.pt (ptKey lv va) e }).modDie d fun x =>
      { x with tlb := dieTlbFill x.tlb t, wcache := cacheWalk x.wcache vd va lv })
  | none => (none, s)

/-- Where a leaf sends an access of a context (R91, R92). -/
def leafTarget (s : State) (m : MemberId) (write : Bool) (e : TlbEntry) (va : Nat) : Trans :=
  let pa := physOf e va
  if 4 ≤ ptTgt e.leaf then .fault 0x08
  else if write && !ptW e.leaf then .fault 0x09
  else match ptTgt e.leaf with
    | 0 => if ptMember e.leaf = m.member then .loc (.phys (hbmKey (s.member m).die pa)) else .remote (ptMember e.leaf) pa
    | 1 => .loc (.phys (tierKey pa))
    | 2 => .loc (.phys (hostKey (s.vd m.vd).vf pa))
    | _ => .strike

/-- Translate a global address for a core's access from its TLBs (R93). -/
def translate (s : State) (k : CoreId) (m : MemberId) (slot : Nat) (write : Bool) (va : Nat) : Trans :=
  let c := s.core k
  if 2 ^ 52 ≤ va then .fault 0x08
  else match tlbHit (if slot = 3 then c.stlb else c.utlb) m.vd va write with
    | some e => leafTarget s m write e va
    | none => match tlbHit (s.die k.die).tlb m.vd va write with
      | some e => leafTarget s m write e va
      | none => .miss

/-- A hit renews its entry, so that the least recently used stands last (R93): the hit in the core's own TLB, else in the die's, which then fills the
core's. -/
def tlbUse (s : State) (k : CoreId) (slot vd va : Nat) (write : Bool) : State :=
  let own (c : Core) : List TlbEntry := if slot = 3 then c.stlb else c.utlb
  let fill (e : TlbEntry) (s : State) : State := if k.core = 256 then s else s.modCore k fun c =>
    if slot = 3 then { c with stlb := tlbFill c.stlb 32 e } else { c with utlb := tlbFill c.utlb 64 e }
  match tlbHit (own (s.core k)) vd va write with
  | some e => fill e s
  | none => match tlbHit (s.die k.die).tlb vd va write with
    | some e => fill e (s.modDie k.die fun t => { t with tlb := dieTlbFill t.tlb e })
    | none => s
/-- A core's translation is found in the die TLB and not in its own: the access is 12 clk later (R93). -/
def dieTlbOnly (s : State) (k : CoreId) (slot vd va : Nat) (write : Bool) : Bool :=
  let c := s.core k
  decide (k.core ≠ 256) && (tlbHit (if slot = 3 then c.stlb else c.utlb) vd va write).isNone && (tlbHit (s.die k.die).tlb vd va write).isSome

/-- Join the walk under way of a page (R94). -/
def joinWalk (l : List Walk) (vd page : Nat) (write : Bool) (ids : List Nat) : List Walk :=
  l.map fun w => if w.active ∧ w.vd = vd ∧ w.page = page then { w with waiting := w.waiting ++ ids, write := w.write || write } else w
/-- A miss joins the walk of its page that is under way, takes a free walker, or stands in the queue of 1,024 entries; while that is full the die TLB
takes no new miss, and the access asks again (R94). -/
def startWalk (s : State) (d vd va : Nat) (write : Bool) (id : Nat) : State :=
  let page := va / 4096
  if (s.die d).walks.any (fun w => w.active && decide (w.vd = vd ∧ w.page = page)) then
    s.modDie d fun t => { t with walks := joinWalk t.walks vd page write [id] }
  else if (s.die d).walks.countP (·.active) < 64 then
    (s.modDie d fun t => { t with walks := t.walks ++ [⟨vd, page, [id], true, write⟩] }).draw.due (s.clk + s.delay)
      (.event .translationWalkEnd { a := d, b := vd, c := page })
  else if (s.die d).walks.countP (fun w => !w.active) < 1024 then
    s.modDie d fun t => { t with walks := t.walks ++ [⟨vd, page, [id], false, write⟩] }
  else s.due (s.clk + 1) (.perform id)

/-! ### Finishing -/

/-- A fault of an access is found (R389): the event DEFERRED_FAULT_FOUND acts on it. -/
def foundFault (s : State) (a : Access) (cause : Nat) (addr : Nat) : State :=
  s.after 0 .deferredFaultFound
    { a := a.id, b := cause, v := addrForm (eaSpace a.ea * 2 ^ 62 + addr) a.kind.write true }

/-- No longer anything an acquire, a release or a fence of the core waits for (R271, R278). -/
def Core.unwait (c : Core) (id : Nat) : Core := { c with waitFor := c.waitFor.filter fun x => decide (x ≠ id) }

/-- What a latch entry holds of a result: the lanes of its mask, else zero (R222). -/
def latchVal : Val → LatchVal
  | .s w => .s w
  | .v mk w => .v (laneMerge mk w 0)
  | .p mk w => .v (BitVec.setWidth 2048 (w &&& mk))
  | _ => .s 0

/-- The value of a fixed-latency access is bound (R85, R87): delivered 3 clk later. -/
def bindResult (s : State) (k : CoreId) (rid : Nat) (v : Val) (deliver : Nat) (tval : Dword := 0) : State :=
  s.modCore k fun c =>
    let lv := latchVal v
    { c with results := c.results.map (fun r => if r.rid = rid then { r with val := v, deliver := deliver, tval := tval } else r),
             hist0 := bindHist rid lv c.hist0, hist1 := bindHist rid lv c.hist1, hist2 := bindHist rid lv c.hist2 }

/-- Other writes of the same multicast are still to be performed (R287). -/
def stmOpen (s : State) (a : Access) : Bool :=
  match a.kind with
  | .stm g _ _ => s.accesses.any fun b => match b.kind with
    | .stm h _ _ => decide (g = h ∧ a.id ≠ b.id)
    | _ => false
  | _ => false

/-- A write of multicast g that failed is kept with no bytes until the others are performed (R449). -/
def stmFailed (g : Nat) (a : Access) : Bool := match a.kind with
  | .stm h _ l => decide (h = g) && l.isEmpty
  | _ => false
/-- A write of multicast g that is still to be performed. -/
def stmLive (g : Nat) (a : Access) : Bool := match a.kind with
  | .stm h _ l => decide (h = g) && !l.isEmpty
  | _ => false
/-- The member an access goes to. -/
def Access.target (a : Access) : Nat := match a.st with
  | .remote m _ => m
  | _ => a.member
/-- Every other write of multicast g has been performed: those that failed raise cause 0x0C and make one record of the members (R449). -/
def stmFinish (s : State) (g : Nat) (e : Dword) : State :=
  let bad := s.accesses.filter (stmFailed g)
  if s.accesses.any (stmLive g) then s
  else match bad with
    | [] => s
    | a :: t =>
      let ms := (bad.map (·.target)).eraseDups
      { s with accesses := s.accesses.filter fun b => !t.contains b }.after 0 .deferredFaultFound
        { a := a.id, b := 0x0C, v := e, l := [(ms.map fun m => if m < 64 then 2 ^ m else 0).sum, bad.length] }
/-- A write of a multicast has failed. -/
def stmFail (s : State) (a : Access) : State := match a.kind with
  | .stm g e _ => stmFinish (s.setAccess { a with kind := .stm g e [] }) g e
  | _ => s

/-- The origin's access that a packet belongs to. -/
def originAccess (s : State) (m : MemberId) (p : Pkt) : Option Access :=
  s.accesses.find? fun a => decide (a.vd = m.vd ∧ a.member = p.smem ∧ a.id % 65536 = p.rtag) && (match a.st with | .remote _ _ => true | _ => false)
/-- The fill of a word by member `pm` has been performed at the word's die: the registration of the task or job that made it ends (R49). -/
def endFill (s : State) (m : MemberId) (va pm owner : Nat) : State :=
  if owner = 0 then s else endProducer s m va pm (if owner % 2 = 1 then .task (owner / 2) else .job (owner / 2 - 1))
/-- The same for a fill that a packet carries. -/
def endFillPkt (s : State) (m : MemberId) (va : Nat) (p : Pkt) : State :=
  match originAccess s m p with
  | some a => match a.kind with
    | .fill _ owner => endFill s m va p.smem owner
    | _ => s
  | none => s

/-- The OUT summary of a job after one more run of written bytes (R303). -/
def jobSummary (j : Job) (l : List Byte) : Option Nat :=
  let d := (j.card.getD 2 0).toNat
  let t := bitsN d 55 52
  if bitN d 47 then
    let n := summaryOf t (unpackElems t l)
    some (match j.summary with | some o => summaryJoin o n | none => n)
  else none

/-- Bytes of chunk q of a job have been written (R292, R303); the chunk reaches its boundary with its last write.  A collective's summary takes
its bytes where its step writes them (R302). -/
def jobWrote (s : State) (m : MemberId) (h q : Nat) (l : List Byte) : State :=
  let s := match (s.member m).job h with
    | some j => if l.isEmpty ∨ cardKind j.card = 2 then s else s.modMember m fun c => c.setJob h (some { j with summary := jobSummary j l })
    | none => s
  s.after 0 .chunkBoundary { m := m, a := h, b := q }

/-- The next completion action of a job whose barrier arrival or signal write has been performed (R295): such an access of the die's engines
holds the job's handle in `pc`. -/
def engineNext (s : State) (a : Access) : State :=
  if a.k.core = 256 ∧ a.pc ≠ 0 then
    match a.kind with
    | .bar _ _ | .sig _ => s.after 0 .jobSignalWrite { m := a.ctx, a := a.pc - 1 }
    | _ => s
  else s

/-- An access has been performed; its value, if any, is on its way (R87, R176, R264). -/
def performedAcc (s : State) (a : Access) (v : Option Val) : State :=
  match a.kind, v with
  | .copyOut h q _ _ _, some (.bytes l) => jobWrote (s.dropAccess a.id) a.ctx h q l
  | .copyOut h q _ _ _, _ => jobWrote (s.dropAccess a.id) a.ctx h q []
  | _, _ =>
  let s := if a.rel then tick s a.ctx else s
  let s := s.modCore a.k fun c => c.unwait a.id
  match v with
  | none =>
    let s := engineNext (s.dropAccess a.id) a
    let s := match a.kind with
      | .stm g e _ => stmFinish s g e
      | _ => s
    if a.tag = 0 || stmOpen s a then s else s.modCore a.k fun c => c.ready a.tag
  | some v =>
    if a.rid ≠ 0 then bindResult (s.dropAccess a.id) a.k a.rid v (s.clk + 3) (addrForm a.ea.toNat a.kind.write false)
    else (s.setAccess { a with st := .done v }).draw.due (s.clk + retTime s a) (.event .taggedResultLand { k := a.k, a := a.id })

/-! ### Full/empty words and queues -/

/-- The condition of a waiting access on its word (R272, R307). -/
def canServe (s : State) (a : Access) (d va : Nat) : Bool :=
  let full := Tab.get false s.fe (vaultKey d va)
  match a.kind with
  | .fe .keep _ => full
  | .fe .take _ => full
  | .fe .fill _ => !full
  | .fill _ _ => !full
  | .served _ => !full
  | .bar .wait v => decide (bitN (s.load (vaultKey d va) 8) 63 = v.getLsbD 0)
  | _ => true

/-- A word has been filled for a context (R45, R49, R50): late arrivals are counted and consumers may become ready. -/
def filled (s : State) (m : MemberId) (va : Nat) (v : Dword) : State :=
  let s := (keepProducer s m va).modMember m fun c =>
    { c with latecnt := if isLateArrival c s.clk va && decide (bitsN v.toNat 11 8 = 1) && decide (c.latecnt ≠ 0xFFFFFFFF) then c.latecnt + 1 else c.latecnt,
             absorbed := Tab.put 0 c.absorbed va 0 }
  settle s m

/-- The act of a full/empty access at its port (R272), with the value it returns; a reduction that waits there drains first (R98).  A feset that finds its
word empty makes it full, which counts as a fill (log 52). -/
def feAct (s : State) (m : MemberId) (d va : Nat) (op : FeOp) (v : Dword) : State × Option Val :=
  let s := drainRange s d m (vaultKey d va) 8
  let full := Tab.get false s.fe (vaultKey d va)
  match op with
  | .keep => (s, some (.s (memDword s.mem (vaultKey d va))))
  | .take => (s.setFe d va false, some (.s (memDword s.mem (vaultKey d va))))
  | .fill => (filled ((putAt s m (.vault d va) (toBytes 8 v.toNat)).setFe d va true) m va v, none)
  | .chk => (s, some (.s (BitVec.ofNat 64 (b2n full))))
  | .set => (if full then s else filled (s.setFe d va true) m va (memDword s.mem (vaultKey d va)), none)
  | .clr => (s.setFe d va false, none)

/-- A fill by a task, a job or an msdt.sum has been performed (R216, R295, R257). -/
def fillDone (s : State) (m : MemberId) (owner : Nat) : State :=
  if owner = 0 then s
  else if owner % 2 = 1 then retire s m (.task (owner / 2))
  else s.after 0 .jobBarrierArrival { m := m, a := owner / 2 - 1 }

/-- ldfe reads its word: a poisoned one is a fault (R464). -/
def feReads (op : FeOp) : Bool := decide (op = .keep) || decide (op = .take)

/-- One served access acts. -/
def serveOne (s : State) (a : Access) (d va : Nat) : State :=
  match a.kind with
  | .fe op v =>
    if feReads op && poisoned s (vaultKey d va) 8 then foundFault s a 0x0F va
    else let r := feAct s a.ctx d va op v; performedAcc r.1 a r.2
  | .fill v owner =>
    let s := endFill (feAct s a.ctx d va .fill v).1 a.ctx va a.member owner
    performedAcc (fillDone s a.ctx owner) a none
  | .bar .wait _ => performedAcc s a (some (.s (memDword s.mem (vaultKey d va))))
  | .served p => appliedPkt (endFillPkt (feAct (s.dropAccess a.id) a.ctx d va .fill (BitVec.ofNat 64 (ofBytes p.data))).1 a.ctx va p) a.ctx p
  | _ => s

/-- Serve a word's queue from its head (R273). -/
def serveQueue (d va : Nat) : Nat → State → State
  | 0, s => s
  | n + 1, s =>
    match Tab.get [] (s.die d).queues va with
    | id :: t =>
      match s.access id with
      | some a =>
        if canServe s a d va then serveQueue d va n (serveOne (s.modDie d fun x => { x with queues := Tab.put [] x.queues va t }) a d va) else s
      | none => serveQueue d va n (s.modDie d fun x => { x with queues := Tab.put [] x.queues va t })
    | [] => s

/-- Serve as often as the queue is long. -/
def serve (s : State) (d va : Nat) : State := serveQueue d va (Tab.get [] (s.die d).queues va).length s

/-- An access that may wait reaches its word: it acts when its condition holds, else it queues; one that queues already looks again (R273). -/
def arriveQueued (s : State) (a : Access) (d va : Nat) : State :=
  let s := drainRange s d a.ctx (vaultKey d va) 16
  if a.st = .queued then serve s d va
  else if canServe s a d va then serve (serveOne s a d va) d va
  else (s.setAccess { a with st := .queued }).modDie d fun t => { t with queues := Tab.put [] t.queues va (Tab.get [] t.queues va ++ [a.id]) }

/-- A barrier operation at its port (R306), a write that triggers see (R309), serving the waits it satisfies. -/
def barrierAct (s : State) (m : MemberId) (d va : Nat) (op : BarOp) (v : Dword) : State :=
  let k := vaultKey d va
  let s := drainRange s d m k 16
  serve (putAt s m (.vault d va) (barrierOp op v.toNat (s.load k 8) (s.load (k + 8) 8))) d va

/-! ### Acting on a place -/

/-- Poison under n bytes: the address offset of the first 16-byte part that holds some (R393, R464). -/
def poisonAt (s : State) (k n : Nat) : Bool := poisoned s k n

/-- Bytes an access touches where it acts. -/
def AccKind.bytes : AccKind → Nat
  | .load n _ => n | .loadV => 256 | .part _ _ n _ => n | .store b => b.length | .stm _ _ b => b.length | .entry b => b.length
  | .amo _ n _ _ _ => n | .copyOut _ _ _ _ b => b.length | .fifoLoad _ _ n => n | _ => 8

/-- One element of a copy with reduce (R294): ROP 0 add, 1 max, 2 min. -/
def reduceElem (t rop d x : Nat) : Nat :=
  if isFloat t then (match rop with | 0 => fadd t 0 d x | 1 => fmax t d x | _ => fmin t d x)
  else match rop with
    | 0 => (d + x) % 2 ^ tyW t
    | 1 => if intOf t d < intOf t x then x else d
    | _ => if intOf t x < intOf t d then x else d
/-- The bytes a copy write leaves, from the old ones. -/
def reduceBytes (rop : Option Nat) (t : Nat) (old new : List Byte) : List Byte :=
  match rop with
  | none => new
  | some r => packElems t (List.zipWith (reduceElem t r) (unpackElems t old) (unpackElems t new))

/-- A load, store, atomic or signal of an agent acts on a place; the value it returns, or a poison fault.  A reduction merges in the place's write queue,
from whatever die it comes (R97, R98). -/
def actOn (s : State) (m : MemberId) (agent : Nat) (l : Loc) (kind : AccKind) : Option (State × Option Val) :=
  let s := match kind with
    | .amo _ _ _ _ true => s
    | _ => drainRange s l.die m l.key kind.bytes
  match kind with
  | .load n sx =>
    if poisonAt s l.key n then none
    else
      let v := BitVec.ofNat 64 (s.load l.key n)
      some (countHeat s l n, some (.s (if sx then sextN (8 * n) v else v)))
  | .loadV => if poisonAt s l.key 256 then none else some (countHeat s l 256, some (.v allOnes (vecOf (memBytes s.mem l.key 256))))
  | .part _ _ n _ => if poisonAt s l.key n then none else some (countHeat s l n, some (.bytes (memBytes s.mem l.key n)))
  | .fifoLoad _ _ n => if poisonAt s l.key n then none else some (countHeat s l n, some (.bytes (memBytes s.mem l.key n)))
  | .store b => some (countHeat (putAt s m l b) l b.length, none)
  | .stm _ _ b => some (putAt s m l b, none)
  | .copyOut _ _ rop t b =>
    if rop.isSome && poisonAt s l.key b.length then none
    else
      let new := reduceBytes rop t (memBytes s.mem l.key b.length) b
      some (countHeat (putAt s m l new) l b.length, some (.bytes new))
  | .entry b => some (putAt s m l b, none)
  | .sig v => some (countHeat (putAt s m l (toBytes 8 v.toNat)) l 8, none)
  | .amo op n b c red =>
    if red then some (countHeat (mergeReduction s m l op n b agent) l n, none)
    else if poisonAt s l.key n then none
    else
      let old := s.load l.key n
      some (countHeat (putAt s m l (toBytes n (amoNew op n old b.toNat c.toNat))) l n, some (.s (BitVec.ofNat 64 old)))
  | _ => some (s, none)

end Sys2Proof.Machine
end

