-- ==== Sys2Proof/Machine/Issue.lean ====
section
/-!
DEFINITION. Issue.lean: what an op does as a value (`OpSem`), and the issue of a bundle from such values: freezes (R175, R176),
class-I checks in the order of R390, the loop sequencer (R179 to R181), the restart checkpoint (R182), results, latches and tags.
-/
namespace Sys2Proof.Machine

/-- Where issue goes after a bundle: the next PC and clk to spend. -/
structure Ctl where
  pc : Nat
  /-- Transfer clk (R174), or the whole distance to the next issue when `whole` (lnest, R179). -/
  clk : Nat
  whole : Bool
  /-- A taken control transfer of the program (R180, R198). -/
  branch : Bool
  deriving DecidableEq, Repr

/-- An op as the issue logic sees it. -/
structure OpSem where
  slot : Slot
  head : Head
  /-- The op word, for TVAL in op form (R392). -/
  word : Nat
  /-- The checks of R476 that the op word decides. -/
  wf : Bool
  /-- The cause the trap level decides: 0x10 or 0x03 (R476). -/
  level : Nat → Option Nat := fun _ => none
  /-- The operand fields the form reads, for the latch checks of R84. -/
  reads : List Operand := []
  /-- The op freezes its bundle while its member injects no packets, or opens no window (R60). -/
  stall : State → Bool := fun _ => false
  /-- It freezes its bundle until the core's earlier accesses have been performed: a release (R271). -/
  order : State → Bool := fun _ => false
  /-- It freezes at a port FIFO, which the residency timer counts (R52, R175). -/
  fifo : State → Bool := fun _ => false
  /-- V-addresses of the record the op reads at issue, whose granules must be resident (R477). -/
  record : State → List Nat := fun _ => []
  /-- The class-I checks that depend on state, in the order of R390: cause and TVAL. -/
  check : State → Option (Nat × Dword) := fun _ => none
  /-- Fixed-latency results: latency, destination and value, from the state at issue and the lane mask. -/
  outs : State → Dword → List (Nat × Dest × Val) := fun _ _ => []
  /-- Which of its results make its tag ready (R176, R279). -/
  tagOn : Dest → Bool := fun _ => true
  /-- Further writes to come, for the conflict test of R177: latency, destination and value (M ops). -/
  spans : State → List (Nat × Dest × Val) := fun _ => []
  /-- Latch entry: latency and value. -/
  latch : Option Nat := none
  latchVal : State → Dword → LatchVal := fun _ _ => .s 0
  /-- Unit occupied and for how many clk (R174): 1 V0, 2 V1, 3 M, 6 the divider. -/
  unit : Option Nat := none
  beats : Nat := 0
  /-- What starts at issue; the number is the op's result number. -/
  effect : Nat → State → State := fun _ s => s
  /-- Class-C trap (R389): cause and TVAL. -/
  late : State → Option (Nat × Dword) := fun _ => none
  /-- Where issue goes, when the op says so. -/
  ctl : State → Option Ctl := fun _ => none
  /-- What changes once the bundle has issued. -/
  final : State → State := fun s => s
  /-- It marks the nest to end at the next issue of END (R199). -/
  ends : Bool := false
  /-- Its value is bound as it acts, after the ops of lower slots (R224, R242). -/
  binds : Bool := false

/-- The op acts lane by lane (R167). -/
def OpSem.vec (o : OpSem) : Bool := decide (o.slot = .V0) || decide (o.slot = .V1)

/-- The op form of TVAL (R392). -/
def opForm (w : Nat) : Dword := BitVec.ofNat 64 (w / 2 ^ 72 % 256 * 2 ^ 56 + w % 2 ^ 56)

/-- The predicate as a mask (R167). -/
def headMask (c : Core) (h : Head) : Dword :=
  if h.p = 0 then allOnes else if h.n then ~~~(c.readP (h.p.toNat - 1)) else c.readP (h.p.toNat - 1)

/-- An op that acts: its gate is open and, but for a V op, its predicate holds (R167, R181). -/
def acts (c : Core) (gate : Bool) (o : OpSem) : Bool := gate && (o.vec || (headMask c o.head).getLsbD 0)

/-! ### Latch reads, write conflicts -/

/-- Schedule fault TVAL (R391): KIND and the other slot. -/
def schedTval (kind other : Nat) : Dword := BitVec.ofNat 64 (kind + other * 256)

/-- A latch operand's fault (R84): KIND 2 read before ready, KIND 3 no such result. -/
def latchFault (c : Core) (now : Nat) (o : Operand) : Option (Nat × Dword) :=
  if o.level ≠ 2 then none
  else match latchEntry c o.ix with
    | none => some (0x04, schedTval 3 (o.ix / 512))
    | some e => if now < e.due then some (0x04, schedTval 2 (o.ix / 512)) else none

/-- The bytes of register space a result writes. -/
def rsSpan : Dest → Val → Option (Nat × Nat)
  | .rs a, .v _ _ => some (a, 256)
  | .rs a, .bytes l => some (a, l.length)
  | .rs a, .unbound => some (a, 256)
  | _, _ => none

/-- Two results that land in one clk write a common byte (R85, R222). -/
def clash (d1 : Dest) (v1 : Val) (d2 : Dest) (v2 : Val) : Bool :=
  match d1, d2 with
  | .none, _ => false
  | .rs _, .rs _ =>
    match v1, v2, rsSpan d1 v1, rsSpan d2 v2 with
    | .v m1 _, .v m2 _, some (a, _), some (b, _) => decide (a = b) && decide (m1 &&& m2 ≠ 0)
    | .v m1 _, _, some (a, _), some (b, n) =>
      (List.range 64).any fun i => m1.getLsbD i && decide (a + 4 * i < b + n) && decide (b < a + 4 * i + 4)
    | _, .v m2 _, some (a, n), some (b, _) =>
      (List.range 64).any fun i => m2.getLsbD i && decide (b + 4 * i < a + n) && decide (a < b + 4 * i + 4)
    | _, _, some (a, n), some (b, n') => decide (a < b + n') && decide (b < a + n)
    | _, _, _, _ => false
  | .ofV s1 n1, .ofV s2 n2 =>
    decide (s1 = s2 ∧ n1 = n2) && (match v1, v2 with | .v m1 _, .v m2 _ => decide (m1 &&& m2 ≠ 0) | _, _ => true)
  | .base n, .stream m => decide (n = m)
  | .stream n, .base m => decide (n = m)
  | a, b => decide (a = b)

/-- The results of an M op still to come, as the conflict test sees them: due, destination and value (R253). -/
def mopSpans (c : Core) : List (Nat × Nat × Dest × Val) :=
  (c.mops.filter fun m => decide (m.tag = 0)).map fun m => (m.bindAt + 1, 3, .rs m.d.base, .bytes (List.replicate ((m.d.rows * m.d.cols * size2 m.d.ty + 1) / 2) 0))

/-- The in-flight writes of a core: due, slot, destination, value. -/
def inFlight (c : Core) : List (Nat × Nat × Dest × Val) :=
  c.results.map (fun r => (r.due, r.slot, r.dest, r.val)) ++ mopSpans c

/-- The slot of the first write that clashes with one of `new`. -/
def clashWith (old : List (Nat × Nat × Dest × Val)) (new : List (Nat × Dest × Val)) : Option Nat :=
  (old.find? fun e => new.any fun n => decide (n.1 = e.1) && clash n.2.1 n.2.2 e.2.2.1 e.2.2.2).map fun e => e.2.1

/-! ### Class-I checks of a bundle -/

/-- A unit is busy (R174); the M slot is so while a tagged M op is under way (R259). -/
def unitBusy (c : Core) (now : Nat) (u : Option Nat) : Bool :=
  match u with
  | some u => decide (now < Tab.get 0 c.busy u) || (decide (u = 3) && c.mops.any fun m => decide (m.tag ≠ 0))
  | none => false

/-- The first class-I cause of an op (R390): cause and TVAL; `others` are the writes and tags of the bundle's other acting ops, each
with its slot. -/
def opCause (s : State) (k : CoreId) (gate : Bool) (o : OpSem) (writes : List (Nat × Nat × Dest × Val)) (tags : List (Nat × Nat)) :
    Option (Nat × Dword) :=
  let c := s.core k
  let now := schedOf s c
  let act := acts c gate o
  let mask := if gate then headMask c o.head else 0
  let tagTwice : Option (Nat × Dword) :=
    if o.head.ta = 0 then none
    else (tags.find? fun t => decide (t.1 = o.head.ta.toNat ∧ t.2 ≠ o.slot.num)).map fun t => (0x04, schedTval 5 t.2)
  match o.level c.tl with
  | some cause => some (cause, opForm o.word)
  | none =>
    if !o.wf then some (0x03, opForm o.word)
    else if !act then tagTwice
    else
      match o.check s with
      | some e => some e
      | none =>
        if unitBusy c now o.unit then some (0x04, schedTval 1 7)
        else match o.reads.findSome? (latchFault c now) with
          | some e => some e
          | none =>
            let new := (if (o.late s).isSome then [] else o.outs s mask ++ o.spans s).map fun w => (now + w.1, w.2)
            match clashWith (inFlight c ++ writes.filter (fun w => decide (w.2.1 ≠ o.slot.num))) new with
            | some other => some (0x04, schedTval 4 other)
            | none => tagTwice

/-- The writes of a bundle's acting ops. -/
def bundleWrites (s : State) (k : CoreId) (gate : Bool) (ops : List OpSem) : List (Nat × Nat × Dest × Val) :=
  let c := s.core k
  ops.flatMap fun o =>
    if acts c gate o && o.wf then (if (o.late s).isSome then [] else o.outs s (headMask c o.head) ++ o.spans s).map fun w => (schedOf s c + w.1, o.slot.num, w.2) else []

/-- The tags a bundle's ops allocate, with their slots. -/
def bundleTags (ops : List OpSem) : List (Nat × Nat) :=
  (ops.filter fun o => decide (o.head.ta ≠ 0)).map fun o => (o.head.ta.toNat, o.slot.num)

/-- The state an A op of the bundle checks its record in: the L op's access comes before it in program order (R103, R290). -/
def afterL (s : State) (k : CoreId) (gate : Bool) (ops : List OpSem) : State :=
  (ops.filter fun o => decide (o.slot = .L) && acts (s.core k) gate o && o.wf).foldl (fun t o => o.effect 0 t) s

/-- The first faulting op in slot order. -/
def bundleCause (s : State) (k : CoreId) (gate : Bool) (ops : List OpSem) : Option (Nat × Nat × Dword) :=
  let w := bundleWrites s k gate ops
  let t := bundleTags ops
  ops.findSome? fun o =>
    (opCause (if o.slot = .A && decide (ops.length ≠ 1) then afterL s k gate ops else s) k gate o w t).map fun e => (o.slot.num, e)

/-! ### The loop sequencer (R178 to R181) -/

/-- The nest acts on this core now (R384). -/
def Core.nestOn (c : Core) : Bool := c.nest.active && decide (c.tl = 0)

/-- The PC lies in the body of the nest. -/
def inBody (n : Nest) (pc : Nat) : Bool := decide ((pc + 2048 - n.start % 2048) % 2048 ≤ n.stop - n.start)

/-- The bundle at PC comes from the loop buffer of the active nest (R179). -/
def Core.inBuffer (c : Core) : Bool := c.nestOn && inBody c.nest c.pc && (Tab.get none c.loopBuf c.pc).isSome

/-- The IT gate (R181): open with no nest, or with LVL at or above NLEV. -/
def itGate (c : Core) (hdr : Nat) : Bool :=
  if !c.nestOn || decide (hdrIt hdr = 0) || decide (c.nest.counts.length ≤ hdrLvl hdr) then true
  else if hdrIt hdr = 1 then decide (c.nest.ctr.getD (hdrLvl hdr) 0 = 0)
  else decide (c.nest.ctr.getD (hdrLvl hdr) 0 = c.nest.counts.getD (hdrLvl hdr) 0 - 1)

/-- Illegal bundle (R402): reserved header bits, or LE out of place. -/
def hdrBad (c : Core) (hdr : Nat) : Bool :=
  hdrReserved hdr || (c.nestOn && decide (hdrLe hdr ≠ decide (c.pc = c.nest.stop % 2048)))

/-- Step the counters of a nest at END (R179): none when the last pass has ended. -/
def stepCounters : List Nat → List Nat → Option (List Nat)
  | cnt :: cs, v :: vs => if v + 1 < cnt then some ((v + 1) :: vs) else (stepCounters cs vs).map fun r => 0 :: r
  | _, _ => none

/-- The sequencer's target writes for the next pass, landing when START issues (R179). -/
def targetWrites (n : Nest) (ctr : List Nat) (due : Nat) (rid : Nat) : List Result :=
  n.targets.map fun t =>
    { rid := rid, slot := 7, due := due, dest := if t.stream then .base t.id else .x t.id, val := .s (targetValue t ctr), deliver := 0,
      tag := 0, tval := 0 }

/-- The bundle itself says where issue goes after it, or ends the nest: the sequencer does not step at its END (R198, R199). -/
def leavesNest (s : State) (k : CoreId) (gate : Bool) (ops : List OpSem) : Bool :=
  ops.any fun o => acts (s.core k) gate o && ((o.ctl s).isSome || o.ends)

/-- Two targets of a nest are one register. -/
def targetTwice : List Target → Bool
  | [] => false
  | t :: ts => ts.any (fun u => decide (u.id = t.id ∧ u.stream = t.stream)) || targetTwice ts

/-- The sequencer's writes at the END bundle that issues now clash with a result in flight or of the bundle, or with one another (R177). -/
def seqClash (s : State) (k : CoreId) (hdr : Nat) (gate : Bool) (ops : List OpSem) : Option Nat :=
  let c := s.core k
  if !c.nestOn || decide (c.pc ≠ c.nest.stop % 2048) || c.nest.brk || leavesNest s k gate ops then none
  else match stepCounters c.nest.counts c.nest.ctr with
    | none => none
    | some ctr =>
      let due := schedOf s c + 1 + hdrIdle hdr
      if targetTwice c.nest.targets then some 7
      else clashWith (inFlight c ++ bundleWrites s k gate ops) ((targetWrites c.nest ctr due 0).map fun r => (r.due, r.dest, r.val))

/-! ### Freezes (R175) -/

/-- A tag is not ready. -/
def Core.tagBusy (c : Core) (t : Nat) : Bool := decide (t ≠ 0) && decide (Tab.get 0 c.tags t ≠ 0)

/-- L and A ops, and M ops that read a stream, wait for the accesses a fence, an acquire or a release named (R271, R278). -/
def ordered (o : OpSem) : Bool :=
  decide (o.slot = .L) || decide (o.slot = .A) || (decide (o.slot = .M) && o.reads.any (·.streamOk))

/-- The bundle is frozen by an interlock of R175 and R176: a consume tag not ready, a tag to allocate not ready, or a port FIFO.  The residency
timer counts these freezes (R52, R175; log 39). -/
def residentBy (s : State) (k : CoreId) (gate : Bool) (ops : List OpSem) : Bool :=
  let c := s.core k
  ops.any fun o =>
    c.tagBusy o.head.tc0.toNat || c.tagBusy o.head.tc1.toNat
      || (acts c gate o && (c.tagBusy o.head.ta.toNat || (o.wf && o.fifo s)))

/-- It waits for accesses of its core: an acquire, a release or a fence (R271, R278). -/
def orderHeld (s : State) (k : CoreId) (gate : Bool) (ops : List OpSem) : Bool :=
  let c := s.core k
  ops.any fun o => acts c gate o && ((ordered o && !c.waitFor.isEmpty) || o.order s)

/-- An op's own freeze (R60). -/
def stalledBy (s : State) (k : CoreId) (gate : Bool) (ops : List OpSem) : Bool := ops.any fun o => acts (s.core k) gate o && o.stall s

/-- The core has an msdt under way, whose writes come a number of schedule clk after its issue (R259). -/
def Core.msdtOn (c : Core) : Bool := c.mops.any fun m => decide (m.kind = 5)
/-- A tag the bundle waits for is that of an access held behind earlier ones of the core (R104). -/
def tagHeld (s : State) (k : CoreId) (ops : List OpSem) : Bool :=
  let c := s.core k
  ops.any fun o => [o.head.tc0.toNat, o.head.tc1.toNat, o.head.ta.toNat].any fun t =>
    c.tagBusy t && s.accesses.any fun a => decide (a.id + 1 = Tab.get 0 c.tags t) && decide (a.st = .release)

/-- A record an op reads at issue is there: its granule is resident, and, having come in, gives no others their turn first (R73, R477). -/
def recordReady (s : State) (k : CoreId) (a : Nat) : Bool := resident s k.die (s.ctxD k) (granOf a) && decide ((s.core k).recAt ≤ s.clk)
/-- A record an acting legal op reads at issue lies in a granule that is not resident (R477), or has come in and gives others their turn first (R73): slot
and address. -/
def recordWait (s : State) (k : CoreId) (gate : Bool) (ops : List OpSem) : Option (Nat × Nat) :=
  ops.findSome? fun o =>
    if acts (s.core k) gate o && o.wf && (o.level (s.core k).tl).isNone then
      ((o.record s).find? fun a => !recordReady s k a).map fun a => (o.slot.num, a)
    else none

/-- One frozen clk (R175). -/
def Core.freeze (c : Core) (clk : Nat) : Core := { c with frozen := c.frozen + 1, frozeAt := clk + 1 }

/-- A frozen clk at an interlock that the residency timer counts (R52): the thresholds bring their events. -/
def residentFreeze (s : State) (k : CoreId) : State :=
  let c := s.core k
  let n := c.waited + 1
  let s := s.setCore k { c.freeze s.clk with waited := n, waitAt := if c.waited = 0 then s.clk else c.waitAt, hung := c.hung && decide (c.waited ≠ 0) }
  let s := if n = Config.clockGateAt then s.afterK 0 .clockGate k else s
  let s := if n = Config.powerGateAt then s.afterK 0 .powerGate k else s
  if n = (s.vd (s.ctxD k).vd).params.hangt then s.afterK 0 .hangtExpiry k else s
/-- A frozen clk at another interlock: the wait of the residency timer, if there was one, is over (R52, R271). -/
def otherFreeze (s : State) (k : CoreId) : State := s.modCore k fun c => { c.freeze s.clk with waited := 0 }
/-- The next issue attempt is a schedule clk later: a bundle that waits for the writes of an msdt of its core does not stop them (log 40). -/
def holdIssue (s : State) (k : CoreId) : State := s.modCore k fun c => { c with waited := 0, next := schedOf s c + 1 }

/-- A record read waits for its granule as a fixed-latency access does: the bundle freezes, and past 64 clk the timing trap is raised;
the drain waits for the read (R74, R394, R477). -/
def recordFreeze (s : State) (k : CoreId) (sl a : Nat) : State :=
  let c := s.core k
  let s := if resident s k.die (s.ctxD k) (granOf a) then s else waitGranule s k.die (granOf a) (s.ctxD k) (.bundle k)
  if Config.lateLimit ≤ c.late then
    let v := addrForm a false false
    let r : Result := { rid := s.nextId, slot := sl, due := schedOf s c, dest := .none, val := .unbound, deliver := 0, tag := 0, tval := v }
    let s := { s with nextId := s.nextId + 1 }.modCore k fun c => { c with late := 0, results := c.results ++ [r] }
    raiseTrap (startAccess s k sl (.load 1 false) (BitVec.ofNat 64 a) 1 .none 0 r.rid false) k ⟨.B, 0x05, c.pc, v, sl, s.clk⟩
  else s.modCore k fun c => { c.freeze s.clk with late := c.late + 1 }

/-- The wait ends: the clk a gated core takes to resume (R52). -/
def gateClk : Gate → Nat
  | .none => 0 | .clock => 1 | .power => 40

/-! ### Issue -/

/-- The core runs a program and may issue: it holds a context, is released, and waits for no trap entry, suspension or reply. -/
def running (s : State) (k : CoreId) : Bool :=
  let c := s.core k
  (s.ctx k).isSome && decide (c.run = .running) && c.trap.isNone && !c.entry && c.ending.isNone && c.svc.isNone

/-- A no-switch window has reached NSWMAX and cause 0x14 is due at this boundary (R218, R390). -/
def nswDue (s : State) (k : CoreId) : Bool :=
  let c := s.core k
  match c.nsw with
  | some t => decide ((s.vd (s.ctxD k).vd).params.nswmax ≤ s.clk - t) && !c.nswRaised && (c.nswAt.isNone || decide (c.nswAt = some c.tl))
  | none => false

/-- Cause 0x14 found at the boundary before the next bundle (R391). -/
def nswRaise (s : State) (k : CoreId) : State :=
  let c := s.core k
  raiseTrap (s.setCore k { c with nswRaised := true, nswAt := some c.tl }) k ⟨.B, 0x14, c.pc, BitVec.ofNat 64 (c.nsw.getD 0), 7, s.clk⟩

/-- The restart checkpoint (R182) at TL0. -/
def Core.checkpoint (c : Core) : Core :=
  if c.tl = 0 then { c with rpa := c.pc, rpseq := (c.rpseq + 1) % 2 ^ 32, ckpt := ⟨c.p, c.nest⟩ } else c

/-- The results an op sends, numbered `rid` (R85). -/
def OpSem.sends (o : OpSem) (s : State) (k : CoreId) (rid : Nat) : List Result :=
  (o.outs s (headMask (s.core k) o.head)).map fun w =>
    { rid := rid, slot := o.slot.num, due := schedOf s (s.core k) + w.1, dest := w.2.1, val := w.2.2, deliver := 0, tval := 0,
      tag := if o.tagOn w.2.1 then o.head.ta.toNat else 0 }

/-- The busy table once an op has issued at schedule clk `now` (R174); a tagged M op is seen by its entry in `mops` (R259). -/
def OpSem.busies (o : OpSem) (now : Nat) (b : Tab Nat) : Tab Nat :=
  match o.unit with
  | some u => if u = 3 ∧ o.head.ta ≠ 0 then b else Tab.put 0 b u (now + o.beats)
  | none => b

/-- A core that sends results and marks tag `ta` not ready if one of them makes it ready (R176). -/
def Core.sendAll (c : Core) (rs : List Result) (ta rid : Nat) : Core :=
  { c with results := c.results ++ rs, tags := if rs.any (fun r => decide (r.tag ≠ 0)) then Tab.put 0 c.tags ta (rid + 1) else c.tags }
/-- The busy table of a core. -/
def Core.setBusy (c : Core) (b : Tab Nat) : Core := { c with busy := b }
/-- The counts of frozen clk start anew at an issue (R52, R175). -/
def Core.unwait0 (c : Core) : Core := { c with waited := 0, late := 0 }
/-- Issue goes on at a bundle from a schedule clk. -/
def Core.goto (c : Core) (pc next : Nat) : Core := { c with pc := pc, next := next }
/-- A tag is ready (R176); 0 names none. -/
def Core.untag (c : Core) (t : Nat) : Core := if t = 0 then c else { c with tags := Tab.put 0 c.tags t 0 }
/-- Numbers are taken for accesses and results. -/
def State.takeIds (s : State) (n : Nat) : State := { s with nextId := s.nextId + n }

/-- The results of an op that acts, numbered `rid`, and its effect. -/
def issueOp (s0 : State) (k : CoreId) (o : OpSem) (rid : Nat) (s : State) : State :=
  if (o.late s0).isSome then s
  else o.effect rid (s.modCore k fun c =>
    (c.sendAll (o.sends s0 k rid) o.head.ta.toNat rid).setBusy (o.busies (schedOf s0 (s0.core k)) c.busy))

/-- Number the ops of a bundle from `n`. -/
def numbered (n : Nat) : List OpSem → List (Nat × OpSem)
  | [] => []
  | o :: t => (n, o) :: numbered (n + 1) t

/-- The entry of an op whose value is bound as it acts holds the value of its result (R222, R242). -/
def boundEntry (ops : List (Nat × OpSem)) (c : Core) (e : LatchEntry) : LatchEntry :=
  if ops.any fun p => p.2.binds && decide (p.1 = e.rid) then
    match c.results.find? fun r => decide (r.rid = e.rid) with
    | some r => { e with val := latchVal r.val }
    | none => e
  else e

/-- The latch entries of a bundle: an acting op's value, a suppressed op's zero (R167). -/
def latchRec (s : State) (k : CoreId) (gate : Bool) (ops : List (Nat × OpSem)) : BundleRec :=
  let c := s.core k
  let now := schedOf s c
  ops.filterMap fun e =>
    if !acts c gate e.2 then some ⟨e.2.slot.num, e.1, now, .s 0⟩
    else if (e.2.late s).isSome then none
    else match e.2.latch with
      | some l => some ⟨e.2.slot.num, e.1, now + l, e.2.latchVal s (headMask c e.2.head)⟩
      | none => none

/-- After the ops: the PC and the schedule clk of the next issue, and the sequencer's step at END (R173, R179, R180, R198). -/
def advance (s0 : State) (k : CoreId) (hdr : Nat) (ctl : Option Ctl) (rid : Nat) (s : State) : State :=
  let c0 := s0.core k
  let now := schedOf s0 c0
  let seq := now + 1 + hdrIdle hdr
  match ctl with
  | some t =>
    s.modCore k fun c =>
      let c := c.goto t.pc (if t.whole then now + t.clk else seq + t.clk)
      if t.branch && c0.nestOn && (decide (c0.pc = c0.nest.stop % 2048) || !inBody c0.nest t.pc) then c.endNest else c
  | none =>
    if c0.nestOn && decide (c0.pc = c0.nest.stop % 2048) then
      s.modCore k fun c =>
        if c.nest.brk then { c.endNest with pc := (c0.pc + 1) % 2048, next := seq }
        else match stepCounters c.nest.counts c.nest.ctr with
          | none => { c.endNest with pc := (c0.pc + 1) % 2048, next := seq }
          | some ctr =>
            { c with nest := { c.nest with ctr := ctr }, pc := c0.nest.start % 2048, next := seq,
                     results := c.results ++ targetWrites c.nest ctr seq rid }
    else s.modCore k fun c => c.goto ((c0.pc + 1) % 2048) seq

/-- The latch entries of a bundle that issued at level `tl` join that level's history (R84, R384). -/
def Core.pushHist (c : Core) (tl : Nat) (r : BundleRec) : Core :=
  if tl = 0 then { c with hist0 := (r :: c.hist0).take 7 }
  else if tl = 1 then { c with hist1 := (r :: c.hist1).take 7 } else { c with hist2 := (r :: c.hist2).take 7 }

/-- A bundle issues: every op of it acts (R173). -/
def issueAll (k : CoreId) (hdr : Nat) (gate : Bool) (ops : List OpSem) (s : State) : State :=
  let n := numbered s.nextId ops
  let rec_ := latchRec s k gate n
  let s1 := s.takeIds (ops.length + 1)
  let s1 := if hdrRp hdr then s1.modCore k Core.checkpoint else s1
  let s1 := s1.modCore k Core.unwait0
  let s2 := n.foldl (fun t e => if acts (s.core k) gate e.2 then issueOp s k e.2 e.1 t
                                else t.modCore k fun c => c.untag e.2.head.ta.toNat) s1
  let live := ops.filter (acts (s.core k) gate)
  let s3 := advance s k hdr (live.findSome? fun o => o.ctl s) (s.nextId + ops.length) s2
  let s4 := (live.foldl (fun t o => o.final t) s3).modCore k fun c => c.pushHist (s.core k).tl (rec_.map (boundEntry n c))
  match live.findSome? fun o => (o.late s).map fun e => (o.slot.num, e) with
  | some (sl, cause, v) =>
    raiseTrap (s4.modCore k fun c => { c with next := schedOf s (s.core k) + 1 }) k ⟨.C, cause, (s.core k).pc, v, sl, s.clk⟩
  | none => s4

/-- What stands between a core and the issue of a bundle, in the order it is met. -/
inductive IssueOutcome where
  | window | waits | resume (n : Nat) | held | frozen | record (slot a : Nat)
  | fault (slot cause : Nat) (v : Dword)
  | issue
  deriving DecidableEq, Repr

/-- How a bundle of core k meets issue (R173 to R177, R390, R463). -/
def issueOutcome (s : State) (k : CoreId) (hdr : Nat) (ops : List OpSem) : IssueOutcome :=
  let c := s.core k
  let gate := itGate c hdr
  if nswDue s k then .window
  else if residentBy s k gate ops then (if c.msdtOn && tagHeld s k ops then .held else .waits)
  else if c.gate ≠ .none then .resume (gateClk c.gate)
  else if stalledBy s k gate ops then .frozen
  else if orderHeld s k gate ops then (if c.msdtOn then .held else .frozen)
  else match recordWait s k gate ops with
  | some (sl, a) => .record sl a
  | none =>
  if Tab.get false c.imemPoison c.pc && !c.inBuffer then .fault 7 0x0F (BitVec.ofNat 64 c.pc)
  else if hdrBad c hdr then .fault 7 0x01 (BitVec.ofNat 64 hdr)
  else match bundleCause s k gate ops with
    | some (sl, cause, v) => .fault sl cause v
    | none => match seqClash s k hdr gate ops with
      | some other => .fault 7 0x04 (schedTval 4 other)
      | none => .issue

/-- One issue attempt of core k with a bundle (R173). -/
def issueOps (k : CoreId) (hdr : Nat) (ops : List OpSem) (s : State) : State :=
  match issueOutcome s k hdr ops with
  | .window => nswRaise s k
  | .waits => residentFreeze s k
  | .frozen => otherFreeze s k
  | .held => holdIssue s k
  | .resume n => s.modCore k fun c => { c with gate := .none, waited := 0, frozen := c.frozen + n, frozeAt := s.clk + 1 }
  | .record sl a => recordFreeze s k sl a
  | .fault sl cause v => raiseTrap s k ⟨.I, cause, (s.core k).pc, v, sl, s.clk⟩
  | .issue => issueAll k hdr (itGate (s.core k) hdr) ops s

/-- The header of a bundle with one op and nothing else (R164). -/
def plainHeader (sl : Slot) : Nat := 2 ^ sl.maskBit

/-- An op alone in a bundle issues on the core in focus. -/
def runOne (o : OpSem) (s : State) : Outcome :=
  if running s s.focus then .next (issueOps s.focus (plainHeader o.slot) [o] s) else .fault .notRunning

end Sys2Proof.Machine
end

