-- ==== Sys2Proof/Machine/Jobs.lean ====
section
/-!
DEFINITION. Jobs.lean: the job queue (R293), chunks and completion (R292, R295), triggers (R309) and the job query (R313).
-/
namespace Sys2Proof.Machine

/-! ### The job queue -/

/-- Where a job comes from: its packet, the open stores of the issuing core, that core and the number of its op (R104, R105), and its place
in admission order (R297). -/
structure JobOrigin where
  packet : Option Nat
  prev : List Nat
  core : Nat
  born : Nat
  key : Nat
  deriving DecidableEq, Repr
/-- A job that no core issues: of a packet, or of a trigger armed after the stores `prev`. -/
def JobOrigin.auto (packet : Option Nat) (prev : List Nat) (key : Nat) : JobOrigin := ⟨packet, prev, 256, 0, key⟩

/-- Start a job from a card (R293): its handle less one, or none when the queue is full. -/
def startJob (s : State) (m : MemberId) (c fp : List Dword) (o : JobOrigin) : Option Nat × State :=
  match lowestFree (s.member m).jobs Config.jobSlots with
  | none => (none, s)
  | some h =>
    let j : Job :=
      { card := c, st := .pending, demand := if cardKind c = 2 then 255 else 0, issued := 0, done := 0, inflight := [], withdrawn := false,
        aborted := false, summary := none, coll := Coll.start, packet := o.packet, registered := false, unacked := [], prev := o.prev,
        core := o.core, born := o.born, stamp := (s.member m).clock, steps := 0 }
    let s := (notIdle s m.vd).modMember m fun x =>
      { (x.setJob h (some j)) with decls := placeDecl x.decls ⟨.job h, cardRegions m.member c fp, false, o.key⟩ }
    let s := match cardOut c with
      | some w =>
        let cm : MemberId := ⟨m.vd, cardCmem c⟩
        let r := registerProducer (s.member cm) w m.member (.job h)
        let n := if cardKind c = 2 then 255 else min 255 (consumers (s.member cm) w)
        let s := s.modMember cm fun _ => r.1
        s.modMember m fun x => x.setJob h (some { j with demand := if r.2 then n else 255, registered := r.2 })
      | none => s
    (some h, settle s m)

/-! ### Datagrams of an endpoint (R355 to R357) -/

/-- An endpoint of a VD. -/
def State.endpoint (s : State) (vd i : Nat) : Option Endpoint := Tab.get none (s.vd vd).endpoints i
@[inherit_doc State.endpoint] def State.setEndpoint (s : State) (vd i : Nat) (e : Endpoint) : State :=
  s.modVd vd fun v => { v with endpoints := Tab.put none v.endpoints i (some e) }

/-- The Ethernet ports of an endpoint's mask that carry anything: one lost with its switch position does not (R15, R356). -/
def ethPorts (s : State) (mask : Nat) : List Nat :=
  (List.range 16).filter fun p => mask.testBit p && !Tab.get false s.platform.ethDown p && !(s.switch p).down
/-- A datagram of endpoint i leaves, by any one of its ports (R356, R357): its UDP port, 20,300 unless the wick was told another (R355), and its
pair, PSN, offset, job tag, length, acknowledged PSN and payload go out.  With no port left nothing does. -/
def dgramOut (s : State) (vd i : Nat) (d : Dgram) : State :=
  match s.endpoint vd i with
  | none => s
  | some e => match ethPorts s e.params.ports with
    | [] => s
    | l =>
      s.draw.report { kind := 9, code := d.kind, vd := vd, member := l.getD (Config.freeChoice s.fresh % l.length) 0,
                      core := if e.params.udpPort = 0 then 20300 else e.params.udpPort, clk := s.clk,
                      args := [d.epair, d.psn, d.off, d.job, d.len, d.apsn] ++ d.data.map (·.toNat) }

/-- The next PSN of the pair in this direction (R355); before it would wrap, the pair is set up again with a fresh key. -/
def takePsn (s : State) (vd i : Nat) (e : Endpoint) : Nat × State :=
  let psn := (e.psn + 1) % 2 ^ 32
  let s := s.setEndpoint vd i { e with psn := psn }
  (psn, if psn = 2 ^ 32 - 1 then s.after 0 .pairRekey { a := vd, b := i } else s)
/-- Send a datagram that owes no acknowledgement of its own (R355, log 50): ACK, ECHO, KEEP, BUSY. -/
def sendOnce (s : State) (vd i : Nat) (d : Dgram) : State :=
  match s.endpoint vd i with
  | none => s
  | some e =>
    let r := takePsn s vd i e
    dgramOut r.2 vd i { d with epair := e.pair, psn := r.1 }
/-- A job's datagram may not start: its member is snuffed, or off its die (R357). -/
def dgramHeld (s : State) (vd : Nat) (d : Dgram) : Bool :=
  let m : MemberId := ⟨vd, d.job / 256⟩
  decide (d.kind ≠ 3) && ((s.member m).snuffed || decide ((s.die (s.member m).die).ctx ≠ some m))
/-- Send a datagram that the peer acknowledges (R357): under the next PSN, for the first time at once or, while its gang is stopped, when the job
goes on.  An unreachable endpoint sends nothing more, and its datagram fails at once. -/
def sendDgram (s : State) (vd i : Nat) (d : Dgram) : State :=
  match s.endpoint vd i with
  | none => s
  | some e =>
    let r := takePsn s vd i e
    let d := { d with epair := e.pair, psn := r.1 }
    let held := dgramHeld s vd d
    let n := if e.unreachable then 8 else if held then 0 else 1
    let s := r.2.setEndpoint vd i { e with psn := r.1, unacked := e.unacked ++ [(d, n, if n = 0 then 0 else s.clk)] }
    let o : Subject := { a := vd, b := i, c := r.1 }
    if e.unreachable then s.after 0 .ethRetransmitTimeout o
    else if held then s.after Config.us .ethRetransmitTimeout o
    else (dgramOut s vd i d).after (100 * Config.us) .ethRetransmitTimeout o

/-- A datagram without payload. -/
def Dgram.plain (kind off job len : Nat) : Dgram :=
  { kind := kind, epair := 0, psn := 0, off := off, job := job, len := len, apsn := 0, ecn := false, bad := false, data := [] }
/-- The job tag of a member's job (R355). -/
def jobTag (m : MemberId) (h : Nat) : Nat := m.member * 256 + h

/-! ### Chunks (R292) -/

/-- Internal form of a V-address of another member's die. -/
def farEa (member va : Nat) : Nat := 3 * 2 ^ 62 + member * 2 ^ 52 + va
/-- The address of byte `off` of one side of a card, as an engine of member m forms it; none for an endpoint. -/
def sideEa (m : Nat) (sp mem a off : Nat) : Option Nat :=
  if sp = 0 then some (if mem = m then a + off else farEa mem (a + off))
  else if sp = 1 then some (2 ^ 62 + a + off) else none
@[inherit_doc sideEa] def cardSrc (m : Nat) (c : List Dword) (off : Nat) : Option Nat := sideEa m (cardSsp c) (cardSmem c) (cardSaddr c) off
@[inherit_doc sideEa] def cardDst (m : Nat) (c : List Dword) (off : Nat) : Option Nat := sideEa m (cardDsp c) (cardDmem c) (cardDaddr c) off
/-- Bytes of chunk q. -/
def chunkLen (c : List Dword) (q : Nat) : Nat := min 4096 (cardLen c - 4096 * q)

/-- Pieces of n bytes at an address: offset and length, none over a 256-byte boundary. -/
def chunkPieces : Nat → Nat → Nat → Nat → List (Nat × Nat)
  | 0, _, _, _ => []
  | f + 1, a, off, n =>
    if n = 0 then []
    else
      let k := min n (256 - a % 256)
      (off, k) :: chunkPieces f (a + k) (off + k) (n - k)

/-- An access of a die's copy engines begins. -/
def engineAccess (s : State) (m : MemberId) (kind : AccKind) (ea n pc t : Nat) (rel : Bool) : State :=
  let d := (s.member m).die
  let a : Access :=
    { id := s.nextId, k := ⟨d, 256⟩, vd := m.vd, member := m.member, slot := 5, pc := pc, issue := s.clk, ea := BitVec.ofNat 64 ea, size := n,
      kind := kind, dest := .none, tag := 0, rid := 0, st := .travel, rel := rel }
  { s with accesses := s.accesses ++ [a], nextId := s.nextId + 1, fresh := s.fresh + 1 }.due t (.perform a.id)

/-- The bytes of chunk q have been read (R292): they are written to the destination, or leave in a WRITE datagram (R357); a collective's step
takes what it has read at `ea` (R330). -/
def chunkOut (s : State) (m : MemberId) (h q ea : Nat) (l : List Byte) : State :=
  match (s.member m).job h with
  | none => s
  | some j =>
    let c := j.card
    if cardKind c = 2 then
      (s.modMember m fun x => x.setJob h (some { j with coll := { j.coll with got := j.coll.got ++ [(ea, l)] } })).after 0 .chunkBoundary { m := m, a := h }
    else match cardDst m.member c (4096 * q) with
    | some ea =>
      (chunkPieces 18 ea 0 l.length).foldl (fun s p =>
        engineAccess s m (.copyOut h q (if cardKind c = 1 then some (cardRop c) else none) (cardEtype c) ((l.drop p.1).take p.2)) (ea + p.1) p.2 0
          (s.clk + s.delay) false) s
    | none =>
      let i := bitsN (cardDaddr c) 51 44
      let s := sendDgram s m.vd i { Dgram.plain 1 (bitsN (cardDaddr c) 43 0 + 4096 * q) (jobTag m h) l.length with data := l }
      let psn := ((s.endpoint m.vd i).map (·.psn)).getD 0
      s.modMember m fun x => x.setJob h ((x.job h).map fun j => { j with unacked := j.unacked ++ [psn], summary := jobSummary j l })

/-- Chunk q of a job is issued (R296): its source bytes are read, or asked for in a READ datagram (R357). -/
def chunkStart (s : State) (m : MemberId) (h q : Nat) : State :=
  match (s.member m).job h with
  | none => s
  | some j =>
    let c := j.card
    let s := s.modMember m fun x => x.setJob h (some { j with issued := q + 1, inflight := j.inflight ++ [q] })
    match cardSrc m.member c (4096 * q) with
    | some ea => engineAccess s m (.chunk h q) ea (chunkLen c q) 0 (s.clk + s.delay) false
    | none =>
      (sendDgram s m.vd (bitsN (cardSaddr c) 51 44) (Dgram.plain 2 (bitsN (cardSaddr c) 43 0 + 4096 * q) (jobTag m h) (chunkLen c q))).modMember m
        fun x => x.setJob h ((x.job h).map fun j => { j with unacked := j.unacked ++ [2 ^ 32 + q] })

/-! ### The end of a job (R295, R450) -/

/-- The engine that serves a job, if any. -/
def jobEngine (j : Job) : Option Nat := match j.st with | .active e => some e | _ => none

/-- The key of a byte on one side of a card, where the context's data are now, if a write could go there (R91). -/
def sideKey (s : State) (m : MemberId) (ea : Nat) : Option Nat :=
  match ea / 2 ^ 62 with
  | 0 => homeKey s m (ea % 2 ^ 52)
  | 3 => homeKey s ⟨m.vd, ea % 2 ^ 62 / 2 ^ 52⟩ (ea % 2 ^ 52)
  | _ => match findLeaf (s.vd m.vd) (ea % 2 ^ 62) with
    | some (lv, e) =>
      let sp := leafSpan lv (ea % 2 ^ 62) e
      match leafTarget s m true ⟨m.vd, sp.1, sp.2, e⟩ (ea % 2 ^ 62) with
      | .loc l => some l.key
      | .remote i pa => some (hbmKey (s.member ⟨m.vd, i⟩).die pa)
      | _ => none
    | none => none
/-- The destination of a job from byte `off` on becomes unpredictable (R48, R304, R450): each 16-byte part of it that holds data takes a free
value (log 43). -/
def scramble (m : MemberId) (c : List Dword) : Nat → Nat → State → State
  | 0, _, s => s
  | n + 1, off, s =>
    let s := match (cardDst m.member c off).bind (sideKey s m) with
      | some k => { s.draw with mem := memPut s.mem k (toBytes 16 (Config.freeValue s.fresh)) }
      | none => s
    scramble m c n (off + 16) s
/-- Bytes of a withdrawn or aborted copy past its last chunk boundary are unpredictable. -/
def scrambleTail (s : State) (m : MemberId) (j : Job) : State :=
  if (j.withdrawn || j.aborted) && decide (cardKind j.card ≠ 2) then
    scramble m j.card ((cardLen j.card - 4096 * j.done) / 16) (4096 * j.done) s
  else s

/-- A job ends: its completion actions begin 2 clk later, and its place on an engine is free (R295, R296). -/
def finishJob (s : State) (m : MemberId) (h : Nat) : State :=
  match (s.member m).job h with
  | none => s
  | some j =>
    let d := (s.member m).die
    let s := match jobEngine j with
      | some e => s.modDie d fun t => { t with engines := Tab.put [] t.engines e ((Tab.get [] t.engines e).filter fun x => decide (x ≠ h)) }
      | none => s
    let s := s.modMember m fun x =>
      { (x.setJob h (some { j with st := .finishing 0 })) with jobOrder := x.jobOrder.filter fun y => decide (y ≠ h) }
    let s := if (s.member m).jobOrder.isEmpty then s else s.afterM 0 .jobActivate m
    (scrambleTail s m j).afterM 2 .jobOutFill m h

/-- Nothing of a job's chunk q is under way: no access, no datagram unacknowledged, no data awaited (R292, R357). -/
def chunkQuiet (s : State) (m : MemberId) (h q : Nat) : Bool :=
  (match (s.member m).job h with
    | some j =>
      !j.unacked.contains (2 ^ 32 + q) && (decide (cardDsp j.card ≠ 2) || (match s.endpoint m.vd (bitsN (cardDaddr j.card) 51 44) with
        | some e => e.unacked.all fun d => decide (d.1.job ≠ jobTag m h ∨ d.1.off ≠ bitsN (cardDaddr j.card) 43 0 + 4096 * q)
        | none => true))
    | none => true) && s.accesses.all fun a => decide (a.vd ≠ m.vd ∨ a.member ≠ m.member) || (match a.kind with
    | .chunk h' q' => decide (h' ≠ h ∨ q' ≠ q)
    | .copyOut h' q' _ _ _ => decide (h' ≠ h ∨ q' ≠ q)
    | _ => true)

/-- A job whose chunks are all past their boundary, or that issues no more, ends (R292, R295, R304, R450); a sending endpoint job first sends
its NOTE (R357). -/
def jobCheckEnd (s : State) (m : MemberId) (h : Nat) : State :=
  match (s.member m).job h with
  | none => s
  | some j =>
    let all := decide (j.issued = cardChunks j.card)
    let live := (jobEngine j).isSome
    if !live || !j.inflight.isEmpty || !(all || j.withdrawn || j.aborted) then s
    else if cardDsp j.card = 2 ∧ !j.aborted ∧ j.unacked ≠ [0] ∧ !j.withdrawn then
      if j.unacked.isEmpty then
        let i := bitsN (cardDaddr j.card) 51 44
        (sendDgram s m.vd i (Dgram.plain 5 0 (jobTag m h) (cardLen j.card))).modMember m fun x => x.setJob h (some { j with unacked := [0] })
      else s
    else if cardDsp j.card = 2 ∧ j.unacked = [0] ∧ !j.aborted then s
    else finishJob s m h

/-- A job aborts (R450): no further chunk; a KIND 0x08 record names its first failing access. -/
def abortJob (s : State) (m : MemberId) (h cause : Nat) (v : Dword) : State :=
  match (s.member m).job h with
  | none => s
  | some j =>
    if j.aborted then s
    else
      let s := s.modMember m fun x => x.setJob h (some { j with aborted := true })
      s.report { kind := 1, code := 8, vd := m.vd, member := m.member, core := 0xFFFF, clk := s.clk,
                 args := [h + 1 + j.done * 65536, cause, v.toNat] }

/-- Chunk q of a job is past its boundary (`ok`), or has failed (R292, R450). -/
def chunkDone (s : State) (m : MemberId) (h q : Nat) (ok : Bool) : State :=
  match (s.member m).job h with
  | none => s
  | some j =>
    let fl := j.inflight.filter fun x => decide (x ≠ q)
    let s := s.modMember m fun x => x.setJob h (some { j with
      inflight := fl, done := if j.aborted then j.done else fl.foldl min j.issued, steps := j.steps + b2n ok })
    let s := jobCheckEnd s m h
    match (s.member m).job h with
    | some j => match jobEngine j with
      | some e => s.afterM 0 .chunkIssue m e
      | none => s
    | none => s

/-- A chunk has met a fault (R450): it makes no further access, and its job aborts; a collective tells the other members (R451). -/
def failChunk (s : State) (m : MemberId) (h q cause : Nat) (v : Dword) : State :=
  let mine (a : Access) : Bool := decide (a.vd = m.vd ∧ a.member = m.member) && (match a.kind with
    | .chunk h' q' => decide (h' = h ∧ q' = q)
    | .copyOut h' q' _ _ _ => decide (h' = h ∧ q' = q)
    | _ => false)
  let ids := (s.accesses.filter mine).map (·.id)
  let s := { s with accesses := s.accesses.filter fun a => !mine a && (match a.kind with
    | .part p _ _ _ => !ids.contains p
    | _ => true) }
  match (s.member m).job h with
  | some j =>
    if cardKind j.card = 2 then
      (s.report { kind := 1, code := 8, vd := m.vd, member := m.member, core := 0xFFFF, clk := s.clk, args := [h + 1, cause, v.toNat] }).after 0
        .collectiveAbortNotice { m := m, a := cardCid j.card, b := m.member, c := m.member + 1 }
    else chunkDone (abortJob s m h cause v) m h q false
  | none => s

/-- Arm a trigger (R309): handle less one, or none when the table is full; one already passed fires at once. -/
def armTrigger (s : State) (m : MemberId) (counter : Nat) (threshold : Dword) (card : List Dword) (prev : List Nat) : Option Nat × State :=
  match lowestFree (s.member m).triggers Config.triggerSlots with
  | none => (none, s)
  | some h =>
    let now := decide (threshold.toNat ≤ (wordOf s m counter).toNat)
    let s := s.modMember m fun x => { x with triggers := Tab.put none x.triggers h (some ⟨counter, threshold, card, now, prev⟩) }
    (some h, if now then s.afterM 0 .triggerFire m h else s)

/-- The state dword of jobq (R313). -/
def jobqDword (demand st chunks : Nat) : Dword := BitVec.ofNat 64 (demand * 2 ^ 56 + st * 2 ^ 52 + chunks)

/-- What jobq reports on a handle (R313). -/
def jobQuery (c : Member) (v : Dword) : Dword :=
  match bitsN v.toNat 63 62 with
  | 0 =>
    match bitsN v.toNat 8 0 with
    | 0 => 0
    | h + 1 => match c.job h with
      | some j =>
        let st := match j.st with
          | .pending => 1 | .waiting => 2 | .ready => 3 | .active _ => 4 | .finishing _ => 4
        jobqDword j.demand st (j.steps % 2 ^ 32)
      | none => 0
  | 1 =>
    match bitsN v.toNat 12 0 with
    | 0 => 0
    | h + 1 => match c.task h with
      | some t =>
        let st := match t.st with
          | .pending => 1 | .waiting => 2 | .ready => 3 | .running _ => 4 | .suspended => 5
        jobqDword t.demand st 0
      | none => 0
  | _ =>
    match bitsN v.toNat 6 0 with
    | 0 => 0
    | h + 1 => if (Tab.get none c.triggers h).isSome then jobqDword 0 6 0 else 0

end Sys2Proof.Machine
end

