-- ==== Sys2Proof/Machine/Streams.lean ====
section
/-!
DEFINITION. Streams.lean: where a stream's elements and scales lie (R247 to R249), and the pieces a wide access is made of (R107).
-/
namespace Sys2Proof.Machine

/-- A run of bytes of a stream: address modulo 2^64, length, the beat that first needs it, and bytes a beat takes of it (0: all at once). -/
structure RowSpec where
  addr : Nat
  n : Nat
  j0 : Nat
  per : Nat
  deriving DecidableEq, Repr

/-- base + i·stride modulo 2^64 (R247). -/
def rowAddr (base : Nat) (stride : Int) (i : Nat) : Nat := (((base : Int) + i * stride) % 2 ^ 64).toNat

/-- Bytes of n elements of a type. -/
def elemBytes (t n : Nat) : Nat := (n * size2 t + 1) / 2

/-- Scale bytes and block size of a stream (R246, R248). -/
def StreamReg.ssz (r : StreamReg) : Nat := if r.sfmt then 4 else 2
@[inherit_doc StreamReg.ssz] def StreamReg.bsz (r : StreamReg) : Nat := match r.bs with | 0 => 0 | 1 => 16 | 2 => 32 | _ => 64

/-- Twice the k-steps a beat completes for a pair of operand formats, 0 for an illegal pairing (R252). -/
def kpb2 (a b : Nat) : Nat :=
  let f8 (t : Nat) : Bool := decide (t = 3) || decide (t = 4)
  let h (t : Nat) : Bool := decide (t = 1) || decide (t = 2)
  let i8 (t : Nat) : Bool := decide (t = 7) || decide (t = 11)
  let i4 (t : Nat) : Bool := decide (t = 8) || decide (t = 12)
  if a = 0 ∧ b = 0 then 1
  else if (h a && (h b || f8 b)) || (h b && f8 a) then 2
  else if f8 a && f8 b then 4
  else if (i8 a && (i8 b || i4 b)) || (i8 b && i4 a) then 4
  else if i4 a && i4 b then 8
  else 0

/-- Rows of elements of an mm operand (R247): `inA` for A, else B; K k-steps, kp twice the k-steps a beat. -/
def operandRows (r : StreamReg) (inA : Bool) (K kp : Nat) : List RowSpec :=
  let kMajor := if inA then decide (r.xp ≠ 0) else decide (r.xp = 0)
  if kMajor then (List.range K).map fun k => ⟨rowAddr r.base r.rstride k, elemBytes r.fmt 32, 2 * k / kp, 0⟩
  else (List.range 32).map fun i => ⟨rowAddr r.base r.rstride i, elemBytes r.fmt K, 0, kp * size2 r.fmt / 4⟩

/-- Rows of scales of an mm operand (R248). -/
def scaleRows (r : StreamReg) (inA : Bool) (K kp : Nat) : List RowSpec :=
  if r.bs ≠ 0 then
    let nb := (K + r.bsz - 1) / r.bsz
    if inA then (List.range 32).map fun i => ⟨rowAddr r.sbase r.sstride i, nb * r.ssz, 0, 0⟩
    else (List.range nb).map fun b => ⟨rowAddr r.sbase r.sstride b, 32 * r.ssz, 2 * b * r.bsz / kp, 0⟩
  else if r.ce then
    if inA then (List.range 32).map fun i => ⟨rowAddr r.sbase r.sstride i, r.ssz, 0, 0⟩
    else [⟨r.sbase, 32 * r.ssz, 0, 0⟩]
  else []

/-- Rows of an ldt (R281): major and minor by XP; scales under CE. -/
def ldtRows (r : StreamReg) (d : ItemRef) : List RowSpec × List RowSpec :=
  let maj := if r.xp = 0 then d.rows else d.cols
  let min := if r.xp = 0 then d.cols else d.rows
  ((List.range maj).map fun i => ⟨rowAddr r.base r.rstride i, elemBytes r.fmt min, 0, 0⟩,
   if r.ce then (List.range d.rows).map fun i => ⟨rowAddr r.sbase r.sstride i, r.ssz, 0, 0⟩ else [])

/-- Cut n bytes from an address at 256-byte boundaries: address, length and offset in the row. -/
def cutRow : Nat → Nat → Nat → Nat → List (Nat × Nat × Nat)
  | 0, _, _, _ => []
  | f + 1, a, n, off =>
    if n = 0 then []
    else
      let k := min n (256 - a % 256)
      (a, k, off) :: cutRow f ((a + k) % 2 ^ 64) (n - k) (off + k)

/-- The pieces of rows: address, length, beat (R107, R259). -/
def piecesOf (rows : List RowSpec) : List (Nat × Nat × Nat) :=
  rows.flatMap fun r => (cutRow (r.n / 256 + 2) r.addr r.n 0).map fun p => (p.1, p.2.1, if r.per = 0 then r.j0 else r.j0 + p.2.2 / r.per)

/-- Elements of equal rows laid end to end. -/
def rowElems (t minor rowBytes : Nat) (l : List Byte) : List Nat :=
  (List.range (l.length / max rowBytes 1)).flatMap fun i => (unpackElems t ((l.drop (i * rowBytes)).take rowBytes)).take minor

/-- Scale encodings of a byte run. -/
def scaleElems (r : StreamReg) (l : List Byte) : List Nat :=
  (List.range (l.length / r.ssz)).map fun i => ofBytes ((l.drop (i * r.ssz)).take r.ssz)

end Sys2Proof.Machine
end

