-- ==== Sys2Proof/Machine/Perform.lean ====
section
/-!
DEFINITION. Perform.lean: an access reaches its point of performance (R102): vault, register-bound and global accesses, wide accesses
in pieces, and the A-slot requests; and tagged data land (R176, R264).
-/
namespace Sys2Proof.Machine

/-! ### Wide accesses -/

/-- The format an mm operand multiplies in (R252). -/
def MOperand.fmt : MOperand → Nat
  | .elems t _ => t
  | .stream r _ _ _ _ => if r.ce then r.ofmt else r.fmt
  | .none => 0

/-- Sections of an M op's fetch, with their space: A data, A scales, B data, B scales (R247 to R249). -/
def mopSections (m : MOp) : List (StreamReg × List RowSpec) :=
  let kp := if m.kind = 1 ∨ m.kind = 2 then kpb2 m.a.fmt m.b.fmt else 2
  let K := m.beats * kp / 2
  let sec (o : MOperand) (inA : Bool) : List (StreamReg × List RowSpec) :=
    match o with
    | .stream r _ _ _ _ =>
      if m.kind = 4 then [(r, (List.range m.beats).map fun i => ⟨rowAddr r.base r.rstride i, elemBytes r.fmt 32, i, 0⟩), (r, [])]
      else [(r, operandRows r inA K kp), (r, scaleRows r inA K kp)]
    | _ => []
  sec m.a true ++ sec m.b false

/-- Sections of a stream load (R281, R282). -/
def loadSections : AccKind → List (StreamReg × List RowSpec)
  | .ldt r _ d => let p := ldtRows r d; [(r, p.1), (r, p.2)]
  | .vldt r _ n => [(r, (List.range n).map fun q => ⟨rowAddr r.base r.rstride q, 256, 0, 0⟩)]
  | _ => []

/-- Sections of any gathering access. -/
def sectionsOf (s : State) (a : Access) : List (StreamReg × List RowSpec) :=
  match a.kind with
  | .mfetch rid => match (s.core a.k).mops.find? (fun m => decide (m.rid = rid)) with
    | some m => mopSections m
    | none => []
  | .ldt _ _ _ | .vldt _ _ _ => loadSections a.kind
  | .ifill _ n => [({ StreamReg.zero with d0 := a.ea &&& 0xC000000000000000 }, [⟨eaAddr a.ea, 64 * n, 0, 0⟩])]
  | .chunk _ _ => [({ StreamReg.zero with d0 := a.ea &&& 0xC000000000000000 }, [⟨eaAddr a.ea, a.size, 0, 0⟩])]
  | _ => []

/-- Total bytes of rows. -/
def rowsBytes (l : List RowSpec) : Nat := (l.map (·.n)).sum

/-- The part accesses of a section, numbered from i: pieces of memory, or one pull from a port FIFO. -/
def sectionKinds (parent : Nat) (sec : StreamReg × List RowSpec) (i : Nat) : List (AccKind × Dword × Nat) :=
  if sec.1.space = 2 then
    if sec.2.isEmpty then [] else [(.fifoPart parent i (rowsBytes sec.2) (sec.1.base % 4) [], sec.1.d0, rowsBytes sec.2)]
  else
    let ps := piecesOf sec.2
    (List.range ps.length).map fun q =>
      let p := ps.getD q (0, 0, 0)
      (.part parent (i + q) p.2.1 p.2.2, BitVec.ofNat 64 (sec.1.space * 2 ^ 62 + p.1 % 2 ^ 62), p.2.1)

/-- All parts of a gathering access. -/
def partKinds (parent : Nat) : List (StreamReg × List RowSpec) → Nat → List (AccKind × Dword × Nat)
  | [], _ => []
  | sec :: t, i => let ks := sectionKinds parent sec i; ks ++ partKinds parent t (i + ks.length)

/-- Start the parts of a gathering access (R107). -/
def startGather (s : State) (a : Access) : State :=
  let ks := partKinds a.id (sectionsOf s a) 0
  let s := s.setAccess { a with st := .gather ks.length [] }
  ks.foldl (fun s p =>
    let t := match p.1 with
      | .fifoPart _ _ _ _ _ => s.clk
      | _ => accTime s a.k p.2.1
    let b : Access := { a with id := s.nextId, kind := p.1, ea := p.2.1, size := p.2.2, dest := .none, tag := 0, rid := 0, st := .travel }
    { s with accesses := s.accesses ++ [b], nextId := s.nextId + 1, fresh := s.fresh + 1 }.due t (.perform b.id)) s

/-- The bytes of section `n` of a gathered access. -/
def sectionBytes (got : List (Nat × List Byte)) (secs : List (List (AccKind × Dword × Nat))) (n : Nat) : List Byte :=
  let i0 := ((secs.take n).map (·.length)).sum
  (List.range (secs.getD n []).length).flatMap fun q => ((got.find? fun e => decide (e.1 = i0 + q)).map (·.2)).getD []

/-- Number of parts of each section. -/
def sectionSplit (parent : Nat) : List (StreamReg × List RowSpec) → Nat → List (List (AccKind × Dword × Nat))
  | [], _ => []
  | sec :: t, i => let ks := sectionKinds parent sec i; ks :: sectionSplit parent t (i + ks.length)

/-- An mm operand with its fetched data (R247, R248). -/
def fillOperand (o : MOperand) (rows : List RowSpec) (data scales : List Byte) (minor : Nat) : MOperand :=
  match o with
  | .stream r ct _ _ _ => .stream r ct true (rowElems r.fmt minor ((rows.headD ⟨0, 1, 0, 0⟩).n) data) (scaleElems r scales)
  | o => o

/-- Elements of a row as stored (R247): K along the minor index, or 32. -/
def minorOf (r : StreamReg) (inA : Bool) (K : Nat) (kind : Nat) : Nat :=
  if kind = 4 then 32 else if (if inA then decide (r.xp ≠ 0) else decide (r.xp = 0)) then 32 else K

/-- The key under which a gathered part marks bundle q of an ifill as poisoned (R463). -/
def poisonMark (q : Nat) : Nat := 2 ^ 32 + q

/-- Write the bundles of an ifill (R311); marked ones carry their poison into IMEM (R463). -/
def writeBundles (c : Core) (first : Nat) (l : List Byte) (n : Nat) (marked : Nat → Bool) : Core :=
  (List.range n).foldl (fun c i =>
    { c with imem := Tab.put 0 c.imem ((first + i) % 2048) (BitVec.ofNat 512 (ofBytes ((l.drop (64 * i)).take 64))),
             imemPoison := Tab.put false c.imemPoison ((first + i) % 2048) (marked i) }) c

/-- Elements of a tile in place, from stored rows and XP (R96, R281). -/
def tileElems (rows cols : Nat) (xp : Nat) (l : List Nat) (nib : Bool) : List Nat :=
  if xp = 0 then l
  else if nib then
    -- 8-bit units of two 4-bit elements move together
    (List.range (rows * cols)).map fun e =>
      let r := e / cols
      let c := e % cols
      let u := c / 2
      l.getD (u * (2 * rows) + 2 * r + c % 2) 0
  else (List.range (rows * cols)).map fun e => l.getD (e % cols * rows + e / cols) 0

/-- Operand elements of an ldt (R281): copied, or decoded by R148 with the row's scale. -/
def ldtElems (r : StreamReg) (ctab : List Dword) (d : ItemRef) (data : List Nat) (scales : List Nat) : List Nat :=
  let l := tileElems d.rows d.cols r.xp data (decide (size2 r.fmt = 1))
  if r.ce then
    let vs := decodeElems r.fmt l
    (List.range l.length).map fun e =>
      let sc := scales.getD (e / max d.cols 1) 0
      companded ctab (vs.getD e (.fin false 0 0)) (if r.sfmt then sc else sc * 65536) r.ofmt
  else l

/-- Every part of a gathered access has come: it acts (R259, R281, R282, R311). -/
def finishGather (s : State) (a : Access) (got : List (Nat × List Byte)) : State :=
  let secs := sectionsOf s a
  let split := sectionSplit a.id secs 0
  let bytes := sectionBytes got split
  let rows (n : Nat) : List RowSpec := (secs.getD n (StreamReg.zero, [])).2
  match a.kind with
  | .mfetch rid =>
    (s.dropAccess a.id).modCore a.k fun c =>
      { c with waitFor := c.waitFor.filter (fun x => decide (x ≠ a.id)), mops := c.mops.map fun m =>
          if m.rid = rid then
            let kp := kpb2 m.a.fmt m.b.fmt
            let K := m.beats * kp / 2
            let isS (o : MOperand) : Bool := match o with | .stream _ _ _ _ _ => true | _ => false
            let off := if isS m.a then 2 else 0
            let fa := match m.a with
              | .stream r _ _ _ _ => fillOperand m.a (rows 0) (bytes 0) (bytes 1) (minorOf r true K m.kind)
              | o => o
            let fb := match m.b with
              | .stream r _ _ _ _ => fillOperand m.b (rows off) (bytes off) (bytes (off + 1)) (minorOf r false K m.kind)
              | o => o
            { m with a := fa, b := fb, fetched := true,
                     bindAt := if m.tag = 0 then m.bindAt else max (m.arrive + 6) (s.clk + 1) }
          else m }
  | .ldt _ _ _ | .vldt _ _ _ => (s.dropAccess a.id).modCore a.k fun c => (c.unwait a.id).ready a.tag
  | .ifill first n => (s.dropAccess a.id).modCore a.k fun c => ((writeBundles c first (bytes 0) n (fun q => got.any fun e => decide (e.1 = poisonMark q))).unwait a.id).ready a.tag
  | .chunk h q => chunkOut (s.dropAccess a.id) a.ctx h q a.ea.toNat (bytes 0)
  | _ => s

/-- The bytes of a section as far as they have come. -/
def sectionPart (got : List (Nat × List Byte)) (secs : List (List (AccKind × Dword × Nat))) (n : Nat) : List (Option Byte) :=
  let i0 := ((secs.take n).map (·.length)).sum
  let ps := secs.getD n []
  (List.range ps.length).flatMap fun q =>
    match got.find? fun e => decide (e.1 = i0 + q) with
    | some e => e.2.map some
    | none => List.replicate (ps.getD q (.heat, 0, 0)).2.2 none

/-- The bytes of a tile an ldt can write from what has come (R281): those whose elements, and their scales under CE, are all there. -/
def ldtBytes (r : StreamReg) (ct : List Dword) (d : ItemRef) (data scales : List (Option Byte)) : List (Option Byte) :=
  let minor := if r.xp = 0 then d.cols else d.rows
  let rb := elemBytes r.fmt minor
  let have_ (l : List (Option Byte)) (a n : Nat) : Bool := (List.range n).all fun i => (l.getD (a + i) none).isSome
  let ok (e : Nat) : Bool :=
    let p := if r.xp = 0 then (e / d.cols, e % d.cols) else (e % d.cols, e / d.cols)
    have_ data (p.1 * rb + p.2 * size2 r.fmt / 2) (max 1 (size2 r.fmt / 2)) && (!r.ce || have_ scales (e / d.cols * r.ssz) r.ssz)
  let vals := packElems d.ty
    (ldtElems r ct d (rowElems r.fmt minor rb (data.map fun b => b.getD 0)) (scaleElems r (scales.map fun b => b.getD 0)))
  let n := d.rows * d.cols
  (List.range vals.length).map fun k =>
    let es := if size2 d.ty = 1 then [2 * k, 2 * k + 1] else [2 * k / size2 d.ty]
    if es.all fun e => decide (n ≤ e) || ok e then vals[k]? else none

/-- Write the bytes that are there, in runs. -/
def putRuns (c : Core) (a : Nat) : List (Option Byte) → List Byte → Core
  | [], run => if run.isEmpty then c else c.rsPut (a - run.length) run.reverse
  | some b :: t, run => putRuns c (a + 1) t (b :: run)
  | none :: t, run => putRuns (if run.isEmpty then c else c.rsPut (a - run.length) run.reverse) (a + 1) t []

/-- The bytes of `new` that `old` did not have. -/
def newBytes (old new : List (Option Byte)) : List (Option Byte) :=
  List.zipWith (fun o n => if o.isSome then none else n) old new

/-- The bytes of ldt and vldt that can be written once the parts `new` have come and not before (R281, R282): from a byte of register
space on. -/
def arrivedBytes (s : State) (a : Access) (old new : List (Nat × List Byte)) : Nat × List (Option Byte) :=
  let secs := sectionsOf s a
  let split := sectionSplit a.id secs 0
  match a.kind, a.dest with
  | .ldt r ct d, _ =>
    let bytes (g : List (Nat × List Byte)) := ldtBytes r ct d (sectionPart g split 0) (sectionPart g split 1)
    if r.space = 2 then (0, []) else (d.base, newBytes (bytes old) (bytes new))
  | .vldt r _ _, .rs b => if r.space = 2 then (0, []) else (b, newBytes (sectionPart old split 0) (sectionPart new split 0))
  | _, _ => (0, [])
/-- The data of ldt and vldt are written as they arrive. -/
def writeArrived (s : State) (a : Access) (old new : List (Nat × List Byte)) : State :=
  let w := arrivedBytes s a old new
  if w.2.isEmpty then s else s.modCore a.k fun c => putRuns c w.1 w.2 []

/-- A fixed-latency result that lands in this clk overlaps bytes of register space that tagged data would write (R264). -/
def bytesClash (s : State) (k : CoreId) (base : Nat) (l : List (Option Byte)) : Bool :=
  let c := s.core k
  c.results.any fun r => decide (r.due = schedOf s c) &&
    (List.range l.length).any fun i => match l.getD i none with
      | some b => clash (.rs (base + i)) (.bytes [b]) r.dest r.val
      | none => false
/-- The data of a part of ldt or vldt would do so. -/
def partClash (s : State) (parent i : Nat) (l : List Byte) : Bool :=
  match s.access parent with
  | some a => match a.st with
    | .gather _ got => let w := arrivedBytes s a got (got ++ [(i, l)]); bytesClash s a.k w.1 w.2
    | _ => false
  | none => false

/-- A part has come (R107): the parent records it, and acts when it is the last. -/
def depositPart (s : State) (part : Access) (parent i j : Nat) (l : List Byte) : State :=
  let s := (s.dropAccess part.id).modCore part.k fun c => c.unwait part.id
  match s.access parent with
  | some a =>
    match a.st with
    | .gather left got =>
      let s := match a.kind with
        | .mfetch rid => s.modCore a.k fun c =>
            { c with mops := c.mops.map fun m =>
                if m.rid = rid ∧ m.tag ≠ 0 then { m with arrive := max m.arrive (s.clk + (m.beats - 1 - j)) } else m }
        | _ => s
      let s := writeArrived s a got (got ++ [(i, l)])
      let a := { a with st := .gather (left - 1) (got ++ [(i, l)]) }
      if left ≤ 1 then finishGather s a (got ++ [(i, l)]) else s.setAccess a
    | _ => s
  | none => s

/-! ### What an op of the core in focus reaches (R60, R76, R264) -/

/-- The leaf of a global ea, if it has one. -/
def eaLeaf (s : State) (ea : Dword) : Option Dword :=
  if eaSpace ea = 1 then (findLeaf (s.vd (s.ctxD s.focus).vd) (eaAddr ea)).map (·.2) else none
/-- A store there strikes (R76, R271). -/
def toStrike (s : State) (ea : Dword) : Bool := match eaLeaf s ea with | some e => decide (ptTgt e = 3) | none => false
/-- An access there injects a packet for the gang (R60, R264). -/
def toRemote (s : State) (ea : Dword) : Bool :=
  match eaLeaf s ea with | some e => decide (ptTgt e = 0 ∧ ptMember e ≠ (s.ctxD s.focus).member) | none => false
/-- The member of the core in focus injects no packets now (R60). -/
def noInject (s : State) : Bool := (s.member (s.ctxD s.focus)).snuffed

/-- Some run of a stream lies in the HBM of another member. -/
def sectionsRemote (s : State) (l : List (StreamReg × List RowSpec)) : Bool :=
  l.any fun e => decide (e.1.space = 1) && (piecesOf e.2).any fun p => toRemote s (BitVec.ofNat 64 (2 ^ 62 + p.1 % 2 ^ 62))

/-! ### Port FIFOs as stream sources -/

/-- Fields of a FIFO binding (R283). -/
def Fifo.kind (f : Fifo) : Nat := bitsN f.d0.toNat 63 62
@[inherit_doc Fifo.kind] def Fifo.relPeer (f : Fifo) : Bool := bitN f.d0.toNat 61
@[inherit_doc Fifo.kind] def Fifo.esz (f : Fifo) : Nat := if bitN f.d0.toNat 60 then 256 else 8
@[inherit_doc Fifo.kind] def Fifo.pcore (f : Fifo) : Nat := bitsN f.d0.toNat 55 48
@[inherit_doc Fifo.kind] def Fifo.peer (f : Fifo) : Nat := bitsN f.d0.toNat 15 0
@[inherit_doc Fifo.kind] def Fifo.rsp (f : Fifo) : Nat := b2n (bitN f.d1.toNat 63)
@[inherit_doc Fifo.kind] def Fifo.rbase (f : Fifo) : Nat := bitsN f.d1.toNat 51 0
@[inherit_doc Fifo.kind] def Fifo.stride (f : Fifo) : Int := (BitVec.ofNat 32 f.d2.toNat).toInt
@[inherit_doc Fifo.kind] def Fifo.count (f : Fifo) : Nat := bitsN f.d3.toNat 31 0

/-- FIFO k of a core. -/
def Core.fifo (c : Core) (k : Nat) : Fifo := Tab.get Fifo.zero c.fifos k
@[inherit_doc Core.fifo] def Core.setFifo (c : Core) (k : Nat) (f : Fifo) : Core := { c with fifos := Tab.put Fifo.zero c.fifos k f }

/-- The member a FIFO names (R283). -/
def fifoMember (s : State) (m : MemberId) (f : Fifo) : Nat :=
  let n := (s.vd m.vd).params.n
  if f.relPeer then (((m.member : Int) + sgn 16 f.peer) % (max n 1 : Nat)).toNat else f.peer
/-- The bytes of an element. -/
def Fifo.bytesOf (f : Fifo) (v : Vec) : List Byte := (vecBytes v).take f.esz

/-- A load stream may have a fetch to send (R284). -/
def wantFetch (s : State) (k : CoreId) (i : Nat) : State :=
  if (((s.core k).fifo i).kind = 3) then s.after 1 .fifoLoadFetch { k := k, a := i } else s

/-! ### The A slot's requests -/

/-- Strike a VD's page (R76): the event STRIKE acts on it. -/
def strikeVd (s : State) (vd : Nat) : State := s.after 0 .strike { a := vd }

/-- A value returned at a clk to an access's tag. -/
def returnAt (s : State) (a : Access) (t : Nat) (v : Dword) : State :=
  (s.setAccess { a with st := .done (.s v) }).due t (.event .taggedResultLand { k := a.k, a := a.id })

/-- The granule of an access on the core's own die is not resident: it waits (R73). -/
def waitFirst (s : State) (a : Access) (va : Nat) : Option State :=
  if resident s a.k.die a.ctx (granOf va) then none
  else some (waitGranule (s.setAccess (a.moved (.granule (granOf va)))) a.k.die (granOf va) a.ctx (.access a.id))

/-- Fill the die TLB with the pages of a range (R312), skipping those that would fault. -/
def prefetchPages (d vd : Nat) : Nat → Nat → State → State
  | 0, _, s => s
  | n + 1, page, s =>
    let va := page * 4096
    let r := walk s d vd va false
    let s := if (walkPoison (s.vd vd) va).isSome ∨ (r.1.any fun e => 4 ≤ ptTgt e.leaf) then s else r.2
    prefetchPages d vd n (page + 1) s

/-- The heat dword of an address (R314). -/
def heatDword (s : State) (m : MemberId) (va : Nat) : Dword :=
  match findLeaf (s.vd m.vd) va with
  | some (lv, e) =>
    let sp := leafSpan lv va e
    let pa := physOf ⟨m.vd, sp.1, sp.2, e⟩ va
    match ptTgt e with
    | 0 =>
      let d := (s.member ⟨m.vd, ptMember e⟩).die
      let v := Tab.get 0 (s.die d).heat (hbmKey d pa / 65536)
      BitVec.ofNat 64 (v % 64 * 256 + v / 64)
    | 1 =>
      let v := Tab.get 0 (s.switch (tierPort (tierKey pa))).heat (tierKey pa / 65536)
      BitVec.ofNat 64 (2 ^ 62 + v % 64 * 256 + v / 64)
    | _ => BitVec.ofNat 64 (2 ^ 63)
  | none => BitVec.ofNat 64 (2 ^ 63)

/-- The stores of the issuing core before an access that are not performed yet: the work it starts comes after them (R104, R290). -/
def openStores (s : State) (a : Access) : List Nat :=
  (s.accesses.filter fun b => decide (b.k = a.k ∧ b.vd = a.vd ∧ b.member = a.member ∧ b.id < a.id) && b.kind.write && !b.performed).map (·.id)

/-- The footprint list's address of a card, or the card's own (R213, R291). -/
def cardList (c : List Dword) (a : Nat) : Nat := (recFp (c.getD 3 0)).getD a

/-- An op that found the pool or the job queue full holds back no later declaration any more (R297). -/
def settled (h : Option Nat) (m : MemberId) (s : State) : State := if h.isSome then s else settle s m

/-- An A-slot request acts (R290, R293, R305, R309, R312 to R315). -/
def performRequest (s : State) (a : Access) : State :=
  let m := a.ctx
  match a.kind with
  | .card c fp =>
    let r := startJob s m c fp ⟨none, openStores s a, a.k.core, a.id, admitKey a.issue a.k.core a.slot⟩
    settled r.1 m <| returnAt r.2 a (s.clk + 2) (BitVec.ofNat 64 (match r.1 with | some h => h + 1 | none => 0))
  | .trig ct th c fp =>
    let r := armTrigger s m ct th (c ++ fp) (openStores s a)
    returnAt r.2 a (s.clk + 2) (BitVec.ofNat 64 (match r.1 with | some h => h + 1 | none => 0))
  | .spawn r fp =>
    let t := admitTask s m r fp none (admitKey a.issue a.k.core a.slot) (openStores s a)
    settled t.1 m <| bindResult (t.2.dropAccess a.id) a.k a.rid (.s (BitVec.ofNat 64 (match t.1 with | some h => h + 1 | none => 0))) (s.clk + 1)
  | .wdraw w =>
    let p := (s.member m).producers.find? fun p => decide (p.word = w)
    if p.isSome && !feOf s m w then returnAt (sendDemand s m w false) a (s.clk + 2) 1 else returnAt s a (s.clk + 2) 0
  | .jobq h => returnAt s a s.clk (jobQuery (s.member m) h)
  | .heat =>
    let va := eaAddr a.ea
    match translate s a.k m a.slot false va with
    | .fault c => foundFault s a c va
    | .miss => startWalk (s.setAccess { a with st := .walk }) a.k.die a.vd va false a.id
    | _ => returnAt (tlbUse s a.k a.slot a.vd va false) a s.clk (heatDword s m va)
  | .mig toTier => (s.setAccess { a with st := .queued }).after 0 .migrationRequest { m := m, a := eaAddr a.ea, b := b2n toTier, c := a.id }
  | .pref n =>
    let va := eaAddr a.ea
    if eaSpace a.ea ≠ 1 then performedAcc s a none
    else performedAcc (prefetchPages a.k.die a.vd ((va + n - 1) / 4096 - va / 4096 + 1) (va / 4096) s) a none
  | .sred ty op cid data =>
    sendPkt (s.setAccess { a with st := .queued }) m
      { (Pkt.local m.member 0 0x0B a.ea (ty * 4 + op)) with cid := cid, data := data, rtag := a.id % 65536 }
  | _ => s

/-! ### Performance -/

/-- Codes of an atomic on the wire. -/
def amoCode (op : AmoOp) (n : Nat) (red : Bool) : Nat :=
  (match op with
   | .add => 0 | .and => 1 | .or => 2 | .xor => 3 | .maxS => 4 | .maxZ => 5 | .minS => 6 | .minZ => 7 | .swap => 8 | .cas => 9
   | .faddF32 => 10 | .faddBf16 => 11 | .fmaxF32 => 12) + 16 * n / 2 + 128 * b2n red
/-- The operation an atomic packet carries. -/
def amoOfCode (x : Nat) : AmoOp :=
  match x % 16 with
  | 0 => .add | 1 => .and | 2 => .or | 3 => .xor | 4 => .maxS | 5 => .maxZ | 6 => .minS | 7 => .minZ | 8 => .swap | 9 => .cas
  | 10 => .faddF32 | 11 => .faddBf16 | _ => .fmaxF32
/-- Its size in bytes. -/
def amoSizeOf (x : Nat) : Nat := 2 * (x / 16 % 8)

/-- A fabric access fault of an access (R391): cause 0x0D names a member and a reason. -/
def foundMember (s : State) (a : Access) (m reason : Nat) : State :=
  s.after 0 .deferredFaultFound { a := a.id, b := 0x0D, v := BitVec.ofNat 64 (m % 256 + reason * 256) }

/-- The packet that carries an access to another member's die (R321): address space `sp` 0 V-address, 1 HBM. -/
def remotePkt (a : Access) (dm sp pa : Nat) : Pkt :=
  let base := { (Pkt.local a.member dm 0 (BitVec.ofNat 64 (sp * 2 ^ 62 + pa)) 0) with rtag := a.id % 65536 }
  match a.kind with
  | .load n _ => { base with type := 0x02, lenm1 := n - 1 }
  | .loadV => { base with type := 0x02, lenm1 := 255 }
  | .fifoLoad _ _ n => { base with type := 0x02, lenm1 := n - 1 }
  | .part _ _ n _ => { base with type := 0x02, lenm1 := n - 1 }
  | .store l => { base with type := 0x01, data := l, rel := a.rel }
  | .copyOut _ _ rop t l => { base with type := 0x01, vc := 3, data := l, opx := match rop with | some r => 128 + 16 * r + t | none => 0 }
  | .sig v => { base with type := 0x01, vc := if a.k.core = 256 then 3 else 1, data := toBytes 8 v.toNat, rel := true }
  | .amo op n b c red => { base with type := 0x04, opx := amoCode op n red, data := toBytes 8 b.toNat ++ toBytes 8 c.toNat }
  | .fill v _ => { base with type := 0x07, opx := 1, data := toBytes 8 v.toNat, rel := true }
  | .bar _ v => { base with type := 0x07, opx := 2, data := toBytes 8 v.toNat, rel := true }
  | _ => base

/-- The job an access of the die's engines belongs to. -/
def accessJob (s : State) (a : Access) : Option Nat :=
  match a.kind with
  | .chunk h _ | .copyOut h _ _ _ _ => some h
  | .part p _ _ _ => (s.access p).bind fun b => match b.kind with | .chunk h _ => some h | _ => none
  | .fill _ owner => if owner ≠ 0 ∧ owner % 2 = 0 then some (owner / 2 - 1) else none
  | .bar _ _ | .sig _ => if a.k.core = 256 ∧ a.pc ≠ 0 then some (a.pc - 1) else none
  | _ => none
/-- A packet of a job carries the clock its member had as the job was issued (R111). -/
def jobPkt (s : State) (m : MemberId) (h : Nat) (p : Pkt) : Pkt :=
  match (s.member m).job h with
  | some j => { p with nent := 1, stamp := j.stamp }
  | none => p
/-- The packet of an access, with its job's stamp. -/
def accessPkt (s : State) (a : Access) (dm sp pa : Nat) : Pkt :=
  match accessJob s a with
  | some h => jobPkt s a.ctx h (remotePkt a dm sp pa)
  | none => remotePkt a dm sp pa

/-- An access to another member's die travels as a packet (R264, R318), unless that member cannot be reached (R447); an engine injects none
while the member is snuffed (R60). -/
def sendRemote (s : State) (a : Access) (dm sp pa : Nat) : State :=
  if (s.member a.ctx).unreachable.contains dm then foundMember s a dm 2
  else if a.k.core = 256 ∧ (s.member a.ctx).snuffed then s.due (s.clk + 1) (.perform a.id)
  else sendPkt (s.setAccess { a with st := .remote dm 0 }) a.ctx (accessPkt s a dm sp pa)

/-- A place lies behind an outside port that is lost (R468). -/
def portLost (s : State) (l : Loc) : Bool :=
  let k := l.key
  if k / 2 ^ 80 = 3 then decide (tierPort k = 16) || !(s.switch (tierPort k)).tierUp
  else if k / 2 ^ 80 = 4 then (List.range 4).all fun i => Tab.get false s.platform.hostPorts i
  else false

/-- A stub page whose lifetime has ended (R372). -/
def stubDead (v : VD) (va : Nat) : Bool := v.stubs.any fun e => decide (e.1 = va / 4096 * 4096) && e.2.2
/-- A stub page that forwards (R372). -/
def stubLive (v : VD) (va : Nat) : Bool := v.stubs.any fun e => decide (e.1 = va / 4096 * 4096) && !e.2.2

/-! ### Packets from other dies (R324) -/

/-- A response to a packet's requester (R324): it goes out on P with the responder's clock, and the packet is applied. -/
def respond (s : State) (m : MemberId) (p : Pkt) (ty : Nat) (l : List Byte) (poison : Bool) : State :=
  appliedPkt (sendPkt s m { (Pkt.local m.member p.smem ty 0 0) with vc := 2, rtag := p.rtag, data := l, poison := poison, echo := p.mark }) m p

/-- Bytes a packet touches. -/
def servedSize (p : Pkt) : Nat :=
  match p.type with
  | 0x02 => p.lenm1 + 1
  | 0x01 => p.data.length
  | 0x07 => if p.opx = 2 then 16 else 8
  | _ => 8

/-- The bytes a WRITE leaves, from those of the packet and the old ones (R294). -/
def packetBytes (p : Pkt) (old new : List Byte) : List Byte :=
  if 128 ≤ p.opx then reduceBytes (some (p.opx / 16 % 4)) (p.opx % 16) old new else new
/-- A WRITE has been performed; the summary its job keeps takes its bytes (R294, R303). -/
def packetWritten (s : State) (m : MemberId) (p : Pkt) (new : List Byte) : State :=
  match originAccess s m p with
  | some a => match a.kind with
    | .copyOut h q _ _ _ => jobWrote s a.ctx h q new
    | _ => s
  | none => s
/-- A write of a packet at a place (R324). -/
def packetWrite (s : State) (m : MemberId) (p : Pkt) (l : Loc) : State :=
  let s := drainRange s l.die m l.key p.data.length
  let new := packetBytes p (memBytes s.mem l.key p.data.length) p.data
  packetWritten (countHeat (putAt s m l new) l new.length) m p new

/-- A read of a packet at a place. -/
def packetRead (s : State) (m : MemberId) (p : Pkt) (l : Loc) : State :=
  let n := p.lenm1 + 1
  let s := drainRange s l.die m l.key n
  respond (countHeat s l n) m p 0x03 (memBytes s.mem l.key n) (poisonAt s l.key n)

/-- The agent whose reduction a packet carries: the core of its origin (R98, R105). -/
def packetAgent (s : State) (m : MemberId) (p : Pkt) : Nat := match originAccess s m p with
  | some a => coreKey a.k + 1
  | none => 0
/-- An atomic of a packet at a place (R275): a reduction merges and returns nothing. -/
def packetAtomic (s : State) (m : MemberId) (p : Pkt) (l : Loc) : State :=
  let b := BitVec.ofNat 64 (ofBytes (p.data.take 8))
  let c := BitVec.ofNat 64 (ofBytes (p.data.drop 8))
  match actOn s m (packetAgent s m p) l (.amo (amoOfCode p.opx) (amoSizeOf p.opx) b c (decide (128 ≤ p.opx))) with
  | some (s, some (.s v)) => respond s m p 0x05 (toBytes 8 v.toNat) false
  | some (s, _) => appliedPkt s m p
  | none => respond s m p 0x05 [] true

/-- A memory packet acts on a place. -/
def servePlace (s : State) (m : MemberId) (p : Pkt) (l : Loc) : State :=
  match p.type with
  | 0x01 => packetWrite (appliedPkt s m p) m p l
  | 0x02 => packetRead s m p l
  | _ => packetAtomic s m p l

/-! ### Wide accesses in 16-byte parts (R107) -/

/-- The aligned 16-byte parts that n bytes from a key touch. -/
def partsOf (k n : Nat) : List Nat := List.range ((k + max n 1 - 1) / 16 - k / 16 + 1)
/-- Part i of n bytes from a key: where it begins among them, and how long it is. -/
def partSpan (k n i : Nat) : Nat × Nat :=
  let lo := max k ((k / 16 + i) * 16)
  (lo - k, min (k + n) ((k / 16 + i + 1) * 16) - lo)
/-- The place n bytes on. -/
def Loc.plus : Loc → Nat → Loc
  | .vault d a, n => .vault d (a + n)
  | .phys k, n => .phys (k + n)
/-- The place that has a key. -/
def keyLoc (k : Nat) : Loc := if k / 2 ^ 80 = 1 then .vault (k / 2 ^ 64 % 2 ^ 16) (k % 2 ^ 64) else .phys k

/-- Bytes an access touches where it acts. -/
def Access.width (a : Access) : Nat := match a.kind with
  | .served p => servedSize p
  | k => k.bytes
/-- A plain read or write, or a copy's (R294). -/
def AccKind.plain : AccKind → Bool
  | .loadV | .part _ _ _ _ | .fifoLoad _ _ _ | .store _ | .stm _ _ _ | .copyOut _ _ _ _ _ => true
  | .served p => decide (p.type = 0x01) || decide (p.type = 0x02)
  | _ => false
/-- The access is performed in parts (R107): it touches more than one, and is not one of a core to its own vault, all of which the port performs at the fixed
time of R87. -/
def isWide (a : Access) (l : Loc) : Bool :=
  a.kind.plain && decide (1 < (partsOf l.key a.width).length)
    && !(decide (a.k.core ≠ 256 ∧ eaSpace a.ea = 0 ∧ eaAddr a.ea / Config.vaultStride = a.k.core))

/-- An access whose poison is a fault of its own (R464). -/
def AccKind.poisonable : AccKind → Bool
  | .loadV | .part _ _ _ _ | .fifoLoad _ _ _ => true
  | .copyOut _ _ rop _ _ => rop.isSome
  | _ => false

/-- One part of a wide access is performed: x says where it begins and how long it is; the bytes it has read or left. -/
def actPart (s : State) (m : MemberId) (kind : AccKind) (l : Loc) (x : Nat × Nat) : State × List Byte :=
  let p := l.plus x.1
  let s := drainRange s p.die m p.key x.2
  let cut (b : List Byte) : List Byte := (b.drop x.1).take x.2
  let old := memBytes s.mem p.key x.2
  let put (b : List Byte) : State × List Byte := (putAt s m p b, b)
  match kind with
  | .store b => put (cut b)
  | .stm _ _ b => put (cut b)
  | .copyOut _ _ rop t b => put (reduceBytes rop t old (cut b))
  | .served q => if q.type = 0x01 then put (packetBytes q old (cut q.data)) else (s, old)
  | _ => (s, old)

/-- The bytes of parts, laid end to end. -/
def gotBytes (ps : List Nat) (got : List (Nat × List Byte)) : List Byte :=
  ps.flatMap fun i => ((got.find? fun e => decide (e.1 = i)).map (·.2)).getD []

/-- Every part has been performed: so is the access. -/
def wideEnd (s : State) (a : Access) (l : List Byte) (bad : Bool) : State :=
  match a.kind with
  | .loadV => performedAcc s a (some (.v allOnes (vecOf l)))
  | .store _ => performedAcc s a none
  | .stm _ _ _ => performedAcc s a none
  | .served p =>
    let s := s.dropAccess a.id
    if p.type = 0x01 then packetWritten (appliedPkt s a.ctx p) a.ctx p l else respond s a.ctx p 0x03 l bad
  | _ => performedAcc s a (some (.bytes l))

/-- Some of the parts that are left are performed, which is free, and the others in this clk or the next (R107). -/
def wideStep (s : State) (a : Access) (key : Nat) (left : List Nat) (got : List (Nat × List Byte)) : State :=
  let span (i : Nat) : Nat × Nat := partSpan key a.width i
  let bad (i : Nat) : Bool := poisoned s (key + (span i).1) (span i).2
  if a.kind.poisonable && left.any bad then foundFault s a 0x0F (poisonAddr s key (eaAddr a.ea) a.size)
  else
    let now := match left.filter (bitN (Config.freeChoice s.fresh)) with
      | [] => left.take 1
      | l => l
    let marks := if now.any bad then got ++ [(2 ^ 32, [])] else got
    let r := now.foldl (fun (r : State × List (Nat × List Byte)) i =>
      let x := actPart r.1 a.ctx a.kind (keyLoc key) (span i); (x.1, r.2 ++ [(i, x.2)])) (s.draw, marks)
    let rest := left.filter fun i => !now.contains i
    if rest.isEmpty then wideEnd r.1 a (gotBytes (partsOf key a.width) r.2) (r.2.any fun e => decide (e.1 = 2 ^ 32))
    else (r.1.setAccess { a with st := .parts key rest r.2 }).draw.due (r.1.clk + Config.freeChoice r.1.fresh % 2) (.perform a.id)

/-! ### Global accesses (R91, R100) -/

/-- The migration whose step 3 holds what an access does to n bytes from a key (R100): every write, atomic and reduction. -/
def holder (s : State) (write : Bool) (k n : Nat) : Option Migration :=
  if write then s.migrations.find? fun g => decide (g.step = 3 ∧ k < g.srcKey s + g.size ∧ g.srcKey s < k + max n 1) else none
/-- An access enters the hold buffer of a migration. -/
def holdAccess (s : State) (g : Migration) (a : Access) : State :=
  { s.setAccess (a.moved .held) with
    migrations := s.migrations.map fun x => if x = g ∧ !x.held.contains a.id then { x with held := x.held ++ [a.id] } else x }

/-- An access meets a lost outside port (R468): behind an expansion port a read finds poison, and a write is dropped; behind the host ports nothing
completes, for 50 ms. -/
def meetLostPort (s : State) (a : Access) (l : Loc) : State :=
  if l.key / 2 ^ 80 = 4 then s.due (max (s.clk + 1) (a.issue + 50 * 1000 * Config.us)) (.event .outsidePortTimeout { a := a.id })
  else if a.kind.write then foundMember s a a.member 2 else foundFault s a 0x0F (eaAddr a.ea)

/-- An access acts on a place: in parts, or as one event, unless a migration holds it or the port of the place is lost. -/
def actAt (s : State) (a : Access) (l : Loc) : State :=
  let va := eaAddr a.ea
  if portLost s l then meetLostPort s a l
  else match holder s a.kind.write l.key a.width with
    | some g => holdAccess s g a
    | none => match a.st with
      | .parts _ left got => wideStep s a l.key left got
      | _ =>
        if isWide a l then wideStep (countHeat s l a.width) a l.key (partsOf l.key a.width) []
        else match a.kind with
          | .served p => servePlace (s.dropAccess a.id) a.ctx p l
          | _ => match actOn s a.ctx (coreKey a.k + 1) l a.kind with
            | some (s', v) => performedAcc s' a v
            | none => foundFault s a 0x0F (poisonAddr s l.key va a.size)

/-- An access acts on the strike page of a VD (R76, R262).  A read through a stub gives the destination's value, which is free here (R372). -/
def actStrike (s : State) (a : Access) (vd : Nat) : State :=
  let va := eaAddr a.ea
  if stubDead (s.vd vd) (s.vd vd).strikeVa then foundMember s a a.member 3
  else if (s.vd vd).movedTo.isSome && !a.kind.write then
    match a.kind with
    | .load n _ => performedAcc s.draw a (some (.s (BitVec.ofNat 64 (Config.freeValue s.fresh % 2 ^ (8 * n)))))
    | _ => performedAcc s.draw a (some (.v allOnes (BitVec.ofNat 2048 (Config.freeValue s.fresh))))
  else match a.kind with
  | .load n sx =>
    let v := BitVec.ofNat 64 ((s.vd vd).state.code / 2 ^ (8 * (va % 8)) % 2 ^ (8 * n))
    performedAcc s a (some (.s (if sx then sextN (8 * n) v else v)))
  | .loadV => performedAcc s a (some (.v allOnes (BitVec.ofNat 2048 (if va % 4096 = 0 then (s.vd vd).state.code else 0))))
  | .store _ => performedAcc (strikeVd s vd) a none
  | .sig _ => performedAcc (strikeVd s vd) a none
  | _ => foundFault s a 0x09 va

/-- A global access acts at an address its translation gives (R91, R93); what a load from a strike page reads beside the page's first dword is the model's
choice (log 53). -/
def performGlobal (s : State) (a : Access) : State :=
  let va := eaAddr a.ea
  let w := a.kind.write
  let t := tlbUse s a.k a.slot a.vd va w
  if dieTlbOnly s a.k a.slot a.vd va w then t.due (s.clk + 12) (.perform a.id)
  else match translate s a.k a.ctx a.slot w va with
  | .fault c => foundFault s a c va
  | .miss => startWalk (s.setAccess (a.moved .walk)) a.k.die a.vd va w a.id
  | .remote dm pa => sendRemote t a dm 1 pa
  | .strike => actStrike t a (match findLeaf (s.vd a.vd) va with
      | some (_, e) => ptPa e / 4096
      | none => a.vd)
  | .loc l => actAt t a l

/-- The byte of this die's HBM that a packet names, or of the tier once a migration has moved its page there (R100). -/
def servedKey (a : Access) : Nat :=
  let x := a.ea.toNat % 2 ^ 62
  if x / 2 ^ 60 = 1 then tierKey (x % 2 ^ 60) else hbmKey a.k.die x

/-- A packet acts on a V-address of this die whose granule is resident. -/
def servePkt (s : State) (a : Access) (p : Pkt) (d va : Nat) : State :=
  let m := a.ctx
  match p.type with
  | 0x01 | 0x02 | 0x04 => actAt s a (.vault d va)
  | _ =>
    if p.opx = 1 then
      if Tab.get false s.fe (vaultKey d va) then
        (s.setAccess { a with st := .queued }).modDie d fun t => { t with queues := Tab.put [] t.queues va (Tab.get [] t.queues va ++ [a.id]) }
      else serve (appliedPkt (endFillPkt (feAct (s.dropAccess a.id) m d va .fill (BitVec.ofNat 64 (ofBytes p.data))).1 m va p) m p) d va
    else appliedPkt (barrierAct (s.dropAccess a.id) m d va .arr (BitVec.ofNat 64 (ofBytes p.data))) m p

/-- A vault access of the core's die acts at its port (R86, R87). -/
def performVault (s : State) (a : Access) : State :=
  let d := a.k.die
  let va := eaAddr a.ea
  if !vaultOk s a.ctx va (max a.size 1) then foundFault s a 0x0A va
  else match waitFirst s a va with
    | some s => s
    | none =>
      match a.kind with
      | .fe _ _ | .fill _ _ => arriveQueued s a d va
      | .bar .wait _ => arriveQueued s a d va
      | .bar op v => performedAcc (barrierAct s a.ctx d va op v) a none
      | .served p => servePkt s a p d va
      | .entry l =>
        let s := performedAcc (putAt s a.ctx (.vault d va) l) a none
        s.modCore a.k fun c => { c with entry := false, next := schedOf s c + 8 }
      | _ => actAt s a (.vault d va)

/-- An earlier access of the core is not yet performed (R104). -/
def earlierOpen (s : State) (a : Access) : Bool :=
  s.accesses.any fun b => decide (b.k = a.k ∧ b.vd = a.vd ∧ b.member = a.member ∧ b.id < a.id) && !b.performed

/-- Barrier arrivals and signal writes are held until every earlier access of the core has been performed (R306, R310). -/
def heldRelease (s : State) (a : Access) : Bool :=
  decide (a.k.core ≠ 256) && (match a.kind with | .bar .arr _ => true | .sig _ => true | .fill _ 0 => true | _ => false) && earlierOpen s a

/-- The events of work that an A op starts follow every earlier store of the core (R104, R290); jobs and tasks keep the list of those stores. -/
def heldWork (s : State) (a : Access) : Bool :=
  (match a.kind with | .ifill _ _ => true | .bar .init _ => true | .bar .exp _ => true | .sred _ _ _ _ => true | _ => false) && !(openStores s a).isEmpty

/-- A job that core k issued before its last fence.c has reads of the core's own vault still to make (R105). -/
def jobReads (s : State) (k : CoreId) (m : MemberId) : Bool :=
  (s.member m).jobs.any fun e => match e.2 with
    | some j =>
      let lo := k.core * Config.vaultStride
      decide (j.core = k.core ∧ j.born < (s.core k).fenceC ∧ cardSsp j.card = 0 ∧ cardSmem j.card = m.member
          ∧ cardSaddr j.card < lo + Config.vaultStride ∧ lo < cardSaddr j.card + cardLen j.card)
        && (match j.st with | .finishing _ => false | _ => true)
        && (decide (cardKind j.card = 2 ∨ j.issued < cardChunks j.card) || s.accesses.any fun b => match b.kind with
            | .chunk h _ => decide (b.ctx = m ∧ h = e.1)
            | _ => false)
    | none => false
/-- A write of the own vault follows such reads. -/
def heldFence (s : State) (a : Access) : Bool :=
  decide (a.k.core ≠ 256 ∧ 0 < (s.core a.k).fenceC ∧ eaSpace a.ea = 0 ∧ eaAddr a.ea / Config.vaultStride = a.k.core) && a.kind.write && jobReads s a.k a.ctx

/-- The bytes an access touches: the key of the first, and how many; none for requests, and for accesses made of parts (R102). -/
def accSpan (s : State) (a : Access) : Option (Nat × Nat) :=
  let va := eaAddr a.ea
  let n := max a.size 1
  let at_ : Option (Nat × Nat) :=
    if eaSpace a.ea = 0 then
      some (vaultKey (match a.st with | .remote dm _ => (s.member ⟨a.vd, dm⟩).die | _ => a.k.die) va, n)
    else if eaSpace a.ea = 1 then
      match findLeaf (s.vd a.vd) va with
      | some (lv, e) =>
        let sp := leafSpan lv va e
        match leafTarget s a.ctx a.kind.write ⟨a.vd, sp.1, sp.2, e⟩ va with
        | .loc l => some (l.key, n)
        | .remote m pa => some (hbmKey (s.member ⟨a.vd, m⟩).die pa, n)
        | _ => none
      | none => none
    else none
  match a.kind with
  | .load _ _ | .loadV | .store _ | .fe _ _ | .fill _ _ | .amo _ _ _ _ _ | .bar _ _ | .part _ _ _ _ | .sig _ | .stm _ _ _ | .mstore _ | .entry _ => at_
  | _ => none

/-- An earlier access of the core to a byte this one touches is not yet performed (R104): this one follows it. -/
def heldBehind (s : State) (a : Access) : Bool :=
  decide (a.k.core ≠ 256) &&
    match accSpan s a with
    | none => false
    | some (x, n) =>
      s.accesses.any fun b =>
        decide (b.k = a.k ∧ b.vd = a.vd ∧ b.member = a.member ∧ b.id < a.id) && !b.performed &&
          (match accSpan s b with | some (y, m) => decide (x < y + m) && decide (y < x + n) | none => false)

/-- The first beat that needs one of the bytes lo to hi of rows laid end to end from byte x (R259); 255 stands for none. -/
def firstBeat : List RowSpec → Nat → Nat → Nat → Nat
  | [], _, _, _ => 255
  | r :: t, x, lo, hi =>
    let here := if lo < x + r.n ∧ x < hi then (if r.per = 0 then r.j0 else r.j0 + (lo - x) / r.per) else 255
    min here (firstBeat t (x + r.n) lo hi)
/-- The same for the section of an M op whose parts begin at number i. -/
def fifoBeat (m : MOp) (i lo hi : Nat) : Nat :=
  let split := sectionSplit 0 (mopSections m) 0
  let n := (List.range split.length).find? fun q => ((split.take q).map (·.length)).sum = i ∧ !(split.getD q []).isEmpty
  firstBeat ((mopSections m).getD (n.getD 0) (StreamReg.zero, [])).2 0 lo hi

/-- Pull bytes of a stream from a port FIFO (R249, R282); the bytes of the last element past the stream's end are dropped with it (log 41). -/
def pullFifo (s : State) (a : Access) (parent i n k : Nat) (got : List Byte) : State :=
  let f := (s.core a.k).fifo k
  let need := (n - got.length + f.esz - 1) / f.esz
  let base := match s.access parent with
    | some p => match p.kind, p.dest with
      | .ldt _ _ d, _ => some d.base
      | .vldt _ _ _, .rs b => some b
      | _, _ => none
    | none => none
  let new (l : List Vec) : List Byte := (l.flatMap f.bytesOf).take (n - got.length)
  -- elements whose bytes meet a fixed-latency result in this clk stay in the FIFO for one clk more (R264)
  let take := match base with
    | some b => if bytesClash s a.k (b + got.length) ((new (f.inn.take need)).map some) then [] else f.inn.take need
    | none => f.inn.take need
  let s := match base with
    | some b => s.modCore a.k fun c => c.rsPut (b + got.length) (new take)
    | none => s
  let s := match s.access parent with
    | some p => match p.kind with
      | .mfetch rid => s.modCore a.k fun c => { c with mops := c.mops.map fun m =>
          if m.rid = rid then { m with arrive := max m.arrive (s.clk + (m.beats - 1 - fifoBeat m i got.length (got.length + take.length * f.esz))) } else m }
      | _ => s
    | none => s
  let got := got ++ take.flatMap f.bytesOf
  let s := if take.isEmpty then s
    else wantFetch (s.modCore a.k fun c => c.setFifo k { f with inn := f.inn.drop take.length }) a.k k
  if n ≤ got.length then depositPart s a parent i 255 (got.take n)
  else (s.setAccess { a with kind := .fifoPart parent i n k got }).due (s.clk + 1) (.perform a.id)

/-- The access gathers parts: its parts are the events. -/
def AccKind.gathers : AccKind → Bool
  | .mfetch _ => true | .ldt _ _ _ => true | .vldt _ _ _ => true | .ifill _ _ => true | .chunk _ _ => true
  | _ => false

/-- The address is in the own die's HBM (R105). -/
def ownHbm (s : State) (a : Access) : Bool :=
  match findLeaf (s.vd a.vd) (eaAddr a.ea) with
  | some (_, e) => decide (ptTgt e = 0 ∧ ptMember e = a.member)
  | none => false

/-- An access a fence of a scope waits for (R105). -/
def fenceCovers (s : State) (scope : Nat) (b : Access) : Bool :=
  let away : Bool := match b.st with | .remote _ _ => true | _ => false
  match scope with
  | 0 => !b.kind.gathers && !away && decide (eaSpace b.ea = 0 ∧ eaAddr b.ea / Config.vaultStride = b.k.core) && decide (b.rid = 0)
  | 1 => !b.kind.gathers && !away && (decide (eaSpace b.ea = 0) || (decide (eaSpace b.ea = 1) && ownHbm s b))
  | _ => true

/-- A fence acts once the accesses it waits for have been performed; fence.d and fence.g drain the core's reductions, fence.g those in the queues of
other dies and of the outside ports too (R98, R105). -/
def performFence (s : State) (a : Access) (scope : Nat) : State :=
  if s.accesses.any fun b => decide (b.k = a.k ∧ b.vd = a.vd ∧ b.member = a.member ∧ b.id < a.id) && !b.performed && fenceCovers s scope b then
    (s.setAccess { a with st := .release }).due (s.clk + 1) (.perform a.id)
  else
    let agent := coreKey a.k + 1
    let ds := match scope with
      | 0 => []
      | 1 => [a.k.die]
      | _ => (0 :: (s.vd a.vd).dies).eraseDups
    let s := if scope = 0 then s.modCore a.k fun c => { c with fenceC := a.id } else s
    performedAcc (ds.foldl (fun s d => drainAgent s d a.ctx agent) s) a none

/-- An access acts at its point, by its kind and its address (R102); a packet names a place of HBM by space 2. -/
def performKind (s : State) (a : Access) : State :=
  match a.kind with
  | .mstore _ | .fpush _ => s
  | .mfetch _ | .ldt _ _ _ | .vldt _ _ _ | .ifill _ _ | .chunk _ _ => startGather s a
  | .fifoPart parent i n k got => pullFifo s a parent i n k got
  | .fence scope => performFence s a scope
  | .card c _ | .trig _ _ c _ =>
    match (if eaSpace a.ea = 0 then waitFirst s a (eaAddr a.ea) else none) with
    | some s => s
    | none =>
      match (if (recFp (c.getD 3 0)).isSome then waitFirst s a (cardList c 0) else none) with
      | some s => s
      | none => performRequest s a
  | .spawn _ _ | .wdraw _ | .jobq _ | .heat | .mig _ | .pref _ | .sred _ _ _ _ => performRequest s a
  | _ =>
    if eaSpace a.ea = 0 then performVault s a
    else if eaSpace a.ea = 3 then sendRemote s a (eaAddr a.ea / 2 ^ 52) 0 (eaAddr a.ea % 2 ^ 52)
    else if eaSpace a.ea = 2 then actAt s a (.phys (servedKey a))
    else performGlobal s a

/-- Access `id` reaches its point (R102): one that has not acted there before follows what R104, R105, R290, R306 and R310 put before it; the parts of a wide
access that are left stay at the place that its translation gave (R95, R107). -/
def performId (s : State) (id : Nat) : State :=
  match s.access id with
  | none => s
  | some a =>
    match a.st with
    | .done _ => s
    | .queued => performKind s a
    | .parts key _ _ => if eaSpace a.ea ≠ 0 then actAt s a (keyLoc key) else performKind s a
    | _ =>
      if heldRelease s a || heldBehind s a || heldWork s a || heldFence s a then (s.setAccess { a with st := .release }).due (s.clk + 1) (.perform id)
      else performKind s a

/-- A result that lands in this clk overlaps a destination (R264). -/
def landClash (s : State) (a : Access) (v : Val) : Bool :=
  let c := s.core a.k
  c.results.any fun r => decide (r.due = schedOf s c) && clash a.dest v r.dest r.val

/-- An earlier element of the load stream of FIFO i of a core has not come: the elements enter the in side in order (R284). -/
def earlierElement (s : State) (k : CoreId) (i n : Nat) : Bool :=
  s.accesses.any fun b => match b.kind with
    | .fifoLoad j m _ => decide (b.k = k ∧ j = i ∧ m < n)
    | _ => false

/-- TAGGED_RESULT_LAND (R176, R264): the data of a performed access land and its tag becomes ready; one clk later when a fixed-latency
result lands on the destination now. -/
def taggedLand (s : State) (id : Nat) : Option State :=
  match s.access id with
  | none => none
  | some a =>
    match a.st with
    | .done v =>
      match a.kind, v with
      | .part parent i _ j, .bytes l =>
        if partClash s parent i l then some (s.due (s.clk + 1) (.event .taggedResultLand { k := a.k, a := id }))
        else some (depositPart s a parent i j l)
      | .fifoLoad k n _, .bytes l =>
        if earlierElement s a.k k n then some (s.due (s.clk + 1) (.event .taggedResultLand { k := a.k, a := id }))
        else
        let s := s.dropAccess id
        some (wantFetch (s.modCore a.k fun c =>
          let f := c.fifo k
          if n < f.n then c.setFifo k { f with inn := f.inn ++ [vecOf l], asked := f.asked - 1 } else c) a.k k)
      | _, _ =>
        if landClash s a v then some (s.due (s.clk + 1) (.event .taggedResultLand { k := a.k, a := id }))
        else some ((landVal (s.dropAccess id) a.k a.dest v).modCore a.k fun c =>
          match a.kind with
          | .mfetch rid => { c.ready a.tag with mops := c.mops.filter fun m => decide (m.rid ≠ rid) }
          | _ => c.ready a.tag)
    | _ => none

/-- The place of a part of a wide access, when it is on this die or behind its ports. -/
def partLoc (s : State) (a : Access) : Option Loc :=
  if eaSpace a.ea = 0 then some (.vault a.k.die (eaAddr a.ea))
  else match translate s a.k a.ctx a.slot false (eaAddr a.ea) with
    | .loc l => some l
    | _ => none

/-- A part of an ifill has met poison: its bundles are written with their error (R463, R464), since no A op traps later (R390). -/
def fillPoisoned (s : State) (a p : Access) (i n j : Nat) : State :=
  let q0 := (eaAddr a.ea - eaAddr p.ea) / 64
  let bad (q : Nat) : Bool := match partLoc s a with
    | some l => poisoned s (l.key + 64 * q) 64
    | none => true
  let marks := ((List.range (n / 64)).filter bad).map fun q => (poisonMark (q0 + q), ([] : List Byte))
  let bytes := match partLoc s a with
    | some l => memBytes s.mem l.key n
    | none => List.replicate n 0
  let s := match p.st with
    | .gather left got => s.setAccess { p with st := .gather left (got ++ marks) }
    | _ => s
  depositPart s a p.id i j bytes

/-- An access belongs to an A op, which raises no trap once it has issued (R390). -/
def isFill (a : Access) : Bool := match a.kind with | .ifill _ _ => true | _ => false

/-- DEFERRED_FAULT_FOUND (R288, R389): the access takes no effect, its tag is set ready, and the trap waits for the boundary. -/
def deferredFault (s : State) (id cause : Nat) (v : Dword) : Option State :=
  match s.access id with
  | none => none
  | some a =>
    let kill (s : State) (a : Access) : State :=
      (s.dropAccess a.id).modCore a.k fun c =>
        let c := c.unwait a.id
        let c := if a.tag = 0 then c else c.ready a.tag
        { c with results := c.results.filter fun r => decide (a.rid = 0 ∨ r.rid ≠ a.rid),
                 mops := match a.kind with
                   | .mfetch rid => c.mops.map fun m => if m.rid = rid then { m with dead := true, fetched := true } else m
                   | _ => c.mops,
                 entry := match a.kind with | .entry _ => false | _ => c.entry }
    let parent : Option Access := match a.kind with
      | .part q _ _ _ => s.access q
      | _ => none
    match a.kind, parent with
    | .part _ i n j, some p => if isFill p && decide (cause = 0x0F) then some (fillPoisoned s a p i n j) else some (fail s a parent kill)
    | _, _ => some (fail s a parent kill)
where
  /-- The access and what it belongs to take no effect; the trap follows at the boundary. -/
  fail (s : State) (a : Access) (parent : Option Access) (kill : State → Access → State) : State :=
    let s := kill s a
    let s := match a.kind with
      | .part parent _ _ _ =>
        let s := match s.access parent with
          | some p => kill s p
          | none => s
        { s with accesses := s.accesses.filter fun b => match b.kind with
            | .part q _ _ _ => decide (q ≠ parent)
            | .fifoPart q _ _ _ _ => decide (q ≠ parent)
            | _ => true }
      | .store _ | .fill _ 0 =>
        -- the other writes of an msdt are not made either, and its word is not filled (R261)
        if a.slot = 3 then { s with accesses := s.accesses.filter fun b => !(decide (b.k = a.k ∧ b.slot = 3 ∧ b.pc = a.pc ∧ b.issue = a.issue)
            && !b.performed && (match b.kind with | .store _ => true | .fill _ 0 => true | _ => false)) }
        else s
      | .fifoLoad i n _ =>
        -- no later element of the load stream is fetched: the counter of fetches under way stays above 16
        { s with accesses := s.accesses.filter fun b => match b.kind with
            | .fifoLoad j m _ => !decide (b.k = a.k ∧ j = i ∧ n < m)
            | _ => true }.modCore a.k fun c => c.setFifo i { c.fifo i with asked := 32 }
      | _ => s
    if a.vd = (s.ctxD a.k).vd ∧ a.member = (s.ctxD a.k).member ∧ !(parent.map isFill).getD (a.slot = 5) then
      raiseTrap s a.k ⟨.D, cause, a.pc, v, a.slot, a.issue⟩
    else s

/-- An access of the die's engines has met a fault (R450): its job aborts; a packet's origin fails and the packet counts as applied (R449). -/
def engineFault (s : State) (a : Access) (cause : Nat) (v : Dword) : State :=
  match a.kind with
  | .part p _ _ _ =>
    match s.access p with
    | some b => match b.kind with
      | .chunk h q => failChunk s a.ctx h q cause v
      | _ => s.dropAccess a.id
    | none => s.dropAccess a.id
  | .copyOut h q _ _ _ => failChunk s a.ctx h q cause v
  | .served p =>
    let s := match originAccess s a.ctx p with
      | some b => match b.kind with
        | .stm _ _ _ => stmFail s b
        | _ => s.after 0 .deferredFaultFound { a := b.id, b := cause, v := v }
      | none => s
    appliedPkt (s.dropAccess a.id) a.ctx p
  | .fill _ owner =>
    let m' : MemberId := ⟨a.vd, if a.ea.toNat / 2 ^ 62 = 3 then a.ea.toNat % 2 ^ 62 / 2 ^ 52 else a.member⟩
    fillDone (endFill (s.dropAccess a.id) m' (a.ea.toNat % 2 ^ 52) a.member owner) a.ctx owner
  | .sig _ => engineNext ((s.dropAccess a.id).report
      { kind := 2, code := 7, vd := a.vd, member := a.member, core := 0xFFFF, clk := s.clk, args := [0xFF, eaAddr a.ea, cause, 0xFF] }) a
  | _ => engineNext (s.dropAccess a.id) a

end Sys2Proof.Machine
end

