-- ==== Sys2Proof/Machine/Scalar.lean ====
section
/-!
DEFINITION. Scalar.lean: the S ops of R192 to R196: integer arithmetic, logic, shifts, counts, addressing and predicates.
-/
namespace Sys2Proof.Machine

/-- An op that computes one fixed-latency 64-bit value from its core (R190, R191). -/
def valOp (sl : Slot) (h : Head) (w : Nat) (wf : Bool) (rd : List Operand) (lat : Nat) (d : Dest) (f : Core → Dword) : OpSem :=
  { slot := sl, head := h, word := w, wf := wf, reads := rd, outs := fun s _ => [(lat, d, .s (f (s.core s.focus)))], latch := some lat,
    latchVal := fun s _ => .s (f (s.core s.focus)) }

/-- An S op on A and B. -/
def alu2 (opc : Nat) (o : Q4) (wf : Bool) (lat : Nat) (f : Dword → Dword → Dword) : OpSem :=
  valOp .S o.h (q4Word opc o) wf [o.a, o.b] lat (sDest 0 o.d) fun c => f (readS c 0 o.a) (readS c 0 o.b)
/-- An S op on A. -/
def alu1 (opc : Nat) (o : Q4) (wf : Bool) (f : Dword → Dword) : OpSem :=
  valOp .S o.h (q4Word opc o) wf [o.a] 1 (sDest 0 o.d) fun c => f (readS c 0 o.a)

/-! ### Arithmetic (R192, R193) -/

/-- add. -/
def semAdd (o : Q4) : OpSem := alu2 0x01 o (wellFormed (.add o)) 1 (· + ·)
/-- sub. -/
def semSub (o : Q4) : OpSem := alu2 0x02 o (wellFormed (.sub o)) 1 (· - ·)
/-- addi. -/
def semAddi (o : I28) : OpSem :=
  valOp .S o.h (i28Word 0x03 o) (wellFormed (.addi o)) [o.a] 1 (sDest 0 o.d) fun c => readS c 0 o.a + BitVec.signExtend 64 o.imm
/-- mul. -/
def semMul (o : Q4) : OpSem := alu2 0x04 o (wellFormed (.mul o)) 3 (· * ·)
/-- Bits 127:64 of the signed product. -/
def mulHighS (a b : Dword) : Dword := BitVec.ofInt 64 (a.toInt * b.toInt / 2 ^ 64)
/-- Bits 127:64 of the unsigned product. -/
def mulHighZ (a b : Dword) : Dword := BitVec.ofNat 64 (a.toNat * b.toNat / 2 ^ 64)
/-- mulh.s. -/
def semMulhS (o : Q4) : OpSem := alu2 0x05 o (wellFormed (.mulhS o)) 3 mulHighS
/-- mulh.z. -/
def semMulhZ (o : Q4) : OpSem := alu2 0x06 o (wellFormed (.mulhZ o)) 3 mulHighZ

/-- Quotient and remainder of the divide ops (R193), signed or not. -/
def divRem (signed : Bool) (n d : Dword) : Dword × Dword :=
  if d = 0 then (allOnes, n)
  else if signed then (BitVec.ofInt 64 (n.toInt.tdiv d.toInt), BitVec.ofInt 64 (n.toInt.tmod d.toInt))
  else (BitVec.ofNat 64 (n.toNat / d.toNat), BitVec.ofNat 64 (n.toNat % d.toNat))

/-- A divide by zero traps (R193, R206). -/
def divTraps (c : Core) (o : Q4) : Bool := decide (readS c 0 o.b = 0) && c.trapen.getLsbD 0

/-- A divide op: the divider is busy 20 clk; a trapping one writes nothing (cause 0x06). -/
def divOp (opc : Nat) (o : Q4) (wf : Bool) (f : Dword → Dword → Dword) : OpSem :=
  { alu2 opc o wf 20 f with
    unit := some 6, beats := 20,
    late := fun s => if divTraps (s.core s.focus) o then some (0x06, readS (s.core s.focus) 0 o.a) else none }
/-- div.s. -/
def semDivS (o : Q4) : OpSem := divOp 0x07 o (wellFormed (.divS o)) fun n d => (divRem true n d).1
/-- div.z. -/
def semDivZ (o : Q4) : OpSem := divOp 0x08 o (wellFormed (.divZ o)) fun n d => (divRem false n d).1
/-- rem.s. -/
def semRemS (o : Q4) : OpSem := divOp 0x09 o (wellFormed (.remS o)) fun n d => (divRem true n d).2
/-- rem.z. -/
def semRemZ (o : Q4) : OpSem := divOp 0x0A o (wellFormed (.remZ o)) fun n d => (divRem false n d).2

/-! ### Logic, shifts, counts, addressing (R194) -/

/-- A shift count: val(B)<5:0>. -/
def shiftCount (b : Dword) : Nat := b.toNat % 64
/-- Leading zero bits, 0 to 64. -/
def clz64 (v : Dword) : Dword := BitVec.ofNat 64 (if v = 0 then 64 else 63 - Nat.log2 v.toNat)
/-- One bits, 0 to 64. -/
def popc64 (v : Dword) : Dword := BitVec.ofNat 64 ((List.range 64).countP fun i => v.getLsbD i)
/-- Extension of bits n−1:0 (R194, R403): n = 0 gives 0, n above 64 the value. -/
def extendBits (signed : Bool) (v n : Dword) : Dword :=
  if n = 0 then 0 else if 64 < n.toNat then v else if signed then sextN n.toNat v else zextN n.toNat v

/-- and. -/
def semAnd (o : Q4) : OpSem := alu2 0x10 o (wellFormed (.and o)) 1 (· &&& ·)
/-- or. -/
def semOr (o : Q4) : OpSem := alu2 0x11 o (wellFormed (.or o)) 1 (· ||| ·)
/-- xor. -/
def semXor (o : Q4) : OpSem := alu2 0x12 o (wellFormed (.xor o)) 1 (· ^^^ ·)
/-- andn. -/
def semAndn (o : Q4) : OpSem := alu2 0x13 o (wellFormed (.andn o)) 1 fun a b => a &&& ~~~b
/-- shl. -/
def semShl (o : Q4) : OpSem := alu2 0x14 o (wellFormed (.shl o)) 1 fun a b => a <<< shiftCount b
/-- shr. -/
def semShr (o : Q4) : OpSem := alu2 0x15 o (wellFormed (.shr o)) 1 fun a b => a >>> shiftCount b
/-- sar. -/
def semSar (o : Q4) : OpSem := alu2 0x16 o (wellFormed (.sar o)) 1 fun a b => a.sshiftRight (shiftCount b)
/-- rotr. -/
def semRotr (o : Q4) : OpSem := alu2 0x17 o (wellFormed (.rotr o)) 1 fun a b => a.rotateRight (shiftCount b)
/-- min.s. -/
def semMinS (o : Q4) : OpSem := alu2 0x18 o (wellFormed (.minS o)) 1 fun a b => if b.slt a then b else a
/-- min.z. -/
def semMinZ (o : Q4) : OpSem := alu2 0x19 o (wellFormed (.minZ o)) 1 fun a b => if b.ult a then b else a
/-- max.s. -/
def semMaxS (o : Q4) : OpSem := alu2 0x1A o (wellFormed (.maxS o)) 1 fun a b => if a.slt b then b else a
/-- max.z. -/
def semMaxZ (o : Q4) : OpSem := alu2 0x1B o (wellFormed (.maxZ o)) 1 fun a b => if a.ult b then b else a
/-- clz. -/
def semClz (o : Q4) : OpSem := alu1 0x1C o (wellFormed (.clz o)) clz64
/-- popc. -/
def semPopc (o : Q4) : OpSem := alu1 0x1D o (wellFormed (.popc o)) popc64
/-- sext. -/
def semSext (o : Q4) : OpSem := alu2 0x20 o (wellFormed (.sext o)) 1 (extendBits true)
/-- zext. -/
def semZext (o : Q4) : OpSem := alu2 0x21 o (wellFormed (.zext o)) 1 (extendBits false)
/-- li. -/
def semLi (o : I42) : OpSem :=
  valOp .S o.h (i42Word 0x22 o) (wellFormed (.li o)) [] 1 (sDest 0 o.d) fun _ => BitVec.signExtend 64 o.imm
/-- lea. -/
def semLea (o : Q4) : OpSem :=
  valOp .S o.h (q4Word 0x23 o) (wellFormed (.lea o)) [o.a, o.b, o.c] 1 (sDest 0 o.d) fun c =>
    readS c 0 o.a + (readS c 0 o.b <<< ((readS c 0 o.c).toNat % 8))
/-- sel. -/
def semSel (o : Q4) : OpSem :=
  valOp .S o.h (q4Word 0x24 o) (wellFormed (.sel o)) [o.a, o.b] 1 (sDest 0 o.d) fun c =>
    if (readPred c o.c).getLsbD 0 then readS c 0 o.a else readS c 0 o.b

/-! ### Predicates (R195, R196) -/

/-- Comparison codes (R196). -/
def compareCode (cc : Nat) (a b : Dword) : Bool :=
  match cc with
  | 0 => a == b
  | 1 => a != b
  | 2 => a.slt b
  | 3 => !a.slt b
  | 4 => a.ult b
  | 5 => !a.ult b
  | 6 => !b.slt a
  | 7 => b.slt a
  | 8 => !b.ult a
  | _ => b.ult a
/-- A scalar comparison's mask: 64 ones or zeros. -/
def fillMask (b : Bool) : Dword := if b then allOnes else 0

/-- pcmp. -/
def semPcmp (o : Q4) : OpSem :=
  valOp .S o.h (q4Word 0x28 o) (wellFormed (.pcmp o)) [o.a, o.b] 1 (.p o.d.ix) fun c =>
    fillMask (compareCode (o.c.ix % 16) (readS c 0 o.a) (readS c 0 o.b))
/-- pcmpi. -/
def semPcmpi (o : I28) : OpSem :=
  valOp .S o.h (i28Word 0x29 o) (wellFormed (.pcmpi o)) [o.a] 1 (.p o.d.ix) fun c =>
    fillMask (compareCode (o.imm.toNat / 2 ^ 24) (readS c 0 o.a) (BitVec.signExtend 64 (BitVec.ofNat 24 o.imm.toNat)))
/-- Predicate logic. -/
def predOp (opc : Nat) (o : Q4) (wf : Bool) (f : Dword → Dword → Dword) : OpSem :=
  valOp .S o.h (q4Word opc o) wf [] 1 (.p o.d.ix) fun c => f (readPred c o.a) (readPred c o.b)
/-- pand. -/
def semPand (o : Q4) : OpSem := predOp 0x2A o (wellFormed (.pand o)) (· &&& ·)
/-- por. -/
def semPor (o : Q4) : OpSem := predOp 0x2B o (wellFormed (.por o)) (· ||| ·)
/-- pxor. -/
def semPxor (o : Q4) : OpSem := predOp 0x2C o (wellFormed (.pxor o)) (· ^^^ ·)
/-- pnot. -/
def semPnot (o : Q4) : OpSem := predOp 0x2D o (wellFormed (.pnot o)) fun a _ => ~~~a
/-- pmov pd, a. -/
def semPmovToPred (o : Q4) : OpSem :=
  valOp .S o.h (q4Word 0x2E o) (wellFormed (.pmovToPred o)) [o.a] 1 (.p o.d.ix) fun c => readS c 0 o.a
/-- pmov xd, pa. -/
def semPmovFromPred (o : Q4) : OpSem :=
  valOp .S o.h (q4Word 0x2E o) (wellFormed (.pmovFromPred o)) [] 1 (sDest 0 o.d) fun c => readPred c o.a

/-! ### The meanings: each op issued alone -/

/-- ADD issues alone (R192). -/
def execAdd (o : Q4) (s : State) : Outcome := runOne (semAdd o) s
/-- SUB issues alone (R192). -/
def execSub (o : Q4) (s : State) : Outcome := runOne (semSub o) s
/-- ADDI issues alone (R192). -/
def execAddi (o : I28) (s : State) : Outcome := runOne (semAddi o) s
/-- MUL issues alone (R192). -/
def execMul (o : Q4) (s : State) : Outcome := runOne (semMul o) s
/-- MULH_S issues alone (R192). -/
def execMulhS (o : Q4) (s : State) : Outcome := runOne (semMulhS o) s
/-- MULH_Z issues alone (R192). -/
def execMulhZ (o : Q4) (s : State) : Outcome := runOne (semMulhZ o) s
/-- DIV_S issues alone (R193). -/
def execDivS (o : Q4) (s : State) : Outcome := runOne (semDivS o) s
/-- DIV_Z issues alone (R193). -/
def execDivZ (o : Q4) (s : State) : Outcome := runOne (semDivZ o) s
/-- REM_S issues alone (R193). -/
def execRemS (o : Q4) (s : State) : Outcome := runOne (semRemS o) s
/-- REM_Z issues alone (R193). -/
def execRemZ (o : Q4) (s : State) : Outcome := runOne (semRemZ o) s
/-- AND issues alone (R194). -/
def execAnd (o : Q4) (s : State) : Outcome := runOne (semAnd o) s
/-- OR issues alone (R194). -/
def execOr (o : Q4) (s : State) : Outcome := runOne (semOr o) s
/-- XOR issues alone (R194). -/
def execXor (o : Q4) (s : State) : Outcome := runOne (semXor o) s
/-- ANDN issues alone (R194). -/
def execAndn (o : Q4) (s : State) : Outcome := runOne (semAndn o) s
/-- SHL issues alone (R194). -/
def execShl (o : Q4) (s : State) : Outcome := runOne (semShl o) s
/-- SHR issues alone (R194). -/
def execShr (o : Q4) (s : State) : Outcome := runOne (semShr o) s
/-- SAR issues alone (R194). -/
def execSar (o : Q4) (s : State) : Outcome := runOne (semSar o) s
/-- ROTR issues alone (R194). -/
def execRotr (o : Q4) (s : State) : Outcome := runOne (semRotr o) s
/-- MIN_S issues alone (R194). -/
def execMinS (o : Q4) (s : State) : Outcome := runOne (semMinS o) s
/-- MIN_Z issues alone (R194). -/
def execMinZ (o : Q4) (s : State) : Outcome := runOne (semMinZ o) s
/-- MAX_S issues alone (R194). -/
def execMaxS (o : Q4) (s : State) : Outcome := runOne (semMaxS o) s
/-- MAX_Z issues alone (R194). -/
def execMaxZ (o : Q4) (s : State) : Outcome := runOne (semMaxZ o) s
/-- CLZ issues alone (R194). -/
def execClz (o : Q4) (s : State) : Outcome := runOne (semClz o) s
/-- POPC issues alone (R194). -/
def execPopc (o : Q4) (s : State) : Outcome := runOne (semPopc o) s
/-- SEXT issues alone (R194). -/
def execSext (o : Q4) (s : State) : Outcome := runOne (semSext o) s
/-- ZEXT issues alone (R194). -/
def execZext (o : Q4) (s : State) : Outcome := runOne (semZext o) s
/-- LI issues alone (R194). -/
def execLi (o : I42) (s : State) : Outcome := runOne (semLi o) s
/-- LEA issues alone (R194). -/
def execLea (o : Q4) (s : State) : Outcome := runOne (semLea o) s
/-- SEL issues alone (R194). -/
def execSel (o : Q4) (s : State) : Outcome := runOne (semSel o) s
/-- PCMP issues alone (R195). -/
def execPcmp (o : Q4) (s : State) : Outcome := runOne (semPcmp o) s
/-- PCMPI issues alone (R195). -/
def execPcmpi (o : I28) (s : State) : Outcome := runOne (semPcmpi o) s
/-- PAND issues alone (R195). -/
def execPand (o : Q4) (s : State) : Outcome := runOne (semPand o) s
/-- POR issues alone (R195). -/
def execPor (o : Q4) (s : State) : Outcome := runOne (semPor o) s
/-- PXOR issues alone (R195). -/
def execPxor (o : Q4) (s : State) : Outcome := runOne (semPxor o) s
/-- PNOT issues alone (R195). -/
def execPnot (o : Q4) (s : State) : Outcome := runOne (semPnot o) s
/-- PMOV_TO_PRED issues alone (R195). -/
def execPmovToPred (o : Q4) (s : State) : Outcome := runOne (semPmovToPred o) s
/-- PMOV_FROM_PRED issues alone (R195). -/
def execPmovFromPred (o : Q4) (s : State) : Outcome := runOne (semPmovFromPred o) s
end Sys2Proof.Machine
end

