-- ==== Sys2Proof/Machine/Control.lean ====
section
/-!
DEFINITION. Control.lean: control transfer (R197, R198), the loop-sequencer ops (R199, R404), traps and returns (R200 to R202), control
registers (R203), firmware calls (R209, R210), suspension (R216, R217), spawn (R214), windows and dim (R218, R219).
-/
namespace Sys2Proof.Machine

/-- An S op of format SYS or another without a value. -/
def ctlOp (h : Head) (w : Nat) (wf : Bool) (rd : List Operand) : OpSem := { slot := .S, head := h, word := w, wf := wf, reads := rd }

/-- The core in focus. -/
def State.cur (s : State) : Core := s.core s.focus

/-! ### Transfers -/

/-- A BRX target: bundle index plus displacement (R169, R197). -/
def brxTarget (pc : Nat) (imm : BitVec 42) : Int := (pc : Int) + imm.toInt

/-- A transfer to a target known as an integer: outside 0 to 2,047 it is an illegal operand (R403). -/
def transfer (o : OpSem) (clk : Nat) (target : State → Int) : OpSem :=
  { o with
    check := fun s => if 0 ≤ target s ∧ target s ≤ 2047 then none else some (0x03, opForm o.word),
    ctl := fun s => some ⟨(target s).toNat, clk, false, true⟩ }

/-- br. -/
def semBr (o : I42) : OpSem :=
  transfer (ctlOp o.h (i42Word 0x30 o) (wellFormed (.br o)) []) 2 fun s => brxTarget s.cur.pc o.imm
/-- jmp. -/
def semJmp (o : I42) : OpSem := transfer (ctlOp o.h (i42Word 0x31 o) (wellFormed (.jmp o)) []) 2 fun _ => o.imm.toInt
/-- jr. -/
def semJr (o : Q4) : OpSem :=
  transfer (ctlOp o.h (q4Word 0x32 o) (wellFormed (.jr o)) [o.a]) 3 fun s => (readS s.cur 0 o.a).toNat
/-- call: the link is the next bundle's index. -/
def semCall (o : I42) : OpSem :=
  transfer (valOp .S o.h (i42Word 0x33 o) (wellFormed (.call o)) [] 1 (sDest 0 o.d) fun c => BitVec.ofNat 64 ((c.pc + 1) % 2048)) 2
    fun s => brxTarget s.cur.pc o.imm
/-- ret. -/
def semRet (o : Q4) : OpSem :=
  transfer (ctlOp o.h (q4Word 0x34 o) (wellFormed (.ret o)) [o.a]) 3 fun s => (readS s.cur 0 o.a).toNat

/-! ### The loop sequencer -/

/-- Halfword and byte fields of a loop-nest record given as dwords (R178). -/
def nestByte (l : List Dword) (a : Nat) : Nat := (l.getD (a / 8) 0).toNat / 256 ^ (a % 8) % 256
@[inherit_doc nestByte] def nestHalf (l : List Dword) (a : Nat) : Nat := nestByte l a + 256 * nestByte l (a + 1)
@[inherit_doc nestByte] def nestWord (l : List Dword) (a : Nat) : Nat := nestHalf l a + 65536 * nestHalf l (a + 2)

/-- A loop-nest record is valid (R404). -/
def nestValid (l : List Dword) : Bool :=
  let nlev := nestByte l 4
  let ntgt := nestByte l 5
  decide (nestHalf l 0 ≤ nestHalf l 2) && decide (nestHalf l 2 - nestHalf l 0 ≤ 63) && decide (1 ≤ nlev ∧ nlev ≤ 6) && decide (ntgt ≤ 8)
    && (List.range nlev).all (fun i => decide (1 ≤ nestWord l (8 + 4 * i)))
    && (List.range ntgt).all (fun k =>
        let w := nestWord l (0x20 + 28 * k)
        decide (w / 512 = 0) && (if bitN w 8 then decide (w % 256 ≤ 15) else decide (1 ≤ w % 256 ∧ w % 256 ≤ 63)))
    && decide (nestHalf l 6 = 0)

/-- The base of a target at lnest: x register, or BASE of a stream register (R179). -/
def targetBase (c : Core) (stream : Bool) (id : Nat) : Dword :=
  if stream then BitVec.ofNat 64 (Tab.get StreamReg.zero c.streams id).base else c.readX id

/-- The nest a record starts (R178, R179). -/
def nestOf (c : Core) (l : List Dword) : Nest :=
  let nlev := nestByte l 4
  { active := true, start := nestHalf l 0, stop := nestHalf l 2, counts := (List.range nlev).map fun i => nestWord l (8 + 4 * i),
    ctr := List.replicate nlev 0,
    targets := (List.range (nestByte l 5)).map fun k =>
      let w := nestWord l (0x20 + 28 * k)
      { id := w % 256, stream := bitN w 8, strides := (List.range nlev).map fun i => nestWord l (0x24 + 28 * k + 4 * i),
        base := targetBase c (bitN w 8) (w % 256) },
    brk := false }

/-- The 32 dwords of the record lnest names (R477). -/
def nestRecord (s : State) (a : Dword) : List Dword := ownDwords s a.toNat 32

/-- An address in the core's own vault, inside the window (R86). -/
def ownVaultOk (s : State) (a : Dword) (n : Nat) : Bool :=
  vaultOk s (s.ctxD s.focus) a.toNat n && decide (a.toNat / Config.vaultStride = s.focus.core)

/-- lnest. -/
def semLnest (o : Q4) : OpSem :=
  { ctlOp o.h (q4Word 0x38 o) (wellFormed (.lnest o)) [o.a, o.b, o.c] with
    level := fun tl => if tl = 0 then none else some 0x03,
    record := fun s => let a := memAddr s.cur 0 o; if a.toNat % 256 = 0 ∧ ownVaultOk s a 256 then [a.toNat] else [],
    check := fun s =>
      let a := memAddr s.cur 0 o
      if a.toNat % 256 ≠ 0 then some (0x07, addrForm a.toNat false false)
      else if !ownVaultOk s a 256 then some (0x0A, addrForm a.toNat false false)
      else if !nestValid (nestRecord s a) then some (0x03, opForm (q4Word 0x38 o)) else none,
    ctl := fun s => some ⟨nestHalf (nestRecord s (memAddr s.cur 0 o)) 0 % 2048, 8, true, false⟩,
    effect := fun _ s =>
      let a := memAddr s.cur 0 o
      (s.drainOwn a.toNat 256).modCore s.focus fun c => { c with nest := nestOf c (nestRecord s a), loopBuf := [] } }

/-- lbrk. -/
def semLbrk (o : Sys) : OpSem :=
  { ctlOp o.h (sysWord 0x39 o) (wellFormed (.lbrk o)) [] with
    level := fun tl => if tl = 0 then none else some 0x03,
    effect := fun _ s => s.modCore s.focus fun c => if c.nest.active then { c with nest := { c.nest with brk := true } } else c,
    ends := true }

/-! ### Traps -/

/-- trap. -/
def semTrap (o : Sys) : OpSem :=
  { ctlOp o.h (sysWord 0x40 o) (wellFormed (.trap o)) [] with late := fun _ => some (0x12, BitVec.ofNat 64 o.sys.toNat) }

/-- A return by tret (R201): TRET plus SKIP. -/
def tretOp (o : Sys) (wf : Bool) (skip : Nat) : OpSem :=
  { ctlOp o.h (sysWord 0x41 o) wf [] with
    level := fun tl => if tl = 0 then some 0x10 else none,
    ctl := fun s => some ⟨((s.cur.bank s.cur.tl).ret + skip) % 2048, 3, false, false⟩,
    final := fun s => s.modCore s.focus fun c => leaveLevel c c.pc }
/-- tret. -/
def semTret (o : Sys) : OpSem := tretOp o (wellFormed (.tret o)) 0
/-- tret.skip. -/
def semTretSkip (o : Sys) : OpSem := tretOp o (wellFormed (.tretSkip o)) 1

/-- Predicates and sequencer state from the checkpoint, targets recomputed (R182). -/
def Core.restore (c : Core) : Core :=
  let c := { c with p := c.ckpt.preds, nest := c.ckpt.nest }
  if c.nest.active then c.nest.targets.foldl (fun c t => c.putTarget t (targetValue t c.nest.ctr)) c else c

/-- rstart. -/
def semRstart (o : Sys) : OpSem :=
  { ctlOp o.h (sysWord 0x42 o) (wellFormed (.rstart o)) [] with
    level := fun tl => if tl = 0 then some 0x10 else none,
    ctl := fun s => some ⟨s.cur.rpa, 3, false, false⟩,
    final := fun s => s.modCore s.focus fun c => leaveLevel c.restore c.pc }

/-! ### Control registers -/

/-- crr. -/
def semCrr (o : Sys) : OpSem :=
  { slot := .S, head := o.h, word := sysWord 0x44 o, wf := wellFormed (.crr o),
    outs := fun s _ => [(1, sDest 0 o.d, .s (readCr s s.focus o.sys.toNat))], latch := some 1,
    latchVal := fun s _ => .s (readCr s s.focus o.sys.toNat) }

/-- crw: bundles at the next clk or later see the value; RO registers ignore it above TL0. -/
def semCrw (o : Sys) : OpSem :=
  { ctlOp o.h (sysWord 0x45 o) (wellFormed (.crw o)) [o.a] with
    level := fun tl => if tl = 0 ∧ o.sys.toNat < 4096 ∧ crAssigned o.sys.toNat ∧ crRw 0 o.sys.toNat = false then some 0x10 else none,
    outs := fun s _ => if crRw s.cur.tl o.sys.toNat then [(1, .cr o.sys.toNat, .s (readS s.cur 0 o.a))] else [] }

/-! ### Firmware calls -/

/-- The wick a service names; 8 and above name none (R209). -/
def svcWick (number : Nat) : Nat := number / 2 ^ 24 % 16
/-- The message of a call (R209, R367): x1 to x3, and the caller's member, core and TLEVEL, which the model puts into dword 4 (log 56). -/
def svcMessage (s : State) (k : CoreId) (m : MemberId) (r : Svc) : List Dword :=
  [boxHead 1 k.die r.number s.fresh, r.x1, r.x2, r.x3, BitVec.ofNat 64 (m.member * 2 ^ 16 + k.core * 2 ^ 8 + r.tl), 0, 0, 0]
/-- A call goes to mailbox w of wick w, and its reply comes after a time R479 leaves open; while the mailbox holds 32 messages it waits (R367).  The event
holds the wick, the number of the message, and `b` = 1 for a call that waits. -/
def sendSvc (s : State) (k : CoreId) (m : MemberId) (r : Svc) : State :=
  let w := svcWick r.number
  if 8 ≤ w then s.draw.after s.delay .svcReply { k := k, m := m, a := w }
  else if 32 ≤ (s.box w).length then s.after 1 .svcReply { k := k, m := m, a := w, b := 1 }
  else ((s.setBox w (s.box w ++ [svcMessage s k m r])).draw).after s.delay .svcReply { k := k, m := m, a := w, c := s.fresh % 2 ^ 24 }

/-- svc: the request goes to the wick and the core is frozen until the reply (R209), from the clk after its issue on. -/
def svcOp (o : Sys) (wf : Bool) : OpSem :=
  { ctlOp o.h (sysWord 0x46 o) wf [] with
    effect := fun _ s =>
      let r : Svc := ⟨o.sys.toNat, s.cur.readX 1, s.cur.readX 2, s.cur.readX 3, s.cur.tl, s.cur.pc, sDest 0 o.d⟩
      sendSvc (s.modCore s.focus fun c => { c with svc := some r, frozeAt := s.clk + 1 }) s.focus (s.ctxD s.focus) r }
/-- svc MAP. -/
def semSvcMap (o : Sys) : OpSem := svcOp o (wellFormed (.svcMap o))
/-- svc UNMAP. -/
def semSvcUnmap (o : Sys) : OpSem := svcOp o (wellFormed (.svcUnmap o))
/-- svc PROTECT. -/
def semSvcProtect (o : Sys) : OpSem := svcOp o (wellFormed (.svcProtect o))
/-- svc REPORT. -/
def semSvcReport (o : Sys) : OpSem := svcOp o (wellFormed (.svcReport o))
/-- svc with a service number R210 does not list: the wick refuses it. -/
def semSvcOther (o : Sys) : OpSem := svcOp o (noTag o.h && o.d.dstOk)

/-! ### Suspension -/

/-- The core runs a task (R208). -/
def Core.onTask (c : Core) : Bool := c.pane.getLsbD 31

/-- A suspension op, park or halt: it acts once the core has finished (R216, R217). -/
def endOp (opc : Nat) (o : Sys) (wf : Bool) (rd : List Operand) (task : Bool) (kind : Core → EndKind) : OpSem :=
  { ctlOp o.h (sysWord opc o) wf rd with
    level := fun tl => if tl = 0 then none else some 0x03,
    check := fun s => if s.cur.onTask = task then none else some (0x03, opForm (sysWord opc o)),
    effect := fun _ s => s.modCore s.focus fun c => { c with ending := some (kind c) } }

/-- yield. -/
def semYield (o : Sys) : OpSem := endOp 0x48 o (wellFormed (.yield o)) [] true fun c => .yield c.pc
/-- await. -/
def semAwait (o : Sys) : OpSem :=
  { endOp 0x49 o (wellFormed (.await o)) [o.a] true fun c => .await c.pc (readS c 0 o.a).toNat with
    check := fun s =>
      let a := readS s.cur 0 o.a
      if !s.cur.onTask then some (0x03, opForm (sysWord 0x49 o))
      else if a.toNat % 8 ≠ 0 then some (0x07, addrForm a.toNat false false)
      else if !vaultOk s (s.ctxD s.focus) a.toNat 8 then some (0x0A, addrForm a.toNat false false) else none }
/-- done. -/
def semDone (o : Sys) : OpSem := endOp 0x4A o (wellFormed (.done o)) [o.a] true fun c => .done ((readS c 0 o.a).toNat % 128)
/-- park. -/
def semPark (o : Sys) : OpSem := endOp 0x4B o (wellFormed (.park o)) [] false fun _ => .park
/-- halt. -/
def semHalt (o : Sys) : OpSem := endOp 0x4D o (wellFormed (.halt o)) [] false fun _ => .halt

/-- Continuation record and footprint list that spawn reads (R214, R477). -/
def spawnRecord (s : State) (a : Dword) : List Dword × List Dword :=
  let r := ownDwords s a.toNat 8
  (r, ownFp s (r.getD 3 0))

/-- spawn: admitted 3 clk after issue, D lands 4 clk after issue. -/
def semSpawn (o : Sys) : OpSem :=
  { ctlOp o.h (sysWord 0x4C o) (wellFormed (.spawn o)) [o.a] with
    record := fun s =>
      let a := readS s.cur 0 o.a
      if a.toNat % 64 = 0 ∧ vaultOk s (s.ctxD s.focus) a.toNat 64 then
        a.toNat :: (match recFp ((spawnRecord s a).1.getD 3 0) with
          | some f => if (listFault s (spawnRecord s a).1).isNone then [f] else []
          | none => [])
      else [],
    check := fun s =>
      let a := readS s.cur 0 o.a
      if a.toNat % 64 ≠ 0 then some (0x07, addrForm a.toNat false false)
      else if !vaultOk s (s.ctxD s.focus) a.toNat 64 then some (0x0A, addrForm a.toNat false false)
      else
        let r := spawnRecord s a
        if recordBad s (s.ctxD s.focus) r.1 (if (listFault s r.1).isSome then [] else r.2) then some (0x11, opForm (sysWord 0x4C o))
        else (listFault s r.1).map fun f => (0x0A, addrForm f false false),
    outs := fun _ _ => [(4, sDest 0 o.d, .unbound)], latch := some 4,
    effect := fun rid s =>
      let a := readS s.cur 0 o.a
      let r := spawnRecord s a
      startAt ((s.drainOwn a.toNat 64).drainList (r.1.getD 3 0)) s.focus 0 (.spawn r.1 r.2) a 64 (sDest 0 o.d) 0 rid (s.clk + 3) false }

/-! ### Windows and dim -/

/-- nsw.on: opens the window, and a window still open at 4 NSWMAX kills (R218, R425); it freezes once the die is being snuffed (R60). -/
def semNswOn (o : Sys) : OpSem :=
  { ctlOp o.h (sysWord 0x50 o) (wellFormed (.nswOn o)) [] with
    stall := fun s => (s.die s.focus.die).snuffing,
    effect := fun _ s =>
      if s.cur.nsw.isSome then s
      else
        let n := (s.vd (s.ctxD s.focus).vd).params.nswmax
        (s.modCore s.focus fun c => { c with nsw := some s.clk, nswRaised := false, nswAt := none }).after (4 * n) .nswWindowKill
          { k := s.focus, a := s.clk } }
/-- nsw.off. -/
def semNswOff (o : Sys) : OpSem :=
  { ctlOp o.h (sysWord 0x51 o) (wellFormed (.nswOff o)) [] with
    effect := fun _ s => s.modCore s.focus fun c => { c with nsw := none, nswRaised := false, nswAt := none } }

/-- Every member of a VD is dimmed. -/
def allDimmed (s : State) (vd : Nat) : Bool := (List.range (s.vd vd).params.n).all fun i => (s.member ⟨vd, i⟩).dimmed
/-- Mark a member dimmed; a gang all dimmed collapses (R75, R219). -/
def dimMember (s : State) (m : MemberId) : State :=
  let s := s.modMember m fun c => { c with dimmed := true }
  if allDimmed s m.vd ∧ (s.vd m.vd).state = .running then s.after 0 .collapseRequest { a := m.vd, b := 1 } else s
/-- dim. -/
def semDim (o : Sys) : OpSem :=
  { ctlOp o.h (sysWord 0x52 o) (wellFormed (.dim o)) [] with effect := fun _ s => dimMember s (s.ctxD s.focus) }

/-! ### The meanings: each op issued alone -/

/-- BR issues alone (R197). -/
def execBr (o : I42) (s : State) : Outcome := runOne (semBr o) s
/-- JMP issues alone (R197). -/
def execJmp (o : I42) (s : State) : Outcome := runOne (semJmp o) s
/-- JR issues alone (R197). -/
def execJr (o : Q4) (s : State) : Outcome := runOne (semJr o) s
/-- CALL issues alone (R197). -/
def execCall (o : I42) (s : State) : Outcome := runOne (semCall o) s
/-- RET issues alone (R197). -/
def execRet (o : Q4) (s : State) : Outcome := runOne (semRet o) s
/-- LNEST issues alone (R199). -/
def execLnest (o : Q4) (s : State) : Outcome := runOne (semLnest o) s
/-- LBRK issues alone (R199). -/
def execLbrk (o : Sys) (s : State) : Outcome := runOne (semLbrk o) s
/-- TRAP issues alone (R200). -/
def execTrap (o : Sys) (s : State) : Outcome := runOne (semTrap o) s
/-- TRET issues alone (R201). -/
def execTret (o : Sys) (s : State) : Outcome := runOne (semTret o) s
/-- TRET_SKIP issues alone (R201). -/
def execTretSkip (o : Sys) (s : State) : Outcome := runOne (semTretSkip o) s
/-- RSTART issues alone (R202). -/
def execRstart (o : Sys) (s : State) : Outcome := runOne (semRstart o) s
/-- CRR issues alone (R203). -/
def execCrr (o : Sys) (s : State) : Outcome := runOne (semCrr o) s
/-- CRW issues alone (R203). -/
def execCrw (o : Sys) (s : State) : Outcome := runOne (semCrw o) s
/-- SVC_MAP issues alone (R210). -/
def execSvcMap (o : Sys) (s : State) : Outcome := runOne (semSvcMap o) s
/-- SVC_UNMAP issues alone (R210). -/
def execSvcUnmap (o : Sys) (s : State) : Outcome := runOne (semSvcUnmap o) s
/-- SVC_PROTECT issues alone (R210). -/
def execSvcProtect (o : Sys) (s : State) : Outcome := runOne (semSvcProtect o) s
/-- SVC_REPORT issues alone (R210). -/
def execSvcReport (o : Sys) (s : State) : Outcome := runOne (semSvcReport o) s
/-- YIELD issues alone (R216). -/
def execYield (o : Sys) (s : State) : Outcome := runOne (semYield o) s
/-- AWAIT issues alone (R216). -/
def execAwait (o : Sys) (s : State) : Outcome := runOne (semAwait o) s
/-- DONE issues alone (R216). -/
def execDone (o : Sys) (s : State) : Outcome := runOne (semDone o) s
/-- PARK issues alone (R217). -/
def execPark (o : Sys) (s : State) : Outcome := runOne (semPark o) s
/-- HALT issues alone (R217). -/
def execHalt (o : Sys) (s : State) : Outcome := runOne (semHalt o) s
/-- SPAWN issues alone (R214). -/
def execSpawn (o : Sys) (s : State) : Outcome := runOne (semSpawn o) s
/-- NSW_ON issues alone (R218). -/
def execNswOn (o : Sys) (s : State) : Outcome := runOne (semNswOn o) s
/-- NSW_OFF issues alone (R218). -/
def execNswOff (o : Sys) (s : State) : Outcome := runOne (semNswOff o) s
/-- DIM issues alone (R219). -/
def execDim (o : Sys) (s : State) : Outcome := runOne (semDim o) s
end Sys2Proof.Machine
end

