-- ==== Sys2Proof/Machine/Matrix.lean ====
section
/-!
DEFINITION. Matrix.lean: the M ops (R250 to R261): matrix multiply, the moves and conversions of accumulator items, their streams, and
the completion of an M op in progress.
-/
namespace Sys2Proof.Machine

/-! ### Stream checks (R246, R247, R249, R261, R407) -/

/-- The reason a stream record cannot be used by a stream op, before the op's own limits (R391). -/
def streamBad (c : Core) (r : StreamReg) : Option Nat :=
  if r.space = 3 ∨ r.xp = 3 ∨ 12 < r.fmt ∨ r.reserved ∨ (r.ce ∧ 4 < r.ofmt) then some 1
  else if r.xp ≠ 0 ∧ (size2 r.fmt = 8 ∨ (r.xp = 1) ≠ (size2 r.fmt ≤ 2)) then some 2
  else if r.bs ≠ 0 ∧ r.ce then some 3
  else if r.ce ∧ !ctabValid (ctabOf c r.ct) then some 1
  else if r.space = 2 ∧ (r.xp ≠ 0 ∨ r.bs ≠ 0 ∨ r.ce) then some 7 else none

/-- TVAL of a stream fault (R391). -/
def streamTval (n reason : Nat) : Dword := BitVec.ofNat 64 (n + 256 * reason)

/-- The stream register an operand names. -/
def streamReg (c : Core) (o : Operand) : StreamReg := Tab.get StreamReg.zero c.streams (o.ix % 16)

/-- Every byte of a stream's rows lies in the core's own vault window (R259). -/
def ownRows (k : CoreId) (secs : List (StreamReg × List RowSpec)) : Bool :=
  secs.all fun e => decide (e.1.space = 0) && e.2.all fun r =>
    decide (r.addr / Config.vaultStride = k.core) && decide ((r.addr + r.n - 1) / Config.vaultStride = k.core)

/-- Start a wide access at once: its parts take their place behind the accesses already under way (R107, R260). -/
def startWide (s : State) (k : CoreId) (sl : Nat) (kind : AccKind) (ea : Dword) (size : Nat) (dest : Dest) (tag rid : Nat) : State :=
  let m := s.ctxD k
  let a : Access :=
    { id := s.nextId, k := k, vd := m.vd, member := m.member, slot := sl, pc := (s.core k).pc, issue := s.clk, ea := ea, size := size, kind := kind,
      dest := dest, tag := tag, rid := rid, st := .travel, rel := false }
  let s := { s with accesses := s.accesses ++ [a], nextId := s.nextId + 1, fresh := s.fresh + 1 }
  let s := if tag = 0 then s else s.modCore k fun c => { c with tags := Tab.put 0 c.tags tag (a.id + 1) }
  startGather s a

/-! ### The common form of an M op -/

/-- An M operand as its op finds it at issue (R245, R253): a stream by its record, an item by its elements. -/
def mOperandOf (c : Core) (o : Operand) : MOperand :=
  if o.streamOk then .stream (streamReg c o) (ctabOf c (streamReg c o).ct) false [] []
  else .elems (itemRef c o).ty (itemElems c (itemRef c o))

/-- The M op in progress that a Str op starts; its own fields are set by each op. -/
def mopBase (s : State) (kind rid : Nat) (o : Str) : MOp :=
  let c := s.core s.focus
  { rid := rid, kind := kind, pc := c.pc, issue := schedOf s c, beats := o.n, m := o.m, d := ItemRef.none, add := ItemRef.none, a := .none, b := .none,
    aRef := ItemRef.none, bRef := ItemRef.none, scal := 0, out := StreamReg.zero, word := 0, tag := o.h.ta.toNat,
    bindAt := schedOf s c + o.n + 5, arrive := if o.h.ta = 0 then 0 else s.clk + o.n - 1, fetched := true, dead := false }

/-- The op reads a stream. -/
def MOperand.isStream : MOperand → Bool
  | .stream _ _ _ _ _ => true
  | _ => false

/-- The rows msdt writes (R256). -/
def MOp.outSection (m : MOp) : StreamReg × List RowSpec :=
  (m.out, if m.kind = 5 then (List.range m.beats).map fun i => ⟨rowAddr m.out.base m.out.rstride i, elemBytes m.out.fmt 32, 0, 0⟩ else [])

/-- An M op starts: it joins the ops in progress, and its fetches begin (R253, R259). -/
def startMOp (s : State) (m : MOp) : State :=
  let k := s.focus
  let str := m.a.isStream || m.b.isStream
  let s := s.modCore k fun c => { c with mops := c.mops ++ [{ m with fetched := !str }] }
  if str then startWide s k 3 (.mfetch m.rid) 0 0 .none m.tag m.rid else s

/-- Bytes of an item. -/
def ItemRef.bytes (r : ItemRef) : Nat := (r.rows * r.cols * size2 r.ty + 1) / 2

/-- Errors in the register space under items (R463). -/
def itemPoison (c : Core) (l : List ItemRef) : Option (Nat × Dword) :=
  (l.findSome? fun r => rsBad c r.base r.bytes).map fun a => (0x0F, rsTval a)

/-- An M op from its checks and the op it starts; `tags`: it is one that may be tagged (mm, mmz, mldt). -/
def matOp (kind : Nat) (o : Str) (wf : Bool) (rd : List Operand) (tags : Bool) (ok : Core → Bool) (stream : State → Option (Nat × Nat))
    (items : Core → List ItemRef) (mk : State → Nat → MOp) : OpSem :=
  let w := strWord kind o
  { slot := .M, head := o.h, word := w, wf := wf, reads := rd, unit := some 3, beats := o.n,
    stall := fun s => noInject s && sectionsRemote s ((mk s 0).outSection :: mopSections (mk s 0)),
    check := fun s =>
      let c := s.core s.focus
      if !ok c then some (0x03, opForm w)
      else
        let own := ownRows s.focus (mopSections (mk s 0))
        if tags && own && decide (o.h.ta ≠ 0) then some (0x03, opForm w)
        else match stream s with
          | some (n, reason) => some (0x0B, streamTval n reason)
          | none =>
            if tags && !own && decide (o.h.ta = 0) then
              let n := if o.a.streamOk && !ownRows s.focus (mopSections { mk s 0 with b := .none }) then o.a.ix else if o.b.streamOk then o.b.ix else o.a.ix
              some (0x0B, streamTval n 6)
            else itemPoison c (items c),
    spans := fun s =>
      let m := mk s 0
      if m.tag = 0 ∧ kind ≠ 5 then [(o.n + 6, .rs m.d.base, .bytes (List.replicate m.d.bytes 0))] else [],
    effect := fun rid s => startMOp s (mk s rid) }

/-! ### Matrix multiply (R252 to R254) -/

/-- The format an operand multiplies in at issue (R252): an item's TYPE, FMT, or OFMT of a compand stream. -/
def mmFmt (c : Core) (o : Operand) : Nat :=
  if o.streamOk then (if (streamReg c o).ce then (streamReg c o).ofmt else (streamReg c o).fmt) else (itemRef c o).ty

/-- The block size field of a stream operand; 0 for an item. -/
def mmBs (c : Core) (o : Operand) : Nat := if o.streamOk then (streamReg c o).bs else 0

/-- The accumulator TYPE fits the pairing (R252): with block scales on both sides .f32. -/
def accFits (c : Core) (ty : Nat) (o : Str) : Bool :=
  let ba := mmBs c o.a
  let bb := mmBs c o.b
  if isFloat (mmFmt c o.a) then decide (ty = 0)
  else if ba = 0 ∧ bb = 0 then decide (ty = 5)
  else if ba = bb then decide (ty = 0) else decide (ty = 0) || decide (ty = 5)

/-- An mm operand that is an item is a usable tile of the shape the op needs; K is beats·kp/2 (R252). -/
def mmShape (c : Core) (o : Operand) (inA : Bool) (K : Nat) : Bool :=
  o.streamOk || (itemUsable c o && isTile c o
    && (let r := itemRef c o; if inA then decide (r.rows = 32 ∧ r.cols = K) else decide (r.rows = K ∧ r.cols = 32)))

/-- A stream operand's format is no reserved code: a reserved one is a stream fault (R261) and makes no pairing. -/
def fmtKnown (c : Core) (o : Operand) : Bool :=
  !o.streamOk || (decide ((streamReg c o).fmt ≤ 12) && (!(streamReg c o).ce || decide ((streamReg c o).ofmt ≤ 4)))

/-- The operand limits of mm and mmz (R252, R407).  Under .sh the partner item, D's number xor 1, is not checked: with an odd COUNT it may lie at or above
COUNT, and its bytes are then read as they stand, which is the model's choice (R254, log 59). -/
def mmOk (c : Core) (o : Str) : Bool :=
  let kp := kpb2 (mmFmt c o.a) (mmFmt c o.b)
  let K := o.n * kp / 2
  itemUsable c o.d && isAcc c o.d
    && (!(fmtKnown c o.a && fmtKnown c o.b)
      || (decide (kp ≠ 0) && (decide (kp ≠ 1) || decide (o.n % 2 = 0)) && accFits c (itemRef c o.d).ty o && mmShape c o.a true K && mmShape c o.b false K))

/-- The stream faults of mm and mmz, A before B (R261, R407): stream register and reason. -/
def mmStream (s : State) (o : Str) : Option (Nat × Nat) :=
  let c := s.core s.focus
  let one (x : Operand) : Option (Nat × Nat) := if x.streamOk then (streamBad c (streamReg c x)).map fun r => (x.ix, r) else none
  match one o.a with
  | some e => some e
  | none => match one o.b with
    | some e => some e
    | none =>
      if mmBs c o.a = mmBs c o.b then none
      else some (if mmBs c o.a ≠ 0 then o.a.ix else o.b.ix, 4)

/-- The multiply an mm starts. -/
def mmStart (kind : Nat) (o : Str) (s : State) (rid : Nat) : MOp :=
  let c := s.core s.focus
  { mopBase s kind rid o with
    d := itemRef c o.d, add := if o.m % 2 = 1 then itemPartner c o.d else itemRef c o.d, a := mOperandOf c o.a, b := mOperandOf c o.b }

/-- The items an mm reads. -/
def mmItems (kind : Nat) (o : Str) (c : Core) : List ItemRef :=
  (if o.a.streamOk then [] else [itemRef c o.a]) ++ (if o.b.streamOk then [] else [itemRef c o.b])
    ++ (if kind = 1 then [if o.m % 2 = 1 then itemPartner c o.d else itemRef c o.d] else [])

/-- mm. -/
def semMm (o : Str) : OpSem :=
  matOp 0x01 o (wellFormed (.mm o)) [o.a, o.b] true (fun c => mmOk c o) (fun s => mmStream s o) (mmItems 1 o) (mmStart 1 o)
/-- mmz. -/
def semMmz (o : Str) : OpSem :=
  matOp 0x02 o (wellFormed (.mmz o)) [o.a, o.b] true (fun c => mmOk c o) (fun s => mmStream s o) (mmItems 2 o) (mmStart 2 o)

/-! ### The other M ops (R256) -/

/-- Accumulator item. -/
def accOk (c : Core) (o : Operand) : Bool := itemUsable c o && isAcc c o
/-- No stream fault. -/
def noStream (_ : State) : Option (Nat × Nat) := none

/-- mzero: the items from D on. -/
def semMzero (o : Str) : OpSem :=
  matOp 0x03 o (wellFormed (.mzero o)) [] false (fun c => accOk c o.d && decide (itemNo o.d + o.n ≤ viewCount (itemView c o.d))) noStream (fun _ => [])
    fun s rid => { mopBase s 3 rid o with d := { itemRef (s.core s.focus) o.d with rows := 32 * o.n } }

/-- The stream faults of mldt and msdt (R256, R407). -/
def plainStream (c : Core) (o : Operand) (fifo : Bool) : Option (Nat × Nat) :=
  let r := streamReg c o
  match streamBad c r with
  | some e => some (o.ix, e)
  | none =>
    if r.space = 2 ∧ !fifo then some (o.ix, 5)
    else if r.xp ≠ 0 ∨ r.bs ≠ 0 ∨ r.ce then some (o.ix, 7) else none

/-- mldt: rows of a stream into an accumulator item. -/
def semMldt (o : Str) : OpSem :=
  matOp 0x04 o (wellFormed (.mldt o)) [o.a] true
    (fun c => accOk c o.d && (!fmtKnown c o.a || decide (isFloat (streamReg c o.a).fmt = isFloat (itemRef c o.d).ty)))
    (fun s => plainStream (s.core s.focus) o.a true) (fun _ => [])
    fun s rid =>
      let c := s.core s.focus
      { mopBase s 4 rid o with d := { itemRef c o.d with rows := o.n }, a := mOperandOf c o.a }

/-- The writes of msdt, and its fill under .sum, take their places behind the accesses under way as it issues (R260). -/
def openMsdt (s : State) (m : MOp) : State :=
  let k := s.focus
  let c := s.ctxD k
  let open_ (s : State) (ea : Dword) (n : Nat) (rel : Bool) : State :=
    let a : Access :=
      { id := s.nextId, k := k, vd := c.vd, member := c.member, slot := 3, pc := m.pc, issue := s.clk, ea := ea, size := n, kind := .mstore m.rid,
        dest := .none, tag := 0, rid := 0, st := .travel, rel := rel }
    { s with accesses := s.accesses ++ [a], nextId := s.nextId + 1 }
  let s := m.outSection.2.foldl (fun s r =>
    (cutRow 4 r.addr r.n 0).foldl (fun s p => open_ s (BitVec.ofNat 64 (m.out.space * 2 ^ 62 + p.1 % 2 ^ 62)) p.2.1 false) s) s
  if m.m / 8 = 1 then open_ s m.word 8 true else s

/-- The readiness word of msdt.sum (R250): an S, L or A entry's dword, or lane 0 of a V entry. -/
def msdtWord (c : Core) (o : Operand) : Dword :=
  let v := readS c 3 o
  if o.ix / 512 = 1 ∨ o.ix / 512 = 2 then v &&& 0xFFFFFFFF else v

/-- msdt. -/
def semMsdt (o : Str) : OpSem :=
  let w := strWord 0x05 o
  let mk (s : State) (rid : Nat) : MOp :=
    let c := s.core s.focus
    { mopBase s 5 rid o with add := itemRef c o.a, out := streamReg c o.d, word := if o.m / 8 = 1 then msdtWord c o.b else 0 }
  let base := matOp 0x05 o (wellFormed (.msdt o)) (if o.m / 8 = 1 then [o.b] else []) false
    (fun c => accOk c o.a && (decide (o.m / 4 % 2 = 0) || decide ((streamReg c o.d).fmt = 4)))
    (fun s => plainStream (s.core s.focus) o.d false) (fun c => [itemRef c o.a]) mk
  { base with
    effect := fun rid s => openMsdt (startMOp s (mk s rid)) (mk s rid),
    check := fun s =>
      match base.check s with
      | some e => some e
      | none =>
        let a := msdtWord (s.core s.focus) o.b
        if o.m / 8 = 1 ∧ o.b.level = 2 ∧ a.toNat % 8 ≠ 0 ∧ (latchFault (s.core s.focus) (schedOf s (s.core s.focus)) o.b).isNone then
          some (0x07, addrForm a.toNat true false) else none,
    word := w }

/-- Element size of mtr: 1, 2 or 4 bytes (R256). -/
def mtrSize (t : Nat) : Bool := decide (2 ≤ size2 t)
/-- mtr. -/
def semMtr (o : Str) : OpSem :=
  matOp 0x06 o (wellFormed (.mtr o)) [] false
    (fun c =>
      let a := itemRef c o.a
      let d := itemRef c o.d
      itemUsable c o.d && itemUsable c o.a && (isTile c o.d || isAcc c o.d) && (isTile c o.a || isAcc c o.a) && mtrSize a.ty
        && decide (size2 a.ty = size2 d.ty) && decide (d.rows = a.cols ∧ d.cols = a.rows)
        && decide (o.n = (a.rows * a.cols * size2 a.ty / 2 + 1023) / 1024))
    noStream (fun c => [itemRef c o.a])
    fun s rid => let c := s.core s.focus; { mopBase s 6 rid o with d := itemRef c o.d, aRef := itemRef c o.a }
/-- macc. -/
def semMacc (o : Str) : OpSem :=
  matOp 0x07 o (wellFormed (.macc o)) [] false
    (fun c => accOk c o.d && accOk c o.a && accOk c o.b && decide ((itemRef c o.a).ty = (itemRef c o.d).ty ∧ (itemRef c o.b).ty = (itemRef c o.d).ty))
    noStream (fun c => [itemRef c o.a, itemRef c o.b])
    fun s rid => let c := s.core s.focus; { mopBase s 7 rid o with d := itemRef c o.d, aRef := itemRef c o.a, bRef := itemRef c o.b }
/-- mcvt. -/
def semMcvt (o : Str) : OpSem :=
  matOp 0x08 o (wellFormed (.mcvt o)) [] false
    (fun c =>
      let d := itemRef c o.d
      itemUsable c o.d && isTile c o.d && accOk c o.a && decide (d.rows = 32 ∧ d.cols = 32) && (decide (o.m / 4 % 2 = 0) || decide (d.ty = 4)))
    noStream (fun c => [itemRef c o.a])
    fun s rid => let c := s.core s.focus; { mopBase s 8 rid o with d := itemRef c o.d, aRef := itemRef c o.a }
/-- The scalar of mscal as .f32 bits (R256): the low word of a latch entry, or the exact integer. -/
def mscalScalar (c : Core) (o : Operand) : Dword :=
  if o.level = 3 then BitVec.ofNat 64 (fenc 0 0 (fvInt (BitVec.signExtend 64 o.index).toInt)) else readS c 3 o &&& 0xFFFFFFFF
/-- mscal. -/
def semMscal (o : Str) : OpSem :=
  matOp 0x09 o (wellFormed (.mscal o)) [o.b] false (fun c => accOk c o.d && decide ((itemRef c o.d).ty = 0) && accOk c o.a) noStream
    (fun c => [itemRef c o.a])
    fun s rid => let c := s.core s.focus; { mopBase s 9 rid o with d := itemRef c o.d, aRef := itemRef c o.a, scal := mscalScalar c o.b }

/-! ### Results (R143 to R148, R253, R256) -/

/-- Rows of w entries. -/
def chunk {α : Type} (w : Nat) (l : List α) : List (List α) := (List.range (l.length / max w 1)).map fun i => (l.drop (i * w)).take w
/-- Columns of rows. -/
def transposeRows (n : Nat) (rows : List (List Fv)) : List (List Fv) := (List.range n).map fun i => rows.map fun r => r.getD i (.fin false 0 0)

/-- A scale as a value (R248). -/
def scaleFv (r : StreamReg) (n : Nat) : Fv := fdec 0 (if r.sfmt then n else n * 65536)

/-- The 32 lines of an operand, each with its K values: rows of A, columns of B (R247, R252). -/
def operandLines (o : MOperand) (inA : Bool) (K : Nat) : List (List Fv) :=
  match o with
  | .none => []
  | .elems t l =>
    if inA then (chunk K l).map (decodeElems t) else transposeRows 32 ((chunk 32 l).map (decodeElems t))
  | .stream r ct _ l sc =>
    let kMajor := if inA then decide (r.xp ≠ 0) else decide (r.xp = 0)
    let lines := if kMajor then transposeRows 32 ((chunk 32 l).map (decodeElems r.fmt)) else (chunk K l).map (decodeElems r.fmt)
    if r.ce then
      (List.range 32).map fun i =>
        (lines.getD i []).map fun v => fdec r.ofmt (companded ct v (if r.sfmt then sc.getD i 0 else sc.getD i 0 * 65536) r.ofmt)
    else lines

/-- An exact integer value as an integer. -/
def fvToInt : Fv → Int
  | .fin n m e => (if n then -1 else 1) * ((m * 2 ^ e.toNat : Nat) : Int)
  | _ => 0

/-- The exact sum of products of two lines (R144). -/
def dotExact : List Fv → List Fv → Fv → Fv
  | a :: as, b :: bs, s => dotExact as bs (faddX 0 s (fmulX a b))
  | _, _, s => s

/-- One element without block scales (R143). -/
def dotPlain (ty : Nat) : List Fv → List Fv → Nat → Nat
  | a :: as, b :: bs, acc =>
    dotPlain ty as bs (if ty = 0 then ffma 0 a b (fdec 0 acc) else rawOf 5 (intOf 5 acc + fvToInt a * fvToInt b))
  | _, _, acc => acc

/-- A zero value without a sign: S·sa·sb is a real number (R144). -/
def unsignedZero : Fv → Fv
  | .fin n m e => if m = 0 then .fin false 0 0 else .fin n m e
  | v => v

/-- One element with block scales (R144, R145): the blocks of two lines and the scales of each block. -/
def dotBlocks (bs : Nat) (a b : List Fv) (sa sb : Nat → Fv) (nb : Nat) (acc : Nat) : Nat :=
  (List.range nb).foldl (fun acc β =>
    let S := dotExact ((a.drop (β * bs)).take bs) ((b.drop (β * bs)).take bs) (.fin false 0 0)
    fenc 0 0 (faddX 0 (fdec 0 acc) (unsignedZero (fmulX (fmulX S (sa β)) (sb β))))) acc

/-- The accumulator elements an mm or mmz leaves, from its addend. -/
def mmElems (m : MOp) (add : List Nat) : List Nat :=
  let kp := kpb2 m.a.fmt m.b.fmt
  let K := m.beats * kp / 2
  let A := operandLines m.a true K
  let B := operandLines m.b false K
  let el (i j : Nat) : Nat :=
    let acc := if m.kind = 2 then 0 else add.getD (32 * i + j) 0
    match m.a, m.b with
    | .stream ra _ _ _ sa, .stream rb _ _ _ sb =>
      if ra.bs ≠ 0 then
        let nb := (K + ra.bsz - 1) / ra.bsz
        dotBlocks ra.bsz (A.getD i []) (B.getD j []) (fun β => scaleFv ra (sa.getD (nb * i + β) 0)) (fun β => scaleFv rb (sb.getD (32 * β + j) 0)) nb acc
      else dotPlain m.d.ty (A.getD i []) (B.getD j []) acc
    | _, _ => dotPlain m.d.ty (A.getD i []) (B.getD j []) acc
  (List.range 1024).map fun e => el (e / 32) (e % 32)

/-- Stored elements widened exactly to an accumulator's type (R256). -/
def widen (t ty : Nat) (l : List Nat) : List Nat :=
  (decodeElems t l).map fun v => if ty = 0 then fconv 0 0 false v else rawOf 5 (fvToInt v)

/-- Elements converted to a format (R256). -/
def convElems (ty t : Nat) (rm : Nat) (ovf : Bool) (l : List Nat) : List Nat := encodeElems t rm ovf (decodeElems ty l)

/-- The bytes an M op writes to its destination, item sources read now (R253, R256). -/
def mopBytes (c : Core) (m : MOp) : List Byte :=
  let src (r : ItemRef) : List Nat := itemElems c r
  packElems m.d.ty (match m.kind with
    | 1 | 2 => mmElems m (src m.add)
    | 3 => List.replicate (m.d.rows * m.d.cols) 0
    | 4 => match m.a with
      | .stream r _ _ l _ => widen r.fmt m.d.ty l
      | _ => []
    | 6 =>
      let l := src m.aRef
      (List.range (m.d.rows * m.d.cols)).map fun e => l.getD (e % m.d.cols * m.aRef.cols + e / m.d.cols) 0
    | 7 => List.zipWith (fun a b => if m.d.ty = 0 then fadd 0 0 a b else (a + b) % 2 ^ 32) (src m.aRef) (src m.bRef)
    | 8 => convElems m.aRef.ty m.d.ty (m.m % 4) (decide (m.m / 4 % 2 = 1)) (src m.aRef)
    | 9 => (decodeElems m.aRef.ty (src m.aRef)).map fun v => fenc 0 0 (fmulX v (fdec 0 m.scal.toNat))
    | _ => [])

/-- The converted elements msdt writes (R256). -/
def msdtElems (c : Core) (m : MOp) : List Nat :=
  convElems m.add.ty m.out.fmt (m.m % 4) (decide (m.m / 4 % 2 = 1)) ((itemElems c m.add).take (32 * m.beats))

/-- What the writes of msdt and its fill put in place, in their order (R256, R257). -/
def msdtKinds (m : MOp) (l : List Nat) : List AccKind :=
  (List.range m.beats).flatMap (fun i =>
    let row := packElems m.out.fmt ((l.drop (32 * i)).take 32)
    (cutRow 4 (rowAddr m.out.base m.out.rstride i) (elemBytes m.out.fmt 32) 0).map fun p => .store ((row.drop p.2.2).take p.2.1))
  ++ (if m.m / 8 = 1 then [.fill (BitVec.ofNat 64 (0x100 + summaryOf m.out.fmt l)) 0] else [])

/-- The writes of msdt and its fill go on their way with their data (R259): in the own vault they are performed in that clk. -/
def msdtWrites (s : State) (k : CoreId) (m : MOp) (l : List Nat) : State :=
  ((s.accesses.filter fun a => decide (a.k = k ∧ a.kind = .mstore m.rid)).zip (msdtKinds m l)).foldl (fun s e =>
    let a := { e.1 with kind := e.2 }
    let own := decide (eaSpace a.ea = 0 ∧ eaAddr a.ea / Config.vaultStride = k.core) || a.rel
    let t := if own then s.clk else accTime s k a.ea
    { s.setAccess a with fresh := s.fresh + 1 }.due t (.perform a.id)) s

/-- An M op is due to act on its destination now. -/
def mopDue (s : State) (c : Core) (m : MOp) : Bool :=
  m.fetched && decide (m.kind ≠ 0) && (decide (m.tag ≠ 0 ∧ m.bindAt ≤ s.clk) || decide (m.tag = 0 ∧ m.bindAt ≤ schedOf s c) || (m.dead && decide (m.tag ≠ 0)))

/-- A due M op reads its addend or item sources and sends its result, which lands one clk later; msdt reads first and writes one clk
later (R253, R256, R259, R261). -/
def finishMOp (s : State) (k : CoreId) (m : MOp) : State :=
  let c := s.core k
  let drop (c : Core) : Core := { c with mops := c.mops.filter fun x => decide (x.rid ≠ m.rid) }
  let put (m' : MOp) (c : Core) : Core := { c with mops := c.mops.map fun x => if x.rid = m.rid then m' else x }
  if m.dead then s.modCore k drop
  else if m.kind = 5 then
    match m.b with
    | .elems _ l => msdtWrites (s.modCore k drop) k m l
    | _ => s.modCore k (put { m with b := .elems m.out.fmt (msdtElems c m), bindAt := schedOf s c + 1 })
  else if m.tag = 0 then
    let r : Result :=
      { rid := m.rid, slot := 3, due := schedOf s c + 1, dest := .rs m.d.base, val := .bytes (mopBytes c m), deliver := 0, tag := 0, tval := 0 }
    s.modCore k fun c => { drop c with results := c.results ++ [r] }
  else
    let mm := s.ctxD k
    let a : Access :=
      { id := s.nextId, k := k, vd := mm.vd, member := mm.member, slot := 3, pc := m.pc, issue := s.clk, ea := 0, size := 0, kind := .mfetch m.rid,
        dest := .rs m.d.base, tag := m.tag, rid := 0, st := .done (.bytes (mopBytes c m)), rel := false }
    let s := s.modCore k (put { m with kind := 0 })
    { s with accesses := s.accesses ++ [a], nextId := s.nextId + 1 }.due (s.clk + 1) (.event .taggedResultLand { k := k, a := a.id })

/-! ### The meanings: each op issued alone -/

/-- MM issues alone (R253). -/
def execMm (o : Str) (s : State) : Outcome := runOne (semMm o) s
/-- MMZ issues alone (R253). -/
def execMmz (o : Str) (s : State) : Outcome := runOne (semMmz o) s
/-- MZERO issues alone (R256). -/
def execMzero (o : Str) (s : State) : Outcome := runOne (semMzero o) s
/-- MLDT issues alone (R256). -/
def execMldt (o : Str) (s : State) : Outcome := runOne (semMldt o) s
/-- MSDT issues alone (R256). -/
def execMsdt (o : Str) (s : State) : Outcome := runOne (semMsdt o) s
/-- MTR issues alone (R256). -/
def execMtr (o : Str) (s : State) : Outcome := runOne (semMtr o) s
/-- MACC issues alone (R256). -/
def execMacc (o : Str) (s : State) : Outcome := runOne (semMacc o) s
/-- MCVT issues alone (R256). -/
def execMcvt (o : Str) (s : State) : Outcome := runOne (semMcvt o) s
/-- MSCAL issues alone (R256). -/
def execMscal (o : Str) (s : State) : Outcome := runOne (semMscal o) s

end Sys2Proof.Machine
end

