-- ==== Sys2Proof/Machine/LoadStore.lean ====
section
/-!
DEFINITION. LoadStore.lean: the L ops (R262 to R288): loads, stores, acquire and release, full/empty ops, atomics, fences, stream
registers, stream loads, port FIFOs and multicast.
-/
namespace Sys2Proof.Machine

/-! ### Checks at issue (R262, R263, R288) -/

/-- The ea names the core's own vault. -/
def inOwnVault (k : CoreId) (ea : Dword) : Bool := decide (eaSpace ea = 0) && decide (eaAddr ea / Config.vaultStride = k.core)

/-- How a memory op is checked: bytes, write-class, vault space only, register space allowed, and fixed-latency (TA = 0 with a value). -/
structure MemShape where
  n : Nat
  write : Bool
  vaultOnly : Bool
  regs : Bool
  fixed : Bool
  deriving DecidableEq, Repr

/-- The issue checks of a memory op on its ea (R262 to R264, R288, R463). -/
def memCheck (s : State) (word : Nat) (m : MemShape) (ea : Dword) : Option (Nat × Dword) :=
  let k := s.focus
  let a := eaAddr ea
  let sp := eaSpace ea
  if sp = 3 ∨ (sp = 2 ∧ (!m.regs ∨ Config.regSpace < a + m.n)) ∨ (m.fixed ∧ sp ≠ 2 ∧ !inOwnVault k ea) then some (0x03, opForm word)
  else if ea.toNat % m.n ≠ 0 then some (0x07, addrForm ea.toNat m.write false)
  else if m.vaultOnly ∧ sp = 1 then some (0x0A, addrForm ea.toNat m.write false)
  else if sp = 0 ∧ (2 ^ 30 ≤ a ∨ inOwnVault k ea) ∧ !vaultOk s (s.ctxD k) a m.n then some (0x0A, addrForm ea.toNat m.write false)
  else if sp = 2 ∧ !m.write then (rsBad (s.core k) a m.n).map fun b => (0x0F, rsTval b)
  else none

/-- An earlier access of the core in focus has not been performed (R271). -/
def openAccess (s : State) : Bool := s.accesses.any fun a => decide (a.k = s.focus) && !a.performed

/-- A value of register space lands 6 clk later and makes a tag ready (R262, R264). -/
def startDone (s : State) (ea : Dword) (size : Nat) (v : Val) (dest : Dest) (tag : Nat) : State :=
  let k := s.focus
  let m := s.ctxD k
  let a : Access :=
    { id := s.nextId, k := k, vd := m.vd, member := m.member, slot := 4, pc := (s.core k).pc, issue := s.clk, ea := ea, size := size,
      kind := .load size false, dest := dest, tag := tag, rid := 0, st := .done v, rel := false }
  let s := { s with accesses := s.accesses ++ [a], nextId := s.nextId + 1 }
  (s.modCore k fun c => { c with tags := Tab.put 0 c.tags tag (a.id + 1) }).due (s.clk + 6) (.event .taggedResultLand { k := k, a := a.id })

/-- Later L, A and stream-reading M bundles wait for the access just started (R271, R278). -/
def waitForLast (s : State) : State := s.modCore s.focus fun c => { c with waitFor := c.waitFor ++ [s.nextId - 1] }

/-! ### Loads (R266, R268, R270) -/

/-- A load: fixed-latency with TA = 0, else tagged (R264). -/
def loadOp (h : Head) (w : Nat) (wf : Bool) (rd : List Operand) (ea : Core → Dword) (n : Nat) (kind : AccKind) (d : Core → Dest)
    (extra : Core → Bool) (acq : Bool) (rsVal : List Byte → Val) : OpSem :=
  let fixed := decide (h.ta = 0)
  let here (s : State) : Val := rsVal (s.cur.rsBytes (eaAddr (ea s.cur)) n)
  { slot := .L, head := h, word := w, wf := wf, reads := rd,
    stall := fun s => noInject s && toRemote s (ea s.cur),
    check := fun s =>
      if !extra s.cur then some (0x03, opForm w) else memCheck s w ⟨n, false, false, true, fixed⟩ (ea s.cur),
    outs := fun s _ =>
      if fixed then [(6, d s.cur, if eaSpace (ea s.cur) = 2 then here s else .unbound)] else [],
    latch := if fixed then some 6 else none,
    latchVal := fun s _ =>
      if eaSpace (ea s.cur) = 2 then (match here s with | .s v => .s v | .v _ v => .v v | _ => .s 0) else .s 0,
    effect := fun rid s =>
      let e := ea s.cur
      if fixed then (if eaSpace e = 2 then s else startAccess s s.focus 4 kind e n (d s.cur) 0 rid false)
      else if eaSpace e = 2 then startDone s e n (here s) (d s.cur) h.ta.toNat
      else
        let t := startAccess s s.focus 4 kind e n (d s.cur) h.ta.toNat 0 false
        if acq then waitForLast t else t }

/-- A scalar load in the MEM.i layout. -/
def loadI (opc : Nat) (o : Q4) (wf : Bool) (n : Nat) (sx acq : Bool) : OpSem :=
  loadOp o.h (q4Word opc o) wf [o.a, o.b, o.c] (fun c => memAddr c 4 o) n (.load n sx) (fun _ => sDest 4 o.d) (fun _ => true) acq
    fun l => .s (if sx then sextN (8 * n) (BitVec.ofNat 64 (ofBytes l)) else BitVec.ofNat 64 (ofBytes l))
/-- A scalar load in the MEM.w layout. -/
def loadW (opc : Nat) (o : I28) (wf : Bool) (n : Nat) (sx : Bool) : OpSem :=
  loadOp o.h (i28Word opc o) wf [o.a] (fun c => memAddrW c 4 o) n (.load n sx) (fun _ => sDest 4 o.d) (fun _ => true) false
    fun l => .s (if sx then sextN (8 * n) (BitVec.ofNat 64 (ofBytes l)) else BitVec.ofNat 64 (ofBytes l))
/-- ld.s8, MEM.i. -/
def semLdS8I (o : Q4) : OpSem := loadI 0x01 o (wellFormed (.ldS8I o)) 1 true false
/-- ld.s8, MEM.w. -/
def semLdS8W (o : I28) : OpSem := loadW 0x41 o (wellFormed (.ldS8W o)) 1 true
/-- ld.z8, MEM.i. -/
def semLdZ8I (o : Q4) : OpSem := loadI 0x02 o (wellFormed (.ldZ8I o)) 1 false false
/-- ld.z8, MEM.w. -/
def semLdZ8W (o : I28) : OpSem := loadW 0x42 o (wellFormed (.ldZ8W o)) 1 false
/-- ld.s16, MEM.i. -/
def semLdS16I (o : Q4) : OpSem := loadI 0x03 o (wellFormed (.ldS16I o)) 2 true false
/-- ld.s16, MEM.w. -/
def semLdS16W (o : I28) : OpSem := loadW 0x43 o (wellFormed (.ldS16W o)) 2 true
/-- ld.z16, MEM.i. -/
def semLdZ16I (o : Q4) : OpSem := loadI 0x04 o (wellFormed (.ldZ16I o)) 2 false false
/-- ld.z16, MEM.w. -/
def semLdZ16W (o : I28) : OpSem := loadW 0x44 o (wellFormed (.ldZ16W o)) 2 false
/-- ld.s32, MEM.i. -/
def semLdS32I (o : Q4) : OpSem := loadI 0x05 o (wellFormed (.ldS32I o)) 4 true false
/-- ld.s32, MEM.w. -/
def semLdS32W (o : I28) : OpSem := loadW 0x45 o (wellFormed (.ldS32W o)) 4 true
/-- ld.z32, MEM.i. -/
def semLdZ32I (o : Q4) : OpSem := loadI 0x06 o (wellFormed (.ldZ32I o)) 4 false false
/-- ld.z32, MEM.w. -/
def semLdZ32W (o : I28) : OpSem := loadW 0x46 o (wellFormed (.ldZ32W o)) 4 false
/-- ld.64, MEM.i. -/
def semLd64I (o : Q4) : OpSem := loadI 0x07 o (wellFormed (.ld64I o)) 8 false false
/-- ld.64, MEM.w. -/
def semLd64W (o : I28) : OpSem := loadW 0x47 o (wellFormed (.ld64W o)) 8 false
/-- vld, MEM.i. -/
def semVldI (o : Q4) : OpSem :=
  loadOp o.h (q4Word 0x0C o) (wellFormed (.vldI o)) [o.a, o.b, o.c] (fun c => memAddr c 4 o) 256 .loadV (fun c => vDest c 4 o.d)
    (fun c => vopOk c o.d) false fun l => .v allOnes (vecOf l)
/-- vld, MEM.w. -/
def semVldW (o : I28) : OpSem :=
  loadOp o.h (i28Word 0x4C o) (wellFormed (.vldW o)) [o.a] (fun c => memAddrW c 4 o) 256 .loadV (fun c => vDest c 4 o.d)
    (fun c => vopOk c o.d) false fun l => .v allOnes (vecOf l)
/-- ld.acq.32. -/
def semLdAcq32 (o : Q4) : OpSem := loadI 0x10 o (wellFormed (.ldAcq32 o)) 4 false true
/-- ld.acq.64. -/
def semLdAcq64 (o : Q4) : OpSem := loadI 0x11 o (wellFormed (.ldAcq64 o)) 8 false true

/-! ### Stores (R267, R268, R270) -/

/-- A store of bytes; a release, and a store to a strike page, freezes while an earlier access is open (R271). -/
def storeOp (h : Head) (w : Nat) (wf : Bool) (rd : List Operand) (ea : Core → Dword) (n : Nat) (rel : Bool) (extra : Core → Bool)
    (poison : Core → Option Nat) (data : Core → List Byte) : OpSem :=
  { slot := .L, head := h, word := w, wf := wf, reads := rd,
    order := fun s => (rel || toStrike s (ea s.cur)) && openAccess s, stall := fun s => noInject s && toRemote s (ea s.cur),
    check := fun s =>
      if !extra s.cur then some (0x03, opForm w)
      else match memCheck s w ⟨n, true, false, true, false⟩ (ea s.cur) with
        | some e => some e
        | none => (poison s.cur).map fun a => (0x0F, rsTval a),
    outs := fun s _ => if eaSpace (ea s.cur) = 2 then [(6, .rs (eaAddr (ea s.cur)), .bytes (data s.cur))] else [],
    effect := fun _ s =>
      let e := ea s.cur
      if eaSpace e = 2 then s
      else startAccess s s.focus 4 (.store (data s.cur)) e n .none h.ta.toNat 0 (rel || toStrike s e) }

/-- A scalar store in the MEM.i layout: the low n bytes of val(D). -/
def storeI (opc : Nat) (o : Q4) (wf : Bool) (n : Nat) (rel : Bool) : OpSem :=
  storeOp o.h (q4Word opc o) wf [o.a, o.b, o.c] (fun c => memAddr c 4 o) n rel (fun _ => true) (fun _ => none)
    fun c => toBytes n (readS c 4 o.d).toNat
/-- A scalar store in the MEM.w layout. -/
def storeW (opc : Nat) (o : I28) (wf : Bool) (n : Nat) : OpSem :=
  storeOp o.h (i28Word opc o) wf [o.a] (fun c => memAddrW c 4 o) n false (fun _ => true) (fun _ => none)
    fun c => toBytes n (readS c 4 o.d).toNat
/-- st.8, MEM.i. -/
def semSt8I (o : Q4) : OpSem := storeI 0x08 o (wellFormed (.st8I o)) 1 false
/-- st.8, MEM.w. -/
def semSt8W (o : I28) : OpSem := storeW 0x48 o (wellFormed (.st8W o)) 1
/-- st.16, MEM.i. -/
def semSt16I (o : Q4) : OpSem := storeI 0x09 o (wellFormed (.st16I o)) 2 false
/-- st.16, MEM.w. -/
def semSt16W (o : I28) : OpSem := storeW 0x49 o (wellFormed (.st16W o)) 2
/-- st.32, MEM.i. -/
def semSt32I (o : Q4) : OpSem := storeI 0x0A o (wellFormed (.st32I o)) 4 false
/-- st.32, MEM.w. -/
def semSt32W (o : I28) : OpSem := storeW 0x4A o (wellFormed (.st32W o)) 4
/-- st.64, MEM.i. -/
def semSt64I (o : Q4) : OpSem := storeI 0x0B o (wellFormed (.st64I o)) 8 false
/-- st.64, MEM.w. -/
def semSt64W (o : I28) : OpSem := storeW 0x4B o (wellFormed (.st64W o)) 8
/-- vst, MEM.i. -/
def semVstI (o : Q4) : OpSem :=
  storeOp o.h (q4Word 0x0D o) (wellFormed (.vstI o)) [o.a, o.b, o.c] (fun c => memAddr c 4 o) 256 false (fun c => vopOk c o.d)
    (fun c => rsBad c (vregAddr c o.d.ix) 256) fun c => vecBytes (readVreg c o.d.ix)
/-- vst, MEM.w. -/
def semVstW (o : I28) : OpSem :=
  storeOp o.h (i28Word 0x4D o) (wellFormed (.vstW o)) [o.a] (fun c => memAddrW c 4 o) 256 false (fun c => vopOk c o.d)
    (fun c => rsBad c (vregAddr c o.d.ix) 256) fun c => vecBytes (readVreg c o.d.ix)
/-- st.rel.32. -/
def semStRel32 (o : Q4) : OpSem := storeI 0x12 o (wellFormed (.stRel32 o)) 4 true
/-- st.rel.64. -/
def semStRel64 (o : Q4) : OpSem := storeI 0x13 o (wellFormed (.stRel64 o)) 8 true

/-- The readiness value vst.sum leaves in o15 (R269). -/
def sumWord (first : Bool) (s : Nat) (w : Dword) : Dword :=
  if first then BitVec.ofNat 64 (0x100 + s)
  else BitVec.ofNat 64 (w.toNat / 4096 * 4096 + 256 + bitN7 w.toNat + summaryJoin (w.toNat % 128) s)
where
  /-- Bit 7 of a word, in place. -/
  bitN7 (n : Nat) : Nat := n / 128 % 2 * 128
/-- vst.sum: qualifiers from ea<7:0>; the vector is stored at the ea with bits 7:0 cleared, and o15 lands 2 clk after issue. -/
def vstSumOp (h : Head) (w : Nat) (wf : Bool) (rd : List Operand) (ea : Core → Dword) (d : Operand) : OpSem :=
  let low (c : Core) : Nat := (ea c).toNat % 256
  let at_ (c : Core) : Dword := BitVec.ofNat 64 ((ea c).toNat / 256 * 256)
  let new (c : Core) : Dword :=
    sumWord (bitN (low c) 4) (summaryOf (low c % 16) (vecElems (low c % 16) (readVreg c d.ix))) (Tab.get 0 c.ofS (16 * 4 + 15))
  let base := storeOp h w wf rd at_ 256 false (fun c => decide (low c / 32 = 0) && decide (low c % 16 ≤ 12) && vopOk c d)
    (fun c => rsBad c (vregAddr c d.ix) 256) fun c => vecBytes (readVreg c d.ix)
  { base with
    outs := fun s m => (2, .ofS 4 15, .s (new s.cur)) :: base.outs s m,
    tagOn := fun t => match t with | .rs _ => true | _ => false,
    latch := some 2, latchVal := fun s _ => .s (new s.cur) }
/-- vst.sum, MEM.i. -/
def semVstSumI (o : Q4) : OpSem :=
  vstSumOp o.h (q4Word 0x0E o) (wellFormed (.vstSumI o)) [o.a, o.b, o.c] (fun c => memAddr c 4 o) o.d
/-- vst.sum, MEM.w. -/
def semVstSumW (o : I28) : OpSem := vstSumOp o.h (i28Word 0x4E o) (wellFormed (.vstSumW o)) [o.a] (fun c => memAddrW c 4 o) o.d

/-! ### Full/empty ops (R272) -/

/-- A full/empty op: `val` it returns a value, `acq` an acquire, `rel` a release. -/
def feOp (opc : Nat) (o : Q4) (wf : Bool) (op : FeOp) (val acq rel : Bool) : OpSem :=
  let w := q4Word opc o
  let fixed := val && decide (o.h.ta = 0)
  let ea (c : Core) : Dword := memAddr c 4 o
  { slot := .L, head := o.h, word := w, wf := wf, reads := [o.a, o.b, o.c],
    order := fun s => rel && openAccess s,
    check := fun s => memCheck s w ⟨8, decide (op ≠ .keep ∧ op ≠ .chk), true, false, fixed⟩ (ea s.cur),
    outs := fun _ _ => if fixed then [(6, sDest 4 o.d, .unbound)] else [],
    latch := if fixed then some 6 else none,
    effect := fun rid s =>
      let v := if op = .fill then readS s.cur 4 o.d else 0
      let t := startAccess s s.focus 4 (.fe op v) (ea s.cur) 8 (if val then sDest 4 o.d else .none) o.h.ta.toNat (if fixed then rid else 0) rel
      if acq then waitForLast t else t }
/-- ldfe.keep. -/
def semLdfeKeep (o : Q4) : OpSem := feOp 0x14 o (wellFormed (.ldfeKeep o)) .keep true true false
/-- ldfe.take. -/
def semLdfeTake (o : Q4) : OpSem := feOp 0x15 o (wellFormed (.ldfeTake o)) .take true true false
/-- stfe.fill. -/
def semStfeFill (o : Q4) : OpSem := feOp 0x16 o (wellFormed (.stfeFill o)) .fill false false true
/-- fechk. -/
def semFechk (o : Q4) : OpSem := feOp 0x17 o (wellFormed (.fechk o)) .chk true false false
/-- feset. -/
def semFeset (o : Q4) : OpSem := feOp 0x18 o (wellFormed (.feset o)) .set false false false
/-- feclr. -/
def semFeclr (o : Q4) : OpSem := feOp 0x19 o (wellFormed (.feclr o)) .clr false false false

/-! ### Fences (R278, R105) -/

/-- A fence of a scope: later L, A and stream-reading M bundles wait for it. -/
def fenceOp (opc scope : Nat) (o : Sys) (wf : Bool) : OpSem :=
  { slot := .L, head := o.h, word := sysWord opc o, wf := wf,
    effect := fun _ s => waitForLast (startAt s s.focus 4 (.fence scope) 0 0 .none o.h.ta.toNat 0 s.clk (decide (scope = 2))) }
/-- fence.c. -/
def semFenceC (o : Sys) : OpSem := fenceOp 0x1A 0 o (wellFormed (.fenceC o))
/-- fence.d. -/
def semFenceD (o : Sys) : OpSem := fenceOp 0x1B 1 o (wellFormed (.fenceD o))
/-- fence.g. -/
def semFenceG (o : Sys) : OpSem := fenceOp 0x1C 2 o (wellFormed (.fenceG o))

/-! ### Atomics (R275 to R277) -/

/-- The j-th register after D (R275). -/
def nextReg (c : Core) (o : Operand) (j : Nat) : Dword :=
  if o.level = 0 then c.readX (o.ix + j) else Tab.get 0 c.ofS (16 * 4 + (o.ix + j))
/-- An atomic on n bytes; `merges`: with D = x0 it is a reduction (R98). -/
def amoInstr (opc : Nat) (o : Q4) (wf : Bool) (op : AmoOp) (n : Nat) (merges : Bool) : OpSem :=
  let w := q4Word opc o
  let ea (c : Core) : Dword := memAddr c 4 o
  { slot := .L, head := o.h, word := w, wf := wf, reads := [o.a, o.b, o.c],
    stall := fun s => noInject s && toRemote s (ea s.cur),
    check := fun s => memCheck s w ⟨n, true, false, false, false⟩ (ea s.cur),
    effect := fun _ s =>
      startAccess s s.focus 4 (.amo op n (nextReg s.cur o.d 1) (nextReg s.cur o.d 2) (merges && o.d.isX0)) (ea s.cur) n (sDest 4 o.d)
        o.h.ta.toNat 0 false }
/-- amo.add of 4 bytes. -/
def semAmoAdd32 (o : Q4) : OpSem := amoInstr 0x20 o (wellFormed (.amoAdd32 o)) .add 4 true
/-- amo.add of 8 bytes. -/
def semAmoAdd64 (o : Q4) : OpSem := amoInstr 0x30 o (wellFormed (.amoAdd64 o)) .add 8 true
/-- amo.and of 4 bytes. -/
def semAmoAnd32 (o : Q4) : OpSem := amoInstr 0x21 o (wellFormed (.amoAnd32 o)) .and 4 true
/-- amo.and of 8 bytes. -/
def semAmoAnd64 (o : Q4) : OpSem := amoInstr 0x31 o (wellFormed (.amoAnd64 o)) .and 8 true
/-- amo.or of 4 bytes. -/
def semAmoOr32 (o : Q4) : OpSem := amoInstr 0x22 o (wellFormed (.amoOr32 o)) .or 4 true
/-- amo.or of 8 bytes. -/
def semAmoOr64 (o : Q4) : OpSem := amoInstr 0x32 o (wellFormed (.amoOr64 o)) .or 8 true
/-- amo.xor of 4 bytes. -/
def semAmoXor32 (o : Q4) : OpSem := amoInstr 0x23 o (wellFormed (.amoXor32 o)) .xor 4 true
/-- amo.xor of 8 bytes. -/
def semAmoXor64 (o : Q4) : OpSem := amoInstr 0x33 o (wellFormed (.amoXor64 o)) .xor 8 true
/-- amo.maxS of 4 bytes. -/
def semAmoMaxS32 (o : Q4) : OpSem := amoInstr 0x24 o (wellFormed (.amoMaxS32 o)) .maxS 4 true
/-- amo.maxS of 8 bytes. -/
def semAmoMaxS64 (o : Q4) : OpSem := amoInstr 0x34 o (wellFormed (.amoMaxS64 o)) .maxS 8 true
/-- amo.maxZ of 4 bytes. -/
def semAmoMaxZ32 (o : Q4) : OpSem := amoInstr 0x25 o (wellFormed (.amoMaxZ32 o)) .maxZ 4 true
/-- amo.maxZ of 8 bytes. -/
def semAmoMaxZ64 (o : Q4) : OpSem := amoInstr 0x35 o (wellFormed (.amoMaxZ64 o)) .maxZ 8 true
/-- amo.minS of 4 bytes. -/
def semAmoMinS32 (o : Q4) : OpSem := amoInstr 0x26 o (wellFormed (.amoMinS32 o)) .minS 4 true
/-- amo.minS of 8 bytes. -/
def semAmoMinS64 (o : Q4) : OpSem := amoInstr 0x36 o (wellFormed (.amoMinS64 o)) .minS 8 true
/-- amo.minZ of 4 bytes. -/
def semAmoMinZ32 (o : Q4) : OpSem := amoInstr 0x27 o (wellFormed (.amoMinZ32 o)) .minZ 4 true
/-- amo.minZ of 8 bytes. -/
def semAmoMinZ64 (o : Q4) : OpSem := amoInstr 0x37 o (wellFormed (.amoMinZ64 o)) .minZ 8 true
/-- amo.swap of 4 bytes. -/
def semAmoSwap32 (o : Q4) : OpSem := amoInstr 0x28 o (wellFormed (.amoSwap32 o)) .swap 4 false
/-- amo.swap of 8 bytes. -/
def semAmoSwap64 (o : Q4) : OpSem := amoInstr 0x38 o (wellFormed (.amoSwap64 o)) .swap 8 false
/-- cas.32. -/
def semCas32 (o : Q4) : OpSem := amoInstr 0x29 o (wellFormed (.cas32 o)) .cas 4 false
/-- cas.64. -/
def semCas64 (o : Q4) : OpSem := amoInstr 0x39 o (wellFormed (.cas64 o)) .cas 8 false
/-- amo.fadd.f32. -/
def semAmoFaddF32 (o : Q4) : OpSem := amoInstr 0x2A o (wellFormed (.amoFaddF32 o)) .faddF32 4 true
/-- amo.fadd.bf16. -/
def semAmoFaddBf16 (o : Q4) : OpSem := amoInstr 0x2B o (wellFormed (.amoFaddBf16 o)) .faddBf16 2 true
/-- amo.fmax.f32. -/
def semAmoFmaxF32 (o : Q4) : OpSem := amoInstr 0x2C o (wellFormed (.amoFmaxF32 o)) .fmaxF32 4 true

/-! ### Stream registers (R279, R280) -/

/-- The dwords of a 32-byte record at an ea: own vault or register space. -/
def recordAt (s : State) (ea : Dword) : List Dword :=
  if eaSpace ea = 2 then (List.range 4).map fun i => BitVec.ofNat 64 (ofBytes (s.cur.rsBytes (eaAddr ea + 8 * i) 8))
  else ownDwords s (eaAddr ea) 4
/-- The space of a record's ea: 0b11 and register space past its end are illegal (R288). -/
def recordSpace (word : Nat) (ea : Dword) : Option (Nat × Dword) :=
  if eaSpace ea = 3 ∨ (eaSpace ea = 2 ∧ Config.regSpace < eaAddr ea + 32) then some (0x03, opForm word) else none
/-- The checks of a 32-byte record: alignment, own vault (or register space), and errors in it (R408, R464). -/
def recordCheck (s : State) (ea : Dword) (regs : Bool) : Option (Nat × Dword) :=
  let a := eaAddr ea
  if ea.toNat % 32 ≠ 0 then some (0x07, addrForm ea.toNat false false)
  else if regs ∧ eaSpace ea = 2 then (rsBad s.cur a 32).map fun b => (0x0F, rsTval b)
  else if !inOwnVault s.focus ea ∨ !vaultOk s (s.ctxD s.focus) a 32 then some (0x0A, addrForm ea.toNat false false)
  else match homeKey s (s.ctxD s.focus) a with
    | some k => if poisoned s k 32 then some (0x0F, addrForm (poisonAddr s k a 32) false false) else none
    | none => none
/-- A record in the own vault whose granule must be resident (R477). -/
def recordGranule (s : State) (ea : Dword) : List Nat :=
  if ea.toNat % 32 = 0 ∧ inOwnVault s.focus ea ∧ vaultOk s (s.ctxD s.focus) (eaAddr ea) 32 then [eaAddr ea] else []
/-- A stream-register op: D lands after a latency and its tag is ready then (R279). -/
def streamOp (opc : Nat) (o : Str) (wf : Bool) (rd : List Operand) (lat : Nat) (f : State → StreamReg → StreamReg) : OpSem :=
  { slot := .L, head := o.h, word := strWord opc o, wf := wf, reads := rd,
    outs := fun s _ => [(lat, .stream o.d.ix, .stream (f s (Tab.get StreamReg.zero s.cur.streams o.d.ix)))] }
/-- sdef. -/
def semSdef (o : Str) : OpSem :=
  let ea (s : State) : Dword := readS s.cur 4 o.a
  { streamOp 0x52 o (wellFormed (.sdef o)) [o.a] 6 (fun s _ =>
      let l := recordAt s (ea s)
      ⟨l.getD 0 0, l.getD 1 0, l.getD 2 0, l.getD 3 0⟩) with
    record := fun s => recordGranule s (ea s),
    check := fun s => match recordSpace (strWord 0x52 o) (ea s) with
      | some e => some e
      | none => recordCheck s (ea s) true,
    effect := fun _ s => if eaSpace (ea s) = 2 then s else s.drainOwn (eaAddr (ea s)) 32 }
/-- Bits hi:lo of a dword replaced by the low bits of another. -/
def setBits (d v : Dword) (hi lo : Nat) : Dword :=
  BitVec.ofNat 64 (d.toNat / 2 ^ (hi + 1) * 2 ^ (hi + 1) + v.toNat % 2 ^ (hi + 1 - lo) * 2 ^ lo + d.toNat % 2 ^ lo)
/-- sset of one field. -/
def ssetOp (o : Str) (wf : Bool) (f : StreamReg → Dword → StreamReg) : OpSem :=
  streamOp 0x53 o wf [o.a] 1 fun s r => f r (readS s.cur 4 o.a)
/-- sset.base. -/
def semSsetBase (o : Str) : OpSem := ssetOp o (wellFormed (.ssetBase o)) fun r v => { r with d0 := setBits r.d0 v 51 0 }
/-- sset.space. -/
def semSsetSpace (o : Str) : OpSem := ssetOp o (wellFormed (.ssetSpace o)) fun r v => { r with d0 := setBits r.d0 v 63 62 }
/-- sset.rstride. -/
def semSsetRstride (o : Str) : OpSem := ssetOp o (wellFormed (.ssetRstride o)) fun r v => { r with d1 := setBits r.d1 v 63 32 }
/-- sset.ctl. -/
def semSsetCtl (o : Str) : OpSem := ssetOp o (wellFormed (.ssetCtl o)) fun r v => { r with d1 := setBits r.d1 v 31 0 }
/-- sset.sbase. -/
def semSsetSbase (o : Str) : OpSem := ssetOp o (wellFormed (.ssetSbase o)) fun r v => { r with d2 := setBits r.d2 v 51 0 }
/-- sset.sstride. -/
def semSsetSstride (o : Str) : OpSem := ssetOp o (wellFormed (.ssetSstride o)) fun r v => { r with d3 := setBits r.d3 v 63 32 }
/-- sadv. -/
def semSadv (o : Str) : OpSem :=
  streamOp 0x54 o (wellFormed (.sadv o)) [o.a, o.b] 1 fun s r =>
    { r with d0 := setBits r.d0 (BitVec.ofNat 64 r.base + readS s.cur 4 o.a) 51 0,
             d2 := setBits r.d2 (BitVec.ofNat 64 r.sbase + readS s.cur 4 o.b) 51 0 }

/-! ### Stream loads (R281, R282) -/

/-- A tagged stream load. -/
def streamLoad (opc : Nat) (o : Str) (wf : Bool) (ok : Core → Bool) (bad : Core → StreamReg → Option Nat) (fifoBad : Core → StreamReg → Bool)
    (go : Core → StreamReg → AccKind × Dest) : OpSem :=
  let w := strWord opc o
  let r (s : State) : StreamReg := streamReg s.cur o.a
  { slot := .L, head := o.h, word := w, wf := wf, reads := [],
    stall := fun s => noInject s && sectionsRemote s (loadSections (go s.cur (r s)).1),
    check := fun s =>
      if !ok s.cur then some (0x03, opForm w)
      else match (match streamBad s.cur (r s) with | some e => some e | none => if o.h.ta = 0 then some 6 else bad s.cur (r s)) with
        | some e => some (0x0B, streamTval o.a.ix e)
        | none =>
          if fifoBad s.cur (r s) then some (0x0E, BitVec.ofNat 64 ((r s).base % 4 + 3 * 256)) else none,
    effect := fun _ s => let g := go s.cur (r s); startWide s s.focus 4 g.1 0 0 g.2 o.h.ta.toNat 0 }
/-- ldt. -/
def semLdt (o : Str) : OpSem :=
  streamLoad 0x50 o (wellFormed (.ldt o)) (fun c => itemUsable c o.d && isTile c o.d)
    (fun c r => if r.bs ≠ 0 ∨ (itemRef c o.d).ty ≠ (if r.ce then r.ofmt else r.fmt) then some 7 else none) (fun _ _ => false)
    fun c r => (.ldt r (ctabOf c r.ct) (itemRef c o.d), .rs (itemRef c o.d).base)
/-- vldt. -/
def semVldt (o : Str) : OpSem :=
  streamLoad 0x51 o (wellFormed (.vldt o)) (fun c => vopOk c o.d o.n)
    (fun _ r => if r.xp ≠ 0 ∨ r.bs ≠ 0 ∨ r.ce then some 7 else none)
    (fun c r => decide (r.space = 2) && decide ((c.fifo (r.base % 4)).kind ≠ 0) && decide ((c.fifo (r.base % 4)).esz = 8))
    fun c r => (.vldt r o.d.ix o.n, .rs (vregAddr c o.d.ix))

/-! ### Port FIFOs (R283 to R286) -/

/-- TVAL of a port-FIFO misuse (R391). -/
def fifoTval (k reason : Nat) : Dword := BitVec.ofNat 64 (k + 256 * reason)
/-- A binding record has a reserved field that is not zero (R408). -/
def fifoRecBad (l : List Dword) : Bool :=
  let d (i : Nat) : Nat := (l.getD i 0).toNat
  decide (bitsN (d 0) 59 56 ≠ 0) || decide (bitsN (d 0) 47 16 ≠ 0) || decide (bitsN (d 1) 62 52 ≠ 0) || decide (bitsN (d 2) 63 32 ≠ 0)
    || decide (bitsN (d 3) 63 32 ≠ 0)
/-- The FIFO a record binds. -/
def fifoOfRec (l : List Dword) : Fifo := { Fifo.zero with d0 := l.getD 0 0, d1 := l.getD 1 0, d2 := l.getD 2 0, d3 := l.getD 3 0 }
/-- The fault of the peer a FIFO names (R288, R391): no member of the gang, or one that cannot be reached. -/
def fifoPeer (s : State) (f : Fifo) : Option (Nat × Dword) :=
  let m := s.ctxD s.focus
  if f.kind = 0 ∨ (f.kind ≠ 1 ∧ f.rsp = 1) then none
  else if !f.relPeer ∧ (s.vd m.vd).params.n ≤ f.peer then some (0x0D, BitVec.ofNat 64 (f.peer % 256 + 256))
  else if (s.member m).unreachable.contains (fifoMember s m f) then some (0x0D, BitVec.ofNat 64 (fifoMember s m f % 256 + 512))
  else none
/-- fbind. -/
def semFbind (o : Q4) : OpSem :=
  let w := q4Word 0x58 o
  let ea (s : State) : Dword := memAddr s.cur 4 o
  { slot := .L, head := o.h, word := w, wf := wellFormed (.fbind o), reads := [o.a, o.b, o.c],
    record := fun s => recordGranule s (ea s),
    check := fun s =>
      let rec_ := recordCheck s (ea s) false
      let l := recordAt s (ea s)
      match recordSpace w (ea s) with
      | some e => some e
      | none =>
        if rec_.isNone && fifoRecBad l then some (0x03, opForm w)
        else match (if rec_.isNone then fifoPeer s (fifoOfRec l) else none) with
          | some e => some e
          | none => if !(s.cur.fifo o.d.ix).inn.isEmpty then some (0x0E, fifoTval o.d.ix 4) else rec_,
    outs := fun _ _ => if o.h.ta = 0 then [] else [(6, .none, .s 0)],
    effect := fun _ s =>
      let l := recordAt s (ea s)
      (s.drainOwn (eaAddr (ea s)) 32).modCore s.focus fun c =>
        { c with binds := c.binds ++ [⟨schedOf s c + 6, o.d.ix, { fifoOfRec l with pc := c.pc, clk := s.clk }⟩] } }
/-- The misuse of a FIFO by fpush or fpop: unbound, of the wrong kind, or an element size that does not fit the operand (R285, R408). -/
def fifoBad (w : Nat) (c : Core) (k : Nat) (f : Fifo) (kinds : List Nat) (el : Operand) : Option (Nat × Dword) :=
  if f.kind = 0 then some (0x0E, fifoTval k 1)
  else if !kinds.contains f.kind then some (0x0E, fifoTval k 2)
  else if f.esz = 256 then (if el.level ≠ 0 then some (0x0E, fifoTval k 3) else if vopOk c el then none else some (0x03, opForm w))
  else if el.level = 0 ∧ 63 < el.ix then some (0x03, opForm w) else none
/-- The element fpush hands over. -/
def fifoElement (c : Core) (f : Fifo) (a : Operand) : Vec :=
  if f.esz = 256 then readVreg c a.ix else BitVec.setWidth 2048 (readS c 4 a)
/-- fpush: freezes while the out side is full. -/
def semFpush (o : Q4) : OpSem :=
  let w := q4Word 0x59 o
  { slot := .L, head := o.h, word := w, wf := wellFormed (.fpush o), reads := [o.a],
    stall := noInject, fifo := fun s =>
      (fifoBad w s.cur o.d.ix (s.cur.fifo o.d.ix) [1, 2] o.a).isNone && decide (16 ≤ (s.cur.fifo o.d.ix).out.length),
    check := fun s =>
      match (match fifoBad w s.cur o.d.ix (s.cur.fifo o.d.ix) [1, 2] o.a with
        | some e => some e
        | none => fifoPeer s (s.cur.fifo o.d.ix)) with
      | some e => some e
      | none => if (s.cur.fifo o.d.ix).esz = 256 then (rsBad s.cur (vregAddr s.cur o.a.ix) 256).map fun a => (0x0F, rsTval a) else none,
    effect := fun _ s =>
      let f := s.cur.fifo o.d.ix
      let m := s.ctxD s.focus
      let a : Access :=
        { id := s.nextId, k := s.focus, vd := m.vd, member := m.member, slot := 4, pc := s.cur.pc, issue := s.clk, ea := 3 <<< 62, size := f.esz,
          kind := .fpush o.d.ix, dest := .none, tag := 0, rid := 0, st := .travel, rel := false }
      let e : FifoElem := { v := fifoElement s.cur f o.a, pc := s.cur.pc, clk := s.clk, acc := a.id }
      let t := { s with accesses := s.accesses ++ [a], nextId := s.nextId + 1 }
      (t.modCore s.focus fun c => c.setFifo o.d.ix { f with out := f.out ++ [e] }).after 0 .fifoOutTransfer { k := s.focus, a := o.d.ix } }
/-- fpop: freezes while the in side is empty; D lands 2 clk after issue. -/
def semFpop (o : Q4) : OpSem :=
  let w := q4Word 0x5A o
  let head (c : Core) : Vec := (c.fifo (o.a.ix % 4)).inn.headD 0
  let wide (c : Core) : Bool := decide ((c.fifo (o.a.ix % 4)).esz = 256)
  { slot := .L, head := o.h, word := w, wf := wellFormed (.fpop o), reads := [],
    fifo := fun s =>
      (fifoBad w s.cur (o.a.ix % 4) (s.cur.fifo (o.a.ix % 4)) [1, 3] o.d).isNone && (s.cur.fifo (o.a.ix % 4)).inn.isEmpty,
    check := fun s => fifoBad w s.cur (o.a.ix % 4) (s.cur.fifo (o.a.ix % 4)) [1, 3] o.d,
    outs := fun s _ =>
      if wide s.cur then [(2, vDest s.cur 4 o.d, .v allOnes (head s.cur))] else [(2, sDest 4 o.d, .s (BitVec.setWidth 64 (head s.cur)))],
    latch := some 2, latchVal := fun s _ => if wide s.cur then .v (head s.cur) else .s (BitVec.setWidth 64 (head s.cur)),
    effect := fun _ s =>
      let f := s.cur.fifo (o.a.ix % 4)
      wantFetch (s.modCore s.focus fun c => c.setFifo (o.a.ix % 4) { f with inn := f.inn.tail }) s.focus (o.a.ix % 4) }

/-! ### Multicast (R287) -/

/-- Fields of a multicast ea. -/
def stmAll (e : Nat) : Bool := bitN e 60
@[inherit_doc stmAll] def stmMem (e : Nat) : Nat := bitsN e 59 52
@[inherit_doc stmAll] def stmCm (e : Nat) : Nat := bitsN e 51 36
@[inherit_doc stmAll] def stmX0 (e : Nat) : Nat := bitsN e 35 32
@[inherit_doc stmAll] def stmY0 (e : Nat) : Nat := bitsN e 31 28
@[inherit_doc stmAll] def stmLw (e : Nat) : Nat := bitsN e 27 25
@[inherit_doc stmAll] def stmLh (e : Nat) : Nat := bitsN e 24 22
@[inherit_doc stmAll] def stmOff (e : Nat) : Nat := bitsN e 21 0
/-- A rectangle keeps R29. -/
def rectOk (x0 y0 lw lh : Nat) : Bool := decide (lw ≤ 4 ∧ lh ≤ 4) && decide (x0 % 2 ^ lw = 0) && decide (y0 % 2 ^ lh = 0)
/-- A pane core names its pane or a sub-pane, every column on (R30, R287). -/
def paneRectOk (c : Core) (e : Nat) : Bool :=
  let p := c.pane.toNat
  if c.onTask then true
  else
    let px := bitsN p 3 0
    let py := bitsN p 7 4
    let pw := 2 ^ bitsN p 10 8
    let ph := 2 ^ bitsN p 14 12
    let w := 2 ^ stmLw e
    let h := 2 ^ stmLh e
    decide (px ≤ stmX0 e ∧ stmX0 e + w ≤ px + pw ∧ py ≤ stmY0 e ∧ stmY0 e + h ≤ py + ph)
      && (List.range w).all fun i => bitN (stmCm e) (stmX0 e + i)
/-- The members a multicast names. -/
def stmMembers (s : State) (e : Nat) : List Nat :=
  if stmAll e then List.range (s.vd (s.ctxD s.focus).vd).params.n else [stmMem e]
/-- The cores of the rectangle whose column is on. -/
def stmCores (e : Nat) : List Nat :=
  (List.range (2 ^ stmLh e)).flatMap fun y => (List.range (2 ^ stmLw e)).filterMap fun x =>
    if bitN (stmCm e) (stmX0 e + x) then some (16 * (stmY0 e + y) + stmX0 e + x) else none
/-- One write of a multicast: at a vault of the die, or a packet to another member (R115). -/
def stmWrite (s : State) (g : Nat) (e : Dword) (tag n : Nat) (l : List Byte) (mem core : Nat) : State :=
  let va := core * Config.vaultStride + stmOff e.toNat
  let m := s.ctxD s.focus
  if mem = m.member then startAccess s s.focus 4 (.stm g e l) (BitVec.ofNat 64 va) n .none tag 0 false
  else
    let id := s.nextId
    let a : Access :=
      { id := id, k := s.focus, vd := m.vd, member := m.member, slot := 4, pc := s.cur.pc, issue := s.clk, ea := BitVec.ofNat 64 va, size := n,
        kind := .stm g e (if (s.member m).unreachable.contains mem then [] else l), dest := .none, tag := tag, rid := 0, st := .remote mem 0,
        rel := false }
    let s := { s with accesses := s.accesses ++ [a], nextId := id + 1 }
    let s := if tag = 0 then s else s.modCore s.focus fun c => { c with tags := Tab.put 0 c.tags tag (id + 1) }
    if (s.member m).unreachable.contains mem then s
    else sendPkt s m { (Pkt.local m.member mem 0x01 (BitVec.ofNat 64 va) 0) with vc := 3, data := l, rtag := id % 65536 }
/-- The writes of a multicast, all outside the window or none (R86: one window for every vault of every member). -/
def stmGo (s : State) (e : Dword) (tag n : Nat) (l : List Byte) : State :=
  let g := s.nextId
  let ms := stmMembers s e.toNat
  let cs := stmCores e.toNat
  if vaultOk s (s.ctxD s.focus) (stmOff e.toNat) n then
    stmFinish (ms.foldl (fun s mem => cs.foldl (fun s core => stmWrite s g e tag n l mem core) s) s) g e
  else if cs.isEmpty then s
  else
    let t := startAt s s.focus 4 (.stm g e []) e n .none tag 0 (s.clk + 4) false
    { t with agenda := s.agenda }.after 4 .deferredFaultFound
      { a := g, b := 0x0C, v := e, l := [(ms.map fun m => if m < 64 then 2 ^ m else 0).sum, ms.length * cs.length] }
/-- A multicast of n bytes. -/
def stmOp (opc : Nat) (o : Q4) (wf : Bool) (n : Nat) (extra : Core → Bool) (poison : Core → Option Nat) (data : Core → List Byte) : OpSem :=
  let w := q4Word opc o
  let ea (c : Core) : Dword := memAddr c 4 o
  { slot := .L, head := o.h, word := w, wf := wf, reads := [o.a, o.b, o.c],
    stall := fun s => noInject s && (stmMembers s (ea s.cur).toNat).any fun m => decide (m ≠ (s.ctxD s.focus).member),
    check := fun s =>
      let e := (ea s.cur).toNat
      if e / 2 ^ 61 ≠ 0 ∨ !rectOk (stmX0 e) (stmY0 e) (stmLw e) (stmLh e) ∨ !paneRectOk s.cur e ∨ !extra s.cur then some (0x03, opForm w)
      else if !stmAll e ∧ (s.vd (s.ctxD s.focus).vd).params.n ≤ stmMem e then some (0x0D, BitVec.ofNat 64 (stmMem e + 256))
      else if e % n ≠ 0 then some (0x07, addrForm e true false)
      else (poison s.cur).map fun a => (0x0F, rsTval a),
    effect := fun _ s => stmGo s (ea s.cur) o.h.ta.toNat n (data s.cur) }
/-- stm.64. -/
def semStm64 (o : Q4) : OpSem :=
  stmOp 0x5B o (wellFormed (.stm64 o)) 8 (fun _ => true) (fun _ => none) fun c => toBytes 8 (readS c 4 o.d).toNat
/-- stm.v. -/
def semStmV (o : Q4) : OpSem :=
  stmOp 0x5C o (wellFormed (.stmV o)) 256 (fun c => vopOk c o.d) (fun c => rsBad c (vregAddr c o.d.ix) 256) fun c => vecBytes (readVreg c o.d.ix)

/-! ### The meanings: each op issued alone -/

/-- LD_S8_I issues alone (R266). -/
def execLdS8I (o : Q4) (s : State) : Outcome := runOne (semLdS8I o) s
/-- LD_S8_W issues alone (R266). -/
def execLdS8W (o : I28) (s : State) : Outcome := runOne (semLdS8W o) s
/-- LD_Z8_I issues alone (R266). -/
def execLdZ8I (o : Q4) (s : State) : Outcome := runOne (semLdZ8I o) s
/-- LD_Z8_W issues alone (R266). -/
def execLdZ8W (o : I28) (s : State) : Outcome := runOne (semLdZ8W o) s
/-- LD_S16_I issues alone (R266). -/
def execLdS16I (o : Q4) (s : State) : Outcome := runOne (semLdS16I o) s
/-- LD_S16_W issues alone (R266). -/
def execLdS16W (o : I28) (s : State) : Outcome := runOne (semLdS16W o) s
/-- LD_Z16_I issues alone (R266). -/
def execLdZ16I (o : Q4) (s : State) : Outcome := runOne (semLdZ16I o) s
/-- LD_Z16_W issues alone (R266). -/
def execLdZ16W (o : I28) (s : State) : Outcome := runOne (semLdZ16W o) s
/-- LD_S32_I issues alone (R266). -/
def execLdS32I (o : Q4) (s : State) : Outcome := runOne (semLdS32I o) s
/-- LD_S32_W issues alone (R266). -/
def execLdS32W (o : I28) (s : State) : Outcome := runOne (semLdS32W o) s
/-- LD_Z32_I issues alone (R266). -/
def execLdZ32I (o : Q4) (s : State) : Outcome := runOne (semLdZ32I o) s
/-- LD_Z32_W issues alone (R266). -/
def execLdZ32W (o : I28) (s : State) : Outcome := runOne (semLdZ32W o) s
/-- LD_64_I issues alone (R266). -/
def execLd64I (o : Q4) (s : State) : Outcome := runOne (semLd64I o) s
/-- LD_64_W issues alone (R266). -/
def execLd64W (o : I28) (s : State) : Outcome := runOne (semLd64W o) s
/-- VLD_I issues alone (R268). -/
def execVldI (o : Q4) (s : State) : Outcome := runOne (semVldI o) s
/-- VLD_W issues alone (R268). -/
def execVldW (o : I28) (s : State) : Outcome := runOne (semVldW o) s
/-- LD_ACQ_32 issues alone (R270). -/
def execLdAcq32 (o : Q4) (s : State) : Outcome := runOne (semLdAcq32 o) s
/-- LD_ACQ_64 issues alone (R270). -/
def execLdAcq64 (o : Q4) (s : State) : Outcome := runOne (semLdAcq64 o) s
/-- ST_8_I issues alone (R267). -/
def execSt8I (o : Q4) (s : State) : Outcome := runOne (semSt8I o) s
/-- ST_8_W issues alone (R267). -/
def execSt8W (o : I28) (s : State) : Outcome := runOne (semSt8W o) s
/-- ST_16_I issues alone (R267). -/
def execSt16I (o : Q4) (s : State) : Outcome := runOne (semSt16I o) s
/-- ST_16_W issues alone (R267). -/
def execSt16W (o : I28) (s : State) : Outcome := runOne (semSt16W o) s
/-- ST_32_I issues alone (R267). -/
def execSt32I (o : Q4) (s : State) : Outcome := runOne (semSt32I o) s
/-- ST_32_W issues alone (R267). -/
def execSt32W (o : I28) (s : State) : Outcome := runOne (semSt32W o) s
/-- ST_64_I issues alone (R267). -/
def execSt64I (o : Q4) (s : State) : Outcome := runOne (semSt64I o) s
/-- ST_64_W issues alone (R267). -/
def execSt64W (o : I28) (s : State) : Outcome := runOne (semSt64W o) s
/-- VST_I issues alone (R268). -/
def execVstI (o : Q4) (s : State) : Outcome := runOne (semVstI o) s
/-- VST_W issues alone (R268). -/
def execVstW (o : I28) (s : State) : Outcome := runOne (semVstW o) s
/-- ST_REL_32 issues alone (R271). -/
def execStRel32 (o : Q4) (s : State) : Outcome := runOne (semStRel32 o) s
/-- ST_REL_64 issues alone (R271). -/
def execStRel64 (o : Q4) (s : State) : Outcome := runOne (semStRel64 o) s
/-- VST_SUM_I issues alone (R269). -/
def execVstSumI (o : Q4) (s : State) : Outcome := runOne (semVstSumI o) s
/-- VST_SUM_W issues alone (R269). -/
def execVstSumW (o : I28) (s : State) : Outcome := runOne (semVstSumW o) s
/-- LDFE_KEEP issues alone (R272). -/
def execLdfeKeep (o : Q4) (s : State) : Outcome := runOne (semLdfeKeep o) s
/-- LDFE_TAKE issues alone (R272). -/
def execLdfeTake (o : Q4) (s : State) : Outcome := runOne (semLdfeTake o) s
/-- STFE_FILL issues alone (R272). -/
def execStfeFill (o : Q4) (s : State) : Outcome := runOne (semStfeFill o) s
/-- FECHK issues alone (R272). -/
def execFechk (o : Q4) (s : State) : Outcome := runOne (semFechk o) s
/-- FESET issues alone (R272). -/
def execFeset (o : Q4) (s : State) : Outcome := runOne (semFeset o) s
/-- FECLR issues alone (R272). -/
def execFeclr (o : Q4) (s : State) : Outcome := runOne (semFeclr o) s
/-- FENCE_C issues alone (R278). -/
def execFenceC (o : Sys) (s : State) : Outcome := runOne (semFenceC o) s
/-- FENCE_D issues alone (R278). -/
def execFenceD (o : Sys) (s : State) : Outcome := runOne (semFenceD o) s
/-- FENCE_G issues alone (R278). -/
def execFenceG (o : Sys) (s : State) : Outcome := runOne (semFenceG o) s
/-- AMO_ADD_32 issues alone (R276). -/
def execAmoAdd32 (o : Q4) (s : State) : Outcome := runOne (semAmoAdd32 o) s
/-- AMO_ADD_64 issues alone (R276). -/
def execAmoAdd64 (o : Q4) (s : State) : Outcome := runOne (semAmoAdd64 o) s
/-- AMO_AND_32 issues alone (R276). -/
def execAmoAnd32 (o : Q4) (s : State) : Outcome := runOne (semAmoAnd32 o) s
/-- AMO_AND_64 issues alone (R276). -/
def execAmoAnd64 (o : Q4) (s : State) : Outcome := runOne (semAmoAnd64 o) s
/-- AMO_OR_32 issues alone (R276). -/
def execAmoOr32 (o : Q4) (s : State) : Outcome := runOne (semAmoOr32 o) s
/-- AMO_OR_64 issues alone (R276). -/
def execAmoOr64 (o : Q4) (s : State) : Outcome := runOne (semAmoOr64 o) s
/-- AMO_XOR_32 issues alone (R276). -/
def execAmoXor32 (o : Q4) (s : State) : Outcome := runOne (semAmoXor32 o) s
/-- AMO_XOR_64 issues alone (R276). -/
def execAmoXor64 (o : Q4) (s : State) : Outcome := runOne (semAmoXor64 o) s
/-- AMO_MAX_S_32 issues alone (R276). -/
def execAmoMaxS32 (o : Q4) (s : State) : Outcome := runOne (semAmoMaxS32 o) s
/-- AMO_MAX_S_64 issues alone (R276). -/
def execAmoMaxS64 (o : Q4) (s : State) : Outcome := runOne (semAmoMaxS64 o) s
/-- AMO_MAX_Z_32 issues alone (R276). -/
def execAmoMaxZ32 (o : Q4) (s : State) : Outcome := runOne (semAmoMaxZ32 o) s
/-- AMO_MAX_Z_64 issues alone (R276). -/
def execAmoMaxZ64 (o : Q4) (s : State) : Outcome := runOne (semAmoMaxZ64 o) s
/-- AMO_MIN_S_32 issues alone (R276). -/
def execAmoMinS32 (o : Q4) (s : State) : Outcome := runOne (semAmoMinS32 o) s
/-- AMO_MIN_S_64 issues alone (R276). -/
def execAmoMinS64 (o : Q4) (s : State) : Outcome := runOne (semAmoMinS64 o) s
/-- AMO_MIN_Z_32 issues alone (R276). -/
def execAmoMinZ32 (o : Q4) (s : State) : Outcome := runOne (semAmoMinZ32 o) s
/-- AMO_MIN_Z_64 issues alone (R276). -/
def execAmoMinZ64 (o : Q4) (s : State) : Outcome := runOne (semAmoMinZ64 o) s
/-- AMO_SWAP_32 issues alone (R276). -/
def execAmoSwap32 (o : Q4) (s : State) : Outcome := runOne (semAmoSwap32 o) s
/-- AMO_SWAP_64 issues alone (R276). -/
def execAmoSwap64 (o : Q4) (s : State) : Outcome := runOne (semAmoSwap64 o) s
/-- CAS_32 issues alone (R277). -/
def execCas32 (o : Q4) (s : State) : Outcome := runOne (semCas32 o) s
/-- CAS_64 issues alone (R277). -/
def execCas64 (o : Q4) (s : State) : Outcome := runOne (semCas64 o) s
/-- AMO_FADD_F32 issues alone (R276). -/
def execAmoFaddF32 (o : Q4) (s : State) : Outcome := runOne (semAmoFaddF32 o) s
/-- AMO_FADD_BF16 issues alone (R276). -/
def execAmoFaddBf16 (o : Q4) (s : State) : Outcome := runOne (semAmoFaddBf16 o) s
/-- AMO_FMAX_F32 issues alone (R276). -/
def execAmoFmaxF32 (o : Q4) (s : State) : Outcome := runOne (semAmoFmaxF32 o) s
/-- SDEF issues alone (R279). -/
def execSdef (o : Str) (s : State) : Outcome := runOne (semSdef o) s
/-- SSET_BASE issues alone (R280). -/
def execSsetBase (o : Str) (s : State) : Outcome := runOne (semSsetBase o) s
/-- SSET_SPACE issues alone (R280). -/
def execSsetSpace (o : Str) (s : State) : Outcome := runOne (semSsetSpace o) s
/-- SSET_RSTRIDE issues alone (R280). -/
def execSsetRstride (o : Str) (s : State) : Outcome := runOne (semSsetRstride o) s
/-- SSET_CTL issues alone (R280). -/
def execSsetCtl (o : Str) (s : State) : Outcome := runOne (semSsetCtl o) s
/-- SSET_SBASE issues alone (R280). -/
def execSsetSbase (o : Str) (s : State) : Outcome := runOne (semSsetSbase o) s
/-- SSET_SSTRIDE issues alone (R280). -/
def execSsetSstride (o : Str) (s : State) : Outcome := runOne (semSsetSstride o) s
/-- SADV issues alone (R279). -/
def execSadv (o : Str) (s : State) : Outcome := runOne (semSadv o) s
/-- LDT issues alone (R281). -/
def execLdt (o : Str) (s : State) : Outcome := runOne (semLdt o) s
/-- VLDT issues alone (R282). -/
def execVldt (o : Str) (s : State) : Outcome := runOne (semVldt o) s
/-- FBIND issues alone (R283). -/
def execFbind (o : Q4) (s : State) : Outcome := runOne (semFbind o) s
/-- FPUSH issues alone (R285). -/
def execFpush (o : Q4) (s : State) : Outcome := runOne (semFpush o) s
/-- FPOP issues alone (R285). -/
def execFpop (o : Q4) (s : State) : Outcome := runOne (semFpop o) s
/-- STM_64 issues alone (R287). -/
def execStm64 (o : Q4) (s : State) : Outcome := runOne (semStm64 o) s
/-- STM_V issues alone (R287). -/
def execStmV (o : Q4) (s : State) : Outcome := runOne (semStmV o) s

end Sys2Proof.Machine
end

