-- ==== Sys2Proof/Machine/Async.lean ====
section
/-!
DEFINITION. Async.lean: the A ops (R289 to R316): jobs, barriers, reduction contributions, instruction fill, prefetch, triggers, signals,
withdrawal, queries and migration requests.
-/
namespace Sys2Proof.Machine

/-! ### The common form -/

/-- An A op: its checks, and the access it starts at issue. -/
def asyncOp (h : Head) (w : Nat) (wf : Bool) (rd : List Operand) (check : State → Option (Nat × Dword)) (go : State → State) : OpSem :=
  { slot := .A, head := h, word := w, wf := wf, reads := rd, check := check, effect := fun _ s => go s }

/-- The checks of a vault word or object of n bytes named by a V-address (R316). -/
def wordCheck (s : State) (a : Dword) (n : Nat) (write : Bool) : Option (Nat × Dword) :=
  if a.toNat % n ≠ 0 then some (0x07, addrForm a.toNat write false)
  else if eaSpace a ≠ 0 ∨ !vaultOk s (s.ctxD s.focus) a.toNat n then some (0x0A, addrForm a.toNat write false) else none

/-- The check of a global operand over n bytes: space 0b01 (else 0x03) and mapped pages (0x08; 0x09 where a write or any engine access may
not go) (R310, R314 to R316). -/
def globalCheck (s : State) (word : Nat) (ea : Dword) (n align : Nat) (write engine : Bool) : Option (Nat × Dword) :=
  let va := eaAddr ea
  if eaSpace ea ≠ 1 then some (0x03, opForm word)
  else if ea.toNat % align ≠ 0 then some (0x07, addrForm ea.toNat write false)
  else (List.range ((va + n - 1) / 4096 - va / 4096 + 1)).findSome? fun i =>
    let a := if i = 0 then va else (va / 4096 + i) * 4096
    match findLeaf (s.vd (s.ctxD s.focus).vd) a with
    | none => some (0x08, addrForm (2 ^ 62 + a) write false)
    | some (_, e) =>
      if 4 ≤ ptTgt e then some (0x08, addrForm (2 ^ 62 + a) write false)
      else if (write && !ptW e) || (engine && decide (ptTgt e = 3)) then some (0x09, addrForm (2 ^ 62 + a) write false) else none

/-! ### Jobs and triggers (R291 to R294, R309) -/

/-- The eight dwords of the card at an ea (R293). -/
def cardAt (s : State) (ea : Dword) : List Dword :=
  if eaSpace ea = 2 then (List.range 8).map fun i => BitVec.ofNat 64 (ofBytes (s.cur.rsBytes (eaAddr ea + 8 * i) 8))
  else ownDwords s (eaAddr ea) 8
/-- Its footprint list. -/
def cardFp (s : State) (ea : Dword) : List Dword := ownFp s ((cardAt s ea).getD 3 0)

/-- The checks of a card of one of the given kinds (R316, R356). -/
def cardCheck (s : State) (word : Nat) (ea : Dword) (kinds : List Nat) : Option (Nat × Dword) :=
  let a := eaAddr ea
  if eaSpace ea = 3 ∨ (eaSpace ea = 2 ∧ Config.regSpace < a + 64) then some (0x03, opForm word)
  else if ea.toNat % 64 ≠ 0 then some (0x07, addrForm ea.toNat false false)
  else if eaSpace ea = 1 ∨ (eaSpace ea = 0 ∧ !vaultOk s (s.ctxD s.focus) a 64) then some (0x0A, addrForm ea.toNat false false)
  else match (if eaSpace ea = 2 then rsBad s.cur a 64 else none) with
    | some b => some (0x0F, rsTval b)
    | none =>
      let c := cardAt s ea
      let v := s.vd (s.ctxD s.focus).vd
      if !kinds.contains (cardKind c) || cardBad (cardKind c) c (if (listFault s c).isSome then [] else cardFp s ea) || cardEpBad v c then
        some (0x11, opForm word)
      else match cardMember v.params.n c with
        | some m => some (0x0D, BitVec.ofNat 64 (m + 256))
        | none =>
          if cardBv c && !barrierAddrOk s (s.ctxD s.focus) (cardBaddr c) then some (0x0A, addrForm (cardBaddr c) true false)
          else (listFault s c).map fun f => (0x0A, addrForm f false false)

/-- The card and its list are read: reductions that wait on their lines drain (R98, R477). -/
def drainCard (s : State) (ea : Dword) : State :=
  (if eaSpace ea = 2 then s else s.drainOwn (eaAddr ea) 64).drainList ((cardAt s ea).getD 3 0)

/-- An op that starts a job of one kind from the card at its ea. -/
def jobOp (opc kind : Nat) (o : Q4) (wf : Bool) : OpSem :=
  let w := q4Word opc o
  let ea (s : State) : Dword := memAddr s.cur 5 o
  asyncOp o.h w wf [o.a, o.b, o.c] (fun s => cardCheck s w (ea s) [kind]) fun s =>
    startAt (drainCard s (ea s)) s.focus 5 (.card (cardAt s (ea s)) (cardFp s (ea s))) (ea s) 64 (sDest 5 o.d) o.h.ta.toNat 0 s.clk false
/-- cpy. -/
def semCpy (o : Q4) : OpSem := jobOp 0x01 0 o (wellFormed (.cpy o))
/-- cpyr. -/
def semCpyr (o : Q4) : OpSem := jobOp 0x02 1 o (wellFormed (.cpyr o))
/-- coll. -/
def semColl (o : Q4) : OpSem := jobOp 0x03 2 o (wellFormed (.coll o))

/-- trig. -/
def semTrig (o : Q4) : OpSem :=
  let w := q4Word 0x0B o
  let ea (s : State) : Dword := readS s.cur 5 o.a
  let ct (s : State) : Dword := readS s.cur 5 o.b
  asyncOp o.h w (wellFormed (.trig o)) [o.a, o.b, o.c]
    (fun s => match cardCheck s w (ea s) [0, 1, 2] with
      | some e => some e
      | none => wordCheck s (ct s) 8 false)
    fun s => startAt (drainCard s (ea s)) s.focus 5 (.trig (ct s).toNat (readS s.cur 5 o.c) (cardAt s (ea s)) (cardFp s (ea s))) (ea s) 64 (sDest 5 o.d)
      o.h.ta.toNat 0 s.clk false

/-! ### Barrier objects (R306, R307) -/

/-- A barrier op on the object at val(A). -/
def barInstr (opc : Nat) (o : Q4) (wf : Bool) (op : BarOp) (v : Dword → Dword) : OpSem :=
  asyncOp o.h (q4Word opc o) wf [o.a, o.b]
    (fun s =>
      let a := readS s.cur 5 o.a
      match wordCheck s a 16 (decide (op ≠ .wait)) with
      | some e => some e
      | none => if barrierAddrOk s (s.ctxD s.focus) a.toNat then none else some (0x0A, addrForm a.toNat (decide (op ≠ .wait)) false))
    fun s =>
      let t := startAccess s s.focus 5 (.bar op (v (readS s.cur 5 o.b))) (readS s.cur 5 o.a) 16
        (if op = .wait then sDest 5 o.d else .none) o.h.ta.toNat 0 (decide (op = .arr))
      if op = .wait then waitForLast t else t
/-- Bits 47:0. -/
def low48 (v : Dword) : Dword := v &&& 0x0000FFFFFFFFFFFF
/-- binit. -/
def semBinit (o : Q4) : OpSem := barInstr 0x04 o (wellFormed (.binit o)) .init low48
/-- bexp. -/
def semBexp (o : Q4) : OpSem := barInstr 0x05 o (wellFormed (.bexp o)) .exp id
/-- barr. -/
def semBarr (o : Q4) : OpSem := barInstr 0x06 o (wellFormed (.barr o)) .arr low48
/-- bwait. -/
def semBwait (o : Q4) : OpSem := barInstr 0x07 o (wellFormed (.bwait o)) .wait id

/-! ### Reduction contributions (R308) -/

/-- A contribution holds poison. -/
def wordsPoison (s : State) (m : MemberId) (a n : Nat) : Bool := match homeKey s m a with
  | some k => poisoned s k n
  | none => false
/-- sred. -/
def semSred (o : Q4) : OpSem :=
  let w := q4Word 0x08 o
  asyncOp o.h w (wellFormed (.sred o)) [o.a, o.b]
    (fun s =>
      let a := readS s.cur 5 o.a
      let b := (readS s.cur 5 o.b).toNat
      let n := bitsN b 24 16
      if b / 2 ^ 25 ≠ 0 ∨ n < 4 ∨ 256 < n ∨ n % 4 ≠ 0 then some (0x03, opForm w)
      else if a.toNat % 4 ≠ 0 then some (0x07, addrForm a.toNat false false)
      else if !inOwnVault s.focus a ∨ !vaultOk s (s.ctxD s.focus) a.toNat n then some (0x0A, addrForm a.toNat false false)
      else if wordsPoison s (s.ctxD s.focus) a.toNat n then some (0x0F, addrForm a.toNat false false) else none)
    fun s =>
      let a := readS s.cur 5 o.a
      let b := (readS s.cur 5 o.b).toNat
      startAt (s.drainOwn a.toNat (bitsN b 24 16)) s.focus 5 (.sred (qType o) (qRm o) (b % 65536) (ownBytes s a.toNat (bitsN b 24 16))) a (bitsN b 24 16)
        (sDest 5 o.d) o.h.ta.toNat 0 s.clk false

/-! ### Fill, prefetch, signals (R310 to R312) -/

/-- ifill. -/
def semIfill (o : Q4) : OpSem :=
  let w := q4Word 0x09 o
  let ea (s : State) : Dword := memAddr s.cur 5 o
  let first (v : Nat) : Nat := bitsN v 10 0
  let count (v : Nat) : Nat := bitsN v 22 12 + 1
  asyncOp o.h w (wellFormed (.ifill o)) [o.a, o.b, o.c]
    (fun s =>
      let v := (readS s.cur 5 o.d).toNat
      if bitN v 11 ∨ v / 2 ^ 23 ≠ 0 ∨ 2048 < first v + count v ∨ 2 ≤ eaSpace (ea s) then some (0x03, opForm w)
      else if eaSpace (ea s) = 1 then globalCheck s w (ea s) (64 * count v) 64 false true
      else if (ea s).toNat % 64 ≠ 0 then some (0x07, addrForm (ea s).toNat false false)
      else if !vaultOk s (s.ctxD s.focus) (eaAddr (ea s)) (64 * count v) then some (0x0A, addrForm (ea s).toNat false false) else none)
    fun s =>
      let v := (readS s.cur 5 o.d).toNat
      startWide s s.focus 5 (.ifill (first v) (count v)) (ea s) (64 * count v) .none o.h.ta.toNat 0
/-- pref. -/
def semPref (o : Q4) : OpSem :=
  let w := q4Word 0x0A o
  asyncOp o.h w (wellFormed (.pref o)) [o.a, o.b, o.c]
    (fun s =>
      let n := (readS s.cur 5 o.d).toNat
      if n < 1 ∨ 2 ^ 30 < n then some (0x03, opForm w) else none)
    fun s => startAt s s.focus 5 (.pref (readS s.cur 5 o.d).toNat) (memAddr s.cur 5 o) 1 .none o.h.ta.toNat 0 (s.clk + s.delay) false
/-- sig. -/
def semSig (o : Q4) : OpSem :=
  let w := q4Word 0x0C o
  asyncOp o.h w (wellFormed (.sig o)) [o.a, o.b] (fun s => globalCheck s w (readS s.cur 5 o.a) 8 8 true false)
    fun s => startAccess s s.focus 5 (.sig (readS s.cur 5 o.b)) (readS s.cur 5 o.a) 8 .none o.h.ta.toNat 0 true

/-! ### Withdrawal, queries, heat, migration (R305, R313 to R315) -/

/-- wdraw. -/
def semWdraw (o : Q4) : OpSem :=
  asyncOp o.h (q4Word 0x0D o) (wellFormed (.wdraw o)) [o.a] (fun s => wordCheck s (readS s.cur 5 o.a) 8 false)
    fun s => startAt s s.focus 5 (.wdraw (readS s.cur 5 o.a).toNat) (readS s.cur 5 o.a) 8 (sDest 5 o.d) o.h.ta.toNat 0 s.clk false
/-- Reserved bits of a job handle (R313). -/
def handleBad (v : Nat) : Bool :=
  match v / 2 ^ 62 with
  | 0 => decide (bitsN v 61 9 ≠ 0)
  | 1 => decide (bitsN v 61 13 ≠ 0)
  | 2 => decide (bitsN v 61 7 ≠ 0)
  | _ => true
/-- jobq: the state 4 clk after issue. -/
def semJobq (o : Q4) : OpSem :=
  let w := q4Word 0x0E o
  asyncOp o.h w (wellFormed (.jobq o)) [o.a] (fun s => if handleBad (readS s.cur 5 o.a).toNat then some (0x03, opForm w) else none)
    fun s => startAt s s.focus 5 (.jobq (readS s.cur 5 o.a)) 0 8 (sDest 5 o.d) o.h.ta.toNat 0 (s.clk + 4) false
/-- heat: 20 clk after issue. -/
def semHeat (o : Q4) : OpSem :=
  let w := q4Word 0x0F o
  asyncOp o.h w (wellFormed (.heat o)) [o.a] (fun s => globalCheck s w (readS s.cur 5 o.a) 1 1 false false)
    fun s => startAt s s.focus 5 .heat (readS s.cur 5 o.a) 1 (sDest 5 o.d) o.h.ta.toNat 0 (s.clk + 20) false
/-- mig. -/
def semMig (o : Q4) : OpSem :=
  let w := q4Word 0x10 o
  asyncOp o.h w (wellFormed (.mig o)) [o.a, o.b]
    (fun s =>
      if eaSpace (readS s.cur 5 o.a) ≠ 1 ∨ (readS s.cur 5 o.b).toNat / 2 ≠ 0 then some (0x03, opForm w)
      else globalCheck s w (readS s.cur 5 o.a) 1 1 false false)
    fun s => startAt s s.focus 5 (.mig ((readS s.cur 5 o.b).getLsbD 0)) (readS s.cur 5 o.a) 1 (sDest 5 o.d) o.h.ta.toNat 0 s.clk false

/-! ### The meanings: each op issued alone -/

/-- CPY issues alone (R293). -/
def execCpy (o : Q4) (s : State) : Outcome := runOne (semCpy o) s
/-- CPYR issues alone (R293). -/
def execCpyr (o : Q4) (s : State) : Outcome := runOne (semCpyr o) s
/-- COLL issues alone (R293). -/
def execColl (o : Q4) (s : State) : Outcome := runOne (semColl o) s
/-- TRIG issues alone (R309). -/
def execTrig (o : Q4) (s : State) : Outcome := runOne (semTrig o) s
/-- BINIT issues alone (R306). -/
def execBinit (o : Q4) (s : State) : Outcome := runOne (semBinit o) s
/-- BEXP issues alone (R306). -/
def execBexp (o : Q4) (s : State) : Outcome := runOne (semBexp o) s
/-- BARR issues alone (R306). -/
def execBarr (o : Q4) (s : State) : Outcome := runOne (semBarr o) s
/-- BWAIT issues alone (R307). -/
def execBwait (o : Q4) (s : State) : Outcome := runOne (semBwait o) s
/-- SRED issues alone (R308). -/
def execSred (o : Q4) (s : State) : Outcome := runOne (semSred o) s
/-- IFILL issues alone (R311). -/
def execIfill (o : Q4) (s : State) : Outcome := runOne (semIfill o) s
/-- PREF issues alone (R312). -/
def execPref (o : Q4) (s : State) : Outcome := runOne (semPref o) s
/-- SIG issues alone (R310). -/
def execSig (o : Q4) (s : State) : Outcome := runOne (semSig o) s
/-- WDRAW issues alone (R305). -/
def execWdraw (o : Q4) (s : State) : Outcome := runOne (semWdraw o) s
/-- JOBQ issues alone (R313). -/
def execJobq (o : Q4) (s : State) : Outcome := runOne (semJobq o) s
/-- HEAT issues alone (R314). -/
def execHeat (o : Q4) (s : State) : Outcome := runOne (semHeat o) s
/-- MIG issues alone (R315). -/
def execMig (o : Q4) (s : State) : Outcome := runOne (semMig o) s

end Sys2Proof.Machine
end

