-- ==== Sys2Proof/Machine/Vector.lean ====
section
/-!
DEFINITION. Vector.lean: the V ops (R220 to R244): element-wise arithmetic, compares, predicates, absorb tests, logic, formats, lane
movement, reductions, scan and the conditional queues.  Each stands in V0 or V1.
-/
namespace Sys2Proof.Machine

/-! ### The common form -/

/-- The first poisoned word under a vector source that names vector registers (R224, R463). -/
def vPoison (c : Core) (o : Operand) (g : Nat) : Option Nat := if o.level = 0 then rsBad c (vregAddr c o.ix) (256 * g) else none

/-- The state-dependent checks of a V op: VIEW0 limits of sources and destination with their group sizes, a further test, and errors in
the register space it reads (R406, R463). -/
def vCheck (c : Core) (w : Nat) (srcs dst : List (Operand × Nat)) (extra : Core → Bool) : Option (Nat × Dword) :=
  if !((srcs ++ dst).all fun e => vopOk c e.1 e.2) || !extra c then some (0x03, opForm w)
  else (srcs.findSome? fun e => vPoison c e.1 e.2).map fun a => (0x0F, rsTval a)

/-- How a V op is carried: unit, header fields, op word, whether it is well formed, and the slot's busy clk. -/
structure VTop where
  u : VUnit
  h : Head
  w : Nat
  wf : Bool
  busy : Nat := 0

/-- A V op that writes a group of g vectors, in the lanes of its mask or in all of them (R222). -/
def vecOp (t : VTop) (srcs : List (Operand × Nat)) (d : Operand) (g lat : Nat) (all : Bool) (f : Core → Dword → List Vec)
    (extra : Core → Bool := fun _ => true) : OpSem :=
  { slot := t.u.slot, head := t.h, word := t.w, wf := t.wf, reads := srcs.map (·.1), unit := some t.u.slot.num, beats := t.busy,
    check := fun s => vCheck (s.core s.focus) t.w srcs [(d, g)] extra,
    outs := fun s mask =>
      let c := s.core s.focus
      let vs := f c mask
      (List.range g).map fun j => (lat, vDest c t.u.slot.num d j, .v (if all then allOnes else mask) (vs.getD j 0)),
    latch := some lat,
    latchVal := fun s mask => .v (laneMerge mask ((f (s.core s.focus) mask).getD 0 0) 0) }

/-- A V op that writes a predicate in the lanes of its mask (R222). -/
def vpredOp (t : VTop) (srcs : List (Operand × Nat)) (d : Operand) (lat : Nat) (f : Core → Dword) : OpSem :=
  { slot := t.u.slot, head := t.h, word := t.w, wf := t.wf, reads := srcs.map (·.1), unit := some t.u.slot.num, beats := t.busy,
    check := fun s => vCheck (s.core s.focus) t.w srcs [] fun _ => true,
    outs := fun s mask => [(lat, .p d.ix, .p mask (f (s.core s.focus)))],
    latch := some lat, latchVal := fun s mask => .v (BitVec.setWidth 2048 (f (s.core s.focus) &&& mask)) }

/-- Element-wise on A, on A and B, and on A, B and C, over raw elements of a type. -/
def map1 (t : Nat) (f : Nat → Nat) (a : Vec) : Vec := vecOfElems t ((vecElems t a).map f)
@[inherit_doc map1] def map2 (t : Nat) (f : Nat → Nat → Nat) (a b : Vec) : Vec := vecOfElems t (List.zipWith f (vecElems t a) (vecElems t b))
@[inherit_doc map1] def map3 (t : Nat) (f : Nat → Nat → Nat → Nat) (a b c : Vec) : Vec :=
  vecOfElems t (List.zipWith (fun g x => g x) (List.zipWith f (vecElems t a) (vecElems t b)) (vecElems t c))

/-- A two-operand element-wise op of the type its qualifier names. -/
def vOp2 (u : VUnit) (opc : Nat) (o : Q4) (wf : Bool) (lat : Nat) (f : Nat → Nat → Nat → Nat) : OpSem :=
  vecOp ⟨u, o.h, q4Word opc o, wf, 0⟩ [(o.a, 1), (o.b, 1)] o.d 1 lat false
    fun c _ => [map2 (qType o) (f (qType o)) (readV c u.slot.num o.a) (readV c u.slot.num o.b)]
/-- A one-operand element-wise op. -/
def vOp1 (u : VUnit) (opc : Nat) (o : Q4) (wf : Bool) (lat busy : Nat) (f : Nat → Nat → Nat) : OpSem :=
  vecOp ⟨u, o.h, q4Word opc o, wf, busy⟩ [(o.a, 1)] o.d 1 lat false fun c _ => [map1 (qType o) (f (qType o)) (readV c u.slot.num o.a)]
/-- A four-operand op of a fixed type (R226). -/
def vOp4 (u : VUnit) (opc : Nat) (o : Q4) (wf : Bool) (t : Nat) (f : Nat → Nat → Nat → Nat) : OpSem :=
  vecOp ⟨u, o.h, q4Word opc o, wf, 0⟩ [(o.a, 1), (o.b, 1), (o.c, 1)] o.d 1 4 false
    fun c _ => [map3 t f (readV c u.slot.num o.a) (readV c u.slot.num o.b) (readV c u.slot.num o.c)]

/-! ### Element-wise arithmetic (R225) -/

/-- A floating function for the types of F, an exact integer one modulo 2^w for those of I. -/
def arith (t : Nat) (f : Nat → Nat → Nat) (g : Int → Int → Int) (a b : Nat) : Nat :=
  if isFloat t then f a b else rawOf t (g (intOf t a) (intOf t b))
/-- vadd. -/
def semVadd (u : VUnit) (o : Q4) : OpSem := vOp2 u 0x01 o (wellFormed (.vadd u o)) 4 fun t => arith t (fadd t (qRm o)) (· + ·)
/-- vsub. -/
def semVsub (u : VUnit) (o : Q4) : OpSem := vOp2 u 0x02 o (wellFormed (.vsub u o)) 4 fun t => arith t (fsub t (qRm o)) (· - ·)
/-- vmul. -/
def semVmul (u : VUnit) (o : Q4) : OpSem := vOp2 u 0x03 o (wellFormed (.vmul u o)) 4 fun t => arith t (fmul t (qRm o)) (· * ·)
/-- vmin. -/
def semVmin (u : VUnit) (o : Q4) : OpSem := vOp2 u 0x04 o (wellFormed (.vmin u o)) 4 fun t => arith t (fmin t) min
/-- vmax. -/
def semVmax (u : VUnit) (o : Q4) : OpSem := vOp2 u 0x05 o (wellFormed (.vmax u o)) 4 fun t => arith t (fmax t) max
/-- Sign cleared, or the canonical NaN. -/
def fabsBits (t a : Nat) : Nat := if (fdec t a).isNan then fmtNan t else a % fmtSign t
/-- Sign inverted, or the canonical NaN. -/
def fnegBits (t a : Nat) : Nat := if (fdec t a).isNan then fmtNan t else (a + fmtSign t) % (2 * fmtSign t)
/-- vabs. -/
def semVabs (u : VUnit) (o : Q4) : OpSem :=
  vOp1 u 0x06 o (wellFormed (.vabs u o)) 4 0 fun t a => if isFloat t then fabsBits t a else rawOf t (intOf t a).natAbs
/-- vneg. -/
def semVneg (u : VUnit) (o : Q4) : OpSem :=
  vOp1 u 0x07 o (wellFormed (.vneg u o)) 4 0 fun t a => if isFloat t then fnegBits t a else rawOf t (-(intOf t a))
/-- vmulh. -/
def semVmulh (u : VUnit) (o : Q4) : OpSem :=
  vOp2 u 0x30 o (wellFormed (.vmulh u o)) 4 fun t a b => rawOf t (intOf t a * intOf t b / (2 ^ tyW t : Nat))
/-- vadds. -/
def semVadds (u : VUnit) (o : Q4) : OpSem := vOp2 u 0x31 o (wellFormed (.vadds u o)) 4 fun t a b => satInt t (intOf t a + intOf t b)
/-- vsubs. -/
def semVsubs (u : VUnit) (o : Q4) : OpSem := vOp2 u 0x32 o (wellFormed (.vsubs u o)) 4 fun t a b => satInt t (intOf t a - intOf t b)

/-! ### Fused operations and clamps (R226) -/

/-- a·b + c, a·b − c and c − a·b, rounded once. -/
def fused (t : Nat) (negP negC : Bool) (a b c : Nat) : Nat :=
  let a := if negP then fneg (fdec t a) else fdec t a
  ffma t a (fdec t b) (if negC then fneg (fdec t c) else fdec t c)
/-- vfma.f32. -/
def semVfmaF32 (u : VUnit) (o : Q4) : OpSem := vOp4 u 0x08 o (wellFormed (.vfmaF32 u o)) 0 (fused 0 false false)
/-- vfma.f16. -/
def semVfmaF16 (u : VUnit) (o : Q4) : OpSem := vOp4 u 0x09 o (wellFormed (.vfmaF16 u o)) 1 (fused 1 false false)
/-- vfma.bf16. -/
def semVfmaBf16 (u : VUnit) (o : Q4) : OpSem := vOp4 u 0x0A o (wellFormed (.vfmaBf16 u o)) 2 (fused 2 false false)
/-- vfms.f32. -/
def semVfmsF32 (u : VUnit) (o : Q4) : OpSem := vOp4 u 0x0B o (wellFormed (.vfmsF32 u o)) 0 (fused 0 false true)
/-- vfms.f16. -/
def semVfmsF16 (u : VUnit) (o : Q4) : OpSem := vOp4 u 0x0C o (wellFormed (.vfmsF16 u o)) 1 (fused 1 false true)
/-- vfms.bf16. -/
def semVfmsBf16 (u : VUnit) (o : Q4) : OpSem := vOp4 u 0x0D o (wellFormed (.vfmsBf16 u o)) 2 (fused 2 false true)
/-- vfnma.f32. -/
def semVfnmaF32 (u : VUnit) (o : Q4) : OpSem := vOp4 u 0x0E o (wellFormed (.vfnmaF32 u o)) 0 (fused 0 true false)
/-- vfnma.f16. -/
def semVfnmaF16 (u : VUnit) (o : Q4) : OpSem := vOp4 u 0x0F o (wellFormed (.vfnmaF16 u o)) 1 (fused 1 true false)
/-- vfnma.bf16. -/
def semVfnmaBf16 (u : VUnit) (o : Q4) : OpSem := vOp4 u 0x10 o (wellFormed (.vfnmaBf16 u o)) 2 (fused 2 true false)
/-- vclamp.f32. -/
def semVclampF32 (u : VUnit) (o : Q4) : OpSem := vOp4 u 0x11 o (wellFormed (.vclampF32 u o)) 0 fun a b c => fmin 0 (fmax 0 a b) c
/-- Integer clamp of a type. -/
def clampInt (t a b c : Nat) : Nat := rawOf t (min (max (intOf t a) (intOf t b)) (intOf t c))
/-- vclamp.s32. -/
def semVclampS32 (u : VUnit) (o : Q4) : OpSem := vOp4 u 0x12 o (wellFormed (.vclampS32 u o)) 5 (clampInt 5)
/-- vclamp.z32. -/
def semVclampZ32 (u : VUnit) (o : Q4) : OpSem := vOp4 u 0x13 o (wellFormed (.vclampZ32 u o)) 9 (clampInt 9)

/-! ### Functions (R227, R141) -/

/-- vrcp. -/
def semVrcp (u : VUnit) (o : Q4) : OpSem := vOp1 u 0x18 o (wellFormed (.vrcp u o)) 12 4 fun _ => frcp 0 (qRm o)
/-- vrsqrt. -/
def semVrsqrt (u : VUnit) (o : Q4) : OpSem := vOp1 u 0x19 o (wellFormed (.vrsqrt u o)) 12 4 fun _ => frsqrt 0 (qRm o)
/-- vsqrt. -/
def semVsqrt (u : VUnit) (o : Q4) : OpSem := vOp1 u 0x1A o (wellFormed (.vsqrt u o)) 12 4 fun _ => fsqrt 0 (qRm o)
/-- vexp2. -/
def semVexp2 (u : VUnit) (o : Q4) : OpSem := vOp1 u 0x1B o (wellFormed (.vexp2 u o)) 12 4 fun _ => fexp2 0 (qRm o)
/-- vlog2. -/
def semVlog2 (u : VUnit) (o : Q4) : OpSem := vOp1 u 0x1C o (wellFormed (.vlog2 u o)) 12 4 fun _ => flog2 0 (qRm o)

/-! ### Compare, select, predicates (R228 to R230) -/

/-- a < b of a type of F or I. -/
def elemLt (t a b : Nat) : Bool := if isFloat t then fltV (fdec t a) (fdec t b) else decide (intOf t a < intOf t b)
/-- An element is a NaN. -/
def elemNan (t a : Nat) : Bool := isFloat t && (fdec t a).isNan
/-- The comparison codes of R228. -/
def cmpHolds (t code a b : Nat) : Bool :=
  let un := elemNan t a || elemNan t b
  let eq := !un && !elemLt t a b && !elemLt t b a
  match code with
  | 0 => eq
  | 1 => !eq
  | 2 => elemLt t a b
  | 3 => elemLt t a b || eq
  | 4 => elemLt t b a
  | 5 => elemLt t b a || eq
  | 6 => un
  | _ => !un
/-- vcmp. -/
def semVcmp (u : VUnit) (o : Q4) : OpSem :=
  vOp2 u 0x20 o (wellFormed (.vcmp u o)) 4 fun t a b => if cmpHolds t (qSub o) a b then 2 ^ tyW t - 1 else 0
/-- vsel. -/
def semVsel (u : VUnit) (o : Q4) : OpSem :=
  vecOp ⟨u, o.h, q4Word 0x21 o, wellFormed (.vsel u o), 0⟩ [(o.a, 1), (o.b, 1)] o.d 1 2 false
    fun c _ => [laneMerge (c.readP (qSub o)) (readV c u.slot.num o.a) (readV c u.slot.num o.b)]
/-- A predicate made from the lanes of A. -/
def lanePred (u : VUnit) (opc : Nat) (o : Q4) (wf : Bool) (f : Vec → Nat → Bool) : OpSem :=
  vpredOp ⟨u, o.h, q4Word opc o, wf, 0⟩ [(o.a, 1)] o.d 2 fun c => maskOf 64 (f (readV c u.slot.num o.a))
/-- vmovp.any. -/
def semVmovpAny (u : VUnit) (o : Q4) : OpSem := lanePred u 0x23 o (wellFormed (.vmovpAny u o)) fun v i => decide (lane v i ≠ 0)
/-- vmovp.all. -/
def semVmovpAll (u : VUnit) (o : Q4) : OpSem :=
  lanePred u 0x23 o (wellFormed (.vmovpAll u o)) fun v i => decide (lane v i = 0xFFFFFFFF)
/-- vmovp.v. -/
def semVmovpV (u : VUnit) (o : Q4) : OpSem :=
  vecOp ⟨u, o.h, q4Word 0x23 o, wellFormed (.vmovpV u o), 0⟩ [] o.d 1 2 false
    fun c _ => [laneMerge (readPred c o.a) (BitVec.allOnes 2048) 0]

/-! ### Absorb tests (R231, R232) -/

/-- The raw elements of the lanes of a mask. -/
def maskedElems (t : Nat) (mask : Dword) (v : Vec) : List Nat :=
  (List.range 64).flatMap fun i => if mask.getLsbD i then unpackElems t (toBytes 4 (lane v i).toNat) else []
/-- vtst. -/
def semVtst (u : VUnit) (o : Q4) : OpSem :=
  lanePred u 0x22 o (wellFormed (.vtst u o)) fun v i => testElems (qType o) (qSub o) (unpackElems (qType o) (toBytes 4 (lane v i).toNat))
/-- vtst.sum. -/
def semVtstSum (u : VUnit) (o : Q4) : OpSem :=
  vecOp ⟨u, o.h, q4Word 0x22 o, wellFormed (.vtstSum u o), 0⟩ [(o.a, 1)] o.d 1 2 false
    fun c mask => [splat (BitVec.ofNat 32 (summaryOf (qType o) (maskedElems (qType o) mask (readV c u.slot.num o.a))))]

/-! ### Logic and shifts (R233) -/

/-- A logic op over all 256 bytes. -/
def vLogic (u : VUnit) (opc : Nat) (o : Q4) (wf : Bool) (f : Vec → Vec → Vec) : OpSem :=
  vecOp ⟨u, o.h, q4Word opc o, wf, 0⟩ [(o.a, 1), (o.b, 1)] o.d 1 2 false
    fun c _ => [f (readV c u.slot.num o.a) (readV c u.slot.num o.b)]
/-- vand. -/
def semVand (u : VUnit) (o : Q4) : OpSem := vLogic u 0x28 o (wellFormed (.vand u o)) (· &&& ·)
/-- vor. -/
def semVor (u : VUnit) (o : Q4) : OpSem := vLogic u 0x29 o (wellFormed (.vor u o)) (· ||| ·)
/-- vxor. -/
def semVxor (u : VUnit) (o : Q4) : OpSem := vLogic u 0x2A o (wellFormed (.vxor u o)) (· ^^^ ·)
/-- vnot. -/
def semVnot (u : VUnit) (o : Q4) : OpSem :=
  vecOp ⟨u, o.h, q4Word 0x2B o, wellFormed (.vnot u o), 0⟩ [(o.a, 1)] o.d 1 2 false fun c _ => [~~~(readV c u.slot.num o.a)]
/-- vshl. -/
def semVshl (u : VUnit) (o : Q4) : OpSem :=
  vOp2 u 0x2C o (wellFormed (.vshl u o)) 2 fun t a n => if tyW t ≤ n then 0 else a * 2 ^ n % 2 ^ tyW t
/-- vshr. -/
def semVshr (u : VUnit) (o : Q4) : OpSem := vOp2 u 0x2D o (wellFormed (.vshr u o)) 2 fun t a n => if tyW t ≤ n then 0 else a / 2 ^ n
/-- Arithmetic right shift of a w-bit element by min(n, w). -/
def sarElem (w a n : Nat) : Nat :=
  let v : Int := if 2 ^ (w - 1) ≤ a then (a : Int) - (2 ^ w : Nat) else a
  (v / (2 ^ min n w : Nat) % (2 ^ w : Nat)).toNat
/-- vsar. -/
def semVsar (u : VUnit) (o : Q4) : OpSem := vOp2 u 0x2E o (wellFormed (.vsar u o)) 2 fun t => sarElem (tyW t)

/-! ### Formats (R234 to R236) -/

/-- The raw elements of a group of vectors. -/
def groupElems (c : Core) (sl t : Nat) (o : Operand) (g : Nat) : List Nat := (List.range g).flatMap fun j => vecElems t (readV c sl o j)
/-- Elements per vector (R220). -/
def perVec (t : Nat) : Nat := 512 / size2 t
/-- g vectors from raw elements. -/
def groupVecs (t g : Nat) (l : List Nat) : List Vec := (List.range g).map fun j => vecOfElems t ((l.drop (j * perVec t)).take (perVec t))
/-- A conversion of raw elements of S to raw elements of T (R234): between equal floating types only a NaN changes. -/
def convertElems (T S mode : Nat) (ovfInf : Bool) (l : List Nat) : List Nat :=
  if T = S ∧ isFloat T then l.map fun a => if (fdec T a).isNan then fmtNan T else a
  else encodeElems T mode ovfInf (decodeElems S l)
/-- vcvt. -/
def semVcvt (u : VUnit) (o : Q4) : OpSem :=
  vecOp ⟨u, o.h, q4Word 0x38 o, wellFormed (.vcvt u o), 0⟩ [(o.a, cvtSrcG o)] o.d (cvtDstG o) 3 false
    fun c _ => groupVecs (qType o) (cvtDstG o)
      (convertElems (qType o) (qSub o) (qRm o) (qOvf o) (groupElems c u.slot.num (qSub o) o.a (cvtSrcG o)))
/-- The values q of R147 for a group of .f32 vectors with the lane scales of B. -/
def quantVals (tab : List Dword) (l : List Nat) (scales : Vec) : List Fv :=
  (List.range l.length).map fun e => vquantQ tab (l.getD e 0) (lane scales (e % 64)).toNat
/-- vquant. -/
def semVquant (u : VUnit) (o : Q4) : OpSem :=
  vecOp ⟨u, o.h, q4Word 0x39 o, wellFormed (.vquant u o), 0⟩ [(o.a, 8 / size2 (qType o)), (o.b, 1)] o.d 1 3 false
    (fun c _ => groupVecs (qType o) 1
      (encodeElems (qType o) (qRm o) false
        (quantVals (ctabOf c (qSub o)) (groupElems c u.slot.num 0 o.a (8 / size2 (qType o))) (readV c u.slot.num o.b))))
    fun c => ctabValid (ctabOf c (qSub o))
/-- The unit of a type (R236): a byte under .o4. -/
def unitTy (t : Nat) : Nat := if t = 12 then 11 else t
/-- An op on the units of A and B. -/
def vUnits (u : VUnit) (opc : Nat) (o : Q4) (wf : Bool) (lat : Nat) (f : List Nat → List Nat → Nat → Nat) : OpSem :=
  vecOp ⟨u, o.h, q4Word opc o, wf, 0⟩ [(o.a, 1), (o.b, 1)] o.d 1 lat false fun c _ =>
    let a := vecElems (unitTy (qType o)) (readV c u.slot.num o.a)
    let b := vecElems (unitTy (qType o)) (readV c u.slot.num o.b)
    [vecOfElems (unitTy (qType o)) ((List.range a.length).map (f a b))]
/-- vpack. -/
def semVpack (u : VUnit) (o : Q4) : OpSem :=
  vUnits u 0x3A o (wellFormed (.vpack u o)) 3 fun a b e => (if e % 2 = 0 then a else b).getD (e / 2 + qSub o * (a.length / 2)) 0
/-- vunpack. -/
def semVunpack (u : VUnit) (o : Q4) : OpSem :=
  vUnits u 0x3B o (wellFormed (.vunpack u o)) 3 fun a b e =>
    if e < a.length / 2 then a.getD (2 * e + qSub o) 0 else b.getD (2 * (e - a.length / 2) + qSub o) 0

/-! ### Lane movement (R237) -/

/-- An op whose B is a scalar. -/
def vScalarB (u : VUnit) (opc : Nat) (o : Q4) (wf : Bool) (lat : Nat) (f : List Nat → Nat → Nat → Nat) : OpSem :=
  vecOp ⟨u, o.h, q4Word opc o, wf, 0⟩ [(o.a, 1), (o.b, 1)] o.d 1 lat false fun c _ =>
    let a := vecElems (unitTy (qType o)) (readV c u.slot.num o.a)
    [vecOfElems (unitTy (qType o)) ((List.range a.length).map (f a (readVS c u.slot.num o.b).toNat))]
/-- vbcast. -/
def semVbcast (u : VUnit) (o : Q4) : OpSem :=
  vScalarB u 0x40 o (wellFormed (.vbcast u o)) 2 fun a k _ => a.getD (k % a.length) 0
/-- vshuf. -/
def semVshuf (u : VUnit) (o : Q4) : OpSem :=
  vUnits u 0x41 o (wellFormed (.vshuf u o)) 3 fun a b e => a.getD (b.getD e 0 % a.length) 0
/-- vrot. -/
def semVrot (u : VUnit) (o : Q4) : OpSem :=
  vScalarB u 0x42 o (wellFormed (.vrot u o)) 3 fun a k e => a.getD ((e + k) % a.length) 0
/-- vidx. -/
def semVidx (u : VUnit) (o : Q4) : OpSem :=
  vecOp ⟨u, o.h, q4Word 0x43 o, wellFormed (.vidx u o), 0⟩ [(o.a, 1), (o.b, 1)] o.d 1 3 false fun c _ =>
    let t := qType o
    [vecOfElems t ((List.range (perVec t)).map fun e =>
      ((readVS c u.slot.num o.a).toNat + e * (readVS c u.slot.num o.b).toNat) % 2 ^ tyW t)]

/-! ### Reductions and scan (R238 to R241) -/

/-- One level of the tree of R142. -/
def pairSums : List Nat → List Nat
  | a :: b :: t => fadd 0 0 a b :: pairSums t
  | l => l
/-- The tree of R142 over 64 .f32 lane values. -/
def tree64 (l : List Nat) : Nat := (pairSums (pairSums (pairSums (pairSums (pairSums (pairSums l)))))).headD 0x80000000
/-- The .f32 value of lane i of a vector for vredadd (R239). -/
def redLane (t : Nat) (v : Vec) (i : Nat) : Nat :=
  if t = 0 then (lane v i).toNat
  else fenc 0 0 (faddX 0 (fdec t ((lane v i).toNat % 65536)) (fdec t ((lane v i).toNat / 65536)))
/-- One beat of vredadd. -/
def redBeat (t : Nat) (mask : Dword) (acc : Nat) (v : Vec) : Nat :=
  if isFloat t then fadd 0 0 acc (tree64 ((List.range 64).map fun i => if mask.getLsbD i then redLane t v i else 0x80000000))
  else (acc + ((List.range 64).map fun i => if mask.getLsbD i then (lane v i).toNat else 0).sum) % 2 ^ 32
/-- The source vectors of a group. -/
def groupOf (c : Core) (sl : Nat) (o : Operand) (g : Nat) : List Vec := (List.range g).map fun j => readV c sl o j
/-- A reduction to one word in every lane. -/
def vReduce (u : VUnit) (opc : Nat) (o : Str) (wf : Bool) (srcs : List (Operand × Nat)) (f : Core → Dword → Nat) : OpSem :=
  vecOp ⟨u, o.h, strWord opc o, wf, o.n⟩ srcs o.d 1 (o.n + 8) true fun c mask => [splat (BitVec.ofNat 32 (f c mask))]
/-- INIT of vredadd. -/
def redInit (o : Str) : Bool := decide (o.m / 2 % 2 = 1)
/-- vredadd. -/
def semVredadd (u : VUnit) (o : Str) : OpSem :=
  vReduce u 0x48 o (wellFormed (.vredadd u o)) ((o.a, o.n) :: if redInit o then [(o.b, 1)] else []) fun c mask =>
    (groupOf c u.slot.num o.a o.n).foldl (redBeat o.ty mask)
      (if redInit o then (readVS c u.slot.num o.b).toNat else if isFloat o.ty then 0x80000000 else 0)
/-- The order of vredmax, vredmin and vscan: a type's maximum or minimum (R137, R240). -/
def extreme (t : Nat) (big : Bool) (a b : Nat) : Nat :=
  if t = 0 then (if big then fmax 0 a b else fmin 0 a b)
  else rawOf t (if big then max (intOf t a) (intOf t b) else min (intOf t a) (intOf t b))
/-- The identity of vredmax and vredmin (R240). -/
def extremeId (t : Nat) (big : Bool) : Nat :=
  match t with
  | 0 => if big then 0xFF800000 else 0x7F800000
  | 5 => if big then 0x80000000 else 0x7FFFFFFF
  | _ => if big then 0 else 0xFFFFFFFF
/-- vredmax or vredmin over a group (R240). -/
def redExtreme (o : Str) (big : Bool) (c : Core) (sl : Nat) (mask : Dword) : Nat :=
  let l := (groupOf c sl o.a o.n).flatMap (maskedElems 9 mask)
  let l := if o.m / 2 % 2 = 1 then l.map (· % 2 ^ 31) else l
  let l := if o.m % 2 = 1 then l.filter fun e => !(fdec 0 e).isNan else l
  l.foldl (extreme o.ty big) (extremeId o.ty big)
/-- vredmax. -/
def semVredmax (u : VUnit) (o : Str) : OpSem :=
  vReduce u 0x49 o (wellFormed (.vredmax u o)) [(o.a, o.n)] fun c mask => redExtreme o true c u.slot.num mask
/-- vredmin. -/
def semVredmin (u : VUnit) (o : Str) : OpSem :=
  vReduce u 0x4A o (wellFormed (.vredmin u o)) [(o.a, o.n)] fun c mask => redExtreme o false c u.slot.num mask
/-- combine of R241. -/
def scanCombine (t kind a b : Nat) : Nat :=
  if kind = 0 then (if t = 0 then fadd 0 0 a b else (a + b) % 2 ^ 32) else extreme t (decide (kind = 1)) a b
/-- The running values of a vector's lanes from a carry, and the carry out: lanes off in the mask keep 0 and pass the carry. -/
def scanLanes (t kind : Nat) (mask : Dword) (v : Vec) : List Nat → Nat → List Nat × Nat
  | [], c => ([], c)
  | i :: r, c =>
    if mask.getLsbD i then
      let c' := scanCombine t kind c (lane v i).toNat
      let p := scanLanes t kind mask v r c'
      (c' :: p.1, p.2)
    else
      let p := scanLanes t kind mask v r c
      (0 :: p.1, p.2)
/-- The destination vectors of vscan. -/
def scanVecs (t kind : Nat) (mask : Dword) : List Vec → Nat → List Vec
  | [], _ => []
  | v :: r, c => let p := scanLanes t kind mask v (List.range 64) c; vecOfElems 9 p.1 :: scanVecs t kind mask r p.2
/-- vscan. -/
def semVscan (u : VUnit) (o : Str) : OpSem :=
  vecOp ⟨u, o.h, strWord 0x4B o, wellFormed (.vscan u o), o.n⟩ [(o.a, o.n), (o.b, 1)] o.d o.n (o.n + 8) false fun c mask =>
    scanVecs o.ty (o.m % 4) mask (groupOf c u.slot.num o.a o.n) (readVS c u.slot.num o.b).toNat

/-! ### Conditional queues (R242 to R244) -/

/-- FIFO i of cqk. -/
def Core.cqGet (c : Core) (k i : Nat) : List Word := Tab.get [] c.cq (64 * k + i)
@[inherit_doc Core.cqGet] def Core.cqSet (c : Core) (k i : Nat) (l : List Word) : Core := { c with cq := Tab.put [] c.cq (64 * k + i) l }
/-- Lanes of a mask, rising. -/
def lanesOf (mask : Dword) : List Nat := (List.range 64).filter fun i => mask.getLsbD i

/-- A queue op: V0's effect stands before V1's, so the value is bound as the op acts (R224). -/
def queueOp (o : OpSem) (f : Core → Dword → Val × Core) : OpSem :=
  { o with
    binds := true,
    effect := fun rid s =>
      let c := s.core s.focus
      let r := f c (headMask c o.head)
      bindResult (s.setCore s.focus r.2) s.focus rid r.1 0 }

/-- Append the masked lanes that have room: which did, and the queues (R243). -/
def cqPush (c : Core) (k : Nat) (mask : Dword) (v : Vec) : Dword × Core :=
  (maskOf 64 fun i => mask.getLsbD i && decide ((c.cqGet k i).length < 16),
   (lanesOf mask).foldl (fun c i => if (c.cqGet k i).length < 16 then c.cqSet k i (c.cqGet k i ++ [lane v i]) else c) c)
/-- Remove the oldest record of the masked lanes (R243). -/
def cqPop (c : Core) (k : Nat) (mask : Dword) : Vec × Core :=
  (vecOfElems 9 ((List.range 64).map fun i => if mask.getLsbD i then ((c.cqGet k i).headD 0).toNat else 0),
   (lanesOf mask).foldl (fun c i => c.cqSet k i (c.cqGet k i).tail) c)
/-- Rebalance a queue among the masked lanes (R244). -/
def cqBalance (c : Core) (k beats : Nat) (mask : Dword) : Dword × Core :=
  let ls := lanesOf mask
  let seq := (List.range (min beats 16)).flatMap fun p => ls.filterMap fun i => (c.cqGet k i)[p]?
  let c' := (List.range ls.length).foldl (fun t j =>
    let i := ls.getD j 0
    let mine := (List.range seq.length).filterMap fun q => if q % ls.length = j then seq[q]? else none
    t.cqSet k i (mine ++ (c.cqGet k i).drop beats)) c
  (maskOf 64 fun i => mask.getLsbD i && !(c'.cqGet k i).isEmpty, c')

/-- vcpush. -/
def semVcpush (u : VUnit) (o : Q4) : OpSem :=
  queueOp (vpredOp ⟨u, o.h, q4Word 0x50 o, wellFormed (.vcpush u o), 0⟩ [(o.a, 1)] o.d 4 fun _ => 0) fun c mask =>
    let r := cqPush c (qSub o) mask (readV c u.slot.num o.a)
    (.p mask r.1, r.2)
/-- vcpop. -/
def semVcpop (u : VUnit) (o : Q4) : OpSem :=
  queueOp (vecOp ⟨u, o.h, q4Word 0x51 o, wellFormed (.vcpop u o), 0⟩ [] o.d 1 4 false fun _ _ => []) fun c mask =>
    let r := cqPop c (qSub o) mask
    (.v mask r.1, r.2)
/-- vcbal. -/
def semVcbal (u : VUnit) (o : Str) : OpSem :=
  queueOp (vpredOp ⟨u, o.h, strWord 0x52 o, wellFormed (.vcbal u o), o.n⟩ [] o.d (o.n + 4) fun _ => 0) fun c mask =>
    let r := cqBalance c o.m o.n mask
    (.p mask r.1, r.2)

/-! ### The meanings: each op issued alone -/

/-- VADD issues alone (R225). -/
def execVadd (u : VUnit) (o : Q4) (s : State) : Outcome := runOne (semVadd u o) s
/-- VSUB issues alone (R225). -/
def execVsub (u : VUnit) (o : Q4) (s : State) : Outcome := runOne (semVsub u o) s
/-- VMUL issues alone (R225). -/
def execVmul (u : VUnit) (o : Q4) (s : State) : Outcome := runOne (semVmul u o) s
/-- VMIN issues alone (R225). -/
def execVmin (u : VUnit) (o : Q4) (s : State) : Outcome := runOne (semVmin u o) s
/-- VMAX issues alone (R225). -/
def execVmax (u : VUnit) (o : Q4) (s : State) : Outcome := runOne (semVmax u o) s
/-- VABS issues alone (R225). -/
def execVabs (u : VUnit) (o : Q4) (s : State) : Outcome := runOne (semVabs u o) s
/-- VNEG issues alone (R225). -/
def execVneg (u : VUnit) (o : Q4) (s : State) : Outcome := runOne (semVneg u o) s
/-- VMULH issues alone (R225). -/
def execVmulh (u : VUnit) (o : Q4) (s : State) : Outcome := runOne (semVmulh u o) s
/-- VADDS issues alone (R225). -/
def execVadds (u : VUnit) (o : Q4) (s : State) : Outcome := runOne (semVadds u o) s
/-- VSUBS issues alone (R225). -/
def execVsubs (u : VUnit) (o : Q4) (s : State) : Outcome := runOne (semVsubs u o) s
/-- VFMA_F32 issues alone (R226). -/
def execVfmaF32 (u : VUnit) (o : Q4) (s : State) : Outcome := runOne (semVfmaF32 u o) s
/-- VFMA_F16 issues alone (R226). -/
def execVfmaF16 (u : VUnit) (o : Q4) (s : State) : Outcome := runOne (semVfmaF16 u o) s
/-- VFMA_BF16 issues alone (R226). -/
def execVfmaBf16 (u : VUnit) (o : Q4) (s : State) : Outcome := runOne (semVfmaBf16 u o) s
/-- VFMS_F32 issues alone (R226). -/
def execVfmsF32 (u : VUnit) (o : Q4) (s : State) : Outcome := runOne (semVfmsF32 u o) s
/-- VFMS_F16 issues alone (R226). -/
def execVfmsF16 (u : VUnit) (o : Q4) (s : State) : Outcome := runOne (semVfmsF16 u o) s
/-- VFMS_BF16 issues alone (R226). -/
def execVfmsBf16 (u : VUnit) (o : Q4) (s : State) : Outcome := runOne (semVfmsBf16 u o) s
/-- VFNMA_F32 issues alone (R226). -/
def execVfnmaF32 (u : VUnit) (o : Q4) (s : State) : Outcome := runOne (semVfnmaF32 u o) s
/-- VFNMA_F16 issues alone (R226). -/
def execVfnmaF16 (u : VUnit) (o : Q4) (s : State) : Outcome := runOne (semVfnmaF16 u o) s
/-- VFNMA_BF16 issues alone (R226). -/
def execVfnmaBf16 (u : VUnit) (o : Q4) (s : State) : Outcome := runOne (semVfnmaBf16 u o) s
/-- VCLAMP_F32 issues alone (R226). -/
def execVclampF32 (u : VUnit) (o : Q4) (s : State) : Outcome := runOne (semVclampF32 u o) s
/-- VCLAMP_S32 issues alone (R226). -/
def execVclampS32 (u : VUnit) (o : Q4) (s : State) : Outcome := runOne (semVclampS32 u o) s
/-- VCLAMP_Z32 issues alone (R226). -/
def execVclampZ32 (u : VUnit) (o : Q4) (s : State) : Outcome := runOne (semVclampZ32 u o) s
/-- VRCP issues alone (R227). -/
def execVrcp (u : VUnit) (o : Q4) (s : State) : Outcome := runOne (semVrcp u o) s
/-- VRSQRT issues alone (R227). -/
def execVrsqrt (u : VUnit) (o : Q4) (s : State) : Outcome := runOne (semVrsqrt u o) s
/-- VSQRT issues alone (R227). -/
def execVsqrt (u : VUnit) (o : Q4) (s : State) : Outcome := runOne (semVsqrt u o) s
/-- VEXP2 issues alone (R227). -/
def execVexp2 (u : VUnit) (o : Q4) (s : State) : Outcome := runOne (semVexp2 u o) s
/-- VLOG2 issues alone (R227). -/
def execVlog2 (u : VUnit) (o : Q4) (s : State) : Outcome := runOne (semVlog2 u o) s
/-- VCMP issues alone (R228). -/
def execVcmp (u : VUnit) (o : Q4) (s : State) : Outcome := runOne (semVcmp u o) s
/-- VSEL issues alone (R229). -/
def execVsel (u : VUnit) (o : Q4) (s : State) : Outcome := runOne (semVsel u o) s
/-- VMOVP_ANY issues alone (R230). -/
def execVmovpAny (u : VUnit) (o : Q4) (s : State) : Outcome := runOne (semVmovpAny u o) s
/-- VMOVP_ALL issues alone (R230). -/
def execVmovpAll (u : VUnit) (o : Q4) (s : State) : Outcome := runOne (semVmovpAll u o) s
/-- VMOVP_V issues alone (R230). -/
def execVmovpV (u : VUnit) (o : Q4) (s : State) : Outcome := runOne (semVmovpV u o) s
/-- VTST issues alone (R231). -/
def execVtst (u : VUnit) (o : Q4) (s : State) : Outcome := runOne (semVtst u o) s
/-- VTST_SUM issues alone (R232). -/
def execVtstSum (u : VUnit) (o : Q4) (s : State) : Outcome := runOne (semVtstSum u o) s
/-- VAND issues alone (R233). -/
def execVand (u : VUnit) (o : Q4) (s : State) : Outcome := runOne (semVand u o) s
/-- VOR issues alone (R233). -/
def execVor (u : VUnit) (o : Q4) (s : State) : Outcome := runOne (semVor u o) s
/-- VXOR issues alone (R233). -/
def execVxor (u : VUnit) (o : Q4) (s : State) : Outcome := runOne (semVxor u o) s
/-- VNOT issues alone (R233). -/
def execVnot (u : VUnit) (o : Q4) (s : State) : Outcome := runOne (semVnot u o) s
/-- VSHL issues alone (R233). -/
def execVshl (u : VUnit) (o : Q4) (s : State) : Outcome := runOne (semVshl u o) s
/-- VSHR issues alone (R233). -/
def execVshr (u : VUnit) (o : Q4) (s : State) : Outcome := runOne (semVshr u o) s
/-- VSAR issues alone (R233). -/
def execVsar (u : VUnit) (o : Q4) (s : State) : Outcome := runOne (semVsar u o) s
/-- VCVT issues alone (R234). -/
def execVcvt (u : VUnit) (o : Q4) (s : State) : Outcome := runOne (semVcvt u o) s
/-- VQUANT issues alone (R235). -/
def execVquant (u : VUnit) (o : Q4) (s : State) : Outcome := runOne (semVquant u o) s
/-- VPACK issues alone (R236). -/
def execVpack (u : VUnit) (o : Q4) (s : State) : Outcome := runOne (semVpack u o) s
/-- VUNPACK issues alone (R236). -/
def execVunpack (u : VUnit) (o : Q4) (s : State) : Outcome := runOne (semVunpack u o) s
/-- VBCAST issues alone (R237). -/
def execVbcast (u : VUnit) (o : Q4) (s : State) : Outcome := runOne (semVbcast u o) s
/-- VSHUF issues alone (R237). -/
def execVshuf (u : VUnit) (o : Q4) (s : State) : Outcome := runOne (semVshuf u o) s
/-- VROT issues alone (R237). -/
def execVrot (u : VUnit) (o : Q4) (s : State) : Outcome := runOne (semVrot u o) s
/-- VIDX issues alone (R237). -/
def execVidx (u : VUnit) (o : Q4) (s : State) : Outcome := runOne (semVidx u o) s
/-- VREDADD issues alone (R239). -/
def execVredadd (u : VUnit) (o : Str) (s : State) : Outcome := runOne (semVredadd u o) s
/-- VREDMAX issues alone (R240). -/
def execVredmax (u : VUnit) (o : Str) (s : State) : Outcome := runOne (semVredmax u o) s
/-- VREDMIN issues alone (R240). -/
def execVredmin (u : VUnit) (o : Str) (s : State) : Outcome := runOne (semVredmin u o) s
/-- VSCAN issues alone (R241). -/
def execVscan (u : VUnit) (o : Str) (s : State) : Outcome := runOne (semVscan u o) s
/-- VCPUSH issues alone (R243). -/
def execVcpush (u : VUnit) (o : Q4) (s : State) : Outcome := runOne (semVcpush u o) s
/-- VCPOP issues alone (R243). -/
def execVcpop (u : VUnit) (o : Q4) (s : State) : Outcome := runOne (semVcpop u o) s
/-- VCBAL issues alone (R244). -/
def execVcbal (u : VUnit) (o : Str) (s : State) : Outcome := runOne (semVcbal u o) s

end Sys2Proof.Machine
end

