-- ==== Sys2Proof/Machine/Meaning.lean ====
section
/-!
DEFINITION. Meaning.lean: the value an instruction has for the issue logic; the events of the table have none.
-/
namespace Sys2Proof.Machine

/-- What an op is to the issue logic (R173); `none` for an event. -/
def semOf (i : Instr) : Option OpSem :=
  match i with
  | .add o => some (semAdd o)
  | .sub o => some (semSub o)
  | .addi o => some (semAddi o)
  | .mul o => some (semMul o)
  | .mulhS o => some (semMulhS o)
  | .mulhZ o => some (semMulhZ o)
  | .divS o => some (semDivS o)
  | .divZ o => some (semDivZ o)
  | .remS o => some (semRemS o)
  | .remZ o => some (semRemZ o)
  | .and o => some (semAnd o)
  | .or o => some (semOr o)
  | .xor o => some (semXor o)
  | .andn o => some (semAndn o)
  | .shl o => some (semShl o)
  | .shr o => some (semShr o)
  | .sar o => some (semSar o)
  | .rotr o => some (semRotr o)
  | .minS o => some (semMinS o)
  | .minZ o => some (semMinZ o)
  | .maxS o => some (semMaxS o)
  | .maxZ o => some (semMaxZ o)
  | .clz o => some (semClz o)
  | .popc o => some (semPopc o)
  | .sext o => some (semSext o)
  | .zext o => some (semZext o)
  | .li o => some (semLi o)
  | .lea o => some (semLea o)
  | .sel o => some (semSel o)
  | .pcmp o => some (semPcmp o)
  | .pcmpi o => some (semPcmpi o)
  | .pand o => some (semPand o)
  | .por o => some (semPor o)
  | .pxor o => some (semPxor o)
  | .pnot o => some (semPnot o)
  | .pmovToPred o => some (semPmovToPred o)
  | .pmovFromPred o => some (semPmovFromPred o)
  | .br o => some (semBr o)
  | .jmp o => some (semJmp o)
  | .jr o => some (semJr o)
  | .call o => some (semCall o)
  | .ret o => some (semRet o)
  | .lnest o => some (semLnest o)
  | .lbrk o => some (semLbrk o)
  | .trap o => some (semTrap o)
  | .tret o => some (semTret o)
  | .tretSkip o => some (semTretSkip o)
  | .rstart o => some (semRstart o)
  | .crr o => some (semCrr o)
  | .crw o => some (semCrw o)
  | .svcMap o => some (semSvcMap o)
  | .svcUnmap o => some (semSvcUnmap o)
  | .svcProtect o => some (semSvcProtect o)
  | .svcReport o => some (semSvcReport o)
  | .yield o => some (semYield o)
  | .await o => some (semAwait o)
  | .done o => some (semDone o)
  | .park o => some (semPark o)
  | .spawn o => some (semSpawn o)
  | .halt o => some (semHalt o)
  | .nswOn o => some (semNswOn o)
  | .nswOff o => some (semNswOff o)
  | .dim o => some (semDim o)
  | .vadd u o => some (semVadd u o)
  | .vsub u o => some (semVsub u o)
  | .vmul u o => some (semVmul u o)
  | .vmin u o => some (semVmin u o)
  | .vmax u o => some (semVmax u o)
  | .vabs u o => some (semVabs u o)
  | .vneg u o => some (semVneg u o)
  | .vmulh u o => some (semVmulh u o)
  | .vadds u o => some (semVadds u o)
  | .vsubs u o => some (semVsubs u o)
  | .vfmaF32 u o => some (semVfmaF32 u o)
  | .vfmaF16 u o => some (semVfmaF16 u o)
  | .vfmaBf16 u o => some (semVfmaBf16 u o)
  | .vfmsF32 u o => some (semVfmsF32 u o)
  | .vfmsF16 u o => some (semVfmsF16 u o)
  | .vfmsBf16 u o => some (semVfmsBf16 u o)
  | .vfnmaF32 u o => some (semVfnmaF32 u o)
  | .vfnmaF16 u o => some (semVfnmaF16 u o)
  | .vfnmaBf16 u o => some (semVfnmaBf16 u o)
  | .vclampF32 u o => some (semVclampF32 u o)
  | .vclampS32 u o => some (semVclampS32 u o)
  | .vclampZ32 u o => some (semVclampZ32 u o)
  | .vrcp u o => some (semVrcp u o)
  | .vrsqrt u o => some (semVrsqrt u o)
  | .vsqrt u o => some (semVsqrt u o)
  | .vexp2 u o => some (semVexp2 u o)
  | .vlog2 u o => some (semVlog2 u o)
  | .vcmp u o => some (semVcmp u o)
  | .vsel u o => some (semVsel u o)
  | .vmovpAny u o => some (semVmovpAny u o)
  | .vmovpAll u o => some (semVmovpAll u o)
  | .vmovpV u o => some (semVmovpV u o)
  | .vtst u o => some (semVtst u o)
  | .vtstSum u o => some (semVtstSum u o)
  | .vand u o => some (semVand u o)
  | .vor u o => some (semVor u o)
  | .vxor u o => some (semVxor u o)
  | .vnot u o => some (semVnot u o)
  | .vshl u o => some (semVshl u o)
  | .vshr u o => some (semVshr u o)
  | .vsar u o => some (semVsar u o)
  | .vcvt u o => some (semVcvt u o)
  | .vquant u o => some (semVquant u o)
  | .vpack u o => some (semVpack u o)
  | .vunpack u o => some (semVunpack u o)
  | .vbcast u o => some (semVbcast u o)
  | .vshuf u o => some (semVshuf u o)
  | .vrot u o => some (semVrot u o)
  | .vidx u o => some (semVidx u o)
  | .vredadd u o => some (semVredadd u o)
  | .vredmax u o => some (semVredmax u o)
  | .vredmin u o => some (semVredmin u o)
  | .vscan u o => some (semVscan u o)
  | .vcpush u o => some (semVcpush u o)
  | .vcpop u o => some (semVcpop u o)
  | .vcbal u o => some (semVcbal u o)
  | .mm o => some (semMm o)
  | .mmz o => some (semMmz o)
  | .mzero o => some (semMzero o)
  | .mldt o => some (semMldt o)
  | .msdt o => some (semMsdt o)
  | .mtr o => some (semMtr o)
  | .macc o => some (semMacc o)
  | .mcvt o => some (semMcvt o)
  | .mscal o => some (semMscal o)
  | .ldS8I o => some (semLdS8I o)
  | .ldS8W o => some (semLdS8W o)
  | .ldZ8I o => some (semLdZ8I o)
  | .ldZ8W o => some (semLdZ8W o)
  | .ldS16I o => some (semLdS16I o)
  | .ldS16W o => some (semLdS16W o)
  | .ldZ16I o => some (semLdZ16I o)
  | .ldZ16W o => some (semLdZ16W o)
  | .ldS32I o => some (semLdS32I o)
  | .ldS32W o => some (semLdS32W o)
  | .ldZ32I o => some (semLdZ32I o)
  | .ldZ32W o => some (semLdZ32W o)
  | .ld64I o => some (semLd64I o)
  | .ld64W o => some (semLd64W o)
  | .st8I o => some (semSt8I o)
  | .st8W o => some (semSt8W o)
  | .st16I o => some (semSt16I o)
  | .st16W o => some (semSt16W o)
  | .st32I o => some (semSt32I o)
  | .st32W o => some (semSt32W o)
  | .st64I o => some (semSt64I o)
  | .st64W o => some (semSt64W o)
  | .vldI o => some (semVldI o)
  | .vldW o => some (semVldW o)
  | .vstI o => some (semVstI o)
  | .vstW o => some (semVstW o)
  | .vstSumI o => some (semVstSumI o)
  | .vstSumW o => some (semVstSumW o)
  | .ldAcq32 o => some (semLdAcq32 o)
  | .ldAcq64 o => some (semLdAcq64 o)
  | .stRel32 o => some (semStRel32 o)
  | .stRel64 o => some (semStRel64 o)
  | .ldfeKeep o => some (semLdfeKeep o)
  | .ldfeTake o => some (semLdfeTake o)
  | .stfeFill o => some (semStfeFill o)
  | .fechk o => some (semFechk o)
  | .feset o => some (semFeset o)
  | .feclr o => some (semFeclr o)
  | .fenceC o => some (semFenceC o)
  | .fenceD o => some (semFenceD o)
  | .fenceG o => some (semFenceG o)
  | .amoAdd32 o => some (semAmoAdd32 o)
  | .amoAnd32 o => some (semAmoAnd32 o)
  | .amoOr32 o => some (semAmoOr32 o)
  | .amoXor32 o => some (semAmoXor32 o)
  | .amoMaxS32 o => some (semAmoMaxS32 o)
  | .amoMaxZ32 o => some (semAmoMaxZ32 o)
  | .amoMinS32 o => some (semAmoMinS32 o)
  | .amoMinZ32 o => some (semAmoMinZ32 o)
  | .amoSwap32 o => some (semAmoSwap32 o)
  | .cas32 o => some (semCas32 o)
  | .amoFaddF32 o => some (semAmoFaddF32 o)
  | .amoFaddBf16 o => some (semAmoFaddBf16 o)
  | .amoFmaxF32 o => some (semAmoFmaxF32 o)
  | .amoAdd64 o => some (semAmoAdd64 o)
  | .amoAnd64 o => some (semAmoAnd64 o)
  | .amoOr64 o => some (semAmoOr64 o)
  | .amoXor64 o => some (semAmoXor64 o)
  | .amoMaxS64 o => some (semAmoMaxS64 o)
  | .amoMaxZ64 o => some (semAmoMaxZ64 o)
  | .amoMinS64 o => some (semAmoMinS64 o)
  | .amoMinZ64 o => some (semAmoMinZ64 o)
  | .amoSwap64 o => some (semAmoSwap64 o)
  | .cas64 o => some (semCas64 o)
  | .ldt o => some (semLdt o)
  | .vldt o => some (semVldt o)
  | .sdef o => some (semSdef o)
  | .ssetBase o => some (semSsetBase o)
  | .ssetSpace o => some (semSsetSpace o)
  | .ssetRstride o => some (semSsetRstride o)
  | .ssetCtl o => some (semSsetCtl o)
  | .ssetSbase o => some (semSsetSbase o)
  | .ssetSstride o => some (semSsetSstride o)
  | .sadv o => some (semSadv o)
  | .fbind o => some (semFbind o)
  | .fpush o => some (semFpush o)
  | .fpop o => some (semFpop o)
  | .stm64 o => some (semStm64 o)
  | .stmV o => some (semStmV o)
  | .cpy o => some (semCpy o)
  | .cpyr o => some (semCpyr o)
  | .coll o => some (semColl o)
  | .binit o => some (semBinit o)
  | .bexp o => some (semBexp o)
  | .barr o => some (semBarr o)
  | .bwait o => some (semBwait o)
  | .sred o => some (semSred o)
  | .ifill o => some (semIfill o)
  | .pref o => some (semPref o)
  | .trig o => some (semTrig o)
  | .sig o => some (semSig o)
  | .wdraw o => some (semWdraw o)
  | .jobq o => some (semJobq o)
  | .heat o => some (semHeat o)
  | .mig o => some (semMig o)
  | .bundleIssue => none
  | .resultWriteback => none
  | .taggedResultLand => none
  | .timingTrap => none
  | .deferredFaultFound => none
  | .trapEntry => none
  | .abortedWrite => none
  | .nswWindowExceeded => none
  | .nswWindowKill => none
  | .clockGate => none
  | .powerGate => none
  | .hangtExpiry => none
  | .panePlacement => none
  | .taskDispatch => none
  | .granuleSequenceEnd => none
  | .translationWalkEnd => none
  | .reductionDrain => none
  | .heatDecay => none
  | .migrationRequest => none
  | .migrationHoldTimeout => none
  | .eccError => none
  | .hbmScrub => none
  | .vaultScrub => none
  | .retirementRecordRetry => none
  | .translationInvalidate => none
  | .inval => none
  | .slotQuantumEnd => none
  | .snuff => none
  | .countLatch => none
  | .refuse => none
  | .count => none
  | .sumreq => none
  | .drainDeadline => none
  | .hold => none
  | .held => none
  | .abort => none
  | .backoffEnd => none
  | .relight => none
  | .lit => none
  | .votePartyTimeout => none
  | .collapseRequest => none
  | .idleTimeout => none
  | .collapseWork => none
  | .strike => none
  | .wakeLate => none
  | .beaconTimer => none
  | .beacon => none
  | .stampWaitApply => none
  | .stampWaitTimeout => none
  | .switchPacketForward => none
  | .writePacket => none
  | .readPacket => none
  | .rdresp => none
  | .atomicPacket => none
  | .atresp => none
  | .ackPacket => none
  | .feop => none
  | .fifoPacket => none
  | .cdata => none
  | .demand => none
  | .sredPacket => none
  | .sres => none
  | .cflush => none
  | .tkreq => none
  | .tkcall => none
  | .bartok => none
  | .rateLimitRise => none
  | .ticketWindowEnd => none
  | .ticketCall => none
  | .retransmitTimeout => none
  | .linkTraining => none
  | .laneDetectTimeout => none
  | .laneFailure => none
  | .bufferBankError => none
  | .switchHeartbeatLoss => none
  | .switchTakeover => none
  | .jobActivate => none
  | .chunkIssue => none
  | .chunkBoundary => none
  | .jobOutFill => none
  | .jobBarrierArrival => none
  | .jobSignalWrite => none
  | .triggerFire => none
  | .fifoOutTransfer => none
  | .fifoLoadFetch => none
  | .stepEnd => none
  | .stepSend => none
  | .stepRecv => none
  | .stepRrs => none
  | .stepRrd => none
  | .stepCopy => none
  | .stepWait => none
  | .stepSignal => none
  | .stepLoop => none
  | .stepEndl => none
  | .stepPeer => none
  | .stepBar => none
  | .collectiveAbortNotice => none
  | .reductionSlotDeadline => none
  | .slotLingerEnd => none
  | .launchPacket => none
  | .tasksPacket => none
  | .copyPacket => none
  | .fencePacket => none
  | .fenceCounterPoll => none
  | .signalPacket => none
  | .strikePacket => none
  | .dimPacket => none
  | .barrierPacket => none
  | .nopPacket => none
  | .packetCompletion => none
  | .queueDoorbell => none
  | .queuePoll => none
  | .vdCreate => none
  | .vdReset => none
  | .vdDestroy => none
  | .vaultload => none
  | .scheduleChange => none
  | .liveMigration => none
  | .stubForward => none
  | .stubExpiry => none
  | .endpointCreate => none
  | .endpointSetupTimeout => none
  | .ethPortSplit => none
  | .ethWrite => none
  | .ethRead => none
  | .ethRddata => none
  | .ethAck => none
  | .ethNote => none
  | .ethEcho => none
  | .ethSetup => none
  | .ethKeep => none
  | .ethBusy => none
  | .ethKeepaliveTimer => none
  | .ethAckTimer => none
  | .ethRetransmitTimeout => none
  | .ethRateRise => none
  | .powerOnReset => none
  | .recoveryImage => none
  | .wickUpdate => none
  | .wickUpdateTimeout => none
  | .managementDieTakeover => none
  | .coreColumnRepair => none
  | .dieReplacement => none
  | .powerSample => none
  | .dutyRaise => none
  | .junctionOvertemp => none
  | .coolantAlarm => none
  | .thermalStop => none
  | .telemetrySample => none
  | .outsidePortTimeout => none
  | .outsidePortLost => none
  | .securityViolation => none
  | .unfreezeRequest => none
  | .attestation => none
  | .svcReply => none
  | .migrationComplete => none
  | .hostPortAccess => none
  | .powerLoss => none
  | .junctionCooled => none
  | .pairRekey => none

end Sys2Proof.Machine
end

