-- ==== Sys2Proof/Machine/Bundle.lean ====
section
/-!
DEFINITION. Bundle.lean: a core at work: fetch and issue of whole bundles (R163 to R165, R173, R179), results landing (R85, R175), the
timing trap (R394), trap entry (R385), and the end of tasks and pane work (R32, R216, R217).
-/
namespace Sys2Proof.Machine

/-! ### Issue of a whole bundle -/

/-- Predicate and tag fields of an op word that decodes to no op. -/
def headOf (w : Nat) : Head :=
  ⟨bitN w 72, BitVec.ofNat 4 (w / 2 ^ 68), BitVec.ofNat 4 (w / 2 ^ 64), BitVec.ofNat 4 (w / 2 ^ 60), BitVec.ofNat 4 (w / 2 ^ 56)⟩
/-- An op word that decodes to no op: its cause whatever its predicate (R401, R476). -/
def semBad (sl : Slot) (w cause : Nat) : OpSem := { slot := sl, head := headOf w, word := w, wf := true, level := fun _ => some cause }

/-- One present op of a bundle. -/
def semWord (sl : Slot) (w : Nat) : Except DecodeError Instr → Option OpSem
  | .ok i => semOf i
  | .error .unassigned => some (semBad sl w 0x02)
  | .error .illegal => some (semBad sl w 0x03)
  | .error .notOffered => some (semSvcOther (sysOf w))

/-- The ops of a bundle, in slot order (R103). -/
def bundleOps (b : Nat) : List OpSem := (decodeBundle b).filterMap fun e => semWord e.1 e.2.1 e.2.2

/-- The bundle at PC (R163, R179). -/
def fetchBundle (c : Core) : BundleWord :=
  if c.inBuffer then (Tab.get none c.loopBuf c.pc).getD 0 else Tab.get 0 c.imem c.pc

/-- A body bundle that issues is held by the loop buffer (R179). -/
def holdBundle (c : Core) (w : BundleWord) : Core :=
  if c.nestOn && inBody c.nest c.pc then { c with loopBuf := Tab.put none c.loopBuf c.pc (some w) } else c

/-- One issue attempt of a core with the bundle at its PC. -/
def issueBundle (s : State) (k : CoreId) : State :=
  let w := fetchBundle (s.core k)
  let hdr := w.toNat % 2 ^ 32
  let ops := bundleOps w.toNat
  let body := (s.core k).nestOn && inBody (s.core k).nest (s.core k).pc
  let s := if body ∧ issueOutcome s k hdr ops = .issue then s.modCore k fun c => holdBundle c w else s
  issueOps k hdr ops s

/-- BUNDLE_ISSUE (R173): the subject's core attempts its next bundle. -/
def execBundleIssue (s : State) : Outcome :=
  let s := { s with focus := s.subject.k }
  if running s s.focus then .next (issueBundle s s.focus) else .fault .notRunning

/-! ### Results land (R85, R175) -/

/-- A result lands in this clk. -/
def resultDue (s : State) (c : Core) (r : Result) : Bool :=
  decide (r.due ≤ schedOf s c) && decide (r.val ≠ .unbound) && decide (r.deliver ≤ s.clk)
/-- A result is late: due, and not delivered. -/
def resultLate (s : State) (c : Core) (r : Result) : Bool := decide (r.due ≤ schedOf s c) && !resultDue s c r
/-- A fixed-latency M op waits for a fetch (R175, R259): what beat j needs is due 6 + j clk after issue, and has not come. -/
def mopLate (s : State) (c : Core) (m : MOp) : Bool :=
  decide (m.tag = 0 ∧ m.kind ≠ 0) && !m.fetched && s.accesses.any fun p => match p.kind with
    | .part q _ _ j => decide (m.issue + 6 + j ≤ schedOf s c) && s.accesses.any fun a => decide (a.id = q ∧ a.kind = .mfetch m.rid)
    | _ => false
/-- The core waits for a late fixed-latency access (R175); once the timing trap is found it freezes no further (R74, R175, R394). -/
def coreLate (s : State) (c : Core) : Bool :=
  (match c.trap with | some t => decide (t.cause ≠ 0x05) | none => true) && (c.results.any (resultLate s c) || c.mops.any (mopLate s c))

/-- Something of a core lands or acts in this clk. -/
def landingDue (s : State) (k : CoreId) : Bool :=
  let c := s.core k
  c.results.any (resultDue s c) || c.binds.any (fun b => decide (b.due ≤ schedOf s c)) || c.mops.any (mopDue s c)

/-- One result lands, with its tag. -/
def landResult (k : CoreId) (s : State) (r : Result) : State :=
  let s := landVal s k r.dest r.val
  if r.tag = 0 then s else s.modCore k fun c => c.ready r.tag

/-- The fetches of a load stream that is rebound are no elements of the new binding (R283, R284). -/
def staleFetch (k : CoreId) (i : Nat) (a : Access) : Access :=
  match a.kind with
  | .fifoLoad j _ n => if a.k = k ∧ j = i then { a with kind := .fifoLoad j (2 ^ 64) n } else a
  | _ => a

/-- A FIFO binding takes effect: the sides keep what they hold (R283). -/
def landBind (k : CoreId) (s : State) (b : FifoBind) : State :=
  let s := { s with accesses := s.accesses.map (staleFetch k b.k) }
  wantFetch (s.modCore k fun c => c.setFifo b.k { b.f with out := (c.fifo b.k).out, inn := (c.fifo b.k).inn }) k b.k

/-- Everything of a core due in this clk lands (R85, R253, R283). -/
def writeback (s : State) (k : CoreId) : State :=
  let c := s.core k
  let rs := c.results.filter (resultDue s c)
  let bs := c.binds.filter fun b => decide (b.due ≤ schedOf s c)
  let s' := s.modCore k fun d =>
    { d with results := d.results.filter (fun r => !resultDue s c r), binds := d.binds.filter fun b => !decide (b.due ≤ schedOf s c) }
  let s' := rs.foldl (landResult k) s'
  let s' := bs.foldl (landBind k) s'
  let s' := (c.mops.filter (mopDue s c)).foldl (fun t m => finishMOp t k m) s'
  if coreLate s c && !coreLate s' (s'.core k) then s'.modCore k fun d => { d with late := 0 } else s'

/-- RESULT_WRITEBACK (R85): what the subject's core has due lands. -/
def execResultWriteback (s : State) : Outcome :=
  if landingDue s s.subject.k then .next (writeback s s.subject.k) else .fault .noSuchEvent

/-- TAGGED_RESULT_LAND (R176, R264). -/
def execTaggedResultLand (s : State) : Outcome :=
  match taggedLand s s.subject.a with
  | some s => .next s
  | none => .fault .noSuchEvent

/-- TVAL of a late result: its access (R393). -/
def lateTval (s : State) (k : CoreId) (r : Result) : Dword :=
  match s.accesses.find? (fun a => decide (a.k = k ∧ a.rid = r.rid)) with
  | some a => addrForm a.ea.toNat a.kind.write false
  | none => r.tval
/-- TVAL of a late M op: the first of its fetches that is not performed. -/
def mopTval (s : State) (k : CoreId) (m : MOp) : Dword :=
  let pid := (s.accesses.find? fun a => decide (a.k = k ∧ a.kind = .mfetch m.rid)).map (·.id)
  match s.accesses.find? (fun a => match a.kind with
    | .part q _ _ _ => decide (some q = pid) && !a.performed
    | _ => false) with
  | some a => addrForm a.ea.toNat false false
  | none => 0

/-- A core is frozen past the bound of R74. -/
def timingDue (s : State) (k : CoreId) : Bool :=
  let c := s.core k
  coreLate s c && decide (Config.lateLimit ≤ c.late) && c.trap.isNone

/-- The timing trap (R394): the late result is discarded as it arrives; the drain waits for it, so that the replay meets the granule
resident (R74, R385). -/
def timingTrap (s : State) (k : CoreId) : State :=
  let c := s.core k
  match c.results.find? (resultLate s c) with
  | some r =>
    raiseTrap (s.modCore k fun d =>
      { d with results := d.results.map (fun x => if x = r then { x with dest := .none, tag := 0 } else x), late := 0 }) k
      ⟨.B, 0x05, c.pc, lateTval s k r, r.slot, s.clk⟩
  | none =>
    match c.mops.find? (mopLate s c) with
    | some m => raiseTrap (s.modCore k fun d => { d with late := 0 }) k ⟨.B, 0x05, c.pc, mopTval s k m, 3, s.clk⟩
    | none => s

/-- TIMING_TRAP (R175, R394). -/
def execTimingTrap (s : State) : Outcome :=
  if timingDue s s.subject.k then .next (timingTrap s s.subject.k) else .fault .noSuchEvent

/-- DEFERRED_FAULT_FOUND (R389): a multicast whose fault is the one reported makes its record of the failed destinations (R449). -/
def execDeferredFaultFound (s : State) : Outcome :=
  let o := s.subject
  match s.access o.a, deferredFault s o.a o.b o.v with
  | some a, some s' =>
    if a.k.core = 256 then .next (engineFault s a o.b o.v)
    else .next (if o.b = 0x0C ∧ ((s'.core a.k).trap.any fun r => decide (r.cause = 0x0C ∧ r.issue = a.issue)) then
      s'.report { kind := 1, code := 7, vd := a.vd, member := a.member, core := a.k.core, clk := s.clk, args := o.v.toNat :: o.l }
    else s')
  | _, _ => .fault .noSuchEvent

/-! ### Traps (R385, R396) -/

/-- The found trap of a core can be entered: at TL2 it kills at once, else the core has drained (R385). -/
def entryDue (s : State) (k : CoreId) : Bool :=
  let c := s.core k
  match c.trap with
  | some r => !c.entry && (decide (c.tl = 2) || (drained s k && (decide (r.cls ≠ .C) || decide (c.next ≤ schedOf s c))))
  | none => false

/-- TRAP_ENTRY (R385). -/
def execTrapEntry (s : State) : Outcome :=
  match (s.core s.subject.k).trap with
  | some r => if entryDue s s.subject.k then .next (enterTrap s s.subject.k r) else .fault .noSuchEvent
  | none => .fault .noSuchEvent

/-- NSW_WINDOW_EXCEEDED (R218): cause 0x14 at the subject core's next boundary. -/
def execNswWindowExceeded (s : State) : Outcome :=
  let k := s.subject.k
  if running s k && nswDue s k then .next (nswRaise s k) else .fault .noSuchEvent

/-- NSW_WINDOW_KILL (R425): a window still open at 4 NSWMAX after its nsw.on at clk `a` kills the member context, and a KIND 0x03 record follows. -/
def execNswWindowKill (s : State) : Outcome :=
  let k := s.subject.k
  if (s.core k).nsw = some s.subject.a ∧ s.subject.a + 4 * (s.vd (s.ctxD k).vd).params.nswmax ≤ s.clk then
    let m := s.ctxD k
    .next ((contextKill s k ⟨.B, 0x14, (s.core k).pc, BitVec.ofNat 64 s.subject.a, 7, s.clk⟩).report
      { kind := 0, code := 3, vd := m.vd, member := m.member, core := k.core, clk := s.clk, args := [s.subject.a, (s.core k).tl, s.gc.voteNo] })
  else .fault .noSuchEvent

/-! ### Waits (R52) -/

/-- CLOCK_GATE: the core clock stops; state is held. -/
def execClockGate (s : State) : Outcome :=
  let c := s.core s.subject.k
  if Config.clockGateAt ≤ c.waited ∧ c.gate = .none then .next (s.modCore s.subject.k fun c => { c with gate := .clock }) else .fault .noSuchEvent
/-- POWER_GATE: the core logic is power-gated. -/
def execPowerGate (s : State) : Outcome :=
  let c := s.core s.subject.k
  if Config.powerGateAt ≤ c.waited ∧ c.gate ≠ .power then .next (s.modCore s.subject.k fun c => { c with gate := .power }) else .fault .noSuchEvent

/-! ### The end of a task's or a pane core's work -/

/-- A task leaves the pool: its OUT word is filled with a value, and its declaration retires with the fill (R216, R48, R403).  The pool
index is free at once; the declaration and the registration go on under a number of their own. -/
def releaseTask (s : State) (m : MemberId) (h : Nat) (t : Task) (v : Dword) (at_ : Nat) : State :=
  let h' := Config.poolSize + s.nextId
  let s := s.modMember m fun c =>
    { (c.setTask h none) with
      decls := c.decls.map (fun d => if d.owner = .task h then { d with owner := .task h' } else d),
      producers := c.producers.map (fun p => if p.owner = .task h then { p with owner := .task h' } else p) }
  let s := match t.packet with
    | some p => packetPart s m p
    | none => s
  match recOut t.d3 with
  | some w => startAt s ⟨(s.member m).die, 256⟩ 0 (.fill v (2 * h' + 1)) (BitVec.ofNat 64 w) 8 .none 0 0 at_ true
  | none => retire s m (.task h')

/-- CTL with a resume PC and a state ST (R211). -/
def ctlSuspend (ctl : Dword) (pc st : Nat) : Dword := (ctl &&& 0xFFFFFF3FFFFFF800) ||| BitVec.ofNat 64 (pc % 2048 + st * 2 ^ 38)

/-- The record of a suspended task (R216). -/
def suspendTask (c : Core) (t : Task) (pc st : Nat) : Task :=
  { t with ctl := ctlSuspend t.ctl pc st, x1 := c.readX 1, x2 := c.readX 2, x3 := c.readX 3, x4 := c.readX 4, resumed := true }

/-- Queue q of a member holds a packet that is not parsed (R358, R359). -/
def unparsed (s : State) (m : MemberId) (q : Nat) : Bool :=
  let k := (s.vd m.vd).tables.getD (if q = 15 then 0 else m.member) 0 + 64 * q
  bitN (s.load k 8) 63 && decide (Tab.get 0 (s.member m).parsed q < s.load (k + 8) 8)
/-- A member of a VD has no unparsed packet, no pane, no ready or running task and no copy job (R75). -/
def memberIdle (s : State) (m : MemberId) : Bool :=
  let c := s.member m
  c.panes.isEmpty && c.launches.isEmpty && c.jobs.isEmpty && !anyReady c
    && c.pool.all (fun e => match e.2 with | some t => (match t.st with | .running _ => false | _ => true) | none => true)
    && (List.range 16).all fun q => !unparsed s m q
/-- Some die carries a member of the VD. -/
def onDies (s : State) (vd : Nat) : Bool := (s.vd vd).dies.any fun d => (s.die d).ctx.any fun m => decide (m.vd = vd)
/-- The idle timer of a VD starts when nothing of it is left (R75), its gang being on its dies (R71). -/
def noteIdle (s : State) (vd : Nat) : State :=
  let v := s.vd vd
  match v.params.idleTimeout with
  | none => s
  | some n =>
    if v.state = .running && onDies s vd && v.idleSince.isNone && (List.range v.params.n).all fun i => memberIdle s ⟨vd, i⟩ then
      (s.modVd vd fun v => { v with idleSince := some s.clk }).after n .idleTimeout { a := vd, b := s.clk }
    else s

/-- The core is free: it takes tasks, and a waiting LAUNCH looks again (R31, R34, R218). -/
def freeCore (s : State) (k : CoreId) (r : Run) : State :=
  let m := s.ctxD k
  let s := s.modCore k fun c =>
    { c with run := r, task := none, ending := none, nsw := none, nswRaised := false, nswAt := none, nest := Nest.none, loopBuf := [] }
  let s := if (s.member m).launches.isEmpty then s else s.afterM 0 .panePlacement m
  askDispatch s m

/-- A pane core has executed halt or park; the pane completes with its last core (R32). -/
def leavePane (s : State) (k : CoreId) (halted : Bool) : State :=
  let m := s.ctxD k
  let mine (p : Pane) : Bool := inRect p.x0 p.y0 p.lw p.lh k.core && !p.left.contains k.core && !p.left.contains (256 + k.core)
  match (s.member m).panes.find? mine with
  | none => s
  | some p =>
    let p' := { p with left := p.left ++ [if halted then k.core else 256 + k.core] }
    if p'.left.length < p.lw * p.lh then
      s.modMember m fun c => { c with panes := c.panes.map fun q => if q = p then p' else q }
    else
      let s := s.modMember m fun c => { c with panes := c.panes.filter fun q => decide (q ≠ p) }
      let s := (p'.left.filter fun i => decide (i < 256)).foldl (fun s i => freeCore s ⟨k.die, i⟩ (.free s.clk)) s
      packetPart s m p.packet

/-- The core has finished and every access of it has been performed (R216, R112).  The IDLE clk its bundle owes pass first: whether it acts before or after
them R216 does not say (log 48). -/
def endingDue (s : State) (k : CoreId) : Bool :=
  let c := s.core k
  c.ending.isSome && c.trap.isNone && !c.entry && decide (c.next ≤ schedOf s c) && finished s k
    && s.accesses.all fun a => decide (a.k ≠ k) || a.performed

/-- A suspension, park or halt acts (R216, R217): the core's reductions drain, and a suspension is a release (R112). -/
def endWork (s : State) (k : CoreId) (e : EndKind) : State :=
  let m := s.ctxD k
  let c := s.core k
  let s := drainAgent s k.die m (coreKey k + 1)
  match e with
  | .park => leavePane (freeCore s k (.free s.clk)) k false
  | .halt => leavePane (freeCore s k .halted) k true
  | .yield pc =>
    let s := freeCore (tick s m) k (.free s.clk)
    match c.task.bind fun h => ((s.member m).task h).map fun t => (h, t) with
    | some (h, t) => askDispatch (enqueueTask s m h (suspendTask c t (pc + 1) 1)) m
    | none => s
  | .await pc w =>
    let s := freeCore (tick s m) k (.free s.clk)
    match c.task.bind fun h => ((s.member m).task h).map fun t => (h, t) with
    | some (h, t) =>
      let full := feOf s m w
      let t := { suspendTask c t (pc + 1) 2 with st := .suspended, awaits := if full then none else some w, readyAt := s.clk + 1 }
      let s := s.modMember m fun x => x.setTask h (some t)
      if full then s.afterM 1 .taskDispatch m else s
    | none => s
  | .done sum =>
    let at_ := match c.task.bind fun h => ((s.member m).task h).bind fun t => recOut t.d3 with
      | some w => accTime s k (BitVec.ofNat 64 w)
      | none => s.clk
    let s := freeCore (tick s m) k (.free s.clk)
    match c.task.bind fun h => ((s.member m).task h).map fun t => (h, t) with
    | some (h, t) => releaseTask s m h t (BitVec.ofNat 64 (0x100 + sum)) at_
    | none => s

/-- A core's work ends, and the VD may be idle after it (R75). -/
def finishEnding (s : State) (k : CoreId) (e : EndKind) : State := noteIdle (endWork s k e) (s.ctxD k).vd

/-! ### What a core does in a clk -/

/-- The core of a key of the table of cores. -/
def coreOfKey (n : Nat) : CoreId := ⟨n / 512, n % 512⟩

/-- A freeze for a late result, at most once a clk (R175). -/
def lateFreeze (s : State) (k : CoreId) : State := s.modCore k fun c => { c.freeze s.clk with late := c.late + 1 }

/-- The duty of a core's die in sixteenths (R378, R379). -/
def dutyOf (s : State) (k : CoreId) : Nat := min (s.die k.die).duty (s.die k.die).dutyCap
/-- A throttle freeze is due: past the first D clk of each 16 (R378). -/
def throttled (s : State) (k : CoreId) : Bool := decide (dutyOf s k ≤ s.clk % 16)

/-- The core's die is stopped by a relight under way (R68), or the whole package by a level-2 alarm (R474). -/
def stopped (s : State) (k : CoreId) : Bool := (s.die k.die).stopped || s.platform.frozen
/-- A core of a member context that a throttle or a stop holds, not yet counted as frozen in this clk. -/
def heldDue (s : State) (k : CoreId) : Bool :=
  (s.ctx k).isSome && decide ((s.core k).frozeAt ≤ s.clk) && (stopped s k || throttled s k)

/-- The core attempts to issue in this clk. -/
def issueDue (s : State) (k : CoreId) : Bool :=
  let c := s.core k
  running s k && decide (c.next ≤ schedOf s c) && decide (c.frozeAt ≤ s.clk) && !coreLate s c

/-- The first core, lowest die and index first, for which a test holds. -/
def firstCore (s : State) (f : CoreId → Bool) : Option CoreId := (s.cores.find? fun e => f (coreOfKey e.1)).map fun e => coreOfKey e.1

/-- The core's suspension, park or halt acts. -/
def endCore (s : State) (k : CoreId) : State :=
  match (s.core k).ending with
  | some e => finishEnding s k e
  | none => s

/-- The earliest thing due by now, the first entered among equals. -/
def nextDue (s : State) : Option Due :=
  (s.agenda.filter fun x => decide (x.at_ ≤ s.clk)).foldl (fun (r : Option Due) x => match r with
    | some y => if x.at_ < y.at_ then some x else some y
    | none => some x) none

/-- A VD of one member that stands on die 0, as a program placed from outside has it. -/
def loadedVd : VD :=
  { VD.blank with live := true, gang := 1, vf := 1, dies := [0], keyNo := 1, params := { VD.blank.params with n := 1, memory := 2 ^ 30, winHi := Config.vaultBytes, hangt := Config.second } }

/-- The state with a bundle at the PC of core 0 of die 0: the core runs a pane of the die's member context, member 0 of VD 1 when there is none,
and nothing else is due in this clk. -/
def placeBundle (s : State) (w : BundleWord) : State :=
  let k : CoreId := ⟨0, 0⟩
  let c := s.core k
  let c := { c with imem := Tab.put 0 c.imem c.pc w, imemPoison := Tab.put false c.imemPoison c.pc false, run := .running, trap := none, entry := false,
                    ending := none, svc := none, nsw := none, nest := Nest.none, loopBuf := [], results := [], mops := [], binds := [], gate := .none,
                    next := min c.next (s.clk - c.frozen), frozeAt := 0 }
  let s := { s with agenda := s.agenda.filter (fun x => decide (s.clk < x.at_)), cores := Tab.put Core.reset [] (coreKey k) c, focus := k,
                    subject := { k := k }, platform := { s.platform with stopped := false, frozen := false } }
  let s := s.modDie 0 fun t => { t with duty := 16, dutyCap := 16, stopped := false, failed := false, power := .active }
  if (s.die 0).ctx.isSome then s
  else
    let s := s.modDie 0 fun t => { t with ctx := some ⟨1, 0⟩ }
    (s.modVd 1 fun _ => loadedVd).modMember ⟨1, 0⟩ fun x => { x with live := true, die := 0, panes := [⟨0, 0, 0, 1, 1, []⟩] }

/-- A core frozen by an svc (R209), or by a late result that has not raised its trap, and not yet counted as frozen in this clk. -/
def freezeDue (s : State) (k : CoreId) : Bool :=
  let c := s.core k
  (s.ctx k).isSome && decide (c.frozeAt ≤ s.clk) && (coreLate s c || c.svc.isSome)

end Sys2Proof.Machine
end

