-- ==== Sys2Proof/Machine/SysMem.lean ====
section
/-!
DEFINITION. SysMem.lean: accesses of the front end, the wicks and the outside ports to a VD's global space (R91, R359), full/empty words and
barrier objects reached by engines, event records (R423, R439, R459), and frames of HBM (R358, R368).
-/
namespace Sys2Proof.Machine

/-! ### The global space as the front end and the wicks reach it -/

/-- Where a leaf sends an address of a VD: a place, or the fault met (R91, R92). -/
def vaPlace (s : State) (vd va : Nat) (write : Bool) : Except Nat Loc :=
  match findLeaf (s.vd vd) va with
  | none => .error 0x08
  | some (lv, e) =>
    let sp := leafSpan lv va e
    let pa := physOf ⟨vd, sp.1, sp.2, e⟩ va
    if 4 ≤ ptTgt e then .error 0x08
    else if write && !ptW e then .error 0x09
    else match ptTgt e with
      | 0 => .ok (.phys (hbmKey (s.member ⟨vd, ptMember e⟩).die pa))
      | 1 => .ok (.phys (tierKey pa))
      | 2 => .ok (.phys (hostKey (s.vd vd).vf pa))
      | _ => .error 0x09

/-- The same, with the fault of a place whose outside port is lost (R468). -/
def vaLoc (s : State) (vd va : Nat) (write : Bool) : Except Nat Loc :=
  match vaPlace s vd va write with
  | .ok l => if portLost s l then .error (if write ∨ l.key / 2 ^ 80 = 4 then 0x0D else 0x0F) else .ok l
  | .error c => .error c

/-- The member whose HBM holds an address (R38). -/
def vaMember (s : State) (vd va : Nat) : Option Nat :=
  match findLeaf (s.vd vd) va with
  | some (_, e) => if ptTgt e = 0 then some (ptMember e) else none
  | none => none

/-- Cut n bytes from an address at page boundaries: address and length. -/
def cutPages : Nat → Nat → Nat → List (Nat × Nat)
  | 0, _, _ => []
  | f + 1, a, n =>
    if n = 0 then []
    else
      let k := min n (4096 - a % 4096)
      (a, k) :: cutPages f (a + k) (n - k)
/-- The pages of n bytes from an address. -/
def pagesOf (a n : Nat) : List (Nat × Nat) := cutPages (n / 4096 + 2) a n

/-- Read n bytes of a VD, draining pending reductions: the fault met, or the bytes. -/
def vaRead (s : State) (m : MemberId) (va n : Nat) : Except Nat (List Byte × State) :=
  (pagesOf va n).foldlM (fun (acc : List Byte × State) p => do
    let l ← vaLoc acc.2 m.vd p.1 false
    let s := drainRange acc.2 l.die m l.key p.2
    if poisoned s l.key p.2 then .error 0x0F else .ok (acc.1 ++ memBytes s.mem l.key p.2, countHeat s l p.2)) ([], s)

/-- The VD whose strike page an address of a VD maps, writable (R76). -/
def strikeAt (s : State) (vd va : Nat) : Option Nat :=
  match findLeaf (s.vd vd) va with
  | some (_, e) => if ptTgt e = 3 ∧ ptW e then some (ptPa e / 4096) else none
  | none => none

/-- Write bytes of a VD: the fault met before anything is written, or the state; bytes written to a strike page strike (R76). -/
def vaWrite (s : State) (m : MemberId) (va : Nat) (b : List Byte) : Except Nat State := do
  let ps := pagesOf va b.length
  let _ ← ps.mapM fun p => if (strikeAt s m.vd p.1).isSome then .ok (.phys 0) else vaLoc s m.vd p.1 true
  ps.foldlM (fun s p => match strikeAt s m.vd p.1 with
   | some v => .ok (s.after 0 .strike { a := v })
   | none => do
    let l ← vaLoc s m.vd p.1 true
    let s := drainRange s l.die m l.key p.2
    .ok (countHeat (putAt s m l ((b.drop (p.1 - va)).take p.2)) l p.2)) s

/-- Dwords of bytes. -/
def dwordsFrom (l : List Byte) : List Dword :=
  (List.range (l.length / 8)).map fun i => BitVec.ofNat 64 (ofBytes ((l.drop (8 * i)).take 8))
/-- Read n dwords of a VD. -/
def vaDwords (s : State) (m : MemberId) (va n : Nat) : Except Nat (List Dword × State) :=
  (vaRead s m va (8 * n)).map fun r => (dwordsFrom r.1, r.2)
/-- One dword as the VD sees it, zero where it cannot be read. -/
def vaPeek (s : State) (vd va : Nat) : Dword :=
  match vaLoc s vd va false with
  | .ok l => memDword s.mem l.key
  | .error _ => 0

/-! ### Engine accesses to words of a vault -/

/-- The agent of a die's dispatcher and engines. -/
def dieAgent (d : Nat) : CoreId := ⟨d, 256⟩

/-- The barrier object of a member takes an arrival (R89, R306), wherever its context is. -/
def engineArrive (s : State) (m : MemberId) (va : Nat) (v : Dword) : State :=
  startAt s (dieAgent (s.member m).die) 5 (.bar .arr v) (BitVec.ofNat 64 va) 16 .none 0 0 s.clk true

/-! ### Event records -/

/-- A gang event record (R423): kind, VD, member, core and arguments. -/
def gangEvent (s : State) (kind vd member core : Nat) (args : List Nat) : State :=
  s.report { kind := 0, code := kind, vd := vd, member := member, core := core, clk := s.clk, args := args }
/-- The state of a cell of the slot matrix (R53). -/
def cellOf (s : State) (slot d : Nat) : Cell := Tab.get Cell.empty s.gc.cells (256 * slot + d)
@[inherit_doc cellOf] def setCell (s : State) (slot d : Nat) (c : Cell) : State :=
  { s with gc := { s.gc with cells := Tab.put Cell.empty s.gc.cells (256 * slot + d) c } }
/-- Set the cells a VD has in its home slot (R53). -/
def homeCells (s : State) (vd : Nat) (c : Cell) : State :=
  match (s.vd vd).params.homeSlot with
  | some i => (s.vd vd).dies.foldl (fun s d => setCell s i d c) s
  | none => s
/-- A wake ends (R75): the VD's home cells return to HOME. -/
def wakeDone (s : State) (vd : Nat) : State :=
  if (s.vd vd).state = .waking then homeCells (s.modVd vd fun v => { v with state := .running, idleSince := none }) vd (.home vd) else s

/-- The front ends of a VD on its dies look at every queue. -/
def parseAll (s : State) (vd : Nat) : State :=
  (List.range (s.vd vd).params.n).foldl (fun s i => (List.range 16).foldl (fun s q => s.after 0 .queueDoorbell { m := ⟨vd, i⟩, a := q }) s) s

/-- The first packet after a wake has started (R77); after a class-2 wake parsing resumes with it (R78): a late wake is reported (R431), and the pages found poisoned since the collapse (R433). -/
def noteStart (s : State) (m : MemberId) : State :=
  let v := s.vd m.vd
  if v.started then s
  else
    let s := (wakeDone s m.vd).modVd m.vd fun v => { v with started := true, late := false, lateWhy := 0, badPages := [] }
    let s := if v.params.wakeClass = 2 then parseAll s m.vd else s
    let s := if v.late then gangEvent s 0x08 m.vd 0xFF 0xFFFF [v.params.wakeClass, (s.clk - v.struckAt) / Config.us, v.lateWhy] else s
    match v.badPages with
    | p :: _ => gangEvent s 0x09 m.vd 0xFF 0xFFFF [p, v.badPages.length]
    | [] => s

/-- A fabric event record (R439). -/
def fabricEvent (s : State) (kind vd member : Nat) (args : List Nat) : State :=
  s.report { kind := 1, code := kind, vd := vd, member := member, core := 0xFFFF, clk := s.clk, args := args }
/-- A memory event record (R459): the unit goes first among the arguments. -/
def memoryEvent (s : State) (kind vd member unit : Nat) (args : List Nat) : State :=
  s.report { kind := 2, code := kind, vd := vd, member := member, core := 0xFFFF, clk := s.clk, args := unit :: args }
/-- Telemetry (R381): a counted thing. -/
def telemetry (s : State) (code : Nat) (args : List Nat) : State :=
  s.report { kind := 6, code := code, vd := 0, member := 0xFF, core := 0xFFFF, clk := s.clk, args := args }
/-- A reply to a management request (R368, R475): 0 accepted, else a refusal. -/
def reply (s : State) (code vd : Nat) (args : List Nat) : State :=
  s.report { kind := 8, code := code, vd := vd, member := 0xFF, core := 0xFFFF, clk := s.clk, args := args }

/-! ### Frames -/

/-- HBM bytes of a die's two stacks (R22). -/
def hbmBytes : Nat := 96 * 2 ^ 30
/-- Bytes of a member's save areas (R69). -/
def saveBytes : Nat := (125 + 768 + 32) * 2 ^ 20

/-- Leaves of a VD with their level. -/
def leavesOf (v : VD) : List (Nat × Dword) :=
  v.pt.filterMap fun e => if ptType e.2 = 1 then some (e.1 / 2 ^ 40, e.2) else none
/-- Bytes of a leaf of a level (R92). -/
def leafBytes (level : Nat) : Nat := match level with | 2 => 2 ^ 30 | 3 => 2 ^ 21 | _ => 4096

/-- Bits of a fresh 4 KiB leaf of a member (R92): TYPE 1, W, with the member and the frame. -/
def leafDword (member pa : Nat) (w : Bool) (tgt : Nat) : Dword :=
  BitVec.ofNat 64 (member % 256 * 2 ^ 56 + pa / 4096 % 2 ^ 44 * 2 ^ 12 + tgt * 2 ^ 8 + b2n w * 4 + 1)

/-- The key of the first byte that a leaf of a VD maps, in HBM or in the tier (R91). -/
def leafKey (s : State) (vd : Nat) (e : Dword) : Option Nat :=
  match ptTgt e with
  | 0 => some (hbmKey (s.member ⟨vd, ptMember e⟩).die (ptPa e))
  | 1 => some (tierKey (ptPa e))
  | _ => none
/-- Spans of the memory around a key that are in use: those that leaves of any VD map, and those that migrations are filling (R100); first key and one
past the last. -/
def usedSpans (s : State) : List (Nat × Nat) :=
  (s.vds.flatMap fun e => (leavesOf e.2).filterMap fun l => (leafKey s e.1 l.2).map fun k => (k, k + leafBytes l.1))
    ++ s.migrations.map fun g => (g.dstKey s, g.dstKey s + g.size)

/-- The stack, row and pseudo-channel that hold an HBM byte (R19, R101): of the pseudo-channels of Config's rows there are 192. -/
def rowIn (pa : Nat) : Nat := Config.rowOf pa / 256 * 256 + Config.rowOf pa % 256 % 192
/-- The stack of a die that holds a byte: 0 or 1. -/
def stackIn (pa : Nat) : Nat := pa / (48 * 2 ^ 30) % 2
/-- A row and its stack as one number. -/
def rowKey (pa : Nat) : Nat := stackIn pa * 2 ^ 64 + rowIn pa % 2 ^ 64
/-- A frame of n bytes has a line in a row that is offline (R101). -/
def frameBad (s : State) (d pa n : Nat) : Bool :=
  !(s.die d).offline.isEmpty && (List.range (n / 64)).any fun i => Tab.get false (s.die d).offline (rowKey (pa + 64 * i))

/-- One past the highest byte that a die's pages may use: the save areas of the member contexts it carries lie above (R69). -/
def hbmLimit (s : State) (d : Nat) : Nat := hbmBytes - saveBytes * s.members.countP fun e => e.2.live && decide (e.2.die = d)
/-- A byte count or address rounded up to a multiple of n. -/
def roundUp (a n : Nat) : Nat := (a + n - 1) / n * n
/-- The first aligned place for n bytes from a on, below a limit, that meets no span in use and is fit for use. -/
def findPlace (spans : List (Nat × Nat)) (bad : Nat → Bool) (n limit : Nat) : Nat → Nat → Option Nat
  | 0, _ => none
  | f + 1, a =>
    if limit < a + n then none
    else match spans.find? (fun e => decide (a < e.2 ∧ e.1 < a + n)) with
      | some e => findPlace spans bad n limit f (roundUp e.2 n)
      | none => if bad a then findPlace spans bad n limit f (a + n) else some a
/-- A place for n bytes in the space from key `base` to key `limit`: above all that is in use there while there is room, else the lowest gap (log 31). -/
def placeIn (spans : List (Nat × Nat)) (bad : Nat → Bool) (n base limit more : Nat) : Option Nat :=
  let mine := (spans.filter fun e => decide (base < e.2 ∧ e.1 < limit)).map fun e => (e.1 - base, e.2 - base)
  match findPlace mine bad n (limit - base) (more + 1) (roundUp (mine.foldl (fun t e => max t e.2) 0) n) with
  | some a => some a
  | none => findPlace mine bad n (limit - base) (mine.length + more + 1) 0
/-- A free frame of n bytes on a die's HBM: none when there is no room. -/
def frameFor (s : State) (d n : Nat) : Option Nat :=
  placeIn (usedSpans s) (fun a => frameBad s d a n) n (hbmKey d 0) (hbmKey d (hbmLimit s d)) (4096 * (s.die d).offline.length)
/-- A free frame of n bytes in the expansion tier (R353): 16 ports of 2 TiB, of which those that are up serve, the lowest with room first (log 31). -/
def tierFor (s : State) (n : Nat) : Option Nat :=
  (List.range 16).findSome? fun p =>
    if (s.switch p).tierUp then (placeIn (usedSpans s) (fun _ => false) n (tierKey (p * 2 ^ 41)) (tierKey ((p + 1) * 2 ^ 41)) 0).map (p * 2 ^ 41 + ·) else none
/-- Bytes of a die's HBM that pages do not use. -/
def hbmFree (s : State) (d : Nat) : Nat :=
  hbmLimit s d - ((usedSpans s).map fun e => if e.1 / 2 ^ 64 = hbmKey d 0 / 2 ^ 64 then e.2 - e.1 else 0).sum

/-- A stack that holds a page in use leaves self-refresh (R14, R77). -/
def useStack (s : State) (d pa : Nat) : State :=
  if Tab.get false (s.die d).refresh (stackIn pa) then s.modDie d fun t => { t with refresh := Tab.put false t.refresh (stackIn pa) false } else s

/-- Put a 4 KiB leaf into a page table, with table entries above it (R92). -/
def mapPage (v : VD) (va : Nat) (e : Dword) : VD :=
  let up (t : Tab Dword) (lv : Nat) : Tab Dword := if ptType (Tab.get 0 t (ptKey lv va)) = 2 then t else Tab.put 0 t (ptKey lv va) 2
  { v with pt := Tab.put 0 (up (up (up v.pt 1) 2) 3) (ptKey 4 va) e }
/-- A leaf of 2 MiB or 1 GiB that maps an address becomes a table of 512 leaves, and the 64 KiB group of a 4 KiB leaf is one no more (R92). -/
def splitLeaf (v : VD) (va : Nat) : VD :=
  match findLeaf v va with
  | none => v
  | some (lv, e) =>
    if lv = 4 then
      { v with pt := (List.range 16).foldl (fun t i =>
          let k := ptKey 4 (va / 65536 * 65536 + 4096 * i)
          if ptC (Tab.get 0 t k) then Tab.put 0 t k (Tab.get 0 t k &&& ~~~ 0x10) else t) v.pt }
    else
      let n := if lv = 3 then 4096 else 2 ^ 21
      let base := va / (512 * n) * (512 * n)
      let leaf (i : Nat) : Dword := (e &&& 0xFF00000000000FEF) ||| BitVec.ofNat 64 ((ptPa e / (512 * n) * (512 * n) + n * i) % 2 ^ 56)
      let top := Tab.put 0 v.pt (ptKey lv va) 2
      { v with pt := (List.range 512).foldl (fun t i => Tab.put 0 t (ptKey (lv + 1) (base + n * i)) (leaf i)) top }
/-- The 4 KiB page at an address has a leaf of its own. -/
def lonePage (v : VD) (va : Nat) : VD := splitLeaf (splitLeaf (splitLeaf v va) va) va
/-- Take a 4 KiB leaf out. -/
def unmapPage (v : VD) (va : Nat) : VD := let w := lonePage v va; { w with pt := Tab.put 0 w.pt (ptKey 4 va) 0 }

/-- New zeroed pages from an address on a member's home HBM (R210, R358): none when there is no room for them. -/
def backPages (m : MemberId) : Nat → Nat → State → Option State
  | 0, _, s => some s
  | n + 1, va, s =>
    let d := (s.member m).die
    match frameFor s d 4096 with
    | some pa =>
      backPages m n (va + 4096) (useStack ((s.zeroAll (hbmKey d pa) 4096).modVd m.vd fun v => mapPage v va (leafDword m.member pa true 0)) d pa)
    | none => none

/-- A page counts among the declared memory of its VD (R210): not the queue table's and the strike page, nor what lies in host memory. -/
def counted (v : VD) (va : Nat) : Bool :=
  match findLeaf v va with
  | some (_, e) => decide (ptTgt e < 2) && !(decide (v.queueVa ≤ va ∧ va < v.queueVa + 4096 * v.params.n))
  | none => false
/-- The first VA of a leaf from its key. -/
def leafVa (key : Nat) : Nat := match key / 2 ^ 40 with | 2 => key % 2 ^ 40 * 2 ^ 30 | 3 => key % 2 ^ 40 * 2 ^ 21 | _ => key % 2 ^ 40 * 2 ^ 12
/-- Bytes that do. -/
def countedBytes (v : VD) : Nat :=
  (v.pt.map fun e => if ptType e.2 = 1 && counted v (leafVa e.1) then leafBytes (e.1 / 2 ^ 40) else 0).sum

/-- A VD's translations of an address range leave the TLBs of one die, and its walk cache (R95). -/
def dropDie (s : State) (d vd lo hi : Nat) : State :=
  let keep (e : TlbEntry) : Bool := !(decide (e.vd = vd ∧ e.page * 4096 < hi ∧ lo < (e.page + e.size) * 4096))
  let s := s.modDie d fun t => { t with tlb := t.tlb.filter keep, wcache := t.wcache.filter fun w => decide (w.1 ≠ vd) }
  { s with cores := s.cores.map fun (e : Nat × Core) => if e.1 / 512 = d then (e.1, { e.2 with utlb := e.2.utlb.filter keep, stlb := e.2.stlb.filter keep }) else e }
/-- A VD's translations of an address range leave every TLB and walk cache of the gang's dies (R95). -/
def dropTlb (s : State) (vd lo hi : Nat) : State :=
  let keep (e : TlbEntry) : Bool := !(decide (e.vd = vd ∧ e.page * 4096 < hi ∧ lo < (e.page + e.size) * 4096))
  { s with
    dies := s.dies.map fun (e : Nat × Die) => (e.1, { e.2 with tlb := e.2.tlb.filter keep, wcache := e.2.wcache.filter fun w => decide (w.1 ≠ vd) }),
    cores := s.cores.map fun (e : Nat × Core) => (e.1, { e.2 with utlb := e.2.utlb.filter keep, stlb := e.2.stlb.filter keep }) }

/-! ### Moving a page -/

/-- The heat table that counts for a byte of HBM or the tier (R99). -/
def heatTab (s : State) (k : Nat) : Tab Nat := if k / 2 ^ 80 = 3 then (s.switch (tierPort k)).heat else (s.die (k / 2 ^ 64 % 2 ^ 16)).heat
@[inherit_doc heatTab] def modHeat (s : State) (k : Nat) (f : Tab Nat → Tab Nat) : State :=
  if k / 2 ^ 80 = 3 then s.modSwitch (tierPort k) fun w => { w with heat := f w.heat }
  else s.modDie (k / 2 ^ 64 % 2 ^ 16) fun t => { t with heat := f t.heat }
/-- The counters of a page's regions move with it, and those of the source are cleared (R99). -/
def moveHeat (s : State) (src dst n : Nat) : State :=
  let r := (n + 65535) / 65536
  let taken := (heatTab s src).slice (src / 65536) (src / 65536 + r)
  modHeat (modHeat s src fun h => clearRange h (src / 65536) r) dst fun h => taken.foldl (fun h e => Tab.put 0 h (e.1 - src / 65536 + dst / 65536) e.2) h

/-- Target and address of a leaf that comes to map a key (R92). -/
def leafAt (e : Dword) (k : Nat) : Dword :=
  (e &&& 0xFF000000000000FF) ||| BitVec.ofNat 64 (k % 2 ^ 64 / 4096 % 2 ^ 44 * 2 ^ 12 + (if k / 2 ^ 80 = 3 then 1 else 0) * 2 ^ 8)
/-- Every leaf of a VD that maps a byte of n bytes from a key maps it where they have gone, and so does its record of the queue table. -/
def moveLeaves (s : State) (src dst n vd : Nat) (v : VD) : VD :=
  { v with
    pt := v.pt.map (fun (e : Nat × Dword) => match (if ptType e.2 = 1 then leafKey s vd e.2 else none) with
      | some k => if src ≤ k ∧ k < src + n then (e.1, leafAt e.2 (k - src + dst)) else e
      | none => e),
    tables := v.tables.map fun k => if src ≤ k ∧ k < src + n then k - src + dst else k }
/-- No translation of n bytes from a key stays in a TLB. -/
def dropPlace (s : State) (k n : Nat) : State :=
  let keep (e : TlbEntry) : Bool := match leafKey s e.vd e.leaf with
    | some x => let a := x / (e.size * 4096) * (e.size * 4096); !(decide (a < k + n ∧ k < a + e.size * 4096))
    | none => true
  { s with
    dies := s.dies.map fun (e : Nat × Die) => (e.1, { e.2 with tlb := e.2.tlb.filter keep }),
    cores := s.cores.map fun (e : Nat × Core) => (e.1, { e.2 with utlb := e.2.utlb.filter keep, stlb := e.2.stlb.filter keep }) }
/-- The reductions that wait for lines of n bytes from a key drain. -/
def drainPlace (s : State) (m : MemberId) (k n : Nat) : State := drainRange s (Loc.phys k).die m k n
/-- The leaves of n bytes from a key follow them to another place, with the counters of their regions; the old place is left zeroed (R99 to R101). -/
def swapPage (s : State) (src dst n : Nat) : State :=
  let s := dropPlace (s.zeroAll src n) src n
  moveHeat { s with vds := s.vds.map fun (e : Nat × VD) => (e.1, moveLeaves s src dst n e.1 e.2) } src dst n
/-- Move n bytes of a page, its poison and its leaves with them. -/
def movePage (s : State) (m : MemberId) (src dst n : Nat) : State :=
  let s := (drainPlace s m src n).copyAll src dst n
  swapPage (if dst / 2 ^ 80 = 2 then useStack s (dst / 2 ^ 64 % 2 ^ 16) (dst % 2 ^ 64) else s) src dst n

end Sys2Proof.Machine
end

