-- ==== Sys2Proof/Machine/MemEvents.lean ====
section
/-!
DEFINITION. MemEvents.lean: the events of the memories: granule sequences (R73), page walks (R94, R461), reduction drains (R98), heat decay
(R99), readable migration (R100, R315, R467), errors, scrubbing and retirement (R101, R463 to R465), invalidation (R95), outside ports
(R468).
-/
namespace Sys2Proof.Machine

/-- What has waited goes on at a clk: an access, an event or a bundle. -/
def release (s : State) (t : Nat) : Waiter → State
  | .access id => match s.access id with
    | some a => (s.setAccess (a.moved .travel)).due t (.perform id)
    | none => s
  | .event i o => s.due t (.event i o)
  | .bundle k => s.modCore k fun c => { c with recAt := t }
/-- What waited for a granule proceeds in arrival order, one per clk, from clk t on (R73). -/
def releaseAll (s : State) (t : Nat) : List Waiter → State
  | [] => s
  | w :: l => releaseAll (release s t w) (t + 1) l

/-- Reductions that wait for words of a granule drain before its data move (R98), for the context that owns it. -/
def drainGranule (s : State) (d g : Nat) : State :=
  match memberAt s d (s.gran d g).owner with
  | some o => drainRange s d o (vaultKey d (granBase g)) Config.granule
  | none => s

/-- GRANULE_SEQUENCE_END (R73): the sequence of granule `b` of die `a` moves its data, and the accesses that waited proceed. -/
def execGranuleSequenceEnd (s : State) : Outcome :=
  let d := s.subject.a
  match (s.die d).seqs.find? (fun q => decide (q.g = s.subject.b) && q.started && decide (q.endAt ≤ s.clk)) with
  | some q =>
    let s := runSeq (drainGranule s d q.g) d q.g ⟨q.vd, q.member⟩
    let s := s.modDie d fun t => { t with seqs := t.seqs.filter fun x => decide (x.g ≠ q.g) }
    .next (pumpSeqs (releaseAll s (s.clk + 1) q.waiting) d)
  | none => .fault .noSuchEvent

/-! ### Page walks -/

/-- One access that waited on a walk: it faults on its own account, or goes on with the translation (R461). -/
def walkAccess (s : State) (id : Nat) (lf : Option (TlbEntry)) : State :=
  match s.access id with
  | none => s
  | some a =>
    match lf with
    | none => foundFault s a 0x08 (eaAddr a.ea)
    | some e =>
      let s := if a.k.core = 256 then s else s.modCore a.k fun c => if a.slot = 3 then { c with stlb := tlbFill c.stlb 32 e } else { c with utlb := tlbFill c.utlb 64 e }
      (s.setAccess (a.moved .travel)).due s.clk (.perform id)

/-- A walker is free: the first miss in the queue takes it; on its way there a miss whose page is being walked by now joins that walk (R94). -/
def nextWalk (d : Nat) : Nat → State → State
  | 0, s => s
  | n + 1, s =>
    match (s.die d).walks.find? (fun w => !w.active) with
    | some w =>
      let rest := (s.die d).walks.erase w
      if rest.any fun x => x.active && decide (x.vd = w.vd ∧ x.page = w.page) then
        nextWalk d n (s.modDie d fun t => { t with walks := joinWalk rest w.vd w.page w.write w.waiting })
      else
        (s.modDie d fun t => { t with walks := rest ++ [{ w with active := true }] }).draw.due (s.clk + s.delay)
          (.event .translationWalkEnd { a := d, b := w.vd, c := w.page })
    | none => s

/-- TRANSLATION_WALK_END (R94): the walk of page `c` of VD `b` on die `a` completes. -/
def execTranslationWalkEnd (s : State) : Outcome :=
  let d := s.subject.a
  match (s.die d).walks.find? (fun w => w.active && decide (w.vd = s.subject.b ∧ w.page = s.subject.c)) with
  | none => .fault .noSuchEvent
  | some w =>
    let va := w.page * 4096
    let s := s.modDie d fun t => { t with walks := t.walks.filter fun x => decide (x ≠ w) }
    let s := nextWalk d 1024 s
    match walkPoison (s.vd w.vd) va with
    | some lv =>
      .next (w.waiting.foldl (fun s id => walkAccess s id none) (memoryEvent s 0x02 w.vd 0xFF 0xFF [ptKey lv va, 64, va]))
    | none =>
      match walk s d w.vd va w.write with
      | (some t, r) =>
        if 4 ≤ ptTgt t.leaf then .next (w.waiting.foldl (fun s id => walkAccess s id none) s)
        else .next (w.waiting.foldl (fun s id => walkAccess s id (some t)) r)
      | (none, _) => .next (w.waiting.foldl (fun s id => walkAccess s id none) s)

/-- REDUCTION_DRAIN (R98): the entry of line `b` on die `a` drains once 64 clk have passed with no new operand. -/
def execReductionDrain (s : State) : Outcome :=
  match (s.die s.subject.a).merges.find? (fun e => decide (e.line = s.subject.b ∧ e.last + 64 ≤ s.clk)) with
  | some e => .next (drainEntry s s.subject.a s.subject.m e)
  | none => .fault .noSuchEvent

/-- A heat counter after a decay period (R99). -/
def heatHalf (v : Nat) : Nat := v / 64 / 2 * 64 + v % 64
/-- HEAT_DECAY (R20, R99): the table of die `a`, or of the expansion port of switch `a` − 64; `b` is the decay period, 1 ms to 1 s. -/
def execHeatDecay (s : State) : Outcome :=
  let o := s.subject
  let half (h : Tab Nat) : Tab Nat := (h.map fun (e : Nat × Nat) => (e.1, heatHalf e.2)).filter fun e => decide (e.2 ≠ 0)
  let s := if 64 ≤ o.a then s.modSwitch (o.a - 64) fun w => { w with heat := half w.heat } else s.modDie o.a fun d => { d with heat := half d.heat }
  .next (s.after (max (min o.b Config.second) (1000 * Config.us)) .heatDecay o)

/-! ### Readable migration -/

/-- Bytes of the page that holds an address, and its first address (R100): a level and its leaf. -/
def pageOf (level va : Nat) (e : Dword) : Nat × Nat :=
  let sp := leafSpan level va e
  (sp.1 * 4096, sp.2 * 4096)

/-- The status of a mig returns to an access (R315). -/
def migStatus (st : Nat) (s : State) (id : Nat) : State :=
  match s.access id with
  | some a => returnAt s a s.clk (BitVec.ofNat 64 st)
  | none => s

/-- The switch whose engine makes a migration: the one that the tier side of the page is reached through (R20, R100). -/
def Migration.port (s : State) (g : Migration) : Nat := tierPort (if g.toTier then g.dstKey s else g.srcKey s)
/-- The subject of a migration's events; `b` is the step that ends. -/
def Migration.subject (g : Migration) (b : Nat) : Subject := { m := ⟨g.vd, g.member⟩, a := g.va, b := b }
/-- Replace a migration. -/
def State.setMig (s : State) (g h : Migration) : State := { s with migrations := s.migrations.map fun x => if x = g then h else x }

/-- Step 1 begins: the page is copied, and what is written from now on enters the dirty map (R100). -/
def startMove (s : State) (g : Migration) : State :=
  let s := (drainPlace s ⟨g.vd, g.member⟩ (g.srcKey s) g.size).copyAll (g.srcKey s) (g.dstKey s) g.size
  (s.setMig g { g with step := 1, dirty := [] }).draw.after s.delay .migrationComplete (g.subject 1)
/-- The engine of a switch takes up the next migration that waits for it (R20). -/
def nextMove (s : State) (port : Nat) : State :=
  if s.migrations.any fun g => decide (g.port s = port ∧ g.step ≠ 0) then s
  else match s.migrations.find? (fun g => decide (g.port s = port)) with
    | some g => startMove s g
    | none => s

/-- MIGRATION_REQUEST (R100, R315): VD of `m`, address `a`, to the tier when `b` = 1, for mig access `c` (0: the memory wick). -/
def execMigrationRequest (s : State) : Outcome :=
  let o := s.subject
  let v := s.vd o.m.vd
  let st (n : Nat) (s : State) : State := migStatus n s o.c
  match s.migrations.find? (fun g => decide (g.vd = o.m.vd ∧ g.va ≤ o.a ∧ o.a < g.va + g.size)) with
  | some g => .next (s.setMig g { g with waiting := g.waiting ++ [o.c] })
  | none =>
    match findLeaf v o.a with
    | none => .next (st 3 s)
    | some (lv, e) =>
      let p := pageOf lv o.a e
      let toTier := decide (o.b = 1)
      let src := ptPa e / p.2 * p.2
      if lv = 2 ∨ 2 ≤ ptTgt e ∨ (v.queueVa ≤ o.a ∧ o.a < v.queueVa + 4096 * v.params.n) then .next (st 3 s)
      else if decide (ptTgt e = 1) = toTier then .next (st 1 s)
      else match if toTier then tierFor s p.2 else frameFor s (s.member ⟨o.m.vd, ptMember e⟩).die p.2 with
        | none => .next (st 3 s)
        | some dst =>
          let g : Migration :=
            { vd := o.m.vd, member := ptMember e, va := p.1, size := p.2, toTier := toTier, src := src, dst := dst, waiting := if o.c = 0 then [] else [o.c],
              step := 0, holdAt := 0, retried := false, dirty := [], held := [] }
          if portLost s (.phys (g.srcKey s)) then .next (st 3 s) else .next (nextMove { s with migrations := s.migrations ++ [g] } (g.port s))

/-- The move of VD and address the subject names. -/
def migrationOf (s : State) : Option Migration :=
  s.migrations.find? fun g => decide (g.vd = s.subject.m.vd ∧ g.va = s.subject.a)

/-- Every access of a VD, those of contexts that are off their dies too (R70). -/
def vdAccesses (s : State) (vd : Nat) : List Access :=
  (s.accesses.filter fun a => decide (a.vd = vd)) ++ s.members.flatMap fun e => if e.1 / 256 = vd then e.2.accesses else []
/-- An access has translated through a page of a range and is not performed (R95): it is on its way to another member, or some of its parts are left. -/
def Access.through (a : Access) (lo hi : Nat) : Bool :=
  decide (eaSpace a.ea = 1 ∧ eaAddr a.ea < hi ∧ lo < eaAddr a.ea + max a.size 1) && (match a.st with | .remote _ _ => true | .parts _ _ _ => true | _ => false)
/-- Some access of a VD has, but for some that a migration holds. -/
def busyBut (s : State) (vd lo hi : Nat) (but : List Nat) : Bool := (vdAccesses s vd).any fun a => a.through lo hi && !but.contains a.id
@[inherit_doc busyBut] def rangeBusy (s : State) (vd lo hi : Nat) : Bool := busyBut s vd lo hi []

/-- Migrations of a VD are held while its members have not all taken a gang-wide packet (R38). -/
def placementHeld (s : State) (vd : Nat) : Bool :=
  let n := (s.vd vd).params.n
  let at_ (i : Nat) : Nat := Tab.get 0 (s.member ⟨vd, i⟩).parsed 15
  (List.range n).any fun i => decide (at_ i ≠ at_ 0)

/-- The accesses a migration holds, and the origins of the packets among them: their way ends in the hold buffer (R100). -/
def heldIds (s : State) (g : Migration) : List Nat :=
  g.held.flatMap fun id => match s.access id with
    | some a => match a.kind with
      | .served p => match originAccess s a.ctx p with
        | some b => [id, b.id]
        | none => [id]
      | _ => [id]
    | none => [id]
/-- The held accesses act, in arrival order, where their page is now: `k` is the key of its first byte (R100). -/
def releaseHeld (s : State) (g : Migration) (src k : Nat) : State :=
  g.held.foldl (fun s id => match s.access id with
    | some a => actAt s a (.phys (k + (if eaSpace a.ea = 1 then eaAddr a.ea - g.va else servedKey a - src)))
    | none => s) s
/-- A migration leaves its engine: the page is at key k, those that asked get a status, and the engine turns to the next (R20, R100, R315). -/
def endMove (s : State) (g : Migration) (k status : Nat) : State :=
  let port := g.port s
  let src := g.srcKey s
  let s := releaseHeld { s with migrations := s.migrations.filter fun x => decide (x ≠ g) } g src k
  nextMove (g.waiting.foldl (migStatus status) s) port
/-- A migration is abandoned (R467): a record names the reason. -/
def abandonMove (s : State) (g : Migration) (unit reason status : Nat) : State :=
  endMove (memoryEvent s 0x05 g.vd g.member unit [g.va, reason, status]) g (g.srcKey s) status

/-- Sectors of the page are copied again (R100). -/
def recopy (s : State) (g : Migration) : State :=
  g.dirty.foldl (fun s q => s.copyAll (g.srcKey s + 256 * q) (g.dstKey s + 256 * q) 256) (drainPlace s ⟨g.vd, g.member⟩ (g.srcKey s) g.size)

/-- The leaf of a migration's page still maps its source. -/
def stillThere (s : State) (g : Migration) : Bool :=
  match findLeaf (s.vd g.vd) g.va with
  | some (lv, e) => decide ((pageOf lv g.va e).2 = g.size ∧ ((leafKey s g.vd e).map fun k => k / g.size * g.size) = some (g.srcKey s))
  | none => false

/-- MIGRATION_COMPLETE (R100): step `b` of the subject's migration ends.  After step 1 the dirty sectors are copied again; after step 2 writes are held,
unless R38 holds the migration, which then asks again after 1 µs (log 54); in step 3, once no access that translated through the page is under way, the
sectors that are still dirty are copied, the leaf is swapped and its translations are dropped, and what was held acts at the new place. -/
def execMigrationComplete (s : State) : Outcome :=
  let o := s.subject
  match migrationOf s with
  | none => .fault .noSuchEvent
  | some g =>
    if g.step ≠ o.b ∨ o.b = 0 then .fault .noSuchEvent
    else if !stillThere s g then .next (endMove s g (g.srcKey s) 3)
    else if portLost s (.phys (g.srcKey s)) || portLost s (.phys (g.dstKey s)) then .next (abandonMove s g (0x80 + g.port s) 3 3)
    else if o.b = 1 then .next (((recopy s g).setMig g { g with step := 2, dirty := [] }).draw.after s.delay .migrationComplete (g.subject 2))
    else if o.b = 2 then
      if placementHeld s g.vd then .next (s.after Config.us .migrationComplete o)
      else
        let s := s.setMig g { g with step := 3, holdAt := s.clk }
        .next ((s.draw.after (s.delay % 1700) .migrationComplete (g.subject 3)).after 1700 .migrationHoldTimeout (g.subject 3))
    else if busyBut s g.vd g.va (g.va + g.size) (heldIds s g) then .next (s.after 1 .migrationComplete o)
    else
      let src := g.srcKey s
      let dst := g.dstKey s
      let s := recopy s g
      let s := swapPage (if g.toTier then s else useStack s (s.member ⟨g.vd, g.member⟩).die g.dst) src dst g.size
      .next (endMove s g dst 0)

/-- MIGRATION_HOLD_TIMEOUT (R100, R467): step 3 has lasted 2 µs, and the page stays at its source. -/
def execMigrationHoldTimeout (s : State) : Outcome :=
  match migrationOf s with
  | none => .fault .noSuchEvent
  | some g => if g.step = 3 ∧ g.holdAt + 1700 ≤ s.clk then .next (abandonMove s g 0xFF 1 2) else .fault .noSuchEvent

/-- An uncorrectable error in a destination write of a migration (R467): one retry on a new frame, then the page stays at its source. -/
def moveError (s : State) (k : Nat) : State :=
  match s.migrations.find? (fun g => decide (g.step ≠ 0 ∧ g.dstKey s ≤ k ∧ k < g.dstKey s + g.size)) with
  | none => s
  | some g =>
    match (if g.retried then none else if g.toTier then tierFor s g.size else frameFor s (s.member ⟨g.vd, g.member⟩).die g.size) with
    | some d =>
      let h := { g with dst := d, retried := true, step := 0, held := [] }
      startMove (releaseHeld (s.setMig g h) g (g.srcKey s) (g.srcKey s)) h
    | none => abandonMove s g 0xFF 2 3

/-! ### Errors, scrubbing, retirement -/

/-- The VD and VA that map an HBM byte of a die, if any (R460). -/
def mappedBy (s : State) (d pa : Nat) : Option (Nat × Nat × Nat) :=
  s.vds.findSome? fun e => (e.2.pt.find? fun p =>
      decide (ptType p.2 = 1 ∧ ptTgt p.2 = 0 ∧ (s.member ⟨e.1, ptMember p.2⟩).die = d ∧ ptPa p.2 ≤ pa ∧ pa < ptPa p.2 + leafBytes (p.1 / 2 ^ 40))).map
    fun p =>
      let lv := p.1 / 2 ^ 40
      let va := (match lv with | 2 => p.1 % 2 ^ 40 * 2 ^ 30 | 3 => p.1 % 2 ^ 40 * 2 ^ 21 | _ => p.1 % 2 ^ 40 * 2 ^ 12)
      (e.1, ptMember p.2, va + (pa - ptPa p.2))

/-- Poison every 8-byte word of a range. -/
def State.poisonRange (s : State) (k n : Nat) : State :=
  { s with poison := (List.range (n / 8)).foldl (fun p i => Tab.put false p (k + 8 * i) true) s.poison }

/-- Records a management die's 64 MiB hold: 64 bytes each (R20, R22, log 34). -/
def storeSize : Nat := 2 ^ 20
/-- Write a record to the record store of one management die, if it is not there already: the write may fail, and fails once the store is full (R22, R465). -/
def storeOn (r : Nat × List Nat) (acc : Bool × State) (i : Nat) : Bool × State :=
  let s := acc.2
  let l := Tab.get [] s.platform.records i
  if l.contains r then acc
  else if l.length < storeSize ∧ Config.freeChoice s.fresh % 2 = 0 then
    let t := s.draw
    (acc.1, { t with platform := { t.platform with records := Tab.put [] t.platform.records i (l ++ [r]) } })
  else (false, s.draw)
/-- Write it to both management dies (R20, R465), as far as the standby answers; whether both writes have succeeded. -/
def storeBoth (s : State) (r : Nat × List Nat) : Bool × State :=
  (if s.platform.standby then [s.platform.mgmtDie, 1 - s.platform.mgmtDie] else [s.platform.mgmtDie]).foldl (storeOn r) (true, s)
/-- Write a retirement record; a write that fails is retried (R382, R465). -/
def storeRecord (s : State) (kind : Nat) (args : List Nat) : State :=
  let r := storeBoth s (kind, args)
  if r.1 then r.2
  else
    { r.2 with platform := { r.2.platform with pendingRecords := r.2.platform.pendingRecords ++ [(kind, args, 1)] } }.after Config.second
      .retirementRecordRetry {}

/-- The pages that leaves map into a row of a die's stacks: VD, first VA, first byte and size (R101). -/
def rowPages (s : State) (d key : Nat) : List (Nat × Nat × Nat × Nat) :=
  s.vds.flatMap fun e => e.2.pt.filterMap fun l =>
    let n := leafBytes (l.1 / 2 ^ 40)
    if ptType l.2 = 1 ∧ ptTgt l.2 = 0 ∧ (s.member ⟨e.1, ptMember l.2⟩).die = d && (List.range (n / 64)).any (fun i => decide (rowKey (ptPa l.2 + 64 * i) = key)) then
      some (e.1, leafVa l.1, ptPa l.2, n)
    else none
/-- The memory wick migrates the pages of a row that has no spare to other frames of the die (R101): one that R38 holds, or through which accesses are under
way, when it may, for which the wick asks again after 1 µs (log 54). -/
def rehomeRow (s : State) (d key : Nat) : State :=
  let later (s : State) (p : Nat × Nat × Nat × Nat) : Bool := placementHeld s p.1 || rangeBusy s p.1 p.2.1 (p.2.1 + p.2.2.2)
  let s := (rowPages s d key).foldl (fun s p =>
    if later s p || !((s.vd p.1).pt.any fun l => decide (ptType l.2 = 1 ∧ leafKey s p.1 l.2 = some (hbmKey d p.2.2.1))) then s
    else match frameFor s d p.2.2.2 with
      | some dst => movePage s ⟨p.1, 0⟩ (hbmKey d p.2.2.1) (hbmKey d dst) p.2.2.2
      | none => s) s
  if (rowPages s d key).any (later s) then s.after Config.us .eccError { a := key, b := d, c := 4 } else s

/-- A row of a die's HBM is retired (R101): remapped to a spare of its bank, or every frame with a line in it offlined once its page is elsewhere. -/
def retireRow (s : State) (d pa : Nat) : State :=
  let row := rowIn pa
  let stack := 2 * d + stackIn pa
  let bank := stack * 2 ^ 16 + row % 65536
  let used := Tab.get 0 s.platform.sparesUsed bank
  let arg0 := row % 2 ^ 48
  let owner := (mappedBy s d pa).getD (0, 0xFF, 0)
  if used < 8 then
    let s := { s with platform := { s.platform with sparesUsed := Tab.put 0 s.platform.sparesUsed bank (used + 1),
                                                    remaps := Tab.put 0 s.platform.remaps (stack * 2 ^ 48 + arg0) (used + 1) } }
    storeRecord (memoryEvent s 0x03 owner.1 owner.2.1 stack [arg0, used, 0]) 0x03 [stack, arg0, used, s.clk]
  else
    let frames := ((rowPages s d (rowKey pa)).map fun p => p.2.2.2 / 4096).sum
    let s := s.modDie d fun t => { t with offline := Tab.put false t.offline (rowKey pa) true }
    rehomeRow (storeRecord (memoryEvent s 0x03 owner.1 owner.2.1 stack [arg0, 0xFFFFFFFFFFFFFFFF, frames]) 0x03 [stack, arg0, pa / 4096, s.clk, 1]) d (rowKey pa)

/-- A retirement record is replayed at power-up (R101): the remap, or the offlined frames. -/
def replayRow (s : State) (r : Nat × List Nat) : State :=
  let stack := r.2.getD 0 0
  let row := r.2.getD 1 0
  let n := r.2.getD 2 0
  if r.1 ≠ 3 then s
  else if r.2.getD 4 0 = 1 then s.modDie (stack / 2) fun t => { t with offline := Tab.put false t.offline (stack % 2 * 2 ^ 64 + row) true }
  else
    let bank := stack * 2 ^ 16 + row % 65536
    { s with platform := { s.platform with sparesUsed := Tab.put 0 s.platform.sparesUsed bank (max (Tab.get 0 s.platform.sparesUsed bank) (n + 1)),
                                           remaps := Tab.put 0 s.platform.remaps (stack * 2 ^ 48 + row) (n + 1) } }

/-- An error found in an HBM line (R463, R101). -/
def hbmError (s : State) (d pa : Nat) (bad : Bool) : State :=
  let line := pa / 64 * 64
  let row := rowKey line
  let owner := (mappedBy s d line).getD (0, 0xFF, 0)
  let stack := 2 * d + stackIn pa
  if bad then
    let s := moveError (s.poisonRange (hbmKey d line) 64) (hbmKey d line)
    let page := owner.2.2 / 4096 * 4096
    let s := if (s.vd owner.1).live ∧ !(s.vd owner.1).started ∧ !(s.vd owner.1).badPages.contains page then
        s.modVd owner.1 fun v => { v with badPages := v.badPages ++ [page] } else s
    retireRow (memoryEvent s 0x02 owner.1 owner.2.1 stack [line, 64, owner.2.2]) d line
  else
    let hits := ((Tab.get [] (s.die d).rowErrors row).filter fun t => decide (s.clk ≤ t + Config.hour)) ++ [s.clk]
    let put (l : List Nat) (s : State) : State := s.modDie d fun t => { t with rowErrors := Tab.put [] t.rowErrors row l }
    let s := memoryEvent s 0x01 owner.1 owner.2.1 stack [line, hits.length, 0]
    if 3 ≤ hits.length then retireRow (put [] s) d line else put hits s

/-- ECC_ERROR (R463): an error is found, correctable (`b` = 0) or not, in memory byte `a` (`c` = 0), in register space at byte `a` of core `k`
(1), in IMEM bundle `a` of core `k` (2), or in the table entry `a` of VD `m` (3); `c` = 4 is the memory wick, which moves the pages of row `a` of die `b`
that it could not move before (R101). -/
def execEccError (s : State) : Outcome :=
  let o := s.subject
  let bad := decide (o.b ≠ 0)
  match o.c with
  | 0 =>
    match o.a / 2 ^ 80 with
    | 2 => .next (hbmError s (o.a / 2 ^ 64 % 2 ^ 16) (o.a % 2 ^ 64) bad)
    | 1 =>
      let w := o.a / 8 * 8
      let d := o.a / 2 ^ 64 % 2 ^ 16
      let m := ((s.die d).ctx).getD ⟨0, 0xFF⟩
      if bad then .next (memoryEvent ({ s with poison := Tab.put false s.poison w true }.dirty d (w % 2 ^ 64)) 0x02 m.vd m.member 0xFF [w % 2 ^ 64, 8, 0])
      else .next (memoryEvent s 0x01 m.vd m.member 0xFF [w % 2 ^ 64, 1, 1])
    | _ => if bad then .next (moveError (s.poisonRange (o.a / 64 * 64) 64) (o.a / 64 * 64)) else .next s
  | 1 =>
    if bad then .next (s.modCore o.k fun c => { c with rsPoison := Tab.put false c.rsPoison (o.a % Config.regSpace / 8 * 8) true }) else .next s
  | 2 => if bad then .next (s.modCore o.k fun c => { c with imemPoison := Tab.put false c.imemPoison (o.a % 2048) true }) else .next s
  | 4 => .next (rehomeRow s o.b o.a)
  | _ => if bad then .next (s.modVd o.m.vd fun v => { v with ptPoison := Tab.put false v.ptPoison o.a true }) else .next s

/-- HBM_SCRUB (R463): every row of die `a` is read once in 24 h. -/
def execHbmScrub (s : State) : Outcome := .next (s.after Config.day .hbmScrub s.subject)
/-- VAULT_SCRUB (R463): every word of the vault die of die `a` is read once per second. -/
def execVaultScrub (s : State) : Outcome := .next (s.after Config.second .vaultScrub s.subject)

/-- RETIREMENT_RECORD_RETRY (R465): the oldest record not yet written is tried again; a KIND 0x04 record follows the third failure. -/
def execRetirementRecordRetry (s : State) : Outcome :=
  match s.platform.pendingRecords with
  | [] => .fault .noSuchEvent
  | (kind, args, n) :: t =>
    let r := storeBoth s (kind, args)
    let s := r.2
    if r.1 then .next { s with platform := { s.platform with pendingRecords := t } }
    else
      let s := { s with platform := { s.platform with pendingRecords := (kind, args, n + 1) :: t } }
      let s := if n + 1 = 3 then
          let x := memoryEvent s 0x04 0 0xFF 0xFF [kind, 3]
          { x with platform := { x.platform with pendingRecords := x.platform.pendingRecords ++ [(4, [kind, 3], 0)] } }.after Config.second .retirementRecordRetry {}
        else s
      .next (s.after Config.second .retirementRecordRetry {})

/-! ### Invalidation (R95) -/

/-- TRANSLATION_INVALIDATE (R95): the memory wick sends the invalidation of addresses `b` to `c` of VD `a` to every die of it. -/
def execTranslationInvalidate (s : State) : Outcome :=
  let o := s.subject
  let ds := (s.vd o.a).dies.eraseDups
  if (s.vd o.a).live then
    let t := { s with invals := s.invals ++ [⟨s.nextInval, o.a, o.b, o.c, ds, ds⟩], nextInval := s.nextInval + 1 }
    .next (ds.foldl (fun (t : State) d => t.draw.after t.delay .inval { a := s.nextInval, l := [d] }) t)
  else .fault .noSuchEvent

/-- An earlier invalidation has not been applied at a die: this one waits, since a die applies them in the order they were sent. -/
def invalAhead (s : State) (no d : Nat) : Bool := s.invals.any fun i => decide (i.no < no) && i.todo.contains d
/-- Replace an invalidation. -/
def State.setInval (s : State) (i : Inval) : State := { s with invals := s.invals.map fun x => if x.no = i.no then i else x }
/-- Some access from a die that used the range is under way. -/
def dieBusy (s : State) (d vd lo hi : Nat) : Bool := (vdAccesses s vd).any fun a => decide (a.k.die = d) && a.through lo hi
/-- A die of the invalidation acknowledges; with the last it completes, which the wick reports. -/
def ackInval (s : State) (i : Inval) (d : Nat) : State :=
  let left := i.left.filter fun x => decide (x ≠ d)
  if left.isEmpty then reply { s with invals := s.invals.filter fun x => decide (x.no ≠ i.no) } 0x100 i.vd []
  else s.setInval { i with left := left }

/-- INVAL (R95): invalidation `a` is at die `l`, which drops what matches at once, in the order of the wick, and acknowledges once no access that used it
is under way. -/
def execInval (s : State) : Outcome :=
  let o := s.subject
  let d := o.l.headD 64
  match s.invals.find? (fun i => decide (i.no = o.a) && i.left.contains d) with
  | none => .fault .noSuchEvent
  | some i =>
    if i.todo.contains d && invalAhead s i.no d then .next (s.after 1 .inval o)
    else
      let i' := { i with todo := i.todo.filter fun x => decide (x ≠ d) }
      let s' := if i.todo.contains d then (dropDie s d i.vd i.lo i.hi).setInval i' else s
      if dieBusy s' d i.vd i.lo i.hi then .next (s'.after 1 .inval o) else .next (ackInval s' i' d)

/-! ### Outside ports (R468) -/

/-- The place a global access of a VD on its way is bound for, behind an outside port. -/
def outsideBound (s : State) (a : Access) : Bool :=
  decide (eaSpace a.ea = 1) && (match vaPlace s a.vd (eaAddr a.ea) false with
    | .ok l => decide (l.key / 2 ^ 80 = 3 ∨ l.key / 2 ^ 80 = 4)
    | .error _ => false)

/-- OUTSIDE_PORT_TIMEOUT (R468): access `a` has had no completion for 50 ms; cause 0x0D, REASON 2. -/
def execOutsidePortTimeout (s : State) : Outcome :=
  match s.access s.subject.a with
  | some a => if outsideBound s a && !a.performed && decide (a.issue + 50 * 1000 * Config.us ≤ s.clk) then .next (foundMember s a a.member 2) else .fault .noSuchEvent
  | none => .fault .noSuchEvent

/-- OUTSIDE_PORT_LOST (R468): expansion port `a` (0 to 15) or host port `a` − 0x40 is lost, for reason `b`. -/
def execOutsidePortLost (s : State) : Outcome :=
  let o := s.subject
  if o.a < 16 then
    let behind := (s.vds.flatMap fun e => (leavesOf e.2).filter fun l => decide (ptTgt l.2 = 1 ∧ tierPort (tierKey (ptPa l.2)) = o.a)).length
    .next (memoryEvent (s.modSwitch o.a fun w => { w with tierUp := false }) 0x06 0 0xFF (0x80 + o.a) [o.a, o.b, behind])
  else
    .next (memoryEvent { s with platform := { s.platform with hostPorts := Tab.put false s.platform.hostPorts (o.a % 4) true } } 0x06 0 0xFF
      (0xC0 + o.a % 4) [0x40 + o.a % 4, o.b, 0])

end Sys2Proof.Machine
end

