-- ==== Sys2Proof/Machine/Reduce.lean ====
section
/-!
DEFINITION. Reduce.lean: in-switch reduction slots (R334 to R336, R453, R455): lookup, combination, completion words, results, deadlines.
-/
namespace Sys2Proof.Machine

/-- The slot of a switch. -/
def State.slot (s : State) (w i : Nat) : Option RedSlot := Tab.get none (s.switch w).slots i
/-- Write a slot. -/
def State.setSlot (s : State) (w i : Nat) (r : Option RedSlot) : State := s.modSwitch w fun x => { x with slots := Tab.put none x.slots i r }

/-- The probe sequence of a key (R334). -/
def probes (g cid : Nat) : List Nat := (List.range 16).map fun j => (slotHash g cid / 16 + j) % 256
/-- The slot that holds the key. -/
def slotOf (s : State) (w g cid : Nat) : Option Nat :=
  (probes g cid).find? fun i => match s.slot w i with
    | some r => decide (r.gang = g ∧ r.cid = cid)
    | none => false
/-- The first free slot of the probe sequence. -/
def freeSlot (s : State) (w g cid : Nat) : Option Nat := (probes g cid).find? fun i => (s.slot w i).isNone

/-- Elements of four bytes. -/
def words32 (l : List Byte) : List Nat := (List.range (l.length / 4)).map fun i => ofBytes ((l.drop (4 * i)).take 4)
@[inherit_doc words32] def bytes32 (l : List Nat) : List Byte := l.flatMap (toBytes 4)

/-- One element combined (R335): TYPE 0 .f32, 5 .s32, else .z32; OP 0 add, 1 max, 2 min. -/
def redElem (ty op p x : Nat) : Nat :=
  if ty = 0 then (match op with | 0 => fadd 0 0 p x | 1 => fmax 0 p x | _ => fmin 0 p x)
  else match op with
    | 0 => (p + x) % 2 ^ 32
    | 1 => if ty = 5 then (if sgn 32 p < sgn 32 x then x else p) else max p x
    | _ => if ty = 5 then (if sgn 32 x < sgn 32 p then x else p) else min p x

/-- Elements of a contribution that are NaN. -/
def nanElems (ty : Nat) (l : List Nat) : List Nat :=
  if ty = 0 then (List.range l.length).filter fun i => (fdec 0 (l.getD i 0)).isNan else []

/-- A first contribution as partial values: a NaN is canonical (R335). -/
def redFirst (ty : Nat) (l : List Nat) : List Nat := if ty = 0 then l.map (fun x => if (fdec 0 x).isNan then 0x7FC00000 else x) else l

/-- The contributor mask (R336): bit m for member m. -/
def memberMask (l : List Nat) : Nat := (l.map (2 ^ ·)).sum

/-- The completion word (R336). -/
def completionWord (part late refused : Bool) (nan : Option Nat) (mask : List Nat) : Dword :=
  BitVec.ofNat 64 (b2n part * 2 ^ 63 + b2n nan.isSome * 2 ^ 62 + b2n late * 2 ^ 61 + b2n refused * 2 ^ 60 + nan.getD 0 % 256 * 2 ^ 52
    + mask.length * 2 ^ 43 + memberMask mask % 2 ^ 32)

/-- Send an SRES to a member (R336): the completion word, and the result and mask unless the contribution was refused.  It carries the stamps of the
contributions (R111, R324) and no SEQ, for its origin is no member; it goes out by the switch's own queue (R326), and over a reach link to
another package. -/
def sendSres (s : State) (w : Nat) (m : MemberId) (cid tag : Nat) (word : Dword) (data : List Byte) (stamp : Tab Nat) : State :=
  let d := (s.member m).die
  let p := payloadLen { (Pkt.local m.member m.member 0x0C word 0) with
    vc := 2, gang := (s.vd m.vd).gang, cid := cid, rtag := tag, data := data, ddie := d, stamp := stamp, inj := Tab.get 0 (s.switch w).sent (s.vd m.vd).gang }
  let g := p.gang
  let s := s.modSwitch w fun x => { x with sent := Tab.put 0 x.sent g (Tab.get 0 x.sent g + 1) }
  if pkgOf d = switchPkg w then switchOut s w p
  else s.after 260 .switchPacketForward { a := 16 * pkgOf d + w % 16, pkt := some p }

/-- The data of an SRES: the result, and the whole mask when the gang has more than 32 members (R336). -/
def sresData (n : Nat) (result : List Byte) (mask : List Nat) : List Byte := result ++ (if 32 < n then toBytes 32 (memberMask mask) else [])

/-- A dropped contribution is counted (R336, R414). -/
def countDrop (s : State) (w g : Nat) : State :=
  telemetry (s.modSwitch w fun x => { x with drops := Tab.put 0 x.drops g (Tab.get 0 x.drops g + 1) }) 0x10 [w, g]

/-- A slot completes (R335, R336): one SRES to each contributor that waits, then it lingers for 100 µs. -/
def completeSlot (s : State) (w i : Nat) (r : RedSlot) (part : Bool) : State :=
  let vd := vdOfGang s r.gang
  let word := completionWord part false false r.nan r.mask
  let data := sresData (s.vd vd).params.n r.partials r.mask
  let s := r.waiting.foldl (fun s e => sendSres s w ⟨vd, e.1⟩ r.cid e.2.1 word data r.stamp) s
  (s.setSlot w i (some { r with waiting := [], done := some (word, s.clk + 100 * Config.us) })).after (100 * Config.us) .slotLingerEnd { a := w, b := i }

/-- A contribution is combined into its slot; the slot completes with the last member (R335). -/
def combine (s : State) (w i : Nat) (r : RedSlot) (p : Pkt) : State :=
  let x := words32 p.data
  let nans := nanElems r.ty x
  let ne := (List.range x.length).filter fun e => r.nanElems.contains e || nans.contains e
  let old := words32 r.partials
  let vals := (List.range x.length).map fun e =>
    if ne.contains e then 0x7FC00000
    else if r.mask.isEmpty then (redFirst r.ty x).getD e 0 else redElem r.ty r.op (old.getD e 0) (x.getD e 0)
  let nan := if nans.isEmpty then r.nan else some (match r.nan with | some m => min m p.smem | none => p.smem)
  let r := { r with partials := bytes32 vals, nan := nan, nanElems := ne, mask := r.mask ++ [p.smem],
                    waiting := r.waiting ++ [(p.smem, p.rtag, p.addr.toNat)], stamp := mergeClock r.stamp p.stamp }
  if r.mask.length = (s.vd (vdOfGang s r.gang)).params.n then completeSlot s w i r false else s.setSlot w i (some r)

/-- A contribution reaches its switch (R335, R336). -/
def contribute (s : State) (w : Nat) (p : Pkt) : State :=
  let g := p.gang
  let vd := vdOfGang s g
  let m : MemberId := ⟨vd, p.smem⟩
  let refuse (s : State) : State := sendSres (countDrop s w g) w m p.cid p.rtag (completionWord false false true none []) [] []
  let s := s.modSwitch w fun x => { x with received := Tab.put 0 x.received g (Tab.get 0 x.received g + (if p.counted then 0 else 1)) }
  match slotOf s w g p.cid with
  | some i =>
    match s.slot w i with
    | some r =>
      match r.done with
      | some _ =>
        sendSres (countDrop s w g) w m p.cid p.rtag (completionWord false true false r.nan r.mask) (sresData (s.vd vd).params.n r.partials r.mask) r.stamp
      | none =>
        if r.len ≠ p.data.length ∨ r.ty ≠ p.opx / 4 ∨ r.op ≠ p.opx % 4 ∨ r.mask.contains p.smem then refuse s else combine s w i r p
    | none => s
  | none =>
    match freeSlot s w g p.cid with
    | none => refuse s
    | some i =>
      let d := (s.vd vd).params.deadline
      let r : RedSlot :=
        { gang := g, cid := p.cid, ty := p.opx / 4, op := p.opx % 4, len := p.data.length, partials := [], mask := [], stamp := [], nan := none, nanElems := [],
          waiting := [], deadline := s.clk + d, done := none }
      combine (s.after d .reductionSlotDeadline { a := w, b := i, c := s.clk + d }) w i r p

/-- SRED_PACKET (R334 to R336): the contribution of the subject's packet reaches switch position `a`. -/
def execSredPacket (s : State) : Outcome :=
  match s.subject.pkt with
  | some p => if p.type = 0x0B then .next (contribute s s.subject.a p) else .fault .noSuchEvent
  | none => .fault .noSuchEvent

/-- REDUCTION_SLOT_DEADLINE (R335): slot `b` of switch `a`, whose deadline is clk `c`, completes with PARTIAL. -/
def execReductionSlotDeadline (s : State) : Outcome :=
  let o := s.subject
  match s.slot o.a o.b with
  | some r => if r.done.isNone ∧ r.deadline = o.c ∧ o.c ≤ s.clk then .next (completeSlot s o.a o.b r true) else .fault .noSuchEvent
  | none => .fault .noSuchEvent

/-- SLOT_LINGER_END (R336): a done slot is freed 100 µs after it completed. -/
def execSlotLingerEnd (s : State) : Outcome :=
  let o := s.subject
  match s.slot o.a o.b with
  | some r =>
    match r.done with
    | some (_, t) => if t ≤ s.clk then .next (s.setSlot o.a o.b none) else .fault .noSuchEvent
    | none => .fault .noSuchEvent
  | none => .fault .noSuchEvent

/-- The contribution access a result belongs to. -/
def sredAccess (s : State) (m : MemberId) (tag : Nat) : Option Access :=
  s.accesses.find? fun a => decide (a.vd = m.vd ∧ a.member = m.member ∧ a.id % 65536 = tag)
    && (match a.kind with | .sred _ _ _ _ => true | _ => false)

/-- A result is delivered (R324, R455): its stamp is merged into the applied clock, it overwrites the contribution bytes, then D takes the completion
word. -/
def deliverSres (s : State) (m : MemberId) (p : Pkt) : State :=
  let s' := checkHeld (s.modMember m fun c =>
    { c with received := c.received + (if p.counted then 0 else 1), clock := mergeClock c.clock p.stamp }) m
  match sredAccess s m p.rtag with
  | none => s'
  | some a =>
    let va := eaAddr a.ea
    if p.data.isEmpty then returnAt s' a s.clk p.addr
    else match [granOf va, granOf (va + p.data.length - 1)].find? fun g => !resident s a.k.die m g with
    | none =>
      let n := min p.data.length (if vaultOk s m va p.data.length then p.data.length else a.size)
      returnAt (putAt s' m (.vault a.k.die va) (p.data.take n)) a s.clk p.addr
    | some g => waitGranule s a.k.die g m (.event .sres { m := m, pkt := some p, b := 1 })

/-- SRES (R326, R455): a reduction result reaches its contributor from switch `a`, where it waits until the member's context is on its die; with `b` = 1 it
has waited there for a granule. -/
def execSres (s : State) : Outcome :=
  let o := s.subject
  match o.pkt with
  | some p =>
    if p.type = 0x0C ∧ (s.member o.m).live ∧ (s.die (s.member o.m).die).ctx ≠ some o.m then .next (s.after 8 .sres o)
    else if p.type = 0x0C ∧ (s.member o.m).live then .next (deliverSres (if o.b = 0 then arriveCommon s o.m o.a p else s) o.m p) else .fault .noSuchEvent
  | none => .fault .noSuchEvent

/-- A slot is lost (R453): every waiting contributor is answered REFUSED, and a KIND 0x0A record names it. -/
def loseSlot (s : State) (w : Nat) (r : RedSlot) : State :=
  let vd := vdOfGang s r.gang
  let s := r.waiting.foldl (fun s e => sendSres s w ⟨vd, e.1⟩ r.cid e.2.1 (completionWord false false true none []) [] []) s
  fabricEvent s 0x0A vd 0xFF [r.cid, memberMask r.mask, w]

/-- The switch a gang's slot lives at (R334, R444), in the package of its member 0. -/
def slotHome (s : State) (vd gang cid : Nat) : Nat :=
  let d := (s.member ⟨vd, 0⟩).die
  16 * pkgOf d + (livePos s d d (slotHash gang cid % 16)).getD (slotHash gang cid % 16)

/-- A slot record is reinstalled at a relight (R65, R66, R334): its deadline runs on for what was left. -/
def reinstallSlot (s : State) (vd : Nat) (r : RedSlot) : State :=
  let w := slotHome s vd r.gang r.cid
  match freeSlot s w r.gang r.cid with
  | none => loseSlot s w r
  | some i =>
    match r.done with
    | some (word, left) =>
      (s.setSlot w i (some { r with done := some (word, s.clk + left) })).after left .slotLingerEnd { a := w, b := i }
    | none =>
      (s.setSlot w i (some { r with deadline := s.clk + r.deadline })).after r.deadline .reductionSlotDeadline
        { a := w, b := i, c := s.clk + r.deadline }

/-- The slots of a gang leave their switches as records (R65): times become times left. -/
def saveSlots (s : State) (vd : Nat) : State :=
  let g := (s.vd vd).gang
  let recs := s.switchList.flatMap fun w => (s.switch w).slots.filterMap fun e => match e.2 with
    | some r => if r.gang = g then some { r with deadline := r.deadline - s.clk, done := r.done.map fun d => (d.1, d.2 - s.clk) } else none
    | none => none
  let s := s.switchList.foldl (fun s w => s.modSwitch w fun x =>
    { x with slots := x.slots.filter fun e => match e.2 with | some r => decide (r.gang ≠ g) | none => false }) s
  s.modMember ⟨vd, 0⟩ fun c => { c with slots := c.slots ++ recs }

end Sys2Proof.Machine
end

