-- ==== Sys2Proof/Machine/FabEvents.lean ====
section
/-!
DEFINITION. FabEvents.lean: packets on their way and at their destination (R110, R317 to R327), demand messages (R48, R304), retransmission
(R446, R447), beacons, rate limiters and tickets.
-/
namespace Sys2Proof.Machine

/-! ### Switches (R317, R325, R414) -/

/-- A packet with reserved header bits, a reserved type, a type on the wrong channel or too many stamp dwords (R414). -/
def pktBad (p : Pkt) : Bool := decide (p.rsvd ≠ 0) || decide (4 < p.nent) || !(typeChannels p.type).contains p.vc

/-- A switch has dropped a packet (R414): its drop counter and its received counter for the gang rise. -/
def dropPkt (s : State) (w : Nat) (p : Pkt) : State :=
  countDrop (s.modSwitch w fun x => { x with received := Tab.put 0 x.received p.gang (Tab.get 0 x.received p.gang + 1) }) w p.gang

/-- A packet reaches switch position w (R317): it is lost with a switch that is down, dropped, passed on
over the position's reach link to the package it goes to, or put out toward its die; a vote, invalidation or management message ends here, since the events
of the units that take it are what it says. -/
def switchForward (s : State) (w : Nat) (p : Pkt) : State :=
  let home := if p.type = 0x0B then pkgOf (s.member ⟨vdOfGang s p.gang, 0⟩).die else pkgOf p.ddie
  if decide (4096 ≤ w) || (s.switch w).down then
    if p.type = 0x0B then s.after 42500 .switchPacketForward { a := switchPos s p, pkt := some p } else s
  else if pktBad p then dropPkt s w p
  else if home ≠ switchPkg w then
    if reachUp s (switchPkg w) home (w % 16) then s.after 260 .switchPacketForward { a := 16 * home + w % 16, pkt := some p } else s
  else if p.type = 0x0B then s.after 0 .sredPacket { a := w, pkt := some p }
  else if p.type = 0x20 ∨ p.type = 0x22 ∨ p.type = 0x23 then s
  else switchOut s w p

/-- SWITCH_PACKET_FORWARD (R317): the subject's packet reaches switch position `a`. -/
def execSwitchPacketForward (s : State) : Outcome :=
  match s.subject.pkt with
  | some p => .next (switchForward s s.subject.a p)
  | none => .fault .noSuchEvent

/-! ### Demand (R48, R304) -/

/-- A task that has not been dispatched is withdrawn, or the task learns that it is (R48). -/
def withdrawTask (s : State) (m : MemberId) (h : Nat) (t : Task) : State :=
  match t.st with
  | .running i => s.modCore ⟨(s.member m).die, i⟩ fun c => { c with wdrawn := true }
  | _ =>
    if t.resumed then s.modMember m fun c => c.setTask h (some { t with ctl := t.ctl ||| 0x10000000000 })
    else
      let s := s.modMember m fun c => leaveBanks c h
      let s := if t.fired.isNone then
          ((recInputs t.ctl t.d1 t.d2).filter fun w => !feOf s m w).foldl (fun s w => sendDemand s m w false) s
        else s
      releaseTask s m h t 0x200 s.clk

/-- A job whose demand has reached zero (R304). -/
def withdrawJob (s : State) (m : MemberId) (h : Nat) (j : Job) : State :=
  match j.st with
  | .finishing _ => s
  | .active _ =>
    if j.issued = cardChunks j.card then s
    else jobCheckEnd (s.modMember m fun c => c.setJob h (some { j with withdrawn := true })) m h
  | _ => finishJob (s.modMember m fun c => c.setJob h (some { j with withdrawn := true })) m h

/-- A demand message reaches the producer of a word of member `wm` (R48). -/
def demandAct (s : State) (m : MemberId) (wm word : Nat) (inc : Bool) : State :=
  match (s.member ⟨m.vd, wm⟩).producers.find? (fun p => decide (p.word = word ∧ p.member = m.member)) with
  | none => s
  | some p =>
    match p.owner with
    | .task h => match (s.member m).task h with
      | some t =>
        let n := demandStep t.demand inc
        let s' := s.modMember m fun c => c.setTask h (some { t with demand := n })
        if n = 0 ∧ t.demand ≠ 0 then withdrawTask s' m h { t with demand := n } else s'
      | none => s
    | .job h => match (s.member m).job h with
      | some j =>
        let n := demandStep j.demand inc
        let s' := s.modMember m fun c => c.setJob h (some { j with demand := n })
        if n = 0 ∧ j.demand ≠ 0 then withdrawJob s' m h { j with demand := n } else s'
      | none => s

/-! ### Applying a packet (R324) -/

/-- The step of an active collective (R330). -/
def collStep (s : State) (m : MemberId) (j : Job) : Nat := (wordOf s m (cardPaddr j.card + 16 * j.coll.step + 8)).toNat / 2 ^ 60
/-- The event of a step code (R330). -/
def stepEvent (code : Nat) : Instr :=
  match code with
  | 0 => .stepEnd | 1 => .stepSend | 2 => .stepRecv | 3 => .stepRrs | 4 => .stepRrd | 5 => .stepCopy | 6 => .stepWait | 7 => .stepSignal
  | 8 => .stepLoop | 9 => .stepEndl | 10 => .stepPeer | _ => .stepBar
/-- Ask for an event of a member after n clk, unless the same one is already due. -/
def askOnce (s : State) (n : Nat) (i : Instr) (m : MemberId) (a : Nat) : State :=
  if s.agenda.any fun d => decide (d.act = .event i { m := m, a := a }) then s else s.afterM n i m a
/-- Ask for the step of every active collective of a member, or of the one with a CID. -/
def pokeColl (s : State) (m : MemberId) (cid : Option Nat) : State :=
  (s.member m).jobs.foldl (fun s e => match e.2 with
    | some j =>
      if cardKind j.card = 2 && (jobEngine j).isSome && (cid.isNone || decide (cid = some (cardCid j.card))) then
        askOnce s 0 (stepEvent (collStep s m j)) m e.1
      else s
    | none => s) s

/-- Read data or an old value reach their requester (R324). -/
def deliverResponse (s : State) (m : MemberId) (p : Pkt) : State :=
  match s.accesses.find? (fun a => decide (a.vd = m.vd ∧ a.member = m.member ∧ a.id % 65536 = p.rtag)
      && (match a.st with | .remote _ _ => true | _ => false)) with
  | none => s
  | some a =>
    if p.poison then foundFault s a 0x0F (eaAddr a.ea)
    else
      let n := BitVec.ofNat 64 (ofBytes p.data)
      match a.kind with
      | .load k sx => performedAcc s a (some (.s (if sx then sextN (8 * k) n else n)))
      | .loadV => performedAcc s a (some (.v allOnes (vecOf p.data)))
      | .part _ _ _ _ => performedAcc s a (some (.bytes p.data))
      | .fifoLoad _ _ _ => performedAcc s a (some (.bytes p.data))
      | .amo _ _ _ _ _ => performedAcc s a (some (.s n))
      | _ => s

/-- A memory packet acts on its address (R320): a V-address of this die through its port, or HBM, at once when it is one part and no migration holds it
(R100, R107). -/
def memoryPkt (s : State) (m : MemberId) (p : Pkt) : State :=
  let a := p.addr.toNat % 2 ^ 52
  let k := hbmKey (s.member m).die a
  if p.addr.toNat / 2 ^ 62 = 0 then engineAccess s m (.served p) a (servedSize p) 0 s.clk false
  else if (p.type ≠ 0x04 ∧ 1 < (partsOf k (servedSize p)).length) ∨ (holder s (decide (p.type ≠ 0x02)) k (servedSize p)).isSome then
    engineAccess s m (.served p) (2 * 2 ^ 62 + a) (servedSize p) 0 s.clk false
  else servePlace s m p (.phys k)

/-- An element arrives in the in side of a peer FIFO (R284): core in ADDR, FIFO number in OPX. -/
def fifoArrive (s : State) (k : CoreId) (i : Nat) (v : Vec) : State :=
  s.modCore k fun c => let f := c.fifo i; c.setFifo i { f with inn := f.inn ++ [v], asked := f.asked - 1 }

/-- The write that a pushed element is has been performed: the element has reached its peer on the same die (R286). -/
def pushDone (s : State) (m : MemberId) (p : Pkt) : State :=
  match s.accesses.find? fun a => decide (a.vd = m.vd ∧ a.member = m.member ∧ a.id % 65536 = p.rtag) && (match a.kind with | .fpush _ => true | _ => false) with
  | some a => performedAcc s a none
  | none => s

/-- A die in ticket mode takes a ticket request (R327). -/
def takeTicket (s : State) (m : MemberId) (p : Pkt) : State :=
  let d := (s.member m).die
  let s := s.modDie d fun t => { t with tickets := Tab.put 0 t.tickets t.ticketNext (memberKey ⟨m.vd, p.smem⟩ + 1), ticketNext := t.ticketNext + 1 }
  s.after 0 .ticketCall { a := d }

/-- A packet that may be applied acts (R324). -/
def applyPkt (s : State) (m : MemberId) (p : Pkt) : State :=
  match p.type with
  | 0x01 | 0x02 | 0x04 => memoryPkt s m p
  | 0x07 => engineAccess s m (.served p) (p.addr.toNat % 2 ^ 52) (servedSize p) 0 s.clk false
  | 0x03 | 0x05 => deliverResponse (appliedPkt s m p) m p
  | 0x08 => fifoArrive (appliedPkt s m p) ⟨(s.member m).die, p.addr.toNat⟩ p.opx (vecOf p.data)
  | 0x09 | 0x10 => pokeColl ((ackPkt s m p).modMember m fun c => { c with landing := c.landing ++ [p] }) m (some p.cid)
  | 0x0A => demandAct (appliedPkt s m p) m p.smem p.addr.toNat (decide (p.opx = 1))
  | 0x0E => takeTicket (appliedPkt s m p) m p
  | 0x0F =>
    let s := (appliedPkt s m p).modMember m fun c => { c with tickets := Tab.put 0 c.tickets p.smem (1 + 65536) }
    (List.range 4).foldl (fun s e => s.afterM 0 .chunkIssue m e) s
  | _ => appliedPkt s m p

/-- Apply the first packet of the wait buffer that may be applied, while the member's context is on its die, and ask for the next (R66, R110). -/
def applyOne (s : State) (m : MemberId) : Option State :=
  if (s.die (s.member m).die).ctx ≠ some m then none
  else (takeDominated s m).map fun r => checkHeld (applyPkt r.2 m r.1) m

/-- A packet of a chain has arrived (R322, R323): a duplicate is dropped and acknowledged again (R446, R448); else it waits for its stamp.
One that the stamp wait buffer refuses stays at the switch port, and comes again (R324). -/
def arrivePkt (s : State) (m : MemberId) (w : Nat) (p : Pkt) : State :=
  if bufferFull (s.member m) p then s.after 1 (arrivalEvent p.type) { m := m, a := w, pkt := some p }
  else
  let s := arriveCommon s m w p
  if p.stamp.any fun e => decide ((s.vd m.vd).params.n ≤ e.1) then
    s.modMember m fun c => { c with received := c.received + 1 }
  else match acceptPkt s m p with
    | none =>
      sendAck (s.modMember m fun c => { c with received := c.received - b2n p.counted }) m p.smem (chainOf p.vc) p.mark
    | some s =>
      let s := (applyOne s m).getD s
      if (s.member m).stampWait.any (fun e => decide (e.1.smem = p.smem ∧ e.1.seq = p.seq ∧ chainOf e.1.vc = chainOf p.vc)) then
        s.after (10 * 1000 * Config.us) .stampWaitTimeout { m := m, a := p.smem, b := p.seq, c := chainOf p.vc }
      else s

/-- The arrival of a packet of one type at the subject's member. -/
def arrival (s : State) (ty : Nat) : Outcome :=
  match s.subject.pkt with
  | some p =>
    if p.type = ty ∧ p.dmem = s.subject.m.member ∧ (s.member s.subject.m).live then .next (arrivePkt s s.subject.m s.subject.a p)
    else .fault .noSuchEvent
  | none => .fault .noSuchEvent

/-- WRITE_PACKET (R324). -/
def execWritePacket (s : State) : Outcome := arrival s 0x01
/-- READ_PACKET (R324). -/
def execReadPacket (s : State) : Outcome := arrival s 0x02
/-- RDRESP (R324). -/
def execRdresp (s : State) : Outcome := arrival s 0x03
/-- ATOMIC_PACKET (R324). -/
def execAtomicPacket (s : State) : Outcome := arrival s 0x04
/-- ATRESP (R324). -/
def execAtresp (s : State) : Outcome := arrival s 0x05
/-- FEOP (R324). -/
def execFeop (s : State) : Outcome := arrival s 0x07
/-- CDATA (R330): a packet of a collective message. -/
def execCdata (s : State) : Outcome := arrival s 0x09
/-- CFLUSH (R323): the entries of a chain's stamp. -/
def execCflush (s : State) : Outcome := arrival s 0x0D
/-- TKREQ (R327). -/
def execTkreq (s : State) : Outcome := arrival s 0x0E
/-- TKCALL (R327). -/
def execTkcall (s : State) : Outcome := arrival s 0x0F
/-- BARTOK (R330): a token of a collective barrier. -/
def execBartok (s : State) : Outcome := arrival s 0x10

/-- FIFO_PACKET (R284): an element for a peer FIFO, from another die or over the lateral network of the own die (SEQ 0). -/
def execFifoPacket (s : State) : Outcome :=
  match s.subject.pkt with
  | some p =>
    if p.type = 0x08 ∧ p.seq = 0 ∧ p.smem = p.dmem ∧ (s.member s.subject.m).live then
      .next (fifoArrive (pushDone s s.subject.m p) ⟨(s.member s.subject.m).die, p.addr.toNat⟩ p.opx (vecOf p.data))
    else arrival s 0x08
  | none => .fault .noSuchEvent

/-- DEMAND (R304): a message made on the word's die (SEQ 0) acts there or leaves for the producer's die, where it acts on arrival. -/
def execDemand (s : State) : Outcome :=
  match s.subject.pkt with
  | some p =>
    let m := s.subject.m
    if p.seq ≠ 0 then arrival s 0x0A
    else if p.type ≠ 0x0A ∨ p.dmem ≠ m.member ∨ !(s.member m).live then .fault .noSuchEvent
    else if p.smem = p.dmem then .next (demandAct s m p.smem p.addr.toNat (decide (p.opx = 1)))
    else .next (sendPkt s ⟨m.vd, p.smem⟩ p)
  | none => .fault .noSuchEvent

/-! ### Acknowledgement and retransmission (R322, R446, R447) -/

/-- An access that its ACK completes. -/
def ackedAccess (s : State) (a : Access) : State :=
  match a.kind with
  | .fill _ owner => performedAcc (fillDone s a.ctx owner) a none
  | .load _ _ | .loadV | .part _ _ _ _ | .fifoLoad _ _ _ => s
  | .amo _ _ _ _ red => if red then performedAcc s a none else s
  | _ => performedAcc s a none

/-- An ACK releases packets of a chain from the retransmit buffer, and completes the writes they carried. -/
def ackArrive (s : State) (m : MemberId) (p : Pkt) : State :=
  let chain := p.addr.toNat / 2 ^ 32 % 2
  let seq := p.addr.toNat % 2 ^ 32
  let key := 2 * p.smem + chain
  let covered (q : Nat) : Bool := decide (q ≠ 0) && clockGe seq q
  let mine (x : Sent) : Bool := decide (x.pkt.dmem = p.smem ∧ chainOf x.pkt.vc = chain)
  let s := s.modMember m fun c =>
    let ch := Tab.get Chain.start c.outChain key
    { c with received := c.received + (if p.counted then 0 else 1),
             outChain := Tab.put Chain.start c.outChain key { ch with acked := clockMax ch.acked seq },
             retransmit := (c.retransmit.filter fun x => !(mine x && covered x.pkt.seq)).map fun x => if mine x then { x with tries := 1 } else x }
  let as := if chain = 1 then [] else s.accesses.filter fun a => decide (a.vd = m.vd ∧ a.member = m.member) && (match a.st with
    | .remote dm q => decide (dm = p.smem) && covered q
    | _ => false)
  pokeColl (pumpOut (as.foldl ackedAccess s) m) m none

/-- ACK_PACKET (R322); one for a member whose context is off its die asks again after 8 clk. -/
def execAckPacket (s : State) : Outcome :=
  match s.subject.pkt with
  | some p =>
    let m := s.subject.m
    if p.type = 0x06 ∧ p.dmem = m.member ∧ (s.member m).live then
      if (s.die (s.member m).die).ctx ≠ some m then .next (s.after 8 .ackPacket s.subject)
      else .next (ackArrive (arriveCommon s m s.subject.a p) m p) else .fault .noSuchEvent
  | none => .fault .noSuchEvent

/-- The accesses to a member that cannot be reached fail (R447, R449, R450). -/
def failRemote (s : State) (m : MemberId) (dst : Nat) : State :=
  let as := s.accesses.filter fun a => decide (a.vd = m.vd ∧ a.member = m.member) && (match a.st with
    | .remote dm _ => decide (dm = dst)
    | _ => false)
  as.foldl (fun s a => match a.kind with
    | .stm _ _ _ => stmFail s a
    | _ => foundMember s a dst 2) s

/-- Collectives that send to a member that cannot be reached abort (R447, R450). -/
def abortTo (s : State) (m : MemberId) (dst : Nat) (l : List Pkt) : State :=
  (s.member m).jobs.foldl (fun s e => match e.2 with
    | some j =>
      if cardKind j.card = 2 && (jobEngine j).isSome && l.any (fun p => decide (p.type = 0x09 ∧ p.cid = cardCid j.card)) then
        s.after 0 .collectiveAbortNotice { m := m, a := cardCid j.card, b := m.member, c := dst + 1 }
      else s
    | none => s) s

/-- A destination is unreachable for the pair (R447): its packets leave the retransmit buffer, and a KIND 0x06 record is sent. -/
def declareUnreachable (s : State) (m : MemberId) (dst seq tries : Nat) : State :=
  let lost := ((s.member m).retransmit.filter fun x => decide (x.pkt.dmem = dst)).map (·.pkt)
  let s := s.modMember m fun c =>
    { c with retransmit := c.retransmit.filter (fun x => decide (x.pkt.dmem ≠ dst)), unreachable := c.unreachable ++ [dst] }
  abortTo (failRemote (fabricEvent s 0x06 m.vd m.member [dst, seq, tries - 1]) m dst) m dst lost

/-- RETRANSMIT_TIMEOUT (R446): packet `c` of chain `b` to member `a` has had no ACK for 50 µs. -/
def execRetransmitTimeout (s : State) : Outcome :=
  let o := s.subject
  match (s.member o.m).retransmit.find? (fun x => decide (x.pkt.dmem = o.a ∧ chainOf x.pkt.vc = o.b ∧ x.pkt.seq = o.c ∧ x.at_ + 42500 ≤ s.clk)) with
  | none => .fault .noSuchEvent
  | some x =>
    if 8 ≤ x.tries then .next (declareUnreachable s o.m o.a o.c x.tries)
    else
      let s := s.modMember o.m fun c => { c with retransmit := c.retransmit.map fun y => if y = x then { y with tries := y.tries + 1, at_ := s.clk } else y }
      .next ((sendAt s (s.clk + injectTime s x.pkt) x.pkt).after 42500 .retransmitTimeout o)

/-! ### Held packets, beacons, congestion -/

/-- STAMP_WAIT_APPLY (R110): a packet of the subject's member whose stamp is rebuilt and dominated is applied. -/
def execStampWaitApply (s : State) : Outcome :=
  match applyOne s s.subject.m with
  | some s => .next s
  | none => .fault .noSuchEvent

/-- STAMP_WAIT_TIMEOUT (R454): a packet still waits after 10 ms. -/
def execStampWaitTimeout (s : State) : Outcome :=
  let o := s.subject
  match (s.member o.m).stampWait.find? (fun e => decide (e.1.smem = o.a ∧ e.1.seq = o.b ∧ chainOf e.1.vc = o.c)) with
  | some e => .next (fabricEvent s 0x0B o.m.vd o.m.member [o.a, o.b, (s.clk - e.2) / Config.us])
  | none => .fault .noSuchEvent

/-- The beacons of a member (R110, R324): its own entry to every other member, no sooner than 40 clk later (R318). -/
def sendBeacons (s : State) (m : MemberId) : State :=
  let v := Tab.get 0 (s.member m).clock m.member
  ((List.range (s.vd m.vd).params.n).filter fun j => decide (j ≠ m.member)).foldl (fun s j =>
    s.draw.after (39 + s.delay) .beacon
      { m := ⟨m.vd, j⟩, pkt := some { (Pkt.local m.member j 0x21 (BitVec.ofNat 64 v) 0) with vc := 0, gang := (s.vd m.vd).gang } }) s

/-- BEACON_TIMER (R110): every 2 µs while the gang is on its dies. -/
def execBeaconTimer (s : State) : Outcome :=
  let m := s.subject.m
  if (s.die (s.member m).die).ctx = some m then .next ((sendBeacons s m).afterM 1700 .beaconTimer m) else .fault .noSuchEvent

/-- BEACON (R324): A[origin] := max(A[origin], VAL). -/
def execBeacon (s : State) : Outcome :=
  match s.subject.pkt with
  | some p =>
    if p.type = 0x21 ∧ (s.member s.subject.m).live then .next (raiseClock s s.subject.m p.smem p.addr.toNat) else .fault .noSuchEvent
  | none => .fault .noSuchEvent

/-- RATE_LIMIT_RISE (R326): 4 µs without an ECHO from die `a` raise the limiter by 1/32 of line rate. -/
def execRateLimitRise (s : State) : Outcome :=
  let o := s.subject
  let c := s.member o.m
  let r := Tab.get lineRate c.rate o.a
  if Tab.get 0 c.echoAt o.a + 3400 ≤ s.clk ∧ r ≠ lineRate then
    let r' := rateRise r
    let s := s.modMember o.m fun c => { c with rate := Tab.put lineRate c.rate o.a r', echoAt := Tab.put 0 c.echoAt o.a s.clk }
    .next (if r' ≠ lineRate then s.after 3400 .rateLimitRise o else s)
  else .fault .noSuchEvent

/-- TICKET_WINDOW_END (R327): a 16 µs window of die `a` ends. -/
def execTicketWindowEnd (s : State) : Outcome :=
  let d := s.die s.subject.a
  let mode :=
    if d.arrivals < 2 * d.marked then true
    else if 8 * d.marked ≤ d.arrivals ∧ d.tickets.isEmpty then false else d.ticketMode
  .next ((s.modDie s.subject.a fun t => { t with ticketMode := mode, arrivals := 0, marked := 0 }).after (16 * Config.us) .ticketWindowEnd s.subject)

/-- TICKET_CALL (R327): die `a` calls its lowest uncalled ticket, its ingress queue below 16 KiB, at most one in 1 µs. -/
def execTicketCall (s : State) : Outcome :=
  let i := s.subject.a
  let d := s.die i
  match d.tickets, d.ctx with
  | (n, key) :: t, some m =>
    if 16384 ≤ d.ingress ∨ s.clk < d.lastCall + Config.us then .next (s.after Config.us .ticketCall s.subject)
    else
      let s := s.modDie i fun x => { x with tickets := t, ticketCall := n + 1, lastCall := s.clk }
      let s := sendPkt s m { (Pkt.local m.member ((key - 1) % 256) 0x0F 0 0) with vc := 2 }
      .next (if t.isEmpty then s else s.after Config.us .ticketCall s.subject)
  | _, _ => .fault .noSuchEvent

end Sys2Proof.Machine
end

