-- ==== Sys2Proof/Machine/JobEvents.lean ====
section
/-!
DEFINITION. JobEvents.lean: copy engines (R292, R296), completion actions (R295), triggers (R309), port FIFOs (R284), and collective
programs (R328 to R333, R412, R413, R450, R451).
-/
namespace Sys2Proof.Machine

/-! ### Collective step words (R329) -/

/-- A step word: its two dwords. -/
structure StepWord where
  lo : Nat
  hi : Nat
  deriving DecidableEq, Repr

/-- Fields of a step word. -/
def StepWord.code (w : StepWord) : Nat := bitsN w.hi 63 60
@[inherit_doc StepWord.code] def StepWord.mode (w : StepWord) : Nat := bitsN w.hi 59 57
@[inherit_doc StepWord.code] def StepWord.sb (w : StepWord) : Bool := bitN w.hi 56
@[inherit_doc StepWord.code] def StepWord.db (w : StepWord) : Bool := bitN w.hi 55
@[inherit_doc StepWord.code] def StepWord.ctr (w : StepWord) : Nat := bitsN w.hi 54 53
@[inherit_doc StepWord.code] def StepWord.pr (w : StepWord) : Nat := bitsN w.hi 52 51
@[inherit_doc StepWord.code] def StepWord.ps (w : StepWord) : Nat := bitsN w.hi 50 49
@[inherit_doc StepWord.code] def StepWord.aF (w : StepWord) : Nat := bitsN w.hi 47 40
@[inherit_doc StepWord.code] def StepWord.bF (w : StepWord) : Nat := bitsN w.hi 39 32
@[inherit_doc StepWord.code] def StepWord.cF (w : StepWord) : Nat := bitsN w.hi 31 16
@[inherit_doc StepWord.code] def StepWord.nb (w : StepWord) : Nat := bitsN w.hi 15 0

/-- Step word i of a program (R328). -/
def stepWord (s : State) (m : MemberId) (c : List Dword) (i : Nat) : StepWord :=
  ⟨(wordOf s m (cardPaddr c + 16 * i)).toNat, (wordOf s m (cardPaddr c + 16 * i + 8)).toNat⟩

/-- Fields a step does not use must be zero (R329, R330). -/
def stepUnused (w : StepWord) : Bool :=
  let z (l : List Nat) : Bool := l.all (· = 0)
  let bufs := [b2n w.sb, b2n w.db]
  let abc := [w.aF, w.bF, w.cF]
  decide (bitN w.hi 48 = false) && match w.code with
  | 0 | 6 | 0xB => z ([w.mode, w.ctr, w.pr, w.ps, w.nb, w.lo] ++ bufs ++ abc)
  | 1 => z [w.ps, w.lo]
  | 2 | 4 => z ([w.ctr, w.ps, w.nb, w.lo] ++ bufs ++ abc)
  | 3 => z ([w.ctr, w.nb, w.lo] ++ bufs ++ abc)
  | 5 => z [w.pr, w.ps, w.lo]
  | 7 => z ([w.mode, w.ctr, w.pr, w.ps, w.nb, w.lo / 2 ^ 62] ++ bufs ++ abc)
  | 8 => z ([w.mode, w.pr, w.ps, w.nb, w.lo / 2 ^ 32] ++ bufs ++ abc)
  | 9 => z ([w.mode, w.pr, w.ps, w.nb] ++ bufs ++ abc)
  | _ => z ([w.mode, w.ps, w.nb, w.bF, w.lo] ++ bufs)

/-- The modes a step code allows (R331). -/
def modeOk (code mode : Nat) : Bool :=
  match mode with
  | 0 => true
  | 1 | 3 | 5 => decide (1 ≤ code ∧ code ≤ 4)
  | 2 | 4 | 6 => decide (code = 5)
  | _ => false

/-- One step breaks R412, on its own: rank count n, card c. -/
def stepBad (n : Nat) (c : List Dword) (w : StepWord) : Bool :=
  decide (0xC ≤ w.code) || !modeOk w.code w.mode || !stepUnused w
    || (decide (w.code = 8) && decide (w.lo % 2 ^ 32 = 0))
    || ((decide (w.code = 1) || decide (w.code = 5)) && decide (w.nb ≠ 0) && decide (cardLen c % (16 * n) ≠ 0))
    || (decide (w.mode = 3) && decide (cardLen c % (1024 * n) ≠ 0))
    || (decide (w.mode = 1) && decide (cardEtype c ≠ 0 ∧ cardEtype c ≠ 2))

/-- The program passes R412 from step i: steps so far by counter of the loops open and of those that have stood before. -/
def progOk (n : Nat) (c : List Dword) (word : Nat → StepWord) : Nat → Nat → List Nat → List (Nat × Nat) → Bool
  | 0, _, _, _ => false
  | f + 1, i, openL, loops =>
    let w := word i
    if stepBad n c w then false
    else match w.code with
      | 0 => true
      | 8 => !openL.contains w.ctr && progOk n c word f (i + 1) (w.ctr :: openL) ((w.ctr, i + 1) :: loops)
      | 9 => loops.contains (w.ctr, w.lo % 65536) && decide (w.lo / 65536 = 0)
          && progOk n c word f (i + 1) (openL.filter fun x => decide (x ≠ w.ctr)) loops
      | _ => progOk n c word f (i + 1) openL loops

/-! ### Buffers of a collective -/

/-- What reaching a buffer gives. -/
inductive Reach (α : Type) where
  | ok (v : α) (s : State)
  | wait (s : State)
  | fault (cause : Nat) (v : Dword)

/-- The bytes of the own vault, when their granules are resident. -/
def vaultReach (s : State) (m : MemberId) (va n : Nat) (write : Bool) : Reach Nat :=
  let d := (s.member m).die
  if !vaultOk s m va n then .fault 0x0A (addrForm va write true)
  else if [va, va + n - 1].all fun a => resident s d m (granOf a) then .ok (vaultKey d va) (drainRange s d m (vaultKey d va) n)
  else .wait s

/-- An address of a collective lies on another member's die: its data cross as packets (R110). -/
def awayEa (s : State) (m : MemberId) (ea : Nat) : Bool :=
  decide (ea / 2 ^ 62 = 3) || (decide (ea / 2 ^ 62 = 1) && (match vaMember s m.vd (ea % 2 ^ 62) with | some o => decide (o ≠ m.member) | none => false))

/-- What a collective's step has had read for it: it was not there at once, so an access of the engine reads it (R73, R107, R110), which begins
now unless the member injects no packets (R60). -/
def engineFetch (s : State) (m : MemberId) (h ea n : Nat) : Reach (List Byte) :=
  match ((s.member m).job h).bind fun j => j.coll.got.find? fun e => decide (e.1 = ea ∧ e.2.length = n) with
  | some e => .ok e.2 s
  | none =>
    if awayEa s m ea && (s.member m).snuffed then .wait (s.after 8 .chunkBoundary { m := m, a := h })
    else .wait (engineAccess s m (.chunk h 0) ea n 0 (s.clk + s.delay) false)

/-- Read n bytes at an engine address for a collective's step. -/
def engineRead (s : State) (m : MemberId) (h ea n : Nat) : Reach (List Byte) :=
  match ea / 2 ^ 62 with
  | 0 => match vaultReach s m ea n false with
    | .ok k s => if poisoned s k n then .fault 0x0F (addrForm ea false true) else .ok (memBytes s.mem k n) s
    | .wait s => engineFetch s m h ea n
    | .fault c v => .fault c v
  | 3 => engineFetch s m h ea n
  | _ => if awayEa s m ea then engineFetch s m h ea n
    else match vaRead s m (ea % 2 ^ 62) n with
    | .ok r => .ok r.1 r.2
    | .error c => .fault c (addrForm ea false true)

/-- Write bytes at an engine address: what is not there at once, and another member's die, take them by an access of the engine. -/
def engineWrite (s : State) (m : MemberId) (h ea : Nat) (l : List Byte) : Reach Unit :=
  let later (s : State) : Reach Unit := .ok () (engineAccess s m (.copyOut h 0 none 0 l) ea l.length 0 (s.clk + s.delay) false)
  match ea / 2 ^ 62 with
  | 0 => match vaultReach s m ea l.length true with
    | .ok _ s => .ok () (putAt s m (.vault (s.member m).die ea) l)
    | .wait s => later s
    | .fault c v => .fault c v
  | 3 => later s
  | _ => if awayEa s m ea then later s
    else match vaWrite s m (ea % 2 ^ 62) l with | .ok s => .ok () s | .error c => .fault c (addrForm ea true true)

/-- The engine address of byte `off` of a collective's buffer. -/
def bufEa (m : MemberId) (c : List Dword) (dst : Bool) (off : Nat) : Nat := ((if dst then cardDst m.member c off else cardSrc m.member c off)).getD 0
/-- Read a collective's buffer: false the source, true the destination. -/
def bufRead (s : State) (m : MemberId) (h : Nat) (c : List Dword) (dst : Bool) (off n : Nat) : Reach (List Byte) :=
  engineRead s m h (bufEa m c dst off) n
/-- Write a collective's buffer; destination bytes enter the summary of OUT (R302, R303). -/
def bufWrite (s : State) (m : MemberId) (h : Nat) (c : List Dword) (dst : Bool) (off : Nat) (l : List Byte) : Reach Unit :=
  match engineWrite s m h (bufEa m c dst off) l with
  | .ok _ s => .ok () (if dst && decide (off < cardLen c) then
      s.modMember m fun x => x.setJob h ((x.job h).map fun j => { j with summary := jobSummary j l }) else s)
  | r => r

/-! ### Data modes (R331 to R333, R149) -/

/-- The data of a mode as they travel (R332): .f32 elements of the fast class leave as .bf16. -/
def toWire (mode ety : Nat) (l : List Byte) : List Byte := if mode = 1 ∧ ety = 0 then (words32 l).flatMap fun x => toBytes 2 (fenc 2 0 (fdec 0 x)) else l
/-- Elements of two bytes. -/
def words16 (l : List Byte) : List Nat := (List.range (l.length / 2)).map fun i => ofBytes ((l.drop (2 * i)).take 2)
/-- The data of a mode as they are stored. -/
def fromWire (mode ety : Nat) (l : List Byte) : List Byte := if mode = 1 ∧ ety = 0 then (words16 l).flatMap fun x => toBytes 4 (fenc 0 0 (fdec 2 x)) else l

/-- One exponent-table entry combined (R331 XMAX): E by the maximum, flag by or. -/
def xmaxEntry (d x : Nat) : Nat :=
  (if sgn 16 (d % 65536) < sgn 16 (x % 65536) then x % 65536 else d % 65536) + (if bitN d 31 || bitN x 31 then 2 ^ 31 else 0)

/-- The reduction of a message's stored data into a buffer's (R330 to R332). -/
def modeReduce (mode ety rop : Nat) (d x : List Byte) : List Byte :=
  match mode with
  | 1 =>
    if ety = 0 then bytes32 (List.zipWith (fadd 0 0) (words32 d) (words32 x))
    else (List.zipWith (fun a b => fenc 2 0 (fdec 0 (fadd 0 0 (fenc 0 0 (fdec 2 a)) (fenc 0 0 (fdec 2 b))))) (words16 d) (words16 x)).flatMap (toBytes 2)
  | 3 => bytes32 (List.zipWith xmaxEntry (words32 d) (words32 x))
  | 5 => bytes32 (List.zipWith (fun a b => (a + b) % 2 ^ 32) (words32 d) (words32 x))
  | _ => reduceBytes (some rop) ety d x

/-- floor(log2 |v|) of a finite non-zero .f32 value. -/
def f32Log (x : Nat) : Option Int :=
  match fdec 0 x with
  | .fin _ mag e => if mag = 0 then none else some ((mag.log2 : Nat) + e)
  | _ => none
/-- The exponent-table entry of a group (R149): E_b and the special flag. -/
def groupEntry (l : List Nat) : Nat :=
  let e := (l.filterMap f32Log).foldl (fun (r : Option Int) k => some (match r with | some q => max q k | none => k)) none |>.getD (-127)
  (e % 65536).toNat + (if l.any fun x => !f32Finite x then 2 ^ 31 else 0)
/-- E_b of an entry. -/
def entryExp (n : Nat) : Int := sgn 16 (n % 65536)
/-- I = RNDI(v·2^(21−E_b), RNE) as .s32 (R149); of a NaN or an infinity, no value is given. -/
def quant (free e x : Nat) : Nat :=
  match fdec 0 x with
  | .fin neg mag k => rawOf 5 (rndi 0 neg mag (k + 21 - entryExp e))
  | _ => free % 2 ^ 32
/-- RNE32(I·2^(E_b−21)); a set flag gives the canonical NaN, and a zero sum +0. -/
def dequant (e i : Nat) : Nat :=
  if bitN e 31 then 0x7FC00000
  else
    let v := sgn 32 i
    if v = 0 then 0 else fenc 0 0 (.fin (decide (v < 0)) v.natAbs (entryExp e - 21))

/-! ### Progress of a collective -/

/-- Change the progress of a job's collective. -/
def modColl (s : State) (m : MemberId) (h : Nat) (f : Coll → Coll) : State :=
  s.modMember m fun x => x.setJob h ((x.job h).map fun j => { j with coll := f j.coll })

/-- Ask for the current step of a collective after n clk. -/
def askStep (s : State) (m : MemberId) (h n : Nat) : State :=
  match (s.member m).job h with
  | some j => askOnce s n (stepEvent (collStep s m j)) m h
  | none => s
/-- The step has ended, and counts as completed (R313): the next one begins. -/
def nextStep (s : State) (m : MemberId) (h : Nat) (nxt : Nat → Nat) : State :=
  let s := modColl s m h fun c => { c with step := nxt c.step, bytes := 0, round := 0, got := [] }
  askStep (s.modMember m fun x => x.setJob h ((x.job h).map fun j => { j with steps := j.steps + 1 })) m h 1
/-- The step has moved n bytes more: it goes on (R330). -/
def moveOn (s : State) (m : MemberId) (h n : Nat) : State := askStep (modColl s m h fun c => { c with bytes := c.bytes + n, got := [] }) m h 1

/-- Packets of the collective held in the landing buffer are discarded and counted received (R451). -/
def discardLanding (s : State) (m : MemberId) (cid : Nat) : State :=
  let l := (s.member m).landing
  (l.filter fun p => decide (p.cid = cid)).foldl (fun s p => countPkt s m p)
    (s.modMember m fun c => { c with landing := l.filter fun p => decide (p.cid ≠ cid) })

/-- A collective aborts (R413, R451): the first to abort tells the other members, and one KIND 0x09 record names it. -/
def abortColl (s : State) (m : MemberId) (h : Nat) (j : Job) (first : Bool) : State :=
  let cid := cardCid j.card
  let s := s.modMember m fun x => x.setJob h (some { j with aborted := true })
  let s := discardLanding s m cid
  let s := if first then
      let s := fabricEvent s 0x09 m.vd m.member [h + 1 + j.coll.step * 65536, cid, m.member]
      ((List.range (s.vd m.vd).params.n).filter fun i => decide (i ≠ m.member)).foldl (fun s i =>
        s.draw.after (40 + Config.freeDelay s.fresh) .collectiveAbortNotice { m := ⟨m.vd, i⟩, a := cid, b := m.member }) s
    else s
  finishJob s m h

/-- The collective's own copy work has failed (R450, R451). -/
def failColl (s : State) (m : MemberId) (h : Nat) (j : Job) (cause : Nat) (v : Dword) : State :=
  let s := s.report { kind := 1, code := 8, vd := m.vd, member := m.member, core := 0xFFFF, clk := s.clk, args := [h + 1, cause, v.toNat] }
  abortColl s m h j true

/-- The stores of the issuing core that come before a job's events have been performed (R104, R290). -/
def prevDone (s : State) (j : Job) : Bool := j.prev.all fun id => (s.access id).all (·.performed)

/-- The active collective of the subject whose current step has a code, with that step; its events come after the issuing core's earlier
stores (R104). -/
def stepOf (s : State) (code : Nat) : Option (Nat × Job × StepWord) :=
  let m := s.subject.m
  let h := s.subject.a
  match (s.member m).job h with
  | some j =>
    let w := stepWord s m j.card j.coll.step
    if cardKind j.card = 2 ∧ (jobEngine j).isSome ∧ w.code = code ∧ (s.die (s.member m).die).ctx = some m ∧ prevDone s j then some (h, j, w) else none
  | none => none

/-- Some CDATA of the job is not acknowledged, or some write of it is under way (R330 WAIT, R111). -/
def collUnacked (s : State) (m : MemberId) (h : Nat) (j : Job) : Bool :=
  let c := s.member m
  (c.retransmit.any fun x => decide (x.pkt.type = 0x09 ∧ x.pkt.cid = cardCid j.card))
    || (c.outWait.any fun p => decide (p.type = 0x09 ∧ p.cid = cardCid j.card)) || !chunkQuiet s m h 0

/-- A signed 8-bit coefficient. -/
def coef (n : Nat) : Int := sgn 8 n
/-- (A·r + B·k + C) mod N (R329). -/
def blockOf (n r : Nat) (w : StepWord) (k : Nat) : Nat := ((coef w.aF * r + coef w.bF * k + w.cF) % (max n 1 : Nat)).toNat

/-- Bytes a block-moving step addresses: block size, first byte of the area, bytes of the area (R328, R331). -/
def stepArea (n : Nat) (c : List Dword) (mode : Nat) : Nat × Nat × Nat :=
  if mode = 3 then (cardLen c / (64 * n), cardLen c, cardLen c / 64) else (cardLen c / n, 0, cardLen c)
/-- Bytes a step moves in all. -/
def stepTotal (n : Nat) (c : List Dword) (w : StepWord) : Nat :=
  let a := stepArea n c w.mode
  if w.nb = 0 then a.2.2 else w.nb * a.1
/-- The offset of byte x of a step's blocks within the area, and how many bytes follow it there. -/
def stepOffset (n r : Nat) (c : List Dword) (w : StepWord) (k x : Nat) : Nat × Nat :=
  let a := stepArea n c w.mode
  if w.nb = 0 then (x, a.2.2 - x)
  else ((blockOf n r w k + x / max a.1 1) % n * a.1 + x % max a.1 1, a.1 - x % max a.1 1)

/-- A CDATA packet (R320, R330): BSEL, MSG, OFF; the length of its message goes with it, for which the spec gives no field (log 44). -/
def cdata (m : MemberId) (peer cid : Nat) (bsel : Bool) (msg off total : Nat) (l : List Byte) : Pkt :=
  { (Pkt.local m.member peer 0x09 (BitVec.ofNat 64 (b2n bsel * 2 ^ 63 + msg % 2 ^ 15 * 2 ^ 48 + off % 2 ^ 40)) 0) with vc := 3, cid := cid, data := l, mlen := total }

/-- The next packet of the message a receiving step consumes (R330). -/
def nextCdata (c : Member) (cid peer msg : Nat) : Option Pkt :=
  c.landing.find? fun p => decide (p.type = 0x09 ∧ p.cid = cid ∧ p.smem = peer ∧ bitsN p.addr.toNat 62 48 = msg % 2 ^ 15)

/-! ### Copy engines (R292, R296) -/

/-- The engine with the fewest active jobs that has room (R296). -/
def pickEngine (d : Die) : Option Nat :=
  (List.range 4).foldl (fun (r : Option Nat) e =>
    let n := (Tab.get [] d.engines e).length
    if 8 ≤ n then r
    else match r with
      | some b => if n < (Tab.get [] d.engines b).length then some e else r
      | none => some e) none

/-- A collective that has joined its engine begins: its program is checked (R412), once the issuing core's earlier stores are performed (R104). -/
def beginColl (s : State) (m : MemberId) (h : Nat) (j : Job) : State :=
  if !prevDone s j then s.after 8 .jobActivate { m := m, b := h + 1 }
  else match (s.member m).notices.find? (fun n => decide (n.1 = cardCid j.card)) with
  | some n => abortColl (s.modMember m fun x => { x with notices := x.notices.filter fun y => decide (y ≠ n) }) m h j false
  | none =>
    let n := (s.vd m.vd).params.n
    if progOk n j.card (stepWord s m j.card) 4097 0 [] [] then askStep s m h 1 else abortColl s m h j true

/-- JOB_ACTIVATE (R296, R412): the first job whose predecessors have retired joins an engine; a collective's program is checked.  With `b` ≠ 0
job `b` − 1 has joined, and its program is still to be checked. -/
def execJobActivate (s : State) : Outcome :=
  let m := s.subject.m
  let d := (s.member m).die
  if s.subject.b ≠ 0 then
    match (s.member m).job (s.subject.b - 1) with
    | some j =>
      if cardKind j.card = 2 && (jobEngine j).isSome && !j.aborted && decide ((s.die d).ctx = some m) then .next (beginColl s m (s.subject.b - 1) j)
      else .fault .noSuchEvent
    | none => .fault .noSuchEvent
  else
  match (s.member m).jobOrder, pickEngine (s.die d), (s.die d).ctx with
  | h :: t, some e, some m' =>
    if m' ≠ m then .fault .noSuchEvent
    else match (s.member m).job h with
      | none => .fault .noSuchEvent
      | some j =>
        let j := { j with st := .active e }
        let s := s.modDie d fun x => { x with engines := Tab.put [] x.engines e (Tab.get [] x.engines e ++ [h]) }
        let s := s.modMember m fun x => { (x.setJob h (some j)) with jobOrder := t }
        let s := if t.isEmpty then s else s.afterM 0 .jobActivate m
        .next (if cardKind j.card = 2 then beginColl s m h j else s.afterM 1 .chunkIssue m e)
  | _, _, _ => .fault .noSuchEvent

/-- The other member a job's next chunk goes to, when it does (R327). -/
def chunkPeer (s : State) (m : MemberId) (j : Job) : Option Nat :=
  let o := match cardDst m.member j.card (4096 * j.issued) with
    | some ea => if ea / 2 ^ 62 = 3 then some (ea % 2 ^ 62 / 2 ^ 52) else if ea / 2 ^ 62 = 1 then vaMember s m.vd (ea % 2 ^ 62) else none
    | none => none
  o.bind fun i => if i = m.member then none else some i

/-- Whether a job can issue a chunk now: it has one, fewer than four in flight, its issuing core's earlier stores are performed (R290), and
the member is not snuffed (R60). -/
def chunkReady (s : State) (m : MemberId) (j : Job) : Bool :=
  decide (j.issued < cardChunks j.card) && decide (j.inflight.length < 4) && !j.withdrawn && !j.aborted && decide (cardKind j.card ≠ 2)
    && !(s.member m).snuffed && prevDone s j

/-- Bytes of a member's active copy jobs still to go to another member (R327). -/
def pendingTo (s : State) (m : MemberId) (p : Nat) : Nat :=
  ((s.member m).jobs.map fun e => match e.2 with
    | some j => if (jobEngine j).isSome ∧ cardKind j.card ≠ 2 ∧ chunkPeer s m j = some p then cardLen j.card - 4096 * j.issued else 0
    | none => 0).sum
/-- More than 64 KiB pending toward a die in ticket mode needs a ticket (R327): none wanted, one to ask for, one to wait for. -/
def ticketNeed (s : State) (m : MemberId) (j : Job) : Option (Nat × Nat) :=
  match chunkPeer s m j with
  | some p =>
    if (s.die (s.member ⟨m.vd, p⟩).die).ticketMode ∧ 65536 < pendingTo s m p then some (p, Tab.get 0 (s.member m).tickets p) else none
  | none => none
/-- A job waits for the call of its ticket: it gives up its turn (R296, R327). -/
def ticketWait (s : State) (m : MemberId) (j : Job) : Bool := match ticketNeed s m j with | some (_, 1) => true | _ => false
/-- The round-robin order once job h has been served: those before it have given up their turn (R296). -/
def rotateTo (l : List Nat) (h : Nat) : List Nat :=
  (l.dropWhile fun x => decide (x ≠ h)).drop 1 ++ l.takeWhile (fun x => decide (x ≠ h)) ++ [h]

/-- CHUNK_ISSUE (R296): engine `a` of the member's die issues the next chunk in round-robin order. -/
def execChunkIssue (s : State) : Outcome :=
  let m := s.subject.m
  let e := s.subject.a
  let d := (s.member m).die
  let l := Tab.get [] (s.die d).engines e
  if (s.die d).ctx ≠ some m then .fault .noSuchEvent
  else match l.find? (fun h => ((s.member m).job h).any fun j => chunkReady s m j && !ticketWait s m j) with
    | none =>
      if l.any (fun h => ((s.member m).job h).any fun j => decide (j.issued < cardChunks j.card ∧ j.inflight.length < 4) && (!prevDone s j || chunkReady s m j)) then
        .next (s.afterM 8 .chunkIssue m e)
      else .fault .noSuchEvent
    | some h =>
      match (s.member m).job h with
      | none => .fault .noSuchEvent
      | some j =>
        let s := s.modDie d fun t => { t with engines := Tab.put [] t.engines e (rotateTo l h) }
        let s := if j.packet.isSome ∧ j.issued = 0 then noteStart s m else s
        match ticketNeed s m j with
        | some (p, 0) =>
          .next ((sendPkt (s.modMember m fun c => { c with tickets := Tab.put 0 c.tickets p 1 }) m (Pkt.local m.member p 0x0E 0 0)).afterM 8 .chunkIssue m e)
        | some (p, n) =>
          let left := if n < 1 + 4096 then 0 else n - 4096
          .next ((chunkStart (s.modMember m fun c => { c with tickets := Tab.put 0 c.tickets p (if left ≤ 1 then 0 else left) }) m h j.issued).afterM 16
            .chunkIssue m e)
        | none => .next ((chunkStart s m h j.issued).afterM 16 .chunkIssue m e)

/-- CHUNK_BOUNDARY (R292): every write of chunk `b` of job `a` has been performed. -/
def execChunkBoundary (s : State) : Outcome :=
  let o := s.subject
  match (s.member o.m).job o.a with
  | some j =>
    if cardKind j.card = 2 then (if (jobEngine j).isSome then .next (askStep s o.m o.a 0) else .fault .noSuchEvent)
    else if j.inflight.contains o.b && chunkQuiet s o.m o.a o.b then .next (chunkDone s o.m o.a o.b true)
    else .fault .noSuchEvent
  | none => .fault .noSuchEvent

/-! ### Completion actions (R295) -/

/-- The value a job fills (R303, R304, R450). -/
def jobFill (j : Job) : Dword := if j.withdrawn || j.aborted then 0x200 else BitVec.ofNat 64 (0x100 + j.summary.getD 0)

/-- The engine address of a word on member CMEM's die. -/
def cmemEa (m : MemberId) (c : List Dword) (va : Nat) : Nat := if cardCmem c = m.member then va else farEa (cardCmem c) va

/-- JOB_OUT_FILL (R295): OUT is filled when it is empty. -/
def execJobOutFill (s : State) : Outcome :=
  let m := s.subject.m
  let h := s.subject.a
  match (s.member m).job h with
  | some j =>
    if j.st = .finishing 0 then
      let s := s.modMember m fun x => x.setJob h (some { j with st := .finishing 1 })
      match cardOut j.card with
      | some w => .next (engineAccess s m (.fill (jobFill j) (2 * h + 2)) (cmemEa m j.card w) 8 0 s.clk true)
      | none => .next (s.afterM 0 .jobBarrierArrival m h)
    else .fault .noSuchEvent
  | none => .fault .noSuchEvent

/-- JOB_BARRIER_ARRIVAL (R295): an arrival of LEN bytes. -/
def execJobBarrierArrival (s : State) : Outcome :=
  let m := s.subject.m
  let h := s.subject.a
  match (s.member m).job h with
  | some j =>
    if j.st = .finishing 1 then
      let s := s.modMember m fun x => x.setJob h (some { j with st := .finishing 2 })
      if cardBv j.card then
        .next (engineAccess s m (.bar .arr (BitVec.ofNat 64 (cardLen j.card))) (cmemEa m j.card (cardBaddr j.card)) 16 (h + 1) s.clk true)
      else .next (s.afterM 0 .jobSignalWrite m h)
    else .fault .noSuchEvent
  | none => .fault .noSuchEvent

/-- The job of a COPY packet was aborted (R450). -/
def packetAborted (s : State) (m : MemberId) (key : Nat) : State :=
  s.modMember m fun c => { c with packets := c.packets.map fun p => if p.key = key then { p with aborted := true } else p }

/-- A job's last completion action has been performed (R295): it retires, its entry is free, and a trigger that waits for one goes on (R309). -/
def retireJob (s : State) (m : MemberId) (h : Nat) (j : Job) : State :=
  let s := retire (s.modMember m fun x => x.setJob h none) m (.job h)
  let s := match j.packet with
    | some p => packetPart (if j.aborted then packetAborted s m p else s) m p
    | none => s
  noteIdle ((s.member m).triggers.foldl (fun s e => match e.2 with
    | some t => if t.fired then s.afterM 0 .triggerFire m e.1 else s
    | none => s) s) m.vd

/-- JOB_SIGNAL_WRITE (R295, R469): SVAL, or ABORTED, is written to SADR, on another member's die by a WRITE on X (R321); then the job retires. -/
def execJobSignalWrite (s : State) : Outcome :=
  let m := s.subject.m
  let h := s.subject.a
  match (s.member m).job h with
  | some j =>
    let v := if j.aborted then BitVec.ofNat 64 Config.aborted else cardSval j.card
    if j.st = .finishing 3 then .next (retireJob s m h j)
    else if j.st ≠ .finishing 2 then .fault .noSuchEvent
    else if cardSv j.card = false then .next (retireJob s m h j)
    else if awayEa s m (2 ^ 62 + cardSadr j.card) then
      .next (engineAccess (s.modMember m fun x => x.setJob h (some { j with st := .finishing 3 })) m (.sig v) (2 ^ 62 + cardSadr j.card) 8 (h + 1) s.clk true)
    else match vaWrite s m (cardSadr j.card) (toBytes 8 v.toNat) with
      | .ok s => .next (retireJob (tick s m) m h j)
      | .error c => .next (retireJob (memoryEvent s 0x07 m.vd m.member 0xFF [cardSadr j.card, c, 0xFF]) m h j)
  | none => .fault .noSuchEvent

/-- TRIGGER_FIRE (R309): trigger `a` has fired, its counter having reached its threshold; it waits while the job queue is full. -/
def execTriggerFire (s : State) : Outcome :=
  let m := s.subject.m
  let h := s.subject.a
  match Tab.get none (s.member m).triggers h with
  | some t =>
    if t.fired || decide (t.threshold.toNat ≤ (wordOf s m t.counter).toNat) then
      let r := startJob s m (t.card.take 8) (t.card.drop 8) (.auto none t.prev (fireKey s.clk))
      match r.1 with
      | some _ => .next (r.2.modMember m fun c => { c with triggers := Tab.put none c.triggers h none })
      | none => .next (s.modMember m fun c => { c with triggers := Tab.put none c.triggers h (some { t with fired := true }) })
    else .fault .noSuchEvent
  | none => .fault .noSuchEvent

/-! ### Port FIFOs (R284) -/

/-- The address of element i of a stream FIFO. -/
def fifoEa (s : State) (m : MemberId) (f : Fifo) (i : Nat) : Nat :=
  let a := rowAddr f.rbase f.stride i
  if f.rsp = 1 then 2 ^ 62 + a % 2 ^ 62
  else if fifoMember s m f = m.member then a % 2 ^ 52 else farEa (fifoMember s m f) (a % 2 ^ 52)

/-- An access waits for the answer of another member's die. -/
def State.awayTo (s : State) (id dm : Nat) : State := match s.access id with
  | some a => s.setAccess { a with st := .remote dm 0 }
  | none => s
/-- A global address lies in the HBM of another member (R60). -/
def awayVa (s : State) (m : MemberId) (ea : Nat) : Bool :=
  decide (ea / 2 ^ 62 = 1) && (match vaMember s m.vd (ea % 2 ^ 62) with | some j => decide (j ≠ m.member) | none => false)

/-- FIFO_OUT_TRANSFER (R284): the oldest element of the out side of FIFO `a` of the subject's core leaves, once its peer has room. -/
def execFifoOutTransfer (s : State) : Outcome :=
  let k := s.subject.k
  let i := s.subject.a
  let f := (s.core k).fifo i
  match f.out, s.ctx k with
  | e :: t, some m =>
    let v := e.v
    let more (s : State) (n : Nat) : State := s.after n .fifoOutTransfer s.subject
    let gone (s : State) : State := s.modCore k fun c => c.setFifo i { f with out := t, n := f.n + 1 }
    let again (s : State) : State := if t.isEmpty then s else more s 1
    match f.kind with
    | 1 =>
      let pm := fifoMember s m f
      let pk : CoreId := ⟨(s.member ⟨m.vd, pm⟩).die, f.pcore⟩
      let pf := (s.core pk).fifo i
      if pf.kind = 1 ∧ pf.esz = f.esz ∧ pf.inn.length + pf.asked < 16 ∧ (s.ctx pk).isSome ∧ (pm = m.member ∨ !(s.member m).snuffed) then
        let s := (gone s).modCore pk fun c => let g := c.fifo i; c.setFifo i { g with asked := g.asked + 1 }
        let p : Pkt := { (Pkt.local m.member pm 0x08 (BitVec.ofNat 64 f.pcore) i) with data := f.bytesOf v, rtag := e.acc % 65536 }
        .next (again (if pm = m.member then s.after (8 + 2 * hops k.core f.pcore) .fifoPacket { m := m, pkt := some p }
          else sendPkt (s.awayTo e.acc pm) m p))
      else .next (more s 1)
    | 2 =>
      let ea := BitVec.ofNat 64 (fifoEa s m f f.n)
      match s.access e.acc with
      | some a =>
        .next (again ({ (gone s).setAccess { a with kind := .store (f.bytesOf v), ea := ea } with fresh := s.fresh + 1 }.due (accTime s k ea) (.perform a.id)))
      | none => .next (again ((startAccess (gone s) k 3 (.store (f.bytesOf v)) ea f.esz .none 0 0 false).ofBundle e.pc e.clk))
    | _ => .next (more s 1)
  | _, _ => .fault .noSuchEvent

/-- FIFO_LOAD_FETCH (R284): the NI fetches the next element of a load stream, up to 16 ahead, stopping after COUNT. -/
def execFifoLoadFetch (s : State) : Outcome :=
  let k := s.subject.k
  let i := s.subject.a
  let f := (s.core k).fifo i
  match s.ctx k with
  | some m =>
    let ea := fifoEa s m f f.n
    if f.kind = 3 ∧ f.inn.length + f.asked < 16 ∧ (f.count = 0 ∨ f.n < f.count) then
      if (s.member m).snuffed && (decide (ea / 2 ^ 62 = 3) || awayVa s m ea) then .next (s.after 1 .fifoLoadFetch s.subject) else
      let s := s.modCore k fun c => c.setFifo i { f with n := f.n + 1, asked := f.asked + 1 }
      .next (((startAccess s k 4 (.fifoLoad i f.n f.esz) (BitVec.ofNat 64 ea) f.esz .none 0 0 false).ofBundle f.pc f.clk).after 1 .fifoLoadFetch s.subject)
    else .fault .noSuchEvent
  | none => .fault .noSuchEvent

/-! ### Steps (R330) -/

/-- STEP_END: the program ends, and the completion actions follow (R295). -/
def execStepEnd (s : State) : Outcome :=
  match stepOf s 0 with
  | some (h, j, _) => if chunkQuiet s s.subject.m h 0 then .next (finishJob (s.modMember s.subject.m fun x => x.setJob h (some j)) s.subject.m h) else .next s
  | none => .fault .noSuchEvent

/-- Message data of a collective wait at their origin behind a full window (R322): a SEND has not injected them (R330). -/
def dataHeld (s : State) (m : MemberId) (cid : Nat) : Bool := (s.member m).outWait.any fun p => decide (p.type = 0x09 ∧ p.cid = cid)

/-- STEP_SEND: the next packet of the message; the step ends when the last is injected. -/
def execStepSend (s : State) : Outcome :=
  let m := s.subject.m
  match stepOf s 1 with
  | none => .fault .noSuchEvent
  | some (h, j, w) =>
    let c := j.card
    let n := (s.vd m.vd).params.n
    let peer := j.coll.peers.getD w.pr 0
    let total := stepTotal n c w
    if peer = m.member then .next (abortColl s m h j true)
    else if (s.member m).snuffed then .fault .noSuchEvent
    else if !chunkQuiet s m h 0 || dataHeld s m (cardCid c) then .next s
    else
      let o := stepOffset n m.member c w (j.coll.k.getD w.ctr 0) j.coll.bytes
      let k := min (min 256 o.2) (total - j.coll.bytes)
      let msg := Tab.get 0 j.coll.sendMsg peer
      let sent (s : State) : State := nextStep (modColl s m h fun x => { x with sendMsg := Tab.put 0 x.sendMsg peer (msg + 1) }) m h (· + 1)
      if total ≤ j.coll.bytes then .next (sent s)
      else match bufRead s m h c (w.sb || decide (w.mode = 3)) ((stepArea n c w.mode).2.1 + o.1) k with
      | .wait s => .next s
      | .fault cause v => .next (failColl s m h j cause v)
      | .ok l s =>
        let s := sendPkt s m (jobPkt s m h (cdata m peer (cardCid c) (w.db || decide (w.mode = 3)) msg o.1 total (toWire w.mode (cardEtype c) l)))
        .next (if total ≤ j.coll.bytes + k && !dataHeld s m (cardCid c) then sent s else moveOn s m h k)

/-- A packet of the current message has been consumed (R61, R330); the step ends with the message. -/
def consumed (s : State) (m : MemberId) (h : Nat) (p : Pkt) (peer n : Nat) (fwd : Option Nat) : State :=
  let s := s.modMember m fun c => { c with landing := c.landing.filter fun q => decide (q ≠ p) }
  let s := checkHeld (countPkt s m p) m
  let bytes := (((s.member m).job h).map fun j => j.coll.bytes).getD 0 + n
  if p.mlen ≤ bytes then
    nextStep (modColl s m h fun x =>
      { x with recvMsg := Tab.put 0 x.recvMsg peer (Tab.get 0 x.recvMsg peer + 1),
               sendMsg := match fwd with | some q => Tab.put 0 x.sendMsg q (Tab.get 0 x.sendMsg q + 1) | none => x.sendMsg }) m h (· + 1)
  else moveOn s m h n

/-- The place in a buffer a packet names: which buffer, and the byte (R320, R331). -/
def cdataPlace (n : Nat) (c : List Dword) (mode : Nat) (p : Pkt) : Bool × Nat :=
  (bitN p.addr.toNat 63, (stepArea n c mode).2.1 + bitsN p.addr.toNat 39 0)

/-- A receiving step takes the next packet of its message: written (RECV), or reduced and perhaps forwarded (RRS, RRD). -/
def receive (s : State) (m : MemberId) (h : Nat) (j : Job) (w : StepWord) (reduce : Bool) (fwd : Option Nat) : State :=
  let c := j.card
  let n := (s.vd m.vd).params.n
  let peer := j.coll.peers.getD w.pr 0
  if peer = m.member ∨ fwd = some m.member then abortColl s m h j true
  else match nextCdata (s.member m) (cardCid c) peer (Tab.get 0 j.coll.recvMsg peer) with
    | none => s
    | some p =>
      let x := fromWire w.mode (cardEtype c) p.data
      let pl := cdataPlace n c w.mode p
      if !chunkQuiet s m h 0 then s
      else match (if reduce then bufRead s m h c pl.1 pl.2 x.length else .ok [] s) with
        | .wait s => s
        | .fault cause v => failColl s m h j cause v
        | .ok d s =>
          let new := if reduce then modeReduce w.mode (cardEtype c) (cardRop c) d x else x
          match bufWrite s m h c pl.1 pl.2 new with
          | .wait s => s
          | .fault cause v => failColl s m h j cause v
          | .ok _ s =>
            let s := match fwd with
              | some q => sendPkt s m (jobPkt s m h <| cdata m q (cardCid c) pl.1 (Tab.get 0 j.coll.sendMsg q) (bitsN p.addr.toNat 39 0) p.mlen (toWire w.mode (cardEtype c) new))
              | none => s
            consumed s m h p peer x.length fwd

/-- STEP_RECV: the next message from the peer is written where its packets say. -/
def execStepRecv (s : State) : Outcome :=
  match stepOf s 2 with
  | some (h, j, w) => .next (receive s s.subject.m h j w false none)
  | none => .fault .noSuchEvent
/-- STEP_RRS: the next message is reduced into the buffer, and the new elements are sent on; not while the member is snuffed (R60). -/
def execStepRrs (s : State) : Outcome :=
  match stepOf s 3 with
  | some (h, j, w) =>
    if (s.member s.subject.m).snuffed then .fault .noSuchEvent
    else .next (receive s s.subject.m h j w true (some (j.coll.peers.getD w.ps 0)))
  | none => .fault .noSuchEvent
/-- STEP_RRD: as RRS, without forwarding. -/
def execStepRrd (s : State) : Outcome :=
  match stepOf s 4 with
  | some (h, j, w) => .next (receive s s.subject.m h j w true none)
  | none => .fault .noSuchEvent

/-- What COPY writes for a piece of `n` bytes at `off` (R331): the byte it is written at, and the bytes. -/
def copyPiece (s : State) (m : MemberId) (h : Nat) (c : List Dword) (w : StepWord) (off n : Nat) : Reach (Nat × List Byte) :=
  let table := cardLen c + off / 256 * 4
  match w.mode with
  | 2 => match bufRead s m h c w.sb (off / 256 * 256) (min 256 (cardLen c - off / 256 * 256)) with
    | .ok l s => .ok (table, toBytes 4 (groupEntry (words32 l))) s
    | .wait s => .wait s
    | .fault k v => .fault k v
  | 4 | 6 => match bufRead s m h c true table 4 with
    | .ok e s => match bufRead s m h c w.sb off n with
      | .ok l s' =>
        let en := ofBytes e
        .ok (off, bytes32 ((words32 l).map fun x => if w.mode = 4 then quant (Config.freeValue s.fresh) en x else dequant en x)) s'.draw
      | .wait s => .wait s
      | .fault k v => .fault k v
    | .wait s => .wait s
    | .fault k v => .fault k v
  | _ => match bufRead s m h c w.sb off n with
    | .ok l s => .ok (off, l) s
    | .wait s => .wait s
    | .fault k v => .fault k v

/-- STEP_COPY: the next piece of the blocks is copied, transformed by MODE; pieces keep to groups of 64 elements. -/
def execStepCopy (s : State) : Outcome :=
  let m := s.subject.m
  match stepOf s 5 with
  | none => .fault .noSuchEvent
  | some (h, j, w) =>
    let c := j.card
    let n := (s.vd m.vd).params.n
    let total := stepTotal n c w
    let o := stepOffset n m.member c w (j.coll.k.getD w.ctr 0) j.coll.bytes
    let k := min (min (256 - o.1 % 256) o.2) (total - j.coll.bytes)
    if !chunkQuiet s m h 0 then .next s
    else match copyPiece s m h c w o.1 k with
      | .wait s => .next s
      | .fault cause v => .next (failColl s m h j cause v)
      | .ok p s =>
        match bufWrite s m h c (w.db || decide (w.mode = 2)) p.1 p.2 with
        | .wait s => .next s
        | .fault cause v => .next (failColl s m h j cause v)
        | .ok _ s =>
          .next (if total ≤ j.coll.bytes + k then nextStep s m h (· + 1) else moveOn s m h k)

/-- STEP_WAIT: every earlier message has been acknowledged. -/
def execStepWait (s : State) : Outcome :=
  match stepOf s 6 with
  | some (h, j, _) => if collUnacked s s.subject.m h j then .next s else .next (nextStep s s.subject.m h (· + 1))
  | none => .fault .noSuchEvent

/-- STEP_SIGNAL: a release write of zext(ARG<31:0>) to V-address ARG<61:32>, after the writes of the steps before it (R111). -/
def execStepSignal (s : State) : Outcome :=
  let m := s.subject.m
  match stepOf s 7 with
  | none => .fault .noSuchEvent
  | some (h, j, w) =>
    if collUnacked s m h j then .next s
    else if j.coll.bytes ≠ 0 then .next (nextStep (tick s m) m h (· + 1))
    else match engineWrite s m h (bitsN w.lo 61 32) (toBytes 8 (w.lo % 2 ^ 32)) with
      | .wait s => .next s
      | .fault cause v => .next (failColl s m h j cause v)
      | .ok _ s => .next (if chunkQuiet s m h 0 then nextStep (tick s m) m h (· + 1) else modColl s m h fun x => { x with bytes := 8 })

/-- STEP_LOOP: kCTR := 0 and the counter's limit. -/
def execStepLoop (s : State) : Outcome :=
  match stepOf s 8 with
  | some (h, _, w) =>
    .next (nextStep (modColl s s.subject.m h fun c => { c with k := c.k.set w.ctr 0, lim := c.lim.set w.ctr (w.lo % 2 ^ 32) }) s.subject.m h (· + 1))
  | none => .fault .noSuchEvent

/-- STEP_ENDL: kCTR := kCTR + 1; below the limit the next step is ARG<15:0>. -/
def execStepEndl (s : State) : Outcome :=
  match stepOf s 9 with
  | some (h, j, w) =>
    let k := j.coll.k.getD w.ctr 0 + 1
    .next (nextStep (modColl s s.subject.m h fun c => { c with k := c.k.set w.ctr k }) s.subject.m h fun i =>
      if k < j.coll.lim.getD w.ctr 0 then w.lo % 65536 else i + 1)
  | none => .fault .noSuchEvent

/-- STEP_PEER: pPR := (r + A·kCTR + C) mod N. -/
def execStepPeer (s : State) : Outcome :=
  let m := s.subject.m
  match stepOf s 0xA with
  | some (h, j, w) =>
    let p := (((m.member : Int) + coef w.aF * (j.coll.k.getD w.ctr 0 : Nat) + w.cF) % (max (s.vd m.vd).params.n 1 : Nat)).toNat
    .next (nextStep (modColl s m h fun c => { c with peers := c.peers.set w.pr p }) m h (· + 1))
  | none => .fault .noSuchEvent

/-- Rounds of a dissemination barrier: ceil(log2 N). -/
def barRounds (n : Nat) : Nat := if n ≤ 1 then 0 else (n - 1).log2 + 1

/-- STEP_BAR: in round i a token goes to (r + 2^i) mod N, and one comes from (r − 2^i) mod N; it ends as a release and an acquire. -/
def execStepBar (s : State) : Outcome :=
  let m := s.subject.m
  match stepOf s 0xB with
  | none => .fault .noSuchEvent
  | some (h, j, _) =>
    let n := (s.vd m.vd).params.n
    let i := j.coll.round
    let cid := cardCid j.card
    if i = 0 ∧ j.coll.bytes = 0 ∧ collUnacked s m h j then .next s
    else if barRounds n ≤ i then .next (nextStep (tick s m) m h (· + 1))
    else if j.coll.bytes = 0 then
      if (s.member m).snuffed then .fault .noSuchEvent
      else
        let p : Pkt := { (Pkt.local m.member ((m.member + 2 ^ i) % n) 0x10 (BitVec.ofNat 64 i) 0) with vc := 3, cid := cid }
        .next (askStep (modColl (sendPkt s m (jobPkt s m h p)) m h fun c => { c with bytes := 1 }) m h 1)
    else
      match (s.member m).landing.find? (fun p => decide (p.type = 0x10 ∧ p.cid = cid ∧ p.addr.toNat = i ∧ p.smem = (m.member + n - 2 ^ i % n) % n)) with
      | none => .next s
      | some p =>
        let s := s.modMember m fun c => { c with landing := c.landing.filter fun q => decide (q ≠ p) }
        .next (askStep (modColl (countPkt s m p) m h fun c => { c with bytes := 0, round := i + 1 }) m h 1)

/-- COLLECTIVE_ABORT_NOTICE (R451): the collective with CID `a` aborts, first at member `b`; with `c` ≠ 0 this member is that first one, since it
cannot reach member `c` − 1.  A notice for a job that is not active is kept. -/
def execCollectiveAbortNotice (s : State) : Outcome :=
  let o := s.subject
  if !(s.member o.m).live then .fault .noSuchEvent
  else match (s.member o.m).jobs.find? (fun e => match e.2 with
      | some j => decide (cardKind j.card = 2 ∧ cardCid j.card = o.a) && (jobEngine j).isSome
      | none => false) with
    | some (h, some j) => .next (abortColl s o.m h j (decide (o.c ≠ 0)))
    | _ => .next (s.modMember o.m fun c => { c with notices := c.notices ++ [(o.a, o.b)] })

end Sys2Proof.Machine
end

