-- ==== Sys2Proof/Machine/FrontEnd.lean ====
section
/-!
DEFINITION. FrontEnd.lean: the front end: queues (R358 to R360), packets (R361 to R366) with their malformed forms (R415 to R417), panes
(R31 to R33, R37, R38), and the dispatcher's pop (R39).
-/
namespace Sys2Proof.Machine

/-! ### Descriptors (R358) -/

/-- The key of a descriptor: queue 15 is member 0's for every member (R358, R360). -/
def descKey (s : State) (m : MemberId) (q : Nat) : Nat :=
  (s.vd m.vd).tables.getD (if q = 15 then 0 else m.member) 0 + 64 * q
/-- Dword 0 of a descriptor. -/
def descD0 (s : State) (m : MemberId) (q : Nat) : Nat := s.load (descKey s m q) 8
@[inherit_doc descD0] def descEn (s : State) (m : MemberId) (q : Nat) : Bool := bitN (descD0 s m q) 63
@[inherit_doc descD0] def descLog (s : State) (m : MemberId) (q : Nat) : Nat := bitsN (descD0 s m q) 56 52
@[inherit_doc descD0] def descBase (s : State) (m : MemberId) (q : Nat) : Nat := bitsN (descD0 s m q) 51 0
@[inherit_doc descD0] def descWptr (s : State) (m : MemberId) (q : Nat) : Nat := s.load (descKey s m q + 8) 8

/-- A member's parse position of a queue (R359). -/
def queuePos (s : State) (m : MemberId) (q : Nat) : Nat := Tab.get 0 (s.member m).parsed q
/-- RPTR: of the gang queue, the least of the positions (R360). -/
def queueRptr (s : State) (m : MemberId) (q : Nat) : Nat :=
  if q = 15 then (List.range (s.vd m.vd).params.n).foldl (fun r i => min r (queuePos s ⟨m.vd, i⟩ q)) (queuePos s m q) else queuePos s m q

/-- A queue's ring lies in host memory behind host ports that are lost (R468). -/
def ringLost (s : State) (m : MemberId) (q : Nat) : Bool := match vaPlace s m.vd (descBase s m q) false with
  | .ok l => decide (l.key / 2 ^ 80 = 4) && portLost s l
  | .error _ => false
/-- A descriptor fails the check of R417: reason 0x7 for a field, 0x8 for an overrun; 0x5 where its ring cannot be reached (R416, R468). -/
def descBad (s : State) (m : MemberId) (q : Nat) : Option Nat :=
  let d := descD0 s m q
  if descLog s m q < 4 ∨ 16 < descLog s m q ∨ descBase s m q % 4096 ≠ 0 ∨ bitsN d 62 57 ≠ 0
      ∨ (memBytes s.mem (descKey s m q + 0x18) 40).any (fun b => decide (b ≠ 0)) then some 7
  else if 2 ^ descLog s m q < descWptr s m q - queueRptr s m q then some 8
  else if ringLost s m q then some 5
  else none

/-- The VA of packet i of a queue. -/
def packetVa (s : State) (m : MemberId) (q i : Nat) : Nat := descBase s m q + 64 * (i % 2 ^ descLog s m q)

/-- The front end stops a queue (R416, R417): EN := 0, and the parse wick signals member, queue, packet VA and reason. -/
def stopQueue (s : State) (m : MemberId) (q va reason : Nat) : State :=
  let s := if q ≤ 15 then s.store (descKey s m q) (toBytes 8 (descD0 s m q % 2 ^ 63)) else parseAll (s.modVd m.vd fun v => { v with started := true, late := false }) m.vd
  s.report { kind := 4, code := reason, vd := m.vd, member := m.member, core := 0xFFFF, clk := s.clk, args := [q, va] }

/-- EN = 1 in descriptor 15 of a member other than 0 (R417): it is set to 0 and reported. -/
def checkOwn15 (s : State) (m : MemberId) : State :=
  let k := (s.vd m.vd).tables.getD m.member 0 + 64 * 15
  if m.member ≠ 0 ∧ bitN (s.load k 8) 63 then
    (s.store k (toBytes 8 (s.load k 8 % 2 ^ 63))).report
      { kind := 4, code := 7, vd := m.vd, member := m.member, core := 0xFFFF, clk := s.clk, args := [15, 0] }
  else s

/-! ### Parsing (R359) -/

/-- A class-2 wake whose init launch has not started yet: until it has, no queue is parsed (R78). -/
def initFirst (s : State) (vd : Nat) : Bool :=
  let v := s.vd vd
  decide (v.params.wakeClass = 2 ∧ v.state = .waking) && !v.started && v.params.initLaunch.isSome

/-- The member's context is on its die and its VD parses queues (R76). -/
def parses (s : State) (m : MemberId) : Bool :=
  decide ((s.die (s.member m).die).ctx = some m) && !(s.die (s.member m).die).stopped
    && (decide ((s.vd m.vd).state = .running) || decide ((s.vd m.vd).state = .waking))

/-- Dword i of a parsed packet. -/
def Packet.dwn (p : Packet) (i : Nat) : Nat := (p.dw.getD i 0).toNat
/-- TYPE of a parsed packet. -/
def Packet.type (p : Packet) : Nat := p.dwn 0 % 256

/-- A queue waits for a FENCE or BARRIER of its own, for room for a TASKS packet (R365, R366), or, at a wake, for the init launch (R78). -/
def queueBlocked (c : Member) (q : Nat) : Bool :=
  decide (Tab.get 0 c.partials q ≠ 0) || c.packets.any fun p => decide (p.q = q ∧ (p.type = 4 ∨ p.type = 8)) || decide (p.q = 16)

/-- The event of a packet TYPE (R361). -/
def packetEvent (t : Nat) : Option Instr :=
  match t with
  | 1 => some .launchPacket | 2 => some .tasksPacket | 3 => some .copyPacket | 4 => some .fencePacket | 5 => some .signalPacket
  | 6 => some .strikePacket | 7 => some .dimPacket | 8 => some .barrierPacket | 9 => some .nopPacket
  | _ => none

/-- The next packet of a queue can be parsed. -/
def canParse (s : State) (m : MemberId) (q : Nat) : Bool :=
  parses s m && descEn s m q && (descBad s m q).isNone && decide (queuePos s m q < descWptr s m q) && !queueBlocked (s.member m) q

/-- The front end looks at a queue: a failed descriptor stops it, and the next packet is parsed, after a time that is open (R479). -/
def lookAt (s : State) (m : MemberId) (q : Nat) : State :=
  if !parses s m || initFirst s m.vd then s
  else
    let s := if q = 15 then checkOwn15 s m else s
    if !descEn s m q then s
    else match descBad s m q with
      | some r => stopQueue s m q (packetVa s m q (queuePos s m q)) r
      | none =>
        if !canParse s m q then s
        else
          let i := queuePos s m q
          match vaRead s m (packetVa s m q i) 64 with
          | .error _ => stopQueue s m q (packetVa s m q i) 5
          | .ok r => match packetEvent ((r.1.headD 0).toNat) with
            | some e => r.2.draw.after (Config.freeDelay r.2.fresh) e { m := m, a := q, b := i }
            | none => stopQueue s m q (packetVa s m q i) 1

/-- QUEUE_DOORBELL (R359): the front end of the subject's member looks at queue `a`. -/
def execQueueDoorbell (s : State) : Outcome :=
  let m := s.subject.m
  if parses s m ∧ s.subject.a < 16 then .next (lookAt s m s.subject.a) else .fault .noSuchEvent

/-- QUEUE_POLL (R359): every 100 µs every queue is looked at. -/
def execQueuePoll (s : State) : Outcome :=
  let m := s.subject.m
  if !parses s m then .fault .noSuchEvent
  else .next (((List.range 16).foldl (fun s q => lookAt s m q) s).afterM (100 * Config.us) .queuePoll m)

/-- The eight dwords of the packet an event is about, when it is the next one of its queue and of that type; packet `b` of pseudo-queue 16 is
an init launch at VA `c` (R77). -/
def nextPacket (s : State) (ty : Nat) : Option (List Dword × State) :=
  let o := s.subject
  let m := o.m
  if o.a = 16 then
    if parses s m ∧ ty = 1 ∧ (s.member m).packets.all (fun p => decide (p.q ≠ 16)) then
      match vaDwords s m o.c 8 with
      | .ok r => some r
      | .error _ => none
    else none
  else if canParse s m o.a ∧ !initFirst s m.vd ∧ queuePos s m o.a = o.b then
    match vaDwords s m (packetVa s m o.a o.b) 8 with
    | .ok r => if (r.1.getD 0 0).toNat % 256 = ty then some r else none
    | .error _ => none
  else none

/-- The packet an event is about, parsed before and not complete. -/
def heldPacket (s : State) (ty : Nat) : Option Packet :=
  (s.member s.subject.m).packets.find? fun p => decide (p.q = s.subject.a ∧ p.index = s.subject.b ∧ p.type = ty)

/-- A packet is parsed (R359): RPTR := i + 1, and the queue is looked at again; but for DIM, the member no longer counts as dimmed (R365). -/
def parsed (s : State) (q i : Nat) (dw : List Dword) (left : Nat) (sat : List Nat) : State :=
  let m := s.subject.m
  let p : Packet := { q := q, index := i, dw := dw, left := left, complete := false, sat := sat, reported := [], aborted := false }
  let s := (notIdle s m.vd).modMember m fun c =>
    { c with packets := c.packets ++ [p], parsed := if q ≤ 15 then Tab.put 0 c.parsed q (i + 1) else c.parsed,
             dimmed := c.dimmed && decide (p.type = 7) }
  if q ≤ 15 then (s.store (descKey s m q + 0x10) (toBytes 8 (queueRptr s m q))).after 1 .queueDoorbell { m := m, a := q } else s

/-- The subject's packet is malformed (R416). -/
def malformed (s : State) (reason : Nat) : State :=
  let o := s.subject
  stopQueue s o.m o.a (if o.a = 16 then o.c else packetVa s o.m o.a o.b) reason

/-! ### Checks common to all packets (R415) -/

/-- SADR of a packet is not allowed. -/
def sadrBad (dw : List Dword) : Bool :=
  let d (i : Nat) : Nat := (dw.getD i 0).toNat
  let sig := decide (d 0 % 256 = 5)
  decide (bitsN (d 6) 63 52 ≠ 0) || ((bitN (d 0) 8 || sig) && decide (d 6 % 8 ≠ 0)) || (bitN (d 0) 8 && sig)

/-- Reserved bits of dwords 0 to 5 (reason 0x2): dword 0 may hold `allow`; dword 1 an address when `va`. -/
def plainBad (allow : Nat) (va : Bool) (dw : List Dword) : Bool :=
  let d (i : Nat) : Nat := (dw.getD i 0).toNat
  decide (d 0 / 2 ^ 16 * 2 ^ 16 &&& (2 ^ 64 - 1 - allow) ≠ 0) || decide (bitsN (d 0) 15 9 ≠ 0)
    || (if va then decide (bitsN (d 1) 63 52 ≠ 0) else decide (d 1 ≠ 0)) || decide (d 2 ≠ 0) || decide (d 3 ≠ 0) || decide (d 4 ≠ 0) || decide (d 5 ≠ 0)

/-- Reasons 0x6 and 0x2 of a packet other than LAUNCH. -/
def commonBad (ty allow : Nat) (va : Bool) (dw : List Dword) (q : Nat) : Option Nat :=
  if q = 15 ∧ ty ≠ 4 ∧ ty ≠ 8 ∧ ty ≠ 9 then some 6
  else if plainBad allow va dw || sadrBad dw then some 2 else none

/-- The subject's packet completes now. -/
def completeNow (s : State) : State := s.afterM 0 .packetCompletion s.subject.m (packetKey s.subject.a s.subject.b)

/-- Keys of packets not complete: of one queue, or of every queue. -/
def openPackets (s : State) (m : MemberId) (q : Option Nat) : List Nat :=
  ((s.member m).packets.filter fun p => q.isNone || decide (q = some p.q)).map (·.key)

/-! ### LAUNCH (R362, R363, R31, R37, R38) -/

/-- first of member m in default mode (R37). -/
def shareFirst (w n m : Nat) : Nat := w * m / max n 1
/-- The member R37 gives an item to. -/
def shareOwner (w n i : Nat) : Nat := ((List.range n).find? fun m => decide (shareFirst w n m ≤ i ∧ i < shareFirst w n (m + 1))).getD 0

/-- Pages of an item on each member's HBM (R38). -/
def itemPages (s : State) (vd va npg m : Nat) : Nat :=
  (List.range npg).countP fun i => decide (vaMember s vd (va + 4096 * i) = some m)
/-- The member an item goes to (R38). -/
def itemOwner (s : State) (vd w n i va npg : Nat) : Nat :=
  let best := (List.range n).foldl (fun (r : Nat × Nat) m =>
    let k := itemPages s vd va npg m
    if r.2 < k then (m, k) else r) (0, 0)
  if best.2 = 0 then shareOwner w n i else best.1

/-- The member reads the placement map from item i on (R38, R364): first item and count so far. -/
def placeItems (s : State) (m : MemberId) (map w : Nat) : Nat → Nat → Option Nat × Nat → Except Nat ((Option Nat × Nat) × State)
  | 0, _, acc => .ok (acc, s)
  | f + 1, i, acc =>
    match vaDwords s m (map + 16 * i) 2 with
    | .error _ => .error 5
    | .ok r =>
      let va := bitsN (r.1.getD 0 0).toNat 51 0
      let npg := bitsN (r.1.getD 1 0).toNat 31 0
      if itemOwner r.2 m.vd w (s.vd m.vd).params.n i va npg = m.member then
        match vaWrite r.2 m (map + 16 * i + 15) [BitVec.ofNat 8 m.member] with
        | .error _ => .error 5
        | .ok s => placeItems s m map w f (i + 1) (some (acc.1.getD i), acc.2 + 1)
      else placeItems r.2 m map w f (i + 1) acc

/-- A preset entry is allowed (R363). -/
def presetOk (s : State) (m : MemberId) (p : Dword × Dword) : Bool :=
  let d := p.1.toNat
  let a := bitsN d 29 0
  decide (bitsN d 61 30 = 0) && (match d / 2 ^ 62 with
    | 0 | 1 => decide (a % 8 = 0) && vaultOk s m a 8
    | 2 => decide (a % 16 = 0) && barrierAddrOk s m a
    | _ => false)

/-- Dwords in pairs. -/
def pairs : List Dword → List (Dword × Dword)
  | a :: b :: t => (a, b) :: pairs t
  | _ => []

/-- A LAUNCH is read and checked in the order of R415: what waits for its rectangle, or the reason. -/
def readLaunch (s : State) (m : MemberId) (q i : Nat) (dw : List Dword) : Except Nat (Launch × State) :=
  let d (i : Nat) : Nat := (dw.getD i 0).toNat
  let d0 := d 0
  let gw := bitN d0 16
  let pm := bitN d0 17
  let w := 2 ^ bitsN d0 20 18
  let h := 2 ^ bitsN d0 23 21
  let x0 := bitsN d0 27 24
  let y0 := bitsN d0 31 28
  let npre := bitsN d0 63 48
  let wi := bitsN (d 3) 31 0
  let n := (s.vd m.vd).params.n
  if gw ≠ decide (15 ≤ q) then .error 6
  else if bitsN d0 47 43 ≠ 0 ∨ bitsN d0 15 9 ≠ 0 ∨ [1, 2, 4, 5].any (fun j => decide (bitsN (d j) 63 52 ≠ 0)) ∨ bitsN (d 3) 63 32 ≠ 0 ∨ sadrBad dw then .error 2
  else if 16 < w ∨ 16 < h ∨ x0 % w ≠ 0 ∨ y0 % h ≠ 0 ∨ (pm ∧ !gw) then .error 3
  else if 4096 < npre ∨ d 1 % 64 ≠ 0 ∨ d 2 % 64 ≠ 0 ∨ d 4 % 16 ≠ 0 ∨ d 5 % 16 ≠ 0 then .error 4
  else match vaRead s m (d 1) (64 * (bitsN d0 42 32 + 1)) with
    | .error _ => .error 5
    | .ok img => match vaDwords img.2 m (d 2) 8 with
      | .error _ => .error 5
      | .ok args => match vaDwords args.2 m (d 4) (2 * npre) with
        | .error _ => .error 5
        | .ok pre =>
          let ps := pairs pre.1
          if !ps.all (presetOk s m) then .error 4
          else
            let first := shareFirst wi n m.member
            let share : Except Nat ((Option Nat × Nat) × State) :=
              if pm then placeItems pre.2 m (d 5) wi wi 0 (none, 0) else .ok ((some first, shareFirst wi n (m.member + 1) - first), pre.2)
            match share with
            | .error r => .error r
            | .ok sh =>
              let x7 := BitVec.ofNat 64 (sh.1.1.getD (Config.freeValue sh.2.fresh))
              let xs := if gw then args.1.take 6 ++ [x7, BitVec.ofNat 64 sh.1.2] else args.1
              .ok ({ packet := packetKey q i,
                     image := (List.range (bitsN d0 42 32 + 1)).map fun b => BitVec.ofNat 512 (ofBytes ((img.1.drop (64 * b)).take 64)),
                     args := xs, presets := ps, x0 := x0, y0 := y0, lw := w, lh := h }, sh.2.draw)

/-- LAUNCH_PACKET (R362); its pane is placed after a time that is open (R479). -/
def execLaunchPacket (s : State) : Outcome :=
  let o := s.subject
  match nextPacket s 1 with
  | none =>
    if o.a = 16 ∧ parses s o.m ∧ (s.member o.m).packets.all (fun p => decide (p.q ≠ 16)) then
      match vaDwords s o.m o.c 8 with
      | .error _ => .next (malformed s 5)
      | .ok r => .next (malformed r.2 (if (packetEvent ((r.1.getD 0 0).toNat % 256)).isNone then 1 else 6))
    else .fault .noSuchEvent
  | some (dw, s) =>
    match readLaunch s o.m o.a o.b dw with
    | .error r => .next (malformed s r)
    | .ok (l, s) =>
      .next (((parsed s o.a o.b dw 1 []).modMember o.m fun c => { c with launches := c.launches ++ [l] }).draw.afterM
        (Config.freeDelay (s.fresh)) .panePlacement o.m)

/-- Core indices of a rectangle. -/
def rectCores (x0 y0 w h : Nat) : List Nat := (List.range h).flatMap fun y => (List.range w).map fun x => 16 * (y0 + y) + x0 + x

/-- Two rectangles share a core. -/
def rectsMeet (a b : Launch) : Bool :=
  decide (a.x0 < b.x0 + b.lw ∧ b.x0 < a.x0 + a.lw ∧ a.y0 < b.y0 + b.lh ∧ b.y0 < a.y0 + a.lh)

/-- The first launch that can be placed: no earlier one overlaps it, and its cores are free (R31). -/
def placeable (s : State) (d : Nat) : List Launch → List Launch → Option Launch
  | _, [] => none
  | before, l :: t =>
    if before.all (fun b => !rectsMeet b l)
        && (rectCores l.x0 l.y0 l.lw l.lh).all (fun i => match (s.core ⟨d, i⟩).run with | .free _ => true | _ => false) then some l
    else placeable s d (before ++ [l]) t

/-- PANE of a placement (R208). -/
def paneWord (l : Launch) : Dword := BitVec.ofNat 64 (l.lh.log2 * 4096 + l.lw.log2 * 256 + l.y0 * 16 + l.x0)

/-- A core at the release of its pane (R33). -/
def paneCore (s : State) (l : Launch) (c : Core) : Core :=
  let c := (List.range l.image.length).foldl (fun c b =>
    { c with imem := Tab.put 0 c.imem b (l.image.getD b 0), imemPoison := Tab.put false c.imemPoison b false }) c
  let x := (List.range 8).foldl (fun x i => Tab.put 0 x (i + 1) (l.args.getD i 0)) ([] : Tab Dword)
  { c with x := x, p := [], ofS := [], ofV := [], hist0 := [], hist1 := [], hist2 := [], tags := [], streams := [], fifos := [], binds := [],
           cq := [], nest := Nest.none, loopBuf := [], tl := 0, rpa := 0, rpseq := 0, ckpt := ⟨[], Nest.none⟩, wdrawn := false, pane := paneWord l,
           pc := 0, run := .running, task := none, next := schedOf s c, results := [], mops := [], busy := [], waitFor := [], late := 0,
           trap := none, entry := false, ending := none, svc := none, nsw := none, nswRaised := false, nswAt := none, waited := 0, gate := .none,
           hung := false }

/-- One preset is performed (R363); waits it satisfies are served, and consumers of a filled word may become ready. -/
def putPreset (d : Nat) (m : MemberId) (s : State) (p : Dword × Dword) : State :=
  let a := bitsN p.1.toNat 29 0
  match p.1.toNat / 2 ^ 62 with
  | 0 =>
    let s := drainRange s d m (vaultKey d a) 8
    serve (filled ((putAt s m (.vault d a) (toBytes 8 p.2.toNat)).setFe d a true) m a p.2) d a
  | 1 => serve (s.setFe d a false) d a
  | _ => barrierAct s m d a .init p.2

/-- A launch is placed as one action (R31). -/
def placePane (s : State) (m : MemberId) (l : Launch) : State :=
  let d := (s.member m).die
  match l.presets.find? fun p => !resident s d m (granOf (bitsN p.1.toNat 29 0)) with
  | some p =>
    waitGranule s d (granOf (bitsN p.1.toNat 29 0)) m (.event .panePlacement { m := m })
  | none =>
    let s := l.presets.foldl (putPreset d m) s
    let s := (rectCores l.x0 l.y0 l.lw l.lh).foldl (fun s i => s.modCore ⟨d, i⟩ (paneCore s l)) s
    let s := s.modMember m fun c =>
      { c with launches := c.launches.filter (fun x => decide (x ≠ l)), panes := c.panes ++ [⟨l.packet, l.x0, l.y0, l.lw, l.lh, []⟩] }
    let s := noteStart s m
    if (s.member m).launches.isEmpty then s else s.afterM 0 .panePlacement m

/-- PANE_PLACEMENT (R31): the first launch of the subject's member whose rectangle is free is placed. -/
def execPanePlacement (s : State) : Outcome :=
  let m := s.subject.m
  let d := (s.member m).die
  if !parses s m then .fault .noSuchEvent
  else match placeable s d [] (s.member m).launches with
    | some l => .next (placePane s m l)
    | none => .fault .noSuchEvent

/-- TASK_DISPATCH (R39): one pop. -/
def execTaskDispatch (s : State) : Outcome :=
  if (s.die (s.member s.subject.m).die).stopped then .fault .noSuchEvent
  else match dispatchTurn s s.subject.m with
    | some s => .next s
    | none => .fault .noSuchEvent

/-! ### TASKS and COPY (R365) -/

/-- n records of eight dwords. -/
def records : Nat → List Dword → List (List Dword)
  | 0, _ => []
  | n + 1, l => l.take 8 :: records n (l.drop 8)

/-- Spawn records from number i on until the pool is full: how many have been admitted in all. -/
def spawnRecords (m : MemberId) (key : Nat) : List (List Dword) → Nat → State → Nat × State
  | [], i, s => (i, s)
  | r :: t, i, s =>
    match admitTask s m r (fpDwords s m (r.getD 3 0)) (some key) (parseKey s.clk) with
    | (some _, s) => spawnRecords m key t (i + 1) s
    | (none, _) => (i, s)

/-- A TASKS packet goes on: the rest waits while the pool is full. -/
def spawnRest (s : State) (p : Packet) : State :=
  let m := s.subject.m
  let n := bitsN (p.dwn 0) 63 48
  let done := Tab.get 0 (s.member m).partials p.q - 1
  let r := spawnRecords m p.key ((records n (p.dw.drop 8)).drop done) done s
  if r.1 = n then (r.2.modMember m fun c => { c with partials := Tab.put 0 c.partials p.q 0 }).after 1 .queueDoorbell { m := m, a := p.q }
  else (r.2.modMember m fun c => { c with partials := Tab.put 0 c.partials p.q (r.1 + 1) }).after 8 .tasksPacket s.subject

/-- TASKS_PACKET (R365). -/
def execTasksPacket (s : State) : Outcome :=
  let o := s.subject
  match heldPacket s 2 with
  | some p =>
    if Tab.get 0 (s.member o.m).partials o.a ≠ 0 && parses s o.m then .next (spawnRest s p) else .fault .noSuchEvent
  | none =>
    match nextPacket s 2 with
    | none => .fault .noSuchEvent
    | some (dw, s) =>
      let d0 := (dw.getD 0 0).toNat
      let n := bitsN d0 63 48
      let va := (dw.getD 1 0).toNat
      match commonBad 2 (0xFFFF * 2 ^ 48 + 3 * 2 ^ 16) true dw o.a with
      | some r => .next (malformed s r)
      | none =>
        if n = 0 ∨ 4096 < n ∨ bitsN d0 17 16 = 3 ∨ va % 64 ≠ 0 then .next (malformed s 4)
        else match vaDwords s o.m va (8 * n) with
          | .error _ => .next (malformed s 5)
          | .ok (l, s) =>
            if (records n l).any fun r => recordBad s o.m r (fpDwords s o.m (r.getD 3 0)) then .next (malformed s 4)
            else
              let s := parsed s o.a o.b (dw ++ l) n []
              let s := s.modMember o.m fun c =>
                { c with partials := Tab.put 0 c.partials o.a 1,
                         relaxed := match bitsN d0 17 16 with | 1 => false | 2 => true | _ => c.relaxed }
              match heldPacket s 2 with
              | some p => .next (spawnRest s p)
              | none => .next s

/-- COPY_PACKET (R365): while the job queue is full, parsing waits. -/
def execCopyPacket (s : State) : Outcome :=
  let o := s.subject
  match nextPacket s 3 with
  | none => .fault .noSuchEvent
  | some (dw, s) =>
    let va := (dw.getD 1 0).toNat
    match commonBad 3 0 true dw o.a with
    | some r => .next (malformed s r)
    | none =>
      if va % 64 ≠ 0 then .next (malformed s 4)
      else match vaDwords s o.m va 8 with
        | .error _ => .next (malformed s 5)
        | .ok (card, s) =>
          let fp := fpDwords s o.m (card.getD 3 0)
          let v := s.vd o.m.vd
          if cardKind card = 3 || cardBad (cardKind card) card fp || cardEpBad v card || (cardMember v.params.n card).isSome then .next (malformed s 4)
          else match lowestFree (s.member o.m).jobs Config.jobSlots with
            | none => .next (s.after 8 .copyPacket o)
            | some _ => .next (startJob (parsed s o.a o.b dw 1 []) o.m card fp (.auto (some (packetKey o.a o.b)) [] (parseKey s.clk))).2

/-! ### FENCE (R366) -/

/-- counter CMP VALUE. -/
def fenceTest (cmp a b : Nat) : Bool :=
  match cmp with
  | 0 => decide (a = b) | 1 => decide (a ≠ b) | 2 => decide (b ≤ a) | 3 => decide (b < a) | 4 => decide (a ≤ b) | _ => decide (a < b)

/-- A counter as the front end reads it, or a fault. -/
def readCounter (s : State) (m : MemberId) (d0 : Nat) : Except Nat (Nat × State) :=
  let a := bitsN d0 51 0
  if bitN d0 59 then
    if vaultOk s m a 8 then
      let s := drainRange s (s.member m).die m (vaultKey (s.member m).die a) 8
      .ok ((wordOf s m a).toNat, s)
    else .error 0x0A
  else (vaRead s m a 8).map fun r => (ofBytes r.1, r.2)

/-- Read the unsatisfied counters: those satisfied after it; a counter that faults stays unsatisfied, and the fault is told. -/
def fenceRead (m : MemberId) (entries : List (Dword × Dword)) (s : State) (sat : List Nat) : List Nat × Bool × State :=
  (List.range entries.length).foldl (fun (acc : List Nat × Bool × State) i =>
    if acc.1.contains i then acc
    else
      let e := entries.getD i (0, 0)
      match readCounter acc.2.2 m e.1.toNat with
      | .error _ => (acc.1, true, acc.2.2)
      | .ok r => if fenceTest (bitsN e.1.toNat 63 60) r.1 e.2.toNat then (acc.1 ++ [i], acc.2.1, r.2) else (acc.1, acc.2.1, r.2)) (sat, false, s)

/-- Poll again within 2 µs (R366). -/
def pollLater (s : State) (m : MemberId) (key : Nat) : State :=
  s.draw.afterM (1 + Config.freeDelay s.fresh % 1700) .fenceCounterPoll m key

/-- FENCE_PACKET (R366). -/
def execFencePacket (s : State) : Outcome :=
  let o := s.subject
  match nextPacket s 4 with
  | none => .fault .noSuchEvent
  | some (dw, s) =>
    let n := bitsN (dw.getD 0 0).toNat 63 48
    match commonBad 4 (0xFFFF * 2 ^ 48) true dw o.a with
    | some r => .next (malformed s r)
    | none =>
      if n = 0 ∨ 12 < n then .next (malformed s 4)
      else match vaDwords s o.m (dw.getD 1 0).toNat (2 * n) with
        | .error _ => .next (malformed s 5)
        | .ok (l, s) =>
          let es := pairs l
          if es.any fun e => decide (6 ≤ bitsN e.1.toNat 63 60) || decide (bitsN e.1.toNat 58 52 ≠ 0) || decide (bitsN e.1.toNat 51 0 % 8 ≠ 0) then
            .next (malformed s 4)
          else
            let r := fenceRead o.m es s []
            if r.2.1 then .next (malformed s 5)
            else
              let s := parsed r.2.2 o.a o.b (dw ++ l) 1 r.1
              .next (if r.1.length = n then completeNow s else pollLater s o.m (packetKey o.a o.b))

/-- FENCE_COUNTER_POLL (R366): the unsatisfied counters of packet `a` are read again. -/
def execFenceCounterPoll (s : State) : Outcome :=
  let m := s.subject.m
  match (s.member m).packets.find? (fun p => decide (p.key = s.subject.a ∧ p.type = 4)) with
  | none => .fault .noSuchEvent
  | some p =>
    if !parses s m then .fault .noSuchEvent
    else
      let es := pairs (p.dw.drop 8)
      let r := fenceRead m es s p.sat
      let s := r.2.2.modMember m fun c => { c with packets := c.packets.map fun x => if x = p then { x with sat := r.1 } else x }
      .next (if r.1.length = es.length then s.afterM 0 .packetCompletion m p.key else pollLater s m p.key)

/-! ### SIGNAL, STRIKE, DIM, BARRIER, NOP (R365) -/

/-- The write or add of a SIGNAL; one that faults is reported (R469). -/
def signalAct (s : State) (m : MemberId) (q : Nat) (dw : List Dword) : State :=
  let a := (dw.getD 6 0).toNat
  let v := (dw.getD 7 0).toNat
  let w : Except Nat State :=
    if bitN (dw.getD 0 0).toNat 16 then
      match vaRead s m a 8 with
      | .error c => .error c
      | .ok r => vaWrite r.2 m a (toBytes 8 ((ofBytes r.1 + v) % 2 ^ 64))
    else vaWrite s m a (toBytes 8 v)
  match w with
  | .ok s => tick s m
  | .error c => memoryEvent s 0x07 m.vd m.member 0xFF [a, c, q]

/-- Act on a packet at parse, or when the earlier packets it waits for have completed. -/
def actOrWait (s : State) (dw : List Dword) (wait : List Nat) (act : State → State) : State :=
  let o := s.subject
  if wait.isEmpty then completeNow (act (parsed s o.a o.b dw 0 [])) else parsed s o.a o.b dw 1 wait

/-- The packets a SIGNAL or STRIKE waits for: with WA = 1, the earlier ones of its queue. -/
def waitsFor (s : State) (dw : List Dword) : List Nat :=
  if bitN (dw.getD 0 0).toNat 17 then openPackets s s.subject.m (some s.subject.a) else []

/-- A packet that has waited acts now. -/
def heldAct (s : State) (ty : Nat) (act : State → Packet → State) : Option State :=
  match heldPacket s ty with
  | some p =>
    if p.sat.isEmpty ∧ p.left = 1 then
      some (completeNow (act (s.modMember s.subject.m fun c => { c with packets := c.packets.map fun x => if x = p then { x with left := 0 } else x }) p))
    else none
  | none => none

/-- SIGNAL_PACKET (R365): SVAL is stored or added at SADR as a release. -/
def execSignalPacket (s : State) : Outcome :=
  let o := s.subject
  match heldAct s 5 (fun s p => signalAct s o.m o.a p.dw), nextPacket s 5 with
  | some s, _ => .next s
  | none, none => .fault .noSuchEvent
  | none, some (dw, s) =>
    match commonBad 5 (3 * 2 ^ 16) false dw o.a with
    | some r => .next (malformed s r)
    | none => .next (actOrWait s dw (waitsFor s dw) fun s => signalAct s o.m o.a dw)

/-- The VD whose strike page a VA of a VD maps (R76), none for another page. -/
def strikeTarget (v : VD) (va : Nat) : Except Nat Nat :=
  match findLeaf v va with
  | none => .error 5
  | some (_, e) => if ptTgt e = 3 then .ok (ptPa e / 4096) else if 4 ≤ ptTgt e then .error 5 else .error 4

/-- STRIKE_PACKET (R365). -/
def execStrikePacket (s : State) : Outcome :=
  let o := s.subject
  let target (s : State) (dw : List Dword) : Except Nat Nat := strikeTarget (s.vd o.m.vd) (dw.getD 1 0).toNat
  let act (dw : List Dword) (s : State) : State := match target s dw with
    | .ok vd => tick (strikeVd s vd) o.m
    | .error _ => s
  match heldAct s 6 (fun s p => act p.dw s), nextPacket s 6 with
  | some s, _ => .next s
  | none, none => .fault .noSuchEvent
  | none, some (dw, s) =>
    match commonBad 6 (2 * 2 ^ 16) true dw o.a, target s dw with
    | some r, _ => .next (malformed s r)
    | none, .error r => .next (malformed s r)
    | none, .ok _ => .next (actOrWait s dw (waitsFor s dw) (act dw))

/-- DIM_PACKET (R365): the member is marked dimmed once every earlier packet of every queue of it has completed. -/
def execDimPacket (s : State) : Outcome :=
  let o := s.subject
  match heldAct s 7 (fun s _ => dimMember s o.m), nextPacket s 7 with
  | some s, _ => .next s
  | none, none => .fault .noSuchEvent
  | none, some (dw, s) =>
    match commonBad 7 0 false dw o.a with
    | some r => .next (malformed s r)
    | none => .next (actOrWait s dw (openPackets s o.m none) fun s => dimMember s o.m)

/-- BARRIER_PACKET (R365). -/
def execBarrierPacket (s : State) : Outcome :=
  let o := s.subject
  match heldAct s 8 (fun s _ => s), nextPacket s 8 with
  | some s, _ => .next s
  | none, none => .fault .noSuchEvent
  | none, some (dw, s) =>
    match commonBad 8 (2 ^ 16) false dw o.a with
    | some r => .next (malformed s r)
    | none => .next (actOrWait s dw (openPackets s o.m (if bitN (dw.getD 0 0).toNat 16 then none else some o.a)) id)

/-- NOP_PACKET (R365). -/
def execNopPacket (s : State) : Outcome :=
  let o := s.subject
  match nextPacket s 9 with
  | none => .fault .noSuchEvent
  | some (dw, s) =>
    match commonBad 9 0 false dw o.a with
    | some r => .next (malformed s r)
    | none => .next (actOrWait s dw [] id)

/-! ### Completion (R361) -/

/-- A packet leaves the list: packets that waited for it may act, and every queue is looked at. -/
def packetGone (s : State) (m : MemberId) (key : Nat) : State :=
  let s := s.modMember m fun c => { c with packets := c.packets.filter fun p => decide (p.key ≠ key) }
  let waiters := (s.member m).packets.filter fun p => decide (p.type ≠ 4) && p.sat.contains key
  let s := s.modMember m fun c => { c with packets := c.packets.map fun p =>
    if p.type = 4 then p else { p with sat := p.sat.filter fun k => decide (k ≠ key) } }
  let s := waiters.foldl (fun s p => if p.sat = [key] then match packetEvent p.type with
    | some e => s.after 0 e { m := m, a := p.q, b := p.index }
    | none => s
    else s) s
  noteIdle ((List.range 16).foldl (fun s q => if unparsed s m q then s.after 0 .queueDoorbell { m := m, a := q } else s) s) m.vd

/-- The signal of a completed packet (R361, R469): ABORTED when its copy job was aborted (R450). -/
def packetSignal (s : State) (m : MemberId) (p : Packet) : State :=
  if bitN (p.dwn 0) 8 then
    match vaWrite s m (p.dwn 6) (toBytes 8 (if p.aborted then Config.aborted else p.dwn 7)) with
    | .ok s => tick s m
    | .error c => memoryEvent s 0x07 m.vd m.member 0xFF [p.dwn 6, c, p.q]
  else s

/-- PACKET_COMPLETION (R361): packet `a` of the subject's member is complete there; with `b` ≠ 0 member `b` − 1 reports a gang-wide LAUNCH
complete to member 0, which signals once every member has completed. -/
def execPacketCompletion (s : State) : Outcome :=
  let o := s.subject
  let m := o.m
  if (s.die (s.member m).die).ctx ≠ some m ∧ o.b ≠ 0 ∧ (s.member m).live then .next (s.after Config.us .packetCompletion o)
  else match (s.member m).packets.find? (fun p => decide (p.key = o.a)) with
    | none =>
      if o.b ≠ 0 ∧ (s.member m).live ∧ queuePos s m 15 ≤ o.a % 2 ^ 64 ∧ o.a / 2 ^ 64 = 15 then .next (s.after Config.us .packetCompletion o)
      else .fault .noSuchEvent
    | some p =>
      let gw := decide (p.type = 1) && bitN (p.dwn 0) 16
      if gw ∧ m.member ≠ 0 then
        .next (packetGone (s.draw.after s.delay .packetCompletion { m := ⟨m.vd, 0⟩, a := o.a, b := m.member + 1 }) m o.a)
      else if gw then
        let rep := p.reported ++ [o.b - 1]
        if rep.length < (s.vd m.vd).params.n then
          .next (s.modMember m fun c => { c with packets := c.packets.map fun x => if x = p then { x with reported := rep } else x })
        else .next (packetGone (packetSignal s m p) m o.a)
      else .next (packetGone (packetSignal s m p) m o.a)

end Sys2Proof.Machine
end

