-- ==== Sys2Proof/Machine/Relight.lean ====
section
/-!
DEFINITION. Relight.lean: a member context leaves its die and comes back (R60, R64 to R73): capture, save, load, and the work a kill or a
class-2 collapse abandons (R78, R396).
-/
namespace Sys2Proof.Machine

/-! ### Capture (R64, R426) -/

/-- Bytes a captured packet takes (R426). -/
def captureBytes (p : Pkt) : Nat := (pktBytes p + 63) / 64 * 64 + 64
/-- The source queue of a captured packet: a reduction result's is the lowest member's. -/
def captureSource (p : Pkt) : Nat := if p.type = 0x0C then 0 else p.smem
/-- A packet fits its queue of a member's network save area. -/
def captureFits (s : State) (m : MemberId) (p : Pkt) : Bool :=
  decide ((((s.member m).netSave.filter fun q => decide (captureSource q = captureSource p)).map captureBytes).sum + captureBytes p
    ≤ 32 * 2 ^ 20 / max (s.vd m.vd).params.n 1)

/-- Where a captured packet goes in a network save area: after those its source injected before it, within its source's queue (R64). -/
def netInsert (p : Pkt) : List Pkt → List Pkt
  | [] => [p]
  | q :: t =>
    if captureSource q = captureSource p ∧ (q.type = 0x0C ↔ p.type = 0x0C) ∧ p.inj < q.inj then p :: q :: t else q :: netInsert p t
/-- The same for a list of packets to capture, by source. -/
def byInjection (l : List (MemberId × Pkt)) : List (MemberId × Pkt) :=
  l.foldl (fun r e => ins e r) []
where
  ins (e : MemberId × Pkt) : List (MemberId × Pkt) → List (MemberId × Pkt)
    | [] => [e]
    | f :: t => if f.1 = e.1 ∧ captureSource f.2 = captureSource e.2 ∧ e.2.inj < f.2.inj then e :: f :: t else f :: ins e t

/-- A packet is written to the network save area of its destination, and counted received by the capture point, a switch or else the member's NI,
unless it is marked (R61). -/
def capture (s : State) (w : Option Nat) (m : MemberId) (p : Pkt) : State :=
  let n := if p.counted then 0 else 1
  let s := s.modMember m fun c => { c with netSave := netInsert { p with counted := true } c.netSave }
  match w with
  | some w => s.modSwitch w fun x => { x with received := Tab.put 0 x.received p.gang (Tab.get 0 x.received p.gang + n) }
  | none => s.modMember m fun c => { c with received := c.received + n }

/-- Capture packets, in the order their sources injected them; once a queue is found full, what is left of its (source, destination) pair stays
(R426).  Answers what is left. -/
def captureAll (s : State) (w : Option Nat) (l : List (MemberId × Pkt)) : List (MemberId × Pkt) × State :=
  (byInjection l).foldl (fun (acc : List (MemberId × Pkt) × State) e =>
    if acc.1.any (fun f => decide (f.1 = e.1 ∧ captureSource f.2 = captureSource e.2)) || !captureFits acc.2 e.1 e.2 then (acc.1 ++ [e], acc.2)
    else (acc.1, capture acc.2 w e.1 e.2)) ([], s)

/-- The packet of the gang's agenda entry, with its destination, when it is on its way (R64); a contribution's destination is member 0, whose
package holds the slots. -/
def duePkt (s : State) (x : Due) : Option (MemberId × Pkt) :=
  match x.act with
  | .event i o =>
    match o.pkt with
    | some p =>
      if i = .switchPacketForward ∨ i = .sredPacket then (if p.vc = 0 then none else some (⟨vdOfGang s p.gang, p.dmem⟩, p))
      else if (i = .beacon) ∨ (p.seq = 0 ∧ p.type ≠ 0x06 ∧ p.type ≠ 0x0C) then none
      else if i = arrivalEvent p.type then some (o.m, p) else none
    | none => none
  | .perform _ => none

/-- The event and the switch of an agenda entry, for one that carries a packet on its way. -/
def dueAt (x : Due) : Instr × Nat := match x.act with
  | .event i o => (i, o.a)
  | .perform _ => (.nopPacket, 0)
/-- Capture the packets a test selects among those on their way; those that find their queue full stay. -/
def captureDue (s : State) (w : Option Nat) (sel : MemberId → Pkt → Instr → Nat → Bool) : List (MemberId × Pkt) × State :=
  let mine (x : Due) : Option (MemberId × Pkt) := (duePkt s x).filter fun e => sel e.1 e.2 (dueAt x).1 (dueAt x).2
  let r := captureAll s w (s.agenda.filterMap mine)
  (r.1, { r.2 with agenda := s.agenda.filter fun x => (mine x).all r.1.contains })

/-- Packets in requests that are under way on the die; one that has performed some of its parts is a packet no more, but an access (R70). -/
def servedPkts (s : State) (m : MemberId) : List (Nat × Pkt) :=
  s.accesses.filterMap fun a => match a.kind with
    | .served p => if a.ctx = m ∧ !a.inParts then some (a.id, p) else none
    | _ => none

/-- The NI of a member captures what it holds: the landing buffer, the stamp wait buffer, packets whose stamps are not rebuilt, requests that
wait at a word, and packets that have arrived; with `marked`, only those that carry the received mark (R64, R66).  Answers what is left. -/
def captureNi (s : State) (m : MemberId) (marked : Bool) : List (MemberId × Pkt) × State :=
  let sel (p : Pkt) : Bool := !marked || p.counted
  let c := s.member m
  let served := if marked then [] else servedPkts s m
  let due (x : Due) : Option (MemberId × Pkt) :=
    if marked then none else (duePkt s x).filter fun e => decide (e.1 = m ∧ (dueAt x).1 ≠ .switchPacketForward ∧ (dueAt x).1 ≠ .sredPacket)
  let l := (c.landing ++ c.stampWait.map (·.1) ++ c.unbuilt.map (·.1)).filter sel ++ served.map (·.2) ++ (s.agenda.filterMap due).map (·.2)
  let r := captureAll s none (l.map fun p => (m, p))
  let stays (p : Pkt) : Bool := !sel p || r.1.contains (m, p)
  let gone := (served.filter fun e => !stays e.2).map (·.1)
  let s := r.2.modMember m fun c =>
    { c with landing := c.landing.filter stays, stampWait := c.stampWait.filter fun e => stays e.1, unbuilt := c.unbuilt.filter fun e => stays e.1 }
  let s : State := { s with accesses := s.accesses.filter fun (x : Access) => !gone.contains x.id,
                            agenda := s.agenda.filter fun x => (due x).all r.1.contains }
  (r.1, s.modDie c.die fun d => { d with queues := (d.queues.map fun (e : Nat × List Nat) =>
    (e.1, e.2.filter fun id => !gone.contains id)).filter fun (e : Nat × List Nat) => !e.2.isEmpty })

/-- Every packet of a gang that is still on its way when a die of it has stopped goes to its destination's save area. -/
def sweepGang (s : State) (vd : Nat) : State := (captureDue s none fun m _ _ _ => decide (m.vd = vd)).2

/-! ### What belongs to a member context among the things due -/

/-- Events of a core of the die. -/
def coreEvent (i : Instr) : Bool :=
  i = .taggedResultLand || i = .fifoOutTransfer || i = .fifoLoadFetch || i = .nswWindowKill
/-- Events of a member's engines, dispatcher and front end that go on where they stood. -/
def memberEvent (i : Instr) : Bool :=
  [.taskDispatch, .panePlacement, .chunkIssue, .chunkBoundary, .jobActivate, .jobOutFill, .jobBarrierArrival, .jobSignalWrite, .triggerFire,
   .stepEnd, .stepSend, .stepRecv, .stepRrs, .stepRrd, .stepCopy, .stepWait, .stepSignal, .stepLoop, .stepEndl, .stepPeer, .stepBar,
   .stampWaitApply, .stampWaitTimeout, .launchPacket, .tasksPacket, .copyPacket, .fencePacket, .signalPacket, .strikePacket, .dimPacket,
   .barrierPacket, .nopPacket, .packetCompletion, .fenceCounterPoll, .retransmitTimeout, .collectiveAbortNotice, .demand,
   .fifoPacket, .beacon].contains i
/-- Events that a load makes anew. -/
def freshEvent (i : Instr) : Bool := [.queueDoorbell, .queuePoll, .beaconTimer, .rateLimitRise].contains i

/-- The thing due belongs to member m of die d. -/
def ofMember (s : State) (m : MemberId) (d : Nat) (x : Due) : Bool :=
  match x.act with
  | .perform id => (s.access id).any fun a => decide (a.ctx = m)
  | .event i o =>
    (coreEvent i && decide (o.k.die = d)) || ((memberEvent i || freshEvent i) && decide (o.m = m))
      || (decide (i = .deferredFaultFound) && (s.access o.a).any fun a => decide (a.ctx = m))

/-! ### Save (R68 to R70) -/

/-- A result waits for its access, or a fetch of a fixed-latency M op is under way: the stop waits for it, so that a resumed result is never
late (R70). -/
def coreBusy (c : Core) : Bool :=
  c.results.any (fun r => decide (r.val = .unbound)) || c.mops.any (fun m => decide (m.tag = 0 ∧ m.kind ≠ 0) && !m.fetched) || c.entry

/-- Something of the die must still end before its context can be saved: a granule sequence, a fixed-latency access, a trap entry, a write to
an outside port (R60, R68, R70). -/
def stopBusy (s : State) (d : Nat) (m : MemberId) : Bool :=
  (s.die d).seqs.any (·.started) || s.cores.any (fun e => decide (e.1 / 512 = d) && coreBusy e.2)
    || s.accesses.any fun a => decide (a.ctx = m) && a.kind.write && !a.performed && outsideBound s a

/-- A part of a core's 128 KiB of the control and snapshot area, by its offset (R69), with its live bytes. -/
def corePart (c : Core) (off : Nat) : Nat :=
  match off with
  | 0x03400 => 32 * c.streams.length
  | 0x03600 => 128 * c.fifos.length
  | 0x03800 => 512 * (c.hist0.length + c.hist1.length + c.hist2.length)
  | 0x06800 => 4 * (c.cq.map fun e => e.2.length).sum
  | 0x08800 => 256 * (c.fifos.map fun e => e.2.inn.length + e.2.out.length).sum
  | _ => min (62 * 1024) (272 * c.results.length + 32 * 1024 * min 1 c.mops.length + 16 * c.tags.length + 8 * c.busy.length)
/-- The offsets of the parts of which a save keeps the live bytes alone (R69). -/
def livePartOffsets : List Nat := [0x03400, 0x03600, 0x03800, 0x06800, 0x08800, 0x10800]
/-- The live bytes a core's save records (R69); the bytes an item of a part takes are the model's choice (log 45). -/
def liveParts (c : Core) : List Nat := livePartOffsets.map (corePart c)
/-- Where a core's register space, IMEM, and control and snapshot area stand in its member's save area (R69); the full/empty bits and the member
descriptor follow. -/
def saveRegs (k : Nat) : Nat := 192 * 1024 * k
@[inherit_doc saveRegs] def saveImem (k : Nat) : Nat := 0x03000000 + 128 * 1024 * k
@[inherit_doc saveRegs] def saveControl (k : Nat) : Nat := 0x05000000 + 128 * 1024 * k
@[inherit_doc saveRegs] def saveFullEmpty : Nat := 0x07000000
@[inherit_doc saveRegs] def saveDescriptor : Nat := 0x07C00000
/-- Bytes a relight moves for a member context (R68, R69): register space and IMEM, each core's control registers and operand files in full, and
the live bytes recorded of its later parts. -/
def moveBytes (c : Member) : Nat := saveControl 0 + 256 * 13 * 1024 + (c.saveLive.map fun e => e.2.sum).sum

/-- The member context of a die is saved at its stop clk: cores, accesses, and what is due for it. -/
def saveCtx (s : State) (d : Nat) (m : MemberId) : State :=
  let s := ((s.die d).merges).foldl (fun s e => drainEntry s d m e) s
  let s := sweepGang s m.vd
  let s := (captureNi s m true).2
  let s := saveSlots s m.vd
  let mine := s.agenda.filter (ofMember s m d)
  let gone (x : Due) : Bool := match x.act with
    | .perform _ => true
    | .event i _ => freshEvent i || i = .beacon
  let as := s.accesses.filter fun a => decide (a.ctx = m)
  let s := { s with agenda := s.agenda.filter fun x => !ofMember s m d x, accesses := s.accesses.filter fun a => decide (a.ctx ≠ m),
                    paused := Tab.put [] s.paused (memberKey m) (mine.filter fun x => !gone x) }
  let cs := s.cores.slice (512 * d) (512 * d + 256)
  let s := { s with cores := s.cores.filter fun e => decide (e.1 / 512 ≠ d) }
  let s := s.modMember m fun c =>
    { c with cores := cs.map fun (e : Nat × Core) => (e.1 - 512 * d, e.2), saveLive := cs.map fun (e : Nat × Core) => (e.1 - 512 * d, liveParts e.2), accesses := as, engines := (s.die d).engines, offAt := s.clk, snuffed := false }
  s.modDie d fun t => { t with ctx := none, queues := [], walks := [], seqs := [], engines := [], snuffing := false }

/-! ### Load (R66, R68, R70) -/

/-- A core as it resumes after n clk off the die: schedule clk, remaining latencies and latch distances as they stood; its residency timer goes on
from the count it held (R70, R71). -/
def resumeCore (n : Nat) (c : Core) : Core :=
  { c with frozen := c.frozen + n, frozeAt := c.frozeAt + n, late := 0,
           results := c.results.map fun r => { r with deliver := r.deliver + n },
           mops := c.mops.map fun m => { m with arrive := m.arrive + n, bindAt := if m.tag = 0 then m.bindAt else m.bindAt + n } }

/-- An access is issued again at the release, unless it is performed, gathers pieces or awaits an answer; one that has performed some of its parts goes on
with the others (R70). -/
def reissue (s : State) (a : Access) : State :=
  let again (s : State) : State :=
    let a := { a with st := .travel }
    let t := if a.k.core = 256 then s.clk + s.delay else accTime s a.k a.ea
    { s with accesses := s.accesses ++ [a], fresh := s.fresh + 1 }.due t (.perform a.id)
  let stay (s : State) : State := { s with accesses := s.accesses ++ [a] }
  match a.st with
  | .done _ => stay s
  | .parts _ _ _ => (stay s).due s.clk (.perform a.id)
  | .gather _ _ => stay s
  | .remote _ _ => stay s
  | .queued => match a.kind with
    | .sred _ _ _ _ => stay s
    | .mig _ => stay s
    | _ => again s
  | _ => again s

/-- A captured packet is delivered as though it had arrived (R66): one whose SEQ was accepted before goes back to the buffer it stood in. -/
def redeliver (m : MemberId) (s : State) (p : Pkt) : State :=
  let ch := Tab.get Chain.start (s.member m).inChain (2 * p.smem + chainOf p.vc)
  if p.type = 0x0B then s.after 0 .switchPacketForward { a := slotHome s m.vd p.gang p.cid, pkt := some p }
  else if p.type = 0x0C then s.after 0 .sres { m := m, a := 4096, pkt := some p }
  else if p.type ≠ 0x06 ∧ (ch.seen.contains p.seq || clockGe ch.acked p.seq) then s.modMember m fun c => { c with landing := c.landing ++ [p] }
  else if p.type ≠ 0x06 ∧ clockGe ch.seq p.seq then
    checkHeld (s.modMember m fun c => { c with stampWait := c.stampWait ++ [(p, s.clk)] }) m
  else (s.modDie (s.member m).die fun d => { d with ingress := d.ingress + pktBytes p }).after 0 (arrivalEvent p.type) { m := m, a := 4096, pkt := some p }

/-- Packets of a network save area in the order of R66. -/
def netOrder (n : Nat) (l : List Pkt) : List Pkt :=
  (List.range (max n 1)).flatMap fun i => l.filter fun p => decide (captureSource p = i)

/-- Deliver a member's captured packets. -/
def deliverNet (s : State) (m : MemberId) : State :=
  let l := netOrder (s.vd m.vd).params.n (s.member m).netSave
  l.foldl (redeliver m) (s.modMember m fun c => { c with netSave := [] })

/-- What a member's engines, dispatcher and front end look at when injection or work goes on (R63, R68). -/
def wakeEngines (s : State) (m : MemberId) : State :=
  let s := pumpOut s m
  let s := (List.range 4).foldl (fun s e => s.afterM 0 .chunkIssue m e) s
  let s := s.afterM 0 .jobActivate m
  pokeColl s m none

/-- What was under way of a member's context when it left its die is due again after n clk: its cores' results as they stood, but for a tagged result whose
access had been performed, which is ready at once (R265), and its engines once the captured packets have been delivered (R67). -/
def resumeDue (s : State) (m : MemberId) (n : Nat) : State :=
  let p := (Tab.get [] s.paused (memberKey m)).map fun (x : Due) => match x.act with
    | .event i _ => if i = .taggedResultLand then { x with at_ := s.clk } else { x with at_ := if memberEvent i then max (x.at_ + n) (s.clk + 1) else x.at_ + n }
    | .perform _ => { x with at_ := x.at_ + n }
  { s with agenda := s.agenda ++ p, paused := Tab.put [] s.paused (memberKey m) [] }

/-- The slot records of a gang go back into their slots before any core of it is released (R66): with the first of its members that is loaded. -/
def reinstallSlots (s : State) (vd : Nat) : State :=
  let m : MemberId := ⟨vd, 0⟩
  ((s.member m).slots.foldl (fun s r => reinstallSlot s vd r) s).modMember m fun c => { c with slots := [] }

/-- The context of member m is loaded and released on its die (R66, R68, R70). -/
def loadCtx (s : State) (m : MemberId) : State :=
  let c := s.member m
  let d := c.die
  let n := s.clk - c.offAt
  let s : State := { s with cores := c.cores.foldl (fun (t : Tab Core) (e : Nat × Core) => Tab.put Core.reset t (512 * d + e.1) (resumeCore n e.2)) s.cores }
  let s := s.modDie d fun t => { t with ctx := some m, engines := c.engines, power := .active, vaultPower := .active, refresh := [], stopped := false }
  let s := s.modMember m fun c =>
    { c with cores := [], accesses := [], engines := [], outside := [], snuffed := false, rate := [], echoAt := [],
             tickets := [], retransmit := c.retransmit.map fun (x : Sent) => { x with at_ := x.at_ + n } }
  let s := c.accesses.foldl reissue s
  let s := deliverNet (reinstallSlots s m.vd) m
  let s := resumeDue s m n
  let s := sendBeacons s m
  let s := s.afterM 1700 .beaconTimer m
  let s := if initFirst s m.vd then s else (List.range 16).foldl (fun s q => s.after 0 .queueDoorbell { m := m, a := q }) s
  let s := s.afterM (100 * Config.us) .queuePoll m
  wakeEngines (checkHeld (askDispatch (s.afterM 0 .panePlacement m) m) m) m

/-! ### Work that is abandoned (R78, R396) -/

/-- The signal addresses of packets with SV = 1 not complete, and of job cards with SV = 1 whose completion actions are not performed. -/
def openSignals (c : Member) : List Nat :=
  (c.packets.filterMap fun p => if bitN (p.dwn 0) 8 then some (p.dwn 6) else none)
    ++ c.jobs.filterMap fun e => match e.2 with
      | some j => if cardSv j.card then some (cardSadr j.card) else none
      | none => none

/-- The work of a member off its die is discarded: panes, tasks, jobs, triggers, slots, and what of it is under way. -/
def discardWork (s : State) (m : MemberId) : State :=
  let s := s.modMember m fun c =>
    { c with pool := [], banks := [], ages := [], decls := [], producers := [], absorbed := [], jobs := [], jobOrder := [], triggers := [], packets := [],
             launches := [], panes := [], partials := [], outWait := [], retransmit := [], stampWait := [], unbuilt := [], landing := [],
             netSave := [], notices := [], slots := [], outside := [], accesses := [], engines := [], tickets := [],
             cores := (c.cores.map fun (e : Nat × Core) =>
               (e.1, { (stopCore e.2).endNest with run := .free 0, task := none, results := [], mops := [], busy := [], tags := [], waitFor := [], binds := [],
                                                   nsw := none, hist0 := [], hist1 := [], hist2 := [], entry := false })).filter fun (e : Nat × Core) => decide (e.2 ≠ Core.reset) }
  { s with paused := Tab.put [] s.paused (memberKey m) [] }

/-- The work of a whole gang is abandoned: ABORTED goes to every open signal address (R78, R396). -/
def abandon (s : State) (vd : Nat) : State :=
  (List.range (s.vd vd).params.n).foldl (fun s i =>
    let m : MemberId := ⟨vd, i⟩
    let sadrs := openSignals (s.member m)
    sadrs.foldl (fun s a => match vaWrite s m a (toBytes 8 Config.aborted) with
      | .ok s => s
      | .error c => memoryEvent s 0x07 vd i 0xFF [a, c, 0xFF]) (discardWork s m)) s

/-! ### Granules of a die (R77, R432) -/

/-- Spill every dirty granule of a die that a test selects by owner. -/
def spillDie (s : State) (d : Nat) (sel : MemberId → Bool) : State :=
  ((s.die d).gran.filter fun e => decide (e.2.res = 2)).foldl (fun s e =>
    match memberAt s d e.2.owner with
    | some o =>
      if sel o then
        (((drainRange s d o (vaultKey d (granBase e.1)) Config.granule).copyAll (vaultKey d (granBase e.1)) (saveKey o (granSave e.1)) Config.granule).modMember o
          fun c => { c with saved := Tab.put false c.saved e.1 true }).setGran d e.1 { e.2 with res := 1 }
      else s
    | none => s) s

/-- Ownership entries of a member become no data (R72, R77). -/
def dropGranules (s : State) (m : MemberId) : State :=
  let c := s.member m
  s.modDie c.die fun t => { t with gran := t.gran.filter fun e => decide (e.2.owner ≠ c.localNo) }

/-- A column's cell of every slot is EMPTY, or IDLE for a gang in pilot state (R56). -/
def columnIdle (s : State) (d : Nat) : Bool :=
  (List.range 16).all fun i => match Tab.get Cell.empty s.gc.cells (256 * i + d) with
    | .empty => true
    | .idle vd => decide ((s.vd vd).state = .pilot)
    | _ => false

/-- A class-0 VD in pilot state keeps data on a die (R77, R377). -/
def keepsData (s : State) (d : Nat) : Bool :=
  (s.die d).gran.any fun e => match memberAt s d e.2.owner with
    | some o => decide ((s.vd o.vd).params.wakeClass = 0 ∧ (s.vd o.vd).state = .pilot)
    | none => false

/-- The vault die is powered off: dirty granules are spilled first, and no granule holds data after it (R77, R377, R432). -/
def vaultOff (s : State) (d : Nat) : State :=
  (spillDie s d fun _ => true).modDie d fun t => { t with gran := [], vaultPower := .off }

/-- The power wick gates dies that no gang runs on (R56, R377). -/
def gateDies (s : State) : State :=
  s.dieList.foldl (fun s d =>
    if (s.die d).ctx.isNone ∧ columnIdle s d ∧ (s.die d).power = .active then
      let s := s.modDie d fun t => { t with power := .gated }
      if keepsData s d then s else vaultOff s d
    else s) s

end Sys2Proof.Machine
end

