-- ==== Sys2Proof/Machine/Gang.lean ====
section
/-!
DEFINITION. Gang.lean: the gang controller: the slot matrix (R53 to R56), the vote (R59 to R66, R425 to R427), relight (R68), kills (R396),
collapse and wake (R75 to R79, R431), and hang reports (R434).
-/
namespace Sys2Proof.Machine

/-! ### The slot matrix -/

/-- A change of the vote's record. -/
def setVote (s : State) (f : Vote → Vote) : State := { s with gc := { s.gc with vote := f s.gc.vote } }
/-- A chimney message's way: under 400 clk, so that COUNT arrives before the next round (log 26). -/
def chimney (s : State) : Nat := 1 + Config.freeDelay s.fresh % 400

/-- A VD is on its dies, or comes to them by the vote under way (R75). -/
def bound (s : State) (vd : Nat) : Bool := onDies s vd || (decide (s.gc.vote.st ≠ .idle) && s.gc.vote.coming.contains vd)
/-- A VD may run: none of its dies has failed (R427, R430). -/
def canRun (s : State) (vd : Nat) : Bool :=
  let v := s.vd vd
  v.live && (decide (v.state = .running) || decide (v.state = .waking)) && v.movedTo.isNone && v.dies.all fun d => !(s.die d).failed || (s.die d).newPosition.isSome

/-- A cell of a slot without backfill (R53). -/
def baseCell (s : State) (slot d : Nat) : Cell :=
  match s.vds.find? fun e => e.2.live && decide (e.2.params.homeSlot = some slot) && e.2.dies.contains d with
  | some (vd, v) => if v.state = .running then .home vd else if v.state = .killed then .empty else .idle vd
  | none => .empty
/-- Gangs leave their FILL cells (R55). -/
def resetCells (s : State) (slot : Nat) : State := s.dieList.foldl (fun s d => setCell s slot d (baseCell s slot d)) s

/-- VDs with a HOME or FILL cell in a slot; a waking one runs in its home slot too (R75, R79). -/
def slotVds (s : State) (slot : Nat) : List Nat :=
  (s.dieList.filterMap fun d => match cellOf s slot d with
    | .home vd => some vd
    | .fill vd => some vd
    | .idle vd => if (s.vd vd).state = .waking then some vd else none
    | .empty => none).eraseDups

/-- Backfill order (R55): priority, then longest wait, then VD number. -/
def fillBefore (s : State) (a b : Nat) : Bool :=
  let x := s.vd a
  let y := s.vd b
  decide (y.params.priority < x.params.priority)
    || (decide (x.params.priority = y.params.priority) && (decide (x.waitSince < y.waitSince) || (decide (x.waitSince = y.waitSince) && decide (a < b))))
/-- Insert into the walk order. -/
def fillInsert (s : State) (a : Nat) : List Nat → List Nat
  | [] => [a]
  | b :: t => if fillBefore s a b then a :: b :: t else b :: fillInsert s a t

/-- A cell may be backfilled: EMPTY, or IDLE with its gang off its dies (R55). -/
def cellFree (s : State) (slot d : Nat) : Bool :=
  match cellOf s slot d with
  | .empty => true
  | .idle vd => !onDies s vd
  | _ => false

/-- Backfill a slot (R55). -/
def backfill (s : State) (slot : Nat) : State :=
  (s.gc.backfill.foldl (fun l a => fillInsert s a l) []).foldl (fun s vd =>
    if canRun s vd ∧ (s.vd vd).dies.all (cellFree s slot) ∧ !(s.vd vd).dies.isEmpty then
      (s.vd vd).dies.foldl (fun s d => setCell s slot d (.fill vd)) s
    else s) s

/-- The next slot with a gang that can run, after backfill (R55, R427). -/
def findSlot (s : State) : Nat → Nat → Option (Nat × State)
  | 0, _ => none
  | n + 1, i =>
    let s' := backfill s i
    if (slotVds s' i).any (canRun s') then some (i, s') else findSlot s n ((i + 1) % max s.gc.slots 1)

/-- A slot's quantum (R55): 2 ms when none is set. -/
def quantumOf (s : State) (slot : Nat) : Nat := let q := Tab.get 0 s.gc.quanta slot; if q = 0 then 2000 * Config.us else q

/-! ### Parties -/

/-- Member contexts of VDs that stand on dies, with their die. -/
def votersOf (s : State) (vds : List Nat) : List (MemberId × Nat) :=
  vds.flatMap fun n => (s.vd n).dies.filterMap fun d => match (s.die d).ctx with
    | some m => if m.vd = n then some (m, d) else none
    | none => none
/-- The parties of a vote (R59): dies, and 1000 + position for the switch dies; those declared failed owe nothing (R427). -/
def parties (s : State) : List Nat :=
  let v := s.gc.vote
  (((votersOf s v.leaving).map (·.2)).filter fun d => !v.failed.contains d)
    ++ (s.switchList.filter fun w => !(s.switch w).down).map (1000 + ·)

/-- A party's message is watched (R427). -/
def watch (s : State) : State :=
  (setVote s fun v => { v with askedAt := s.clk }).after (100 * Config.us) .votePartyTimeout { a := s.gc.vote.v, b := s.clk }

/-! ### Running a vote (R63) -/

/-- SNUFF goes out with the next vote number. -/
def sendSnuff (s : State) (v : Vote) : State :=
  let n := (s.gc.voteNo + 1) % 2 ^ 32
  let dl := if v.leaving.any fun g => decide (0 < (s.vd g).overflows) then 200 * Config.us else s.platform.drain * Config.us
  let v := { v with st := .snuffing, v := n, round := 0, sentAt := s.clk, deadline := dl, counts := [], reported := [], hold := [], overflow := false }
  let s : State := { s with gc := { s.gc with voteNo := n, vote := v } }
  let s := (votersOf s v.leaving).foldl (fun s e => s.draw.after (1 + Config.freeDelay s.fresh % 800) .snuff { m := e.1, a := n }) s
  watch ((s.after (2 * Config.us) .countLatch { a := n, b := 0 }).after dl .drainDeadline { a := n })

/-- The cells that differ between two states, as changes. -/
def cellChanges (s t : State) : List (Nat × Cell × Cell) :=
  ((s.gc.cells ++ t.gc.cells).map (·.1)).eraseDups.filterMap fun k =>
    let a := Tab.get Cell.empty s.gc.cells k
    let b := Tab.get Cell.empty t.gc.cells k
    if a = b then none else some (k, a, b)
/-- The changes of the vote's cells are made, where the cells still stand as they did. -/
def makeChanges (s : State) : State :=
  let s := s.gc.vote.changes.foldl (fun (s : State) (e : Nat × Cell × Cell) =>
    if Tab.get Cell.empty s.gc.cells e.1 = e.2.1 then { s with gc := { s.gc with cells := Tab.put Cell.empty s.gc.cells e.1 e.2.2 } } else s) s
  setVote s fun v => { v with changes := [] }

/-- RELIGHT goes to every die of the switch (R59, R63): the gangs that leave give up their cells, and those that come have theirs. -/
def sendRelight (s : State) : State :=
  let s := makeChanges s
  let v := s.gc.vote
  let ds := ((votersOf s v.leaving).map (·.2) ++ v.coming.flatMap fun n => (s.vd n).dies).eraseDups.filter fun d => !v.failed.contains d
  let s := setVote s fun v => { v with st := .relighting, reported := [], dies := ds }
  let s := ds.foldl (fun s d => s.draw.after (chimney s) .relight { a := d, b := 0, c := v.v }) s
  setVote s fun v => { v with askedAt := s.clk }

/-- The idle timer of a VD whose gang is back on its dies goes on with what was left of it (R71). -/
def resumeIdle (s : State) (vd : Nat) : State :=
  match (s.vd vd).idleSince, (s.vd vd).params.idleTimeout with
  | some t, some n =>
    let t' := t + (s.clk - (s.member ⟨vd, 0⟩).offAt)
    (s.modVd vd fun v => { v with idleSince := some t' }).due (max s.clk (t' + n)) (.event .idleTimeout { a := vd, b := t' })
  | _, _ => noteIdle s vd

/-- The vote is over: the next quantum starts (R63), and what waited for the dies goes on.  After a restricted vote no new quantum starts: the one that
runs goes on (log 47). -/
def voteDone (s : State) : State :=
  let v := s.gc.vote
  let s : State := { s with gc := { s.gc with vote := { Vote.none with v := v.v } } }
  let s := v.leaving.foldl (fun s n =>
    let s := s.modVd n fun x => { x with waitSince := s.clk, refusals := 0, overflows := 0 }
    match (s.vd n).state with
    | .collapsing => s.draw.after s.delay .collapseWork { a := n }
    | .killed => s.after 1 .abortedWrite { a := n }
    | _ => s) s
  let s := v.coming.foldl (fun s n => resumeIdle (if (s.vd n).late then s else wakeDone s n) n) s
  let q := quantumOf s v.slot
  let s := if v.restricted then s
    else { s with gc := { s.gc with cur := v.slot, quantumEnd := s.clk + q } }.after q .slotQuantumEnd {}
  gateDies s

/-- A vote begins: gangs `leaving` go off, `coming` come on, and cells change with its RELIGHT; with none to go off it starts at RELIGHT, and with
neither it is over. -/
def beginVote (s : State) (leaving coming : List Nat) (slot : Nat) (kill restricted : Bool) (changes : List (Nat × Cell × Cell)) : State :=
  let v : Vote := { Vote.none with leaving := leaving, coming := coming, slot := slot, kill := kill, restricted := restricted, changes := changes }
  if (votersOf s leaving).isEmpty then
    let n := (s.gc.voteNo + 1) % 2 ^ 32
    let s : State := { s with gc := { s.gc with voteNo := n, vote := { v with v := n } } }
    if coming.isEmpty then voteDone (makeChanges s) else sendRelight s
  else sendSnuff s v

/-- A change of slots and quanta that was asked for is taken over at the slot boundary (R55). -/
def takePending (s : State) : State := match s.gc.pending with
  | some (n, q) => { s with gc := { s.gc with slots := n, quanta := q, pending := none } }
  | none => s

/-- SLOT_QUANTUM_END (R55): backfill, skip and vote.  The gangs of the slot that ended leave its FILL cells at the switch (R55, R63); the slot after the
last is slot 0.  A quantum that ends while a restricted vote runs is looked at again every 1 µs until the vote is over (log 46). -/
def execSlotQuantumEnd (s : State) : Outcome :=
  let g := s.gc
  if !g.running ∨ s.clk < g.quantumEnd then .fault .noSuchEvent
  else if g.vote.st ≠ .idle then .next (s.after Config.us .slotQuantumEnd {})
  else
    let s := takePending s
    let t := resetCells s g.cur
    let on := (s.vds.map (·.1)).filter fun n => onDies s n
    match findSlot t s.gc.slots (if g.cur + 1 < s.gc.slots then g.cur + 1 else 0) with
    | none => .next (beginVote s on [] (if g.cur < s.gc.slots then g.cur else 0) false false (cellChanges s t))
    | some (i, t) =>
      let here := slotVds t i
      .next (beginVote s (on.filter fun n => !here.contains n) (here.filter fun n => canRun t n && !onDies t n) i false false (cellChanges s t))

/-- The subject's member takes part in the vote under way as one that leaves. -/
def votes (s : State) (m : MemberId) : Bool :=
  decide (s.gc.vote.v = s.subject.a) && s.gc.vote.leaving.contains m.vd && decide ((s.die (s.member m).die).ctx = some m)

/-- The core of a member's die that holds a no-switch window open (R60). -/
def openWindow (s : State) (m : MemberId) : Option Nat :=
  (s.cores.find? fun e => decide (e.1 / 512 = (s.member m).die) && e.2.nsw.isSome).map fun e => e.1 % 512

/-- SNUFF (R60): the subject's member refuses vote `a`, or stops injecting; members of a killed VD do not refuse (R396).  An nsw.on that issues in the
clk of its arrival still opens a window, so the test is made when that clk is over (`b` = 1; R218). -/
def execSnuff (s : State) : Outcome :=
  let m := s.subject.m
  if !votes s m ∨ s.subject.b = 0 ∧ s.gc.vote.st ≠ .snuffing then .fault .noSuchEvent
  else if s.subject.b = 0 then .next (s.after 1 .snuff { s.subject with b := 1 })
  else
    let s := s.modDie (s.member m).die fun d => { d with snuffing := true }
    if s.gc.vote.st ≠ .snuffing then .next s else
    match (if (s.vd m.vd).state = .killed then none else openWindow s m) with
    | some i => .next (s.draw.after (chimney s) .refuse { m := m, a := s.gc.vote.v, b := i })
    | none =>
      let out := s.accesses.filter fun a => decide (a.ctx = m) && outsideBound s a && !a.kind.write && !a.performed
      .next (s.modMember m fun c => { c with snuffed := true, outside := out })

/-- COUNT_LATCH (R62): at T0 + 850·b every party latches its counters and sends COUNT; a failed die is silent. -/
def execCountLatch (s : State) : Outcome :=
  let o := s.subject
  let v := s.gc.vote
  if v.v ≠ o.a ∨ v.round ≠ o.b ∨ !(v.st = .snuffing ∨ v.st = .summing) ∨ s.clk < v.sentAt + 1700 + 850 * o.b then .fault .noSuchEvent
  else
    let s := (votersOf s v.leaving).foldl (fun s e =>
      if (s.die e.2).failed then s
      else
        let c := s.member e.1
        (s.modMember e.1 fun x => { x with latched := (c.sent, c.received) }).draw.after (chimney s) .count
          { a := v.v, b := o.b, c := e.2, l := [(s.vd e.1.vd).gang, c.sent, c.received] }) s
    let gs := v.leaving.map fun n => (s.vd n).gang
    let s := (s.switchList.filter fun w => !(s.switch w).down).foldl (fun s w =>
      let x := s.switch w
      s.draw.after (chimney s) .count
        { a := v.v, b := o.b, c := 1000 + w, l := gs.flatMap fun g => [g, Tab.get 0 x.sent g, Tab.get 0 x.received g] }) s
    .next (s.after Config.us .sumreq { a := v.v, b := o.b + 1 })

/-- Counter rows of a COUNT. -/
def countRows (p : Nat) : List Nat → List (Nat × Nat × Nat × Nat)
  | g :: a :: b :: t => (p, g, a, b) :: countRows p t
  | _ => []

/-- Two sums are equal modulo 2^64. -/
def sumsEqual (a b : List Nat) : Bool := a.sum % 2 ^ 64 == b.sum % 2 ^ 64

/-- A gang's sums are known and equal modulo 2^64 (R62). -/
def gangEqual (s : State) (vd : Nat) : Bool :=
  let v := s.gc.vote
  let g := (s.vd vd).gang
  let rows := v.counts.filter fun r => decide (r.2.1 = g)
  let owed := ((votersOf s [vd]).map (·.2)) ++ (s.switchList.filter fun w => !(s.switch w).down).map (1000 + ·)
  owed.all (fun p => rows.any fun r => decide (r.1 = p)) && sumsEqual (rows.map fun r => r.2.2.1) (rows.map fun r => r.2.2.2)

/-- COUNT (R63): the counters of party `c` in round `b`; equal sums of every gang bring RELIGHT. -/
def execCount (s : State) : Outcome :=
  let o := s.subject
  let v := s.gc.vote
  if v.v ≠ o.a ∨ v.round ≠ o.b ∨ !(v.st = .snuffing ∨ v.st = .summing) ∨ v.counts.any (fun r => decide (r.1 = o.c)) then .fault .noSuchEvent
  else
    let s := setVote s fun v => { v with counts := v.counts ++ countRows o.c o.l }
    .next (if v.leaving.all (gangEqual s) then sendRelight s else s)

/-- SUMREQ (R63): another round while some sums are unequal. -/
def execSumreq (s : State) : Outcome :=
  let o := s.subject
  let v := s.gc.vote
  if v.v ≠ o.a ∨ v.round + 1 ≠ o.b ∨ !(v.st = .snuffing ∨ v.st = .summing) then .fault .noSuchEvent
  else .next ((setVote s fun v => { v with st := .summing, round := o.b, counts := [] }).after 0 .countLatch { a := o.a, b := o.b })

/-- ABORT goes to the parties (R63). -/
def sendAbort (s : State) : State :=
  let v := s.gc.vote
  let s := setVote s fun v => { v with st := .backoff }
  let s := (votersOf s v.leaving).foldl (fun s e => s.draw.after (chimney s) .abort { m := e.1, a := v.v }) s
  s.after (50 * Config.us) .backoffEnd { a := v.v }

/-- REFUSE (R63, R425): core `b` of the subject's member holds a window open; every fourth refusal in a row is reported. -/
def execRefuse (s : State) : Outcome :=
  let o := s.subject
  if !votes s o.m ∨ s.gc.vote.st ≠ .snuffing then .fault .noSuchEvent
  else
    let n := (s.vd o.m.vd).refusals + 1
    let s := s.modVd o.m.vd fun v => { v with refusals := n }
    let s := if n % 4 = 0 then gangEvent s 0x02 o.m.vd o.m.member o.b [n, ((s.core ⟨(s.member o.m).die, o.b⟩).nsw).getD 0, o.a] else s
    .next (sendAbort s)

/-- DRAIN_DEADLINE (R62, R63): the gangs still unequal are captured. -/
def execDrainDeadline (s : State) : Outcome :=
  let v := s.gc.vote
  if v.v ≠ s.subject.a ∨ !(v.st = .snuffing ∨ v.st = .summing) ∨ s.clk < v.sentAt + v.deadline then .fault .noSuchEvent
  else
    let hold := v.leaving.filter fun n => !gangEqual s n
    let s := setVote s fun v => { v with st := .holding, hold := hold, reported := [] }
    let t := chimney s
    let s := (parties s).foldl (fun s p => s.after t .hold { a := v.v, b := p }) s.draw
    .next (watch s)

/-- Packets in the network save areas of a VD's members. -/
def savedCount (s : State) (vd : Nat) : Nat := ((List.range (s.vd vd).params.n).map fun i => (s.member ⟨vd, i⟩).netSave.length).sum
/-- What HELD says (R59, R426): for each gang named, its number and how many of its packets were captured; then, for each queue found full, its
destination, its source, and how many of its packets are left. -/
def heldContent (s t : State) (hold : List Nat) (left : List (MemberId × Pkt)) : List Nat :=
  (hold.flatMap fun n => [(s.vd n).gang, savedCount t n - savedCount s n])
    ++ ((left.map fun e => (e.1, captureSource e.2)).eraseDups.flatMap fun q =>
      [memberKey q.1, q.2, left.countP fun e => decide (e.1 = q.1 ∧ captureSource e.2 = q.2)])

/-- HOLD (R64): party `b` captures the packets it holds of the gangs named, and sends HELD (R59, R426). -/
def execHold (s : State) : Outcome :=
  let o := s.subject
  let v := s.gc.vote
  let send (m : MemberId) (r : List (MemberId × Pkt) × State) : State :=
    r.2.draw.after (chimney r.2) .held { m := m, a := v.v, b := o.b, c := r.1.length, l := heldContent s r.2 v.hold r.1 }
  if v.v ≠ o.a ∨ v.st ≠ .holding ∨ !(parties s).contains o.b then .fault .noSuchEvent
  else if o.b < 1000 then
    if (s.die o.b).failed then .fault .noSuchEvent
    else match (s.die o.b).ctx with
      | some m => .next (send m (if v.hold.contains m.vd then captureNi s m false else ([], s)))
      | none => .fault .noSuchEvent
  else
    .next (send ⟨0, 0⟩ (captureDue s (some (o.b - 1000)) fun m _ i w =>
      decide ((i = .switchPacketForward ∨ i = .sredPacket) ∧ w = o.b - 1000) && v.hold.contains m.vd))

/-- Queues found full are reported (R424, R426): one KIND 0x04 record for each (source, destination). -/
def overflowRecords (s : State) : List Nat → State
  | k :: i :: left :: t => overflowRecords (gangEvent s 0x04 (k / 256) (k % 256) 0xFFFF [i, left, (s.vd (k / 256)).overflows + 1]) t
  | _ => s

/-- Every core of a die stops (R396). -/
def stopCores (s : State) (d : Nat) : State :=
  { s with cores := s.cores.map fun (x : Nat × Core) => if x.1 / 512 = d then (x.1, stopCore x.2) else x }
/-- A context kill asked for by the gang controller or a management request (R396, R426, R470). -/
def killVd (s : State) (vd : Nat) : State :=
  if (s.vd vd).state = .killed then s
  else
    let s := (votersOf s [vd]).foldl (fun s e => stopCores s e.2) s
    (s.modVd vd fun v => { v with state := .killed }).after 1 .abortedWrite { a := vd }

/-- Every capture point has reported: relight, or, with packets left, ABORT and another vote (R63, R426). -/
def heldAll (s : State) : State :=
  let v := s.gc.vote
  if v.overflow then
    let s := v.hold.foldl (fun s n =>
      let k := (s.vd n).overflows + 1
      let s := s.modVd n fun x => { x with overflows := k }
      if 3 ≤ k then killVd s n else s) s
    sendAbort s
  else sendRelight s

/-- HELD (R63). -/
def execHeld (s : State) : Outcome :=
  let o := s.subject
  let v := s.gc.vote
  if v.v ≠ o.a ∨ v.st ≠ .holding ∨ v.reported.contains o.b then .fault .noSuchEvent
  else
    let s := setVote s fun v => { v with reported := v.reported ++ [o.b], overflow := v.overflow || decide (o.c ≠ 0) }
    let s := overflowRecords s (o.l.drop (2 * v.hold.length))
    .next (if (parties s).all fun p => s.gc.vote.reported.contains p then heldAll s else s)

/-- ABORT (R63, R426): the subject's member injects again; what was captured is delivered. -/
def execAbort (s : State) : Outcome :=
  let m := s.subject.m
  if !votes s m ∨ s.gc.vote.st ≠ .backoff then .fault .noSuchEvent
  else .next (wakeEngines (deliverNet (s.modMember m fun c => { c with snuffed := false, outside := [] }) m) m)

/-- BACKOFF_END (R63): SNUFF again with the next vote number. -/
def execBackoffEnd (s : State) : Outcome :=
  let v := s.gc.vote
  if v.v ≠ s.subject.a ∨ v.st ≠ .backoff then .fault .noSuchEvent
  else if (votersOf s v.leaving).isEmpty then .next (if v.coming.isEmpty then voteDone s else sendRelight s)
  else .next (sendSnuff s v)

/-! ### Relight (R68) -/

/-- The member that comes to a die. -/
def incoming (s : State) (d : Nat) : Option MemberId :=
  s.gc.vote.coming.findSome? fun n => ((List.range (s.vd n).params.n).find? fun i => decide ((s.vd n).dies.getD i 256 = d)).map fun i => ⟨n, i⟩

/-- The map changes (R58, R430): what the old die still holds is spilled, both stacks are in self-refresh while the row's steering switches connect them
to the spare (R14), and every VD with a home member on the die is told. -/
def takePosition (s : State) (d : Nat) : State :=
  match (s.die d).newPosition with
  | none => s
  | some p =>
    let old := positionOf s d
    let s := if (s.die d).failed then s else spillDie s d fun _ => true
    let s := s.modDie d fun t => { t with position := some p, newPosition := none, failed := false, gran := [], tlb := [], wcache := [],
                                          refresh := [(0, true), (1, true)] }
    let s : State := { s with platform := { s.platform with steer := Tab.put 0 s.platform.steer (d / 16) (1 + old % 17) } }
    (s.members.filter fun e => e.2.live && decide (e.2.die = d)).foldl (fun s e =>
      gangEvent s 0x06 (e.1 / 256) (e.1 % 256) 0xFFFF [d, old * 256 + p, e.2.lost.length]) s

/-- Clk of the save and load of a die (R68): the bytes moved at 6.55 TB/s, 7,705 of them in a clk, more with HBM load by up to a tenth (log 45); and of
powering it up (R377). -/
def relightClk (s : State) (d : Nat) (bytes : Nat) : Nat :=
  let n := bytes / 7705
  n + Config.freeDelay s.fresh % (n / 10 + 1) + (if (s.die d).power = .active then 0 else if (s.die d).vaultPower = .off then 300 * Config.us else 20 * Config.us)

/-- Bytes the incoming context of a die takes to load. -/
def incomingBytes (s : State) (d : Nat) : Nat := match incoming s d with
  | some m => moveBytes (s.member m)
  | none => 0

/-- The incoming context is loaded (R68), its cores stopped if it was killed meanwhile; a class-2 wake starts with the init launch (R77). -/
def bringIn (s : State) (d : Nat) : State :=
  match incoming s d with
  | none => s.modDie d fun t => { t with stopped := false }
  | some m =>
    let s := loadCtx s m
    let s := if (s.vd m.vd).state = .killed then stopCores s d else s
    match (s.vd m.vd).params.initLaunch with
    | some va => if (s.vd m.vd).state = .waking ∧ (s.vd m.vd).params.wakeClass = 2 ∧ !(s.vd m.vd).started then s.after 0 .launchPacket { m := m, a := 16, c := va } else s
    | none => s

/-- RELIGHT (R68): die `a` stops (`b` = 0), saves its context once what must end has ended (1), and loads the incoming one (2). -/
def execRelight (s : State) : Outcome :=
  let o := s.subject
  let v := s.gc.vote
  if v.v ≠ o.c ∨ v.st ≠ .relighting ∨ !v.dies.contains o.a ∨ (s.die o.a).failed ∧ (s.die o.a).newPosition.isNone then .fault .noSuchEvent
  else match o.b, (s.die o.a).ctx with
    | 0, _ => .next ((s.modDie o.a fun t => { t with stopped := true }).after 1 .relight { o with b := 1 })
    | 1, some m =>
      if stopBusy s o.a m then .next (s.after 1 .relight o)
      else
        let s := saveCtx s o.a m
        .next (s.draw.after (relightClk s o.a (moveBytes (s.member m) + incomingBytes s o.a)) .relight { o with b := 2 })
    | 1, none => .next (s.draw.after (relightClk s o.a (incomingBytes s o.a)) .relight { o with b := 2 })
    | _, _ =>
      let s := bringIn (takePosition s o.a) o.a
      .next (s.draw.after (chimney s) .lit { a := o.a, b := o.c })

/-- LIT (R63): the vote ends with the last die. -/
def execLit (s : State) : Outcome :=
  let o := s.subject
  let v := s.gc.vote
  if v.v ≠ o.b ∨ v.st ≠ .relighting ∨ v.reported.contains o.a then .fault .noSuchEvent
  else
    let s := setVote s fun v => { v with reported := v.reported ++ [o.a] }
    .next (if v.dies.all fun d => s.gc.vote.reported.contains d then voteDone s else s)

/-! ### Failed parties (R427, R428, R430) -/

/-- The dirty granules of a die that no longer answers are lost (R428, R430): KIND 0x07 records name them. -/
def loseGranules (s : State) (d : Nat) : State :=
  let dirty := (s.die d).gran.filter fun e => decide (e.2.res = 2)
  let s := dirty.foldl (fun s e => match memberAt s d e.2.owner with
    | some o => gangEvent (s.modMember o fun c => { c with lost := Tab.put false c.lost e.1 true }) 0x07 o.vd o.member 0xFFFF [e.1, 1, d]
    | none => s) s
  s.modDie d fun t => { t with gran := [] }

/-- A compute die is declared failed: what ran there is killed, and the vote goes on without it (R427). -/
def dieFailed (s : State) (d : Nat) : State :=
  let vds := (s.members.filter fun e => e.2.live && decide (e.2.die = d)).map (·.1 / 256)
  let s := vds.eraseDups.foldl (fun s n => gangEvent s 0x05 n 0xFF 0xFFFF [d, positionOf s d, s.gc.vote.v]) s
  let was := (s.die d).ctx
  let s := loseGranules s d
  let s := { s with cores := s.cores.filter fun (e : Nat × Core) => decide (e.1 / 512 ≠ d) }
  let s := s.modDie d fun t => { t with failed := true, ctx := none, queues := [], walks := [], seqs := [], merges := [], engines := [], power := .off,
                                        vaultPower := .off }
  match was with
  | some m =>
    let s := { s with accesses := s.accesses.filter fun (a : Access) => decide (a.ctx ≠ m) }
    killVd s m.vd
  | none => s

/-- VOTE_PARTY_TIMEOUT (R427): parties that have owed vote `a` a message since clk `b` are declared failed. -/
def execVotePartyTimeout (s : State) : Outcome :=
  let o := s.subject
  let v := s.gc.vote
  if v.v ≠ o.a ∨ v.askedAt ≠ o.b ∨ s.clk < o.b + 100 * Config.us then .fault .noSuchEvent
  else
    let missing := match v.st with
      | .snuffing | .summing => (parties s).filter fun p => !v.counts.any fun r => decide (r.1 = p)
      | .holding => (parties s).filter fun p => !v.reported.contains p
      | .relighting => v.dies.filter fun d => !v.reported.contains d
      | _ => []
    match missing.find? fun p => decide (1000 ≤ p) with
    | some w => .next (sendAbort (s.after 0 .switchHeartbeatLoss { a := w - 1000, b := 3 }))
    | none =>
      if missing.isEmpty then .fault .noSuchEvent
      else
        let s := missing.foldl (fun s d => dieFailed (setVote s fun v => { v with failed := v.failed ++ [d] }) d) s
        let v := s.gc.vote
        .next (match v.st with
          | .holding => if (parties s).all fun p => v.reported.contains p then heldAll s else s
          | .relighting => if v.dies.all fun d => v.reported.contains d || v.failed.contains d then voteDone s else s
          | _ => s)

/-! ### Kills (R396), collapse and wake (R75 to R79, R431) -/

/-- Take one gang off its dies by a vote restricted to it; while another vote runs, one that brings it on too, the event `retry` asks again. -/
def takeOff (s : State) (vd : Nat) (kill : Bool) (retry : Instr) : State :=
  let v := s.gc.vote
  if v.st = .idle then beginVote s [vd] [] s.gc.cur kill true []
  else if v.leaving.contains vd then s
  else s.after Config.us retry { a := vd, b := 1 }

/-- ABORTED_WRITE (R396, steps 3 to 6): once the gang is off its dies its work is discarded, ABORTED goes to its signal addresses, and its cells
become EMPTY. -/
def execAbortedWrite (s : State) : Outcome :=
  let n := s.subject.a
  if !(s.vd n).live ∨ (s.vd n).state ≠ .killed then .fault .noSuchEvent
  else if bound s n then .next (takeOff s n true .abortedWrite)
  else
    let s := abandon s n
    let s : State := { s with gc := { s.gc with backfill := s.gc.backfill.filter fun x => decide (x ≠ n),
                                                cells := s.gc.cells.filter fun e => match e.2 with
                                                  | .home v => decide (v ≠ n) | .idle v => decide (v ≠ n) | .fill v => decide (v ≠ n) | .empty => false } }
    .next (gateDies s)

/-- A VD begins to collapse (R75). -/
def collapse (s : State) (vd : Nat) : State :=
  let s := homeCells (s.modVd vd fun v => { v with state := .collapsing, struck := false, idleSince := none }) vd (.idle vd)
  if bound s vd then takeOff s vd false .collapseRequest else s.draw.after s.delay .collapseWork { a := vd }

/-- COLLAPSE_REQUEST (R75): VD `a`, asked for by the host (`b` = 0) or because every member is dimmed, or asked again (`b` = 1) while a vote ran. -/
def execCollapseRequest (s : State) : Outcome :=
  let n := s.subject.a
  let v := s.vd n
  if !v.live then .fault .noSuchEvent
  else match v.state with
    | .running => if s.subject.b = 0 ∨ allDimmed s n then .next (collapse s n) else .fault .noSuchEvent
    | .collapsing =>
      if bound s n then .next (takeOff s n false .collapseRequest)
      else if s.subject.b = 1 then .next (s.draw.after s.delay .collapseWork { a := n }) else .fault .noSuchEvent
    | _ => .fault .noSuchEvent

/-- IDLE_TIMEOUT (R75): VD `a` has been idle since clk `b`. -/
def execIdleTimeout (s : State) : Outcome :=
  let n := s.subject.a
  let v := s.vd n
  match v.params.idleTimeout with
  | some t =>
    if v.live ∧ v.state = .running ∧ onDies s n ∧ v.idleSince = some s.subject.b ∧ s.subject.b + t ≤ s.clk ∧ (List.range v.params.n).all fun i => memberIdle s ⟨n, i⟩ then
      .next (collapse s n)
    else .fault .noSuchEvent
  | none => .fault .noSuchEvent

/-- A page lies in a VD's keep set (R77), or is its queue table's or its strike page. -/
def kept (v : VD) (va : Nat) : Bool :=
  v.params.keep.any (fun r => decide (r.1 ≤ va ∧ va < r.1 + r.2)) || decide (v.queueVa ≤ va ∧ va < v.queueVa + 4096 * v.params.n)
    || decide (va / 4096 = v.strikeVa / 4096)

/-- Pages of HBM and the tier outside the keep set are released (R77). -/
def releasePages (s : State) (vd : Nat) : State :=
  let s := s.modVd vd fun v => { v with pt := v.pt.filter fun e => decide (ptType e.2 ≠ 1 ∨ 2 ≤ ptTgt e.2) || kept v (leafVa e.1) }
  dropTlb s vd 0 (2 ^ 52) |>.modVd vd fun x => { x with memUsed := countedBytes x }

/-- The memory wick repacks the keep-set pages of a VD onto the fewest stacks (R77): on each die those of stack 1 go to stack 0 while it has room (log 55). -/
def repack (s : State) (vd : Nat) : State :=
  (s.vd vd).pt.foldl (fun s e =>
    let m : MemberId := ⟨vd, ptMember e.2⟩
    let d := (s.member m).die
    let n := leafBytes (e.1 / 2 ^ 40)
    if ptType e.2 = 1 ∧ ptTgt e.2 = 0 ∧ stackIn (ptPa e.2) = 1 then
      match placeIn (usedSpans s) (fun a => frameBad s d a n) n (hbmKey d 0) (hbmKey d (48 * 2 ^ 30)) (4096 * (s.die d).offline.length) with
      | some a => movePage s m (hbmKey d (ptPa e.2)) (hbmKey d a) n
      | none => s
    else s) s

/-- Every page of a stack of a die is free or belongs to a VD in pilot state (R77). -/
def stackIdle (s : State) (d st : Nat) : Bool :=
  s.vds.all fun e => decide (e.2.state = .pilot) || e.2.pt.all fun l =>
    !(decide (ptType l.2 = 1 ∧ ptTgt l.2 = 0 ∧ (s.member ⟨e.1, ptMember l.2⟩).die = d ∧ stackIn (ptPa l.2) = st))
/-- The idle stacks of the dies of a VD in pilot state enter self-refresh, in the classes that ask for it (R77). -/
def restStacks (s : State) (vd : Nat) : State :=
  if (s.vd vd).params.wakeClass = 0 then s
  else (s.vd vd).dies.foldl (fun s d => [0, 1].foldl (fun s st =>
    if stackIdle s d st then s.modDie d fun t => { t with refresh := Tab.put false t.refresh st true } else s) s) s

/-- Keep-class work of a collapse (R77, R78). -/
def classWork (s : State) (vd : Nat) : State :=
  let v := s.vd vd
  let ms := (List.range v.params.n).map fun i => (⟨vd, i⟩ : MemberId)
  match v.params.wakeClass with
  | 0 => s
  | 1 => ms.foldl (fun s m => spillDie s (s.member m).die fun o => decide (o = m)) s
  | _ =>
    let s := repack (releasePages (abandon s vd) vd) vd
    ms.foldl (fun s m => (dropGranules s m).modMember m fun c => { c with saved := [], lost := [], cores := [] }) s

/-- The bound of a wake (R77). -/
def wakeBound (c : Nat) : Nat := match c with | 0 => 50 * Config.us | 1 => 1000 * Config.us | _ => 20000 * Config.us

/-- The gangs a wake displaces in the current slot (R79, R431), or none when it finds no cells. -/
def displaced (s : State) (vd : Nat) : Option (List Nat) :=
  let v := s.vd vd
  let one (d : Nat) : Option (List Nat) :=
    match cellOf s s.gc.cur d with
    | .home g =>
      let p := (s.vd g).params.priority
      if p < v.params.priority ∨ (v.late ∧ p = v.params.priority) then some [g] else none
    | _ => some (match (s.die d).ctx with | some m => [m.vd] | none => [])
  (v.dies.foldl (fun (r : Option (List Nat)) d => r.bind fun l => (one d).map fun k => l ++ k) (some [])).map (·.eraseDups)

/-- The cells of a waking VD in the current slot are to become its own (R79). -/
def takeCells (s : State) (vd : Nat) : List (Nat × Cell × Cell) := cellChanges s ((s.vd vd).dies.foldl (fun s d => setCell s s.gc.cur d (.fill vd)) s)
/-- What holds a wake of a VD that has found its cells is noted (R424). -/
def notePower (s : State) (vd : Nat) : State :=
  s.modVd vd fun v => { v with lateWhy := v.lateWhy ||| (if v.dies.any fun d => decide ((s.die d).vaultPower = .off) then 2 else 0) |||
    (if v.params.wakeClass = 2 ∧ v.dies.any fun d => !(s.die d).refresh.isEmpty then 4 else 0) }

/-- A restricted vote that has not come to its relight takes on a waking VD that displaces no gang. -/
def joinsVote (s : State) (vd : Nat) : Bool :=
  s.gc.vote.restricted && (decide (s.gc.vote.st = .snuffing) || decide (s.gc.vote.st = .summing) || decide (s.gc.vote.st = .holding) || decide (s.gc.vote.st = .backoff))
    && decide (displaced s vd = some []) && s.gc.vote.coming.all fun n => (s.vd n).dies.all fun d => !(s.vd vd).dies.contains d

/-- A waking VD looks for cells (R79); it tries again while a vote runs or there are none. -/
def tryWake (s : State) (vd : Nat) : State :=
  let retry (s : State) (why : Nat) : State :=
    (s.modVd vd fun v => { v with lateWhy := v.lateWhy ||| why }).after Config.us .strike { a := vd }
  if !canRun s vd then retry s 8
  else if joinsVote s vd then setVote (notePower s vd) fun v => { v with coming := v.coming ++ [vd], changes := v.changes ++ takeCells s vd }
  else if s.gc.vote.st ≠ .idle then retry s 0
  else match displaced s vd with
    | none => retry s 1
    | some l => beginVote (notePower s vd) l [vd] s.gc.cur false true (takeCells s vd)

/-- A wake begins (R75, R77). -/
def beginWake (s : State) (vd : Nat) : State :=
  let s := s.modVd vd fun v => { v with state := .waking, struck := false, struckAt := s.clk, started := false, late := false, lateWhy := 0 }
  let s := (List.range (s.vd vd).params.n).foldl (fun s i => s.modMember ⟨vd, i⟩ fun c => { c with dimmed := false }) s
  tryWake (s.after (wakeBound (s.vd vd).params.wakeClass) .wakeLate { a := vd, b := s.clk }) vd

/-- COLLAPSE_WORK (R77, R78): the gang of VD `a` is off its dies; the VD enters PILOT, and a strike held until then takes effect (R76). -/
def execCollapseWork (s : State) : Outcome :=
  let n := s.subject.a
  if !(s.vd n).live ∨ (s.vd n).state ≠ .collapsing ∨ bound s n then .fault .noSuchEvent
  else
    let s := (classWork s n).modVd n fun v => { v with state := .pilot, started := false }
    let s := gateDies (restStacks s n)
    .next (if (s.vd n).struck then beginWake s n else s)

/-- STRIKE (R76, R79): a store to the strike page of VD `a` has been performed. -/
def execStrike (s : State) : Outcome :=
  let n := s.subject.a
  if !(s.vd n).live then .fault .noSuchEvent
  else if (s.vd n).movedTo.isSome then
    if stubLive (s.vd n) (s.vd n).strikeVa then .next (s.after 0 .stubForward { a := n, b := (s.vd n).strikeVa, c := 1 }) else .fault .noSuchEvent
  else .next (match (s.vd n).state with
    | .collapsing => s.modVd n fun v => { v with struck := true }
    | .pilot => beginWake s n
    | .waking => if onDies s n || (decide (s.gc.vote.st ≠ .idle) && s.gc.vote.coming.contains n) then s else tryWake s n
    | _ => s)

/-- WAKE_LATE (R431): the class bound of the wake of VD `a` struck at clk `b` has passed. -/
def execWakeLate (s : State) : Outcome :=
  let n := s.subject.a
  let v := s.vd n
  if v.live ∧ !v.started ∧ v.struckAt = s.subject.b ∧ !v.late then
    let s := s.modVd n fun v => { v with late := true }
    .next (if v.state = .waking then s.after 0 .strike { a := n } else s)
  else .fault .noSuchEvent

/-! ### Hang reports (R52, R434) -/

/-- What a core's bundle waits for (R424): 1 the word of a tagged access, 2 a barrier, 3 fpush, 4 fpop; with the address or FIFO number.  A tag of an
access of another kind is reported as a wait at its word (log 39). -/
def waitOf (s : State) (k : CoreId) : Nat × Nat :=
  let f := { s with focus := k }
  let ops := bundleOps (fetchBundle (s.core k)).toNat
  let tags := ops.flatMap fun o => [o.head.tc0.toNat, o.head.tc1.toNat, o.head.ta.toNat].filter (s.core k).tagBusy
  match s.accesses.find? fun a => decide (a.k = k) && tags.any fun t => decide (Tab.get 0 (s.core k).tags t = a.id + 1) with
  | some a => ((match a.kind with | .bar _ _ => 2 | _ => 1), eaAddr a.ea)
  | none =>
    match ops.find? fun o => o.fifo f with
    | some o => if o.word / 2 ^ 73 = 0x59 then (3, (q4Of o.word).d.ix) else (4, (q4Of o.word).a.ix % 4)
    | none => (1, 0)

/-- HANGT_EXPIRY (R52, R434): the subject core's wait has reached HANGT; one report a wait. -/
def execHangtExpiry (s : State) : Outcome :=
  let k := s.subject.k
  let c := s.core k
  let m := s.ctxD k
  if (s.ctx k).isSome ∧ (s.vd m.vd).params.hangt ≤ c.waited ∧ !c.hung ∧ c.waited ≠ 0 then
    let w := waitOf s k
    .next (gangEvent (s.modCore k fun c => { c with hung := true }) 0x01 m.vd m.member k.core [w.2, w.1 + c.pc * 65536, c.waitAt])
  else .fault .noSuchEvent

end Sys2Proof.Machine
end

