-- ==== Sys2Proof/Machine/Firmware.lean ====
section
/-!
DEFINITION. Firmware.lean: requests to the wicks: firmware calls (R209, R210, R405), virtual devices (R368, R470), vault images (R478),
schedule changes (R55), live migration and its stubs (R371, R372, R472), and the host's accesses (R352).
-/
namespace Sys2Proof.Machine

/-! ### Firmware calls (R209, R210) -/

/-- A core of a member context, on its die or saved. -/
def ctxCore (s : State) (m : MemberId) (k : CoreId) : Core :=
  if s.ctx k = some m then s.core k else Tab.get Core.reset (s.member m).cores k.core
/-- Change a core of a member context, on its die or saved. -/
def modCtxCore (s : State) (m : MemberId) (k : CoreId) (f : Core → Core) : State :=
  if s.ctx k = some m then s.modCore k f
  else s.modMember m fun c => { c with cores := Tab.put Core.reset c.cores k.core (f (Tab.get Core.reset c.cores k.core)) }

/-- First address and size of the 4 KiB pages of a range. -/
def rangePages (a n : Nat) : List Nat := (List.range (n / 4096)).map fun i => a + 4096 * i
/-- A page is mapped. -/
def isMapped (v : VD) (va : Nat) : Bool := (findLeaf v va).isSome

/-- The answer of a service: a refusal code (R405), a wait until accesses through the range are done (R95), or a value. -/
inductive SvcAnswer where
  | refuse (code : Nat) | wait (s : State) | value (s : State)

/-- Alignment and length of a range (R210). -/
def rangeBad (a n : Nat) : Bool := decide (a % 4096 ≠ 0) || decide (n % 4096 ≠ 0) || decide (2 ^ 30 < n) || decide (2 ^ 52 < a + n)

/-- MAP.  With no room on the home HBM, as frames that are offline or migrations may leave it, the model refuses with code 4 (log 57). -/
def svcMap (s : State) (m : MemberId) (a n : Nat) : SvcAnswer :=
  let v := s.vd m.vd
  if rangeBad a n then .refuse 3
  else if v.memUsed + n > v.params.memory * v.params.n then .refuse 4
  else if (rangePages a n).any (isMapped v) then .refuse 5
  else match backPages m (n / 4096) a s with
    | some s => .value (s.modVd m.vd fun v => { v with memUsed := v.memUsed + n })
    | none => .refuse 4

/-- Earlier invalidations of the VD are still under way, which a die applies first, or accesses through the range are (R95). -/
def notInvalid (s : State) (vd a n : Nat) : Bool := s.invals.any (fun i => decide (i.vd = vd)) || rangeBusy s vd a (a + n)

/-- UNMAP. -/
def svcUnmap (s : State) (m : MemberId) (a n : Nat) : SvcAnswer :=
  let v := s.vd m.vd
  if rangeBad a n then .refuse 3
  else if !(rangePages a n).all (isMapped v) then .refuse 5
  else
    let s := dropTlb s m.vd a (a + n)
    if notInvalid s m.vd a n then .wait s
    else .value (s.modVd m.vd fun v => { (rangePages a n).foldl unmapPage v with memUsed := v.memUsed - 4096 * (rangePages a n).countP (counted v) })

/-- W of the leaf of one page is set; a COW page is copied to a new frame first, and none is free when the answer is none (R210, R462). -/
def protectPage (m : MemberId) (w : Bool) (s : State) (va : Nat) : Option State :=
  match findLeaf (s.vd m.vd) va with
  | none => some s
  | some (lv, e) =>
    if bitN e.toNat 3 ∧ w ∧ ptTgt e = 0 then
      let s := s.modVd m.vd fun v => lonePage v va
      let e := Tab.get 0 (s.vd m.vd).pt (ptKey 4 va)
      let o : MemberId := ⟨m.vd, ptMember e⟩
      let d := (s.member o).die
      (frameFor s d 4096).map fun a =>
        let s := (drainPlace s o (hbmKey d (ptPa e)) 4096).copyAll (hbmKey d (ptPa e)) (hbmKey d a) 4096
        (useStack s d a).modVd m.vd fun v => { v with pt := Tab.put 0 v.pt (ptKey 4 va) (leafAt ((e &&& ~~~ 0x8) ||| 4) (hbmKey d a)) }
    else
      some (s.modVd m.vd fun v =>
        let v := if lv = 4 then splitLeaf v va else v
        { v with pt := Tab.put 0 v.pt (ptKey lv va) ((Tab.get 0 v.pt (ptKey lv va) &&& ~~~ 0xC) ||| BitVec.ofNat 64 (4 * b2n w)) })

/-- PROTECT; with no frame for the copy of a COW page the model refuses with code 4, as MAP does (log 57). -/
def svcProtect (s : State) (m : MemberId) (a n : Nat) (w : Bool) : SvcAnswer :=
  let v := s.vd m.vd
  if rangeBad a n then .refuse 3
  else if !(rangePages a n).all (isMapped v) then .refuse 5
  else
    let s := dropTlb s m.vd a (a + n)
    if notInvalid s m.vd a n then .wait s
    else match (rangePages a n).foldlM (protectPage m w) s with
      | some s => .value s
      | none => .refuse 4

/-- The wick's answer to a call (R210, R405). -/
def svcAnswer (s : State) (m : MemberId) (k : CoreId) (r : Svc) : SvcAnswer :=
  match r.number with
  | 0x2000001 => svcMap s m r.x1.toNat r.x2.toNat
  | 0x2000002 => svcUnmap s m r.x1.toNat r.x2.toNat
  | 0x2000003 => svcProtect s m r.x1.toNat r.x2.toNat (r.x3.getLsbD 0)
  | 0x3000001 =>
    if r.tl = 0 then .refuse 2
    else .value (s.report { kind := 5, code := 1, vd := m.vd, member := m.member, core := k.core, clk := s.clk, args := [r.x1.toNat] })
  | _ => .refuse 1

/-- A value of a reply lands in a saved core; landVal writes it where the context is on its die. -/
def svcLand (s : State) (m : MemberId) (k : CoreId) (d : Dest) : State :=
  if s.ctx k = some m then landVal s k d (.s 0)
  else modCtxCore s m k fun c => match d with
    | .x n => c.writeX n 0
    | .ofS sl n => { c with ofS := Tab.put 0 c.ofS (16 * sl + n) 0 }
    | _ => c

/-- Message `seq` stands first in mailbox w of a wick that takes messages (R367, R376). -/
def atHead (s : State) (w seq : Nat) : Bool :=
  (s.wick w).pendingUpdate.isNone && (match s.box w with | (h :: _) :: _ => decide (h.toNat % 2 ^ 24 = seq) | _ => false)
/-- The mailbox holds message `seq`. -/
def inBox (s : State) (w seq : Nat) : Bool := (s.box w).any fun l => decide ((l.headD 0).toNat % 2 ^ 24 = seq)
/-- The wick is done with the first message of its mailbox. -/
def takeHead (s : State) (w : Nat) : State := if 8 ≤ w then s else s.setBox w (s.box w).tail

/-- Entry g of a die's granule ownership table as software sees it (R72): OWNER in bits 15:8, RES in bits 1:0. -/
def granEntry (s : State) (d g : Nat) : Nat := let e := Tab.get Granule.none (s.die d).gran g; 256 * e.owner + e.res
/-- What a wick answers to a message of the host: the memory wick, the granule entry that payload dword 1 names, die in its upper half and entry in its
lower (R72, log 56). -/
def wickAnswer (s : State) (w : Nat) (msg : List Dword) : List Nat :=
  let a := (msg.getD 1 0).toNat
  if w = 2 ∧ a / 2 ^ 32 < 64 ∧ a % 2 ^ 32 < Config.granules then [granEntry s (a / 2 ^ 32) (a % 2 ^ 32)] else []

/-- SVC_REPLY (R209): the reply to the call of the subject's core, which is frozen in this clk too and issues its next bundle in the clk after, or, off its
die, in the first clk after its release; a refusal raises cause 0x13 at the boundary after the svc bundle (R391).  The wick takes the messages of its mailbox
in order (R367): `a` is the wick and `c` the message; `b` = 1 stands for a call that waits for room in the mailbox, and 2 for a message of the host. -/
def execSvcReply (s : State) : Outcome :=
  let o := s.subject
  let call := (ctxCore s o.m o.k).svc
  if o.b = 1 then
    match call with
    | some r => .next (sendSvc s o.k o.m r)
    | none => .fault .noSuchEvent
  else if o.a < 8 && !inBox s o.a o.c then .fault .noSuchEvent
  else if o.a < 8 && !atHead s o.a o.c then .next (s.after 1 .svcReply o)
  else if o.b = 2 then .next (reply (takeHead s o.a) 0x202 0 (o.a :: wickAnswer s o.a ((s.box o.a).headD [])))
  else match call with
  | none => if o.a < 8 then .next (takeHead s o.a) else .fault .noSuchEvent
  | some r =>
    let done (c : Core) : Core :=
      if s.ctx o.k = some o.m then { c.freeze s.clk with svc := none, next := schedOf s c }
      else { c with svc := none, next := (s.member o.m).offAt - c.frozen }
    match svcAnswer s o.m o.k r with
    | .wait s => .next (s.after 1 .svcReply o)
    | .value s => .next (svcLand (modCtxCore (takeHead s o.a) o.m o.k done) o.m o.k r.dest)
    | .refuse code =>
      .next (modCtxCore (takeHead s o.a) o.m o.k fun c =>
        { done c with trap := some ⟨.C, 0x13, r.pc, BitVec.ofNat 64 (r.number + code * 2 ^ 32), 0, s.clk⟩ })

/-! ### Creating a VD (R368, R54) -/

/-- Requests are served: booted, and neither frozen nor erased (R373, R474). -/
def accepts (s : State) : Bool := decide (s.platform.boot = 7) && !s.platform.frozen && !s.platform.stopped

/-- A parameter is out of range (R368). -/
def paramsBad (s : State) (p : VdParams) : Bool :=
  decide (p.n < 1 ∨ 256 < p.n) || decide (p.memory % 2 ^ 21 ≠ 0) || decide (p.winLo % 65536 ≠ 0 ∨ p.winHi % 65536 ≠ 0)
    || decide (p.winHi ≤ p.winLo ∨ Config.vaultBytes < p.winHi) || decide (2 < p.wakeClass) || decide (64 < p.keep.length)
    || p.keep.any (fun r => decide (r.1 % 65536 ≠ 0 ∨ r.2 % 65536 ≠ 0 ∨ r.2 = 0 ∨ 2 ^ 52 < r.1 + r.2))
    || (decide (p.wakeClass = 2) && p.initLaunch.isNone)
    || (match p.idleTimeout with | some t => decide (t < 1000 * Config.us ∨ Config.hour < t) | none => false)
    || decide (p.hangt < 1000 * Config.us ∨ 60 * Config.second < p.hangt) || decide (p.nswmax < 850 ∨ 850000 < p.nswmax)
    || decide (7 < p.priority) || decide (p.deadline < Config.us ∨ 1000 * Config.us < p.deadline)
    || decide (16 < p.signalPages.length) || p.signalPages.any (fun r => decide (r.1 % 4096 ≠ 0 ∨ r.2 % 4096 ≠ 0))
    || (match p.homeSlot with | some i => decide (s.gc.slots ≤ i ∨ 15 < i) | none => false)
    || (match p.homeDies with
      | some l => decide (l.length ≠ p.n) || decide (l.eraseDups.length ≠ l.length) || l.any (fun d => !s.dieList.contains d)
      | none => false)

/-- HBM of a die that the VDs on it have been promised, with save areas and front-end pages. -/
def promised (s : State) (d : Nat) : Nat :=
  ((s.members.filter fun e => e.2.live && decide (e.2.die = d)).map fun e => (s.vd (e.1 / 256)).params.memory + saveBytes + 8192).sum
/-- A die can be a home die of a new VD. -/
def dieFits (s : State) (p : VdParams) (d : Nat) : Bool :=
  (match p.homeSlot with | some i => decide (cellOf s i d = .empty) | none => true)
    && decide (promised s d + p.memory + saveBytes + 8192 + 4096 * (s.die d).offline.length ≤ hbmBytes)
    && decide ((s.members.countP fun e => e.2.live && decide (e.2.die = d)) < 255)

/-- The home dies of a new VD (R54): those named, or the lowest that fit, in one package while one has room for it, else across the domain. -/
def chooseDies (s : State) (p : VdParams) : Option (List Nat) :=
  let pick (ds : List Nat) : Option (List Nat) :=
    let l := (ds.filter (dieFits s p)).take p.n
    if l.length = p.n then some l else none
  match p.homeDies with
  | some l => if l.all (dieFits s p) then some l else none
  | none => match s.packages.findSome? fun q => pick ((List.range Config.dies).map (64 * q + ·)) with
    | some l => some l
    | none => pick s.dieList

/-- The lowest number from lo, n of them tried, for which a test fails. -/
def lowestNot (used : Nat → Bool) (lo n : Nat) : Option Nat := ((List.range n).map (lo + ·)).find? fun i => !used i

/-- The queue table pages and the strike page of a new VD (R358): one page on each member's HBM, and one that the GC serves. -/
def placePages (s : State) (vd : Nat) : State :=
  let v := s.vd vd
  let s := (List.range v.params.n).foldl (fun s i =>
    let m : MemberId := ⟨vd, i⟩
    let d := (s.member m).die
    match frameFor s d 4096, backPages m 1 (v.queueVa + 4096 * i) s with
    | some pa, some s => s.modVd vd fun x => { x with tables := x.tables ++ [hbmKey d pa] }
    | _, _ => s) s
  s.modVd vd fun x => mapPage x v.strikeVa (leafDword 0 (vd * 4096) true 3)

/-- A member context is created (R61, R72, R204). -/
def createMember (vd : Nat) (s : State) (e : Nat × Nat) : State :=
  let no := (lowestNot (fun i => s.members.any fun x => x.2.live && decide (x.2.die = e.2 ∧ x.2.localNo = i)) 0 255).getD 0
  s.modMember ⟨vd, e.1⟩ fun _ => { Member.blank with live := true, die := e.2, localNo := no }

/-- The counters of a gang number start from zero in every switch (R61, R336). -/
def zeroGang (s : State) (gang : Nat) : State :=
  { s with switches := s.switches.map fun (e : Nat × Switch) =>
      (e.1, { e.2 with drops := Tab.put 0 e.2.drops gang 0, sent := Tab.put 0 e.2.sent gang 0, received := Tab.put 0 e.2.received gang 0 }) }
/-- Create a VD on its dies. -/
def createVd (s : State) (p : VdParams) (vd gang vf : Nat) (dies : List Nat) : State :=
  let q := Config.freeValue s.fresh % 2 ^ 38 * 4096
  let st := 2 ^ 51 + Config.freeValue (s.fresh + 1) % 2 ^ 38 * 4096
  let b2 := Config.freeValue (s.fresh + 2) % 2 ^ 20 * 2 ^ 32
  let s := zeroGang s.draw.draw.draw gang
  let key := (s.vd vd).keyNo
  let s := s.modVd vd fun _ =>
    { VD.blank with live := true, params := p, gang := gang, vf := vf, dies := dies, queueVa := q, strikeVa := st, bar2 := b2, waitSince := s.clk, keyNo := key + 1 }
  let s := ((List.range p.n).zip dies).foldl (createMember vd) s
  let s := placePages s vd
  let s := homeCells s vd (.home vd)
  let s := if p.homeSlot.isNone ∨ p.backfill then { s with gc := { s.gc with backfill := s.gc.backfill ++ [vd] } } else s
  noteIdle (reply s 0 vd [gang, vf % 256, q, st]) vd

/-- VD_CREATE (R368): a VD with the subject's parameters, or a refusal; its VF is one of the package that holds member 0 (R352). -/
def execVdCreate (s : State) : Outcome :=
  match s.subject.vd with
  | none => .fault .noSuchEvent
  | some p =>
    if !accepts s ∨ s.platform.erased ∨ paramsBad s p then .next (reply s 1 0 [])
    else
      let vd := lowestNot (fun i => (s.vd i).live) 1 65535
      let gang := lowestNot (fun i => s.vds.any fun e => e.2.live && decide (e.2.gang = i)) 0 65536
      let vf (pkg : Nat) : Option Nat := lowestNot (fun i => s.vds.any fun e => e.2.live && decide (e.2.vf = i)) (256 * pkg + 1) 255
      match chooseDies s p, vd, gang with
      | some dies, some vd, some gang => match vf (pkgOf (dies.headD 0)) with
        | some vf => .next (createVd s p vd gang vf dies)
        | none => .next (reply s 1 0 [])
      | _, _, _ => .next (reply s 1 0 [])

/-! ### Reset and destroy (R470, R471) -/

/-- RPTR := WPTR and EN := 0 in every queue of a member; its run-time state is cleared (R470). -/
def resetMember (s : State) (m : MemberId) : State :=
  let c := s.member m
  let k := (s.vd m.vd).tables.getD m.member 0
  let pos : Tab Nat := (List.range 16).foldl (fun t q =>
    Tab.put 0 t q (s.load ((if q = 15 then (s.vd m.vd).tables.getD 0 0 else k) + 64 * q + 8) 8)) []
  let s := (List.range 16).foldl (fun s q =>
    (s.store (k + 64 * q) (toBytes 8 (s.load (k + 64 * q) 8 % 2 ^ 63))).store (k + 64 * q + 0x10) (toBytes 8 (s.load (k + 64 * q + 8) 8))) s
  let s := (dropGranules s m).zeroAll (saveKey m 0) (768 * 2 ^ 20)
  let s : State := { s with paused := Tab.put [] s.paused (memberKey m) [] }
  s.modMember m fun _ =>
    { Member.blank with live := c.live, die := c.die, localNo := c.localNo, parsed := pos, sent := c.sent, received := c.received }

/-- The kill and the abandonment that come first (R470): done, or asked for again later. -/
def tornDown (s : State) (vd : Nat) : Bool × State :=
  if (s.vd vd).state ≠ .killed then (false, killVd s vd)
  else if onDies s vd then (false, s)
  else (true, (abandon s vd))

/-- The run-time state of a torn-down VD is cleared, and its strike page reads RUNNING (R470); its home cells are its own again. -/
def clearVd (s : State) (vd : Nat) : State :=
  let v := s.vd vd
  let s := (List.range v.params.n).foldl (fun s i => resetMember s ⟨vd, i⟩) s
  let s := s.modVd vd fun v => { v with state := .running, struck := false, idleSince := none, started := true, late := false, refusals := 0, overflows := 0 }
  let s := match v.params.homeSlot with
    | some i => if v.dies.all fun d => decide (cellOf s i d = .empty) then homeCells s vd (.home vd) else s
    | none => s
  if v.params.homeSlot.isNone ∨ v.params.backfill then { s with gc := { s.gc with backfill := s.gc.backfill.filter (fun x => decide (x ≠ vd)) ++ [vd] } } else s

/-- VD_RESET (R470): VD `a`. -/
def execVdReset (s : State) : Outcome :=
  let n := s.subject.a
  if !(s.vd n).live then .fault .noSuchEvent
  else
    let r := tornDown s n
    if r.1 then .next (memoryEvent (clearVd r.2 n) 0x08 n 0xFF 0xFF [1, 0]) else .next (r.2.after Config.us .vdReset { a := n })

/-- A physical page of a leaf is mapped by another VD (R471). -/
def sharedPage (s : State) (vd : Nat) (e : Dword) : Bool :=
  s.vds.any fun x => decide (x.1 ≠ vd) && x.2.live && (leavesOf x.2).any fun l =>
    decide (ptTgt l.2 = ptTgt e ∧ ptPa l.2 = ptPa e) && decide (ptTgt e = 1 ∨ (s.member ⟨x.1, ptMember l.2⟩).die = (s.member ⟨vd, ptMember e⟩).die)

/-- Every page of a VD's own is zeroed and released (R470). -/
def zeroPages (s : State) (vd : Nat) : State :=
  (leavesOf (s.vd vd)).foldl (fun s l =>
    if 2 ≤ ptTgt l.2 ∨ sharedPage s vd l.2 then s
    else match leafKey s vd l.2 with
      | some k => (drainPlace s ⟨vd, 0⟩ k (leafBytes l.1)).zeroAll k (leafBytes l.1)
      | none => s) s

/-- VD_DESTROY (R470): as a reset, then the pages are zeroed and released, the key is erased, the VF is disabled and the cells are freed. -/
def execVdDestroy (s : State) : Outcome :=
  let n := s.subject.a
  if !(s.vd n).live then .fault .noSuchEvent
  else
    let r := tornDown s n
    if !r.1 then .next (r.2.after Config.us .vdDestroy { a := n })
    else
      let s := clearVd r.2 n
      let pages := ((leavesOf (s.vd n)).filter fun l => decide (ptTgt l.2 < 2) && !sharedPage s n l.2).length
      let s := zeroPages s n
      let s := homeCells s n .empty
      let s : State := { s with gc := { s.gc with backfill := s.gc.backfill.filter fun x => decide (x ≠ n) },
                                members := s.members.filter fun e => decide (e.1 / 256 ≠ n) }
      let s := { dropTlb s n 0 (2 ^ 52) with invals := s.invals.filter fun i => decide (i.vd ≠ n), migrations := s.migrations.filter fun g => decide (g.vd ≠ n) }
      let s := s.modVd n fun v => { VD.blank with keyNo := v.keyNo }
      .next (gateDies (memoryEvent s 0x08 n 0xFF 0xFF [2, pages]))

/-! ### Vault images (R478) -/

/-- Granules of n bytes from a V-address. -/
def rangeGrans (va n : Nat) : List Nat := (List.range ((va + n - 1) / Config.granule - va / Config.granule + 1)).map fun i => granOf (va / Config.granule * Config.granule + Config.granule * i)

/-- VAULTLOAD (R478): an image of `c` bytes at VA `v` goes to offset `b` of vault `a` of the subject's member. -/
def execVaultload (s : State) : Outcome :=
  let o := s.subject
  let m := o.m
  let v := s.vd m.vd
  let va := o.a * Config.vaultStride + o.b
  let d := (s.member m).die
  if !accepts s ∨ !(s.member m).live ∨ v.state = .collapsing ∨ v.state = .pilot ∨ o.b % 8 ≠ 0 ∨ o.c % 8 ≠ 0 ∨ o.c = 0 ∨ 255 < o.a ∨ !vaultOk s m va o.c then
    .next (reply s 1 m.vd [])
  else match vaRead s m o.v.toNat o.c with
    | .error _ => .next (reply s 1 m.vd [])
    | .ok (l, s) =>
      let gs := rangeGrans va o.c
      if (s.die d).ctx = some m then
        match gs.find? fun g => !resident s d m g with
        | some g => .next (waitGranule s d g m (.event .vaultload o))
        | none =>
          let s := putAt (drainRange s d m (vaultKey d va) o.c) m (.vault d va) l
          .next (reply (gs.foldl (fun s g => s.setGran d g { s.gran d g with res := 2 }) s) 0 m.vd [])
      else
        let s := gs.foldl (fun s g =>
          let s := if Tab.get false (s.member m).saved g then s else s.zeroAll (saveKey m (granSave g)) Config.granule
          let s := s.modMember m fun c => { c with saved := Tab.put false c.saved g true, lost := Tab.put false c.lost g false }
          if (s.gran d g).owner = (s.member m).localNo then s.setGran d g Granule.none else s) s
        .next (reply (s.store (saveKey m (granSave (granOf va) + va % Config.granule)) l) 0 m.vd [])

/-! ### The schedule (R55) -/

/-- SCHEDULE_CHANGE (R55): `a` slots, with the quanta of `l`, from the next slot boundary on. -/
def execScheduleChange (s : State) : Outcome :=
  let o := s.subject
  if o.a < 1 ∨ 16 < o.a ∨ o.l.length ≠ o.a ∨ o.l.any (fun q => decide (q < 100 * Config.us ∨ Config.second < q))
      ∨ s.vds.any (fun e => e.2.live && (match e.2.params.homeSlot with | some i => decide (o.a ≤ i) | none => false)) then .next (reply s 1 0 [])
  else
    let q : Tab Nat := (List.range o.a).foldl (fun t i => Tab.put 0 t i (o.l.getD i 0)) []
    .next (reply { s with gc := { s.gc with pending := some (o.a, q) } } 0 0 [])

/-! ### Live migration (R371, R372, R472) -/

/-- The stub pages of a VD (R372): strike page, queue table pages, declared signal pages. -/
def stubPages (v : VD) : List Nat :=
  v.strikeVa :: (List.range v.params.n).map (fun i => v.queueVa + 4096 * i) ++ v.params.signalPages.flatMap fun r => rangePages r.1 r.2

/-- The source gives the VD up at the destination's LIT: stubs stand, and every other page is released. -/
def leavePackage (s : State) (vd life : Nat) : State :=
  let v := s.vd vd
  let life := max (min life Config.hour) Config.second
  let s := zeroPages s vd
  let s := dropTlb s vd 0 (2 ^ 52)
  let s := (List.range v.params.n).foldl (fun s i => resetMember s ⟨vd, i⟩) s
  let s := homeCells s vd .empty
  let s := s.modVd vd fun v => { v with pt := v.pt.filter fun e => decide (ptType e.2 ≠ 1 ∨ 2 ≤ ptTgt e.2), tables := [],
                                        stubs := (stubPages v).map fun a => (a, s.clk + life, false) }
  s.after life .stubExpiry { a := vd }

/-- LIVE_MIGRATION (R371): VD `a` goes to package `c`, its stubs to live for `v` clk; `b` is the step begun: 0 pre-copy, 1 the stop, 2 the end.
What the destination answers is not the source's: a free choice says whether a step fails (R472). -/
def execLiveMigration (s : State) : Outcome :=
  let o := s.subject
  let v := s.vd o.a
  let fails := decide (Config.freeChoice s.fresh % 2 = 1)
  if !v.live then .fault .noSuchEvent
  else match o.b with
    | 0 => if v.movedTo.isSome ∨ !accepts s then .fault .noSuchEvent else .next (s.draw.after s.delay .liveMigration { o with b := 1 })
    | 1 =>
      if v.movedTo.isNone then
        if fails then .next (memoryEvent s.draw 0x09 o.a 0xFF 0xFF [2, o.c])
        else .next ((s.draw.modVd o.a fun v => { v with movedTo := some (o.c, 0) }).after 0 .liveMigration o)
      else if onDies s o.a then
        let s := if s.gc.vote.st = .idle then beginVote s [o.a] [] s.gc.cur false true [] else s
        .next (s.after Config.us .liveMigration o)
      else
        let s := (List.range v.params.n).foldl (fun s i => spillDie s (s.member ⟨o.a, i⟩).die fun x => decide (x = ⟨o.a, i⟩)) s
        .next (s.draw.after s.delay .liveMigration { o with b := 2 })
    | _ =>
      if v.movedTo.isNone ∨ !v.stubs.isEmpty then .fault .noSuchEvent
      else if fails then .next (memoryEvent (s.draw.modVd o.a fun v => { v with movedTo := none }) 0x09 o.a 0xFF 0xFF [3, o.c])
      else .next (leavePackage s.draw o.a o.v.toNat)

/-- STUB_FORWARD (R372): an access to VA `b` of VD `a` goes on to the destination: a write (`c` = 1) of `l`, or a read. -/
def execStubForward (s : State) : Outcome :=
  let o := s.subject
  let v := s.vd o.a
  match v.movedTo with
  | some (p, _) =>
    if stubLive v o.b then
      .next (s.report { kind := 11, code := o.c, vd := o.a, member := 0xFF, core := 0xFFFF, clk := s.clk, args := p :: o.b :: o.l })
    else .fault .noSuchEvent
  | none => .fault .noSuchEvent

/-- STUB_EXPIRY (R372): the stubs of VD `a` whose lifetime has passed forward nothing any more. -/
def execStubExpiry (s : State) : Outcome :=
  let n := s.subject.a
  if (s.vd n).stubs.any fun e => decide (e.2.1 ≤ s.clk) && !e.2.2 then
    .next (s.modVd n fun v => { v with stubs := v.stubs.map fun (e : Nat × Nat × Bool) => (e.1, e.2.1, e.2.2 || decide (e.2.1 ≤ s.clk)) })
  else .fault .noSuchEvent

/-! ### The host (R352) -/

/-- A host access completes: its bytes go to the host. -/
def hostReply (s : State) (vd : Nat) (l : List Byte) : State := reply s 0x200 vd (l.map (·.toNat))
/-- A host write is dropped and counted; a host read completes as an unsupported request. -/
def hostRefuse (s : State) (vd : Nat) (write : Bool) : State := if write then telemetry s 0x20 [vd] else reply s 0x201 vd []

/-- A host access to a VD's global space. -/
def hostVa (s : State) (vd va n : Nat) (w : Option (List Byte)) : State :=
  let v := s.vd vd
  let m : MemberId := ⟨vd, 0⟩
  if stubDead v va then hostRefuse s vd w.isSome
  else if stubLive v va then s.after 0 .stubForward { a := vd, b := va, c := b2n w.isSome, l := (w.getD []).map (·.toNat) }
  else match findLeaf v va with
    | some (_, e) =>
      if ptTgt e = 3 then
        if w.isSome then strikeVd s (ptPa e / 4096)
        else hostReply s vd ((toBytes 8 (s.vd (ptPa e / 4096)).state.code).drop (va % 8) |>.take n)
      else match w with
        | some l => match vaWrite s m va l with
          | .ok s => s
          | .error _ => hostRefuse s vd true
        | none => match vaRead s m va n with
          | .ok r => hostReply r.2 vd r.1
          | .error _ => hostRefuse s vd false
    | none => hostRefuse s vd w.isSome

/-- The capability list (R369, R370): the ID of each entry with dword 0 of its body. -/
def capabilities : List (Nat × Nat) := [(1, 0), (2, 0), (3, 256), (4, 7), (5, 7), (6, 0x100008), (7, 48), (8, 1)]
/-- The 32 bytes of entry i: header and body. -/
def capEntry (i : Nat) (e : Nat × Nat) : List Byte :=
  toBytes 8 (32 * 2 ^ 32 + 1 * 2 ^ 16 + e.1) ++ toBytes 8 (if i + 1 = capabilities.length then 0 else 0x1000 + 32 * (i + 1)) ++ toBytes 8 e.2 ++ toBytes 8 0
/-- The bytes of the list, from offset 0x1000 of the PF's BAR0 on. -/
def capBytes : List Byte := (List.range capabilities.length).flatMap fun i => capEntry i (capabilities.getD i (0, 0))
/-- A byte of the configuration region: the list, and beside it what the spec does not give. -/
def configByte (free off : Nat) : Byte := if 0x1000 ≤ off ∧ off < 0x1000 + capBytes.length then capBytes.getD (off - 0x1000) 0 else BitVec.ofNat 8 (free / 256 ^ (off % 256))
/-- The host writes a message of 64 bytes to its mailbox of wick w (R352, R367): source kind 5; a full mailbox keeps it waiting. -/
def hostMessage (s : State) (w : Nat) (l : List Byte) : State :=
  let d := dwordsFrom l
  if 32 ≤ (s.box w).length then s.after 1 .hostPortAccess s.subject
  else
    let h := boxHead 5 0 (bitsN (d.headD 0).toNat 47 24) s.fresh
    ((s.setBox w (s.box w ++ [h :: d.drop 1])).draw).after s.delay .svcReply { a := w, b := 2, c := s.fresh % 2 ^ 24 }
/-- An access to the PF's BAR0 (R352, R369): reads of the configuration region; what it holds is read-only.  Messages to wick `c` are named by BAR 1 here,
since the spec gives the mailbox no offset (log 56). -/
def hostPf (s : State) (b c n : Nat) (w : Option (List Byte)) : Outcome :=
  match b, w with
  | 0, none =>
    if c + n ≤ 32 * 2 ^ 20 then .next (hostReply s.draw 0 ((List.range n).map fun i => configByte (Config.freeValue s.fresh) (c + i))) else .fault .noSuchEvent
  | 0, some _ => .next s
  | 1, some l => if c < 8 ∧ l.length = 64 then .next (hostMessage s c l) else .fault .noSuchEvent
  | _, _ => .fault .noSuchEvent

/-- HOST_PORT_ACCESS (R352, R372): a write of the bytes `l`, or with none a read of `v` bytes, at offset `c` of BAR `b` of VD `a`'s VF, or of the PF when `a`
is 0; while a level 2 alarm has frozen the part it completes as a refusal (R474). -/
def execHostPortAccess (s : State) : Outcome :=
  let o := s.subject
  let v := s.vd o.a
  let w : Option (List Byte) := if o.l.isEmpty then none else some (o.l.map (BitVec.ofNat 8))
  if (o.a ≠ 0 && !v.live) || s.platform.stopped || decide (s.platform.boot ≠ 7) || (List.range 4).all (fun i => Tab.get false s.platform.hostPorts i) then .fault .noSuchEvent
  else if s.platform.frozen then .next (hostRefuse s o.a w.isSome)
  else if o.a = 0 then hostPf s o.b o.c o.v.toNat w
  else if o.b = 2 then (if o.c < 2 ^ 32 then .next (hostVa s o.a (v.bar2 + o.c) o.v.toNat w) else .fault .noSuchEvent)
  else if o.b ≠ 0 ∨ 2 ^ 21 ≤ o.c then .fault .noSuchEvent
  else if o.c < 4096 * v.params.n then .next (hostVa s o.a (v.queueVa + o.c) o.v.toNat w)
  else if 0x100000 ≤ o.c ∧ o.c < 0x101000 then .next (hostVa s o.a (v.strikeVa + o.c - 0x100000) o.v.toNat w)
  else .next (if w.isSome then s else hostReply s o.a (List.replicate o.v.toNat 0))

end Sys2Proof.Machine
end

