-- ==== Sys2Proof/Machine/Ethernet.lean ====
section
/-!
DEFINITION. Ethernet.lean: endpoints and the datagrams of the scale-out transport (R354 to R357).
-/
namespace Sys2Proof.Machine

/-! ### Endpoints (R356) -/

/-- A reserved kind (R355). -/
def kindReserved (k : Nat) : Bool := decide (k = 0 ∨ 9 < k)
/-- The endpoint that a pair number stands for: VD, index and record. -/
def endpointOfPair (s : State) (n : Nat) : Option (Nat × Nat × Endpoint) :=
  s.vds.findSome? fun v => if v.2.live then v.2.endpoints.findSome? fun e => match e.2 with
    | some x => if x.up ∧ x.pair = n then some (v.1, e.1, x) else none
    | none => none
  else none
/-- A parameter of an endpoint is out of range (R356). -/
def endpointBad (s : State) (p : EndpointParams) : Bool :=
  !(s.vd p.vd).live || decide (255 < p.index) || decide (p.ports = 0 ∨ 2 ^ 16 ≤ p.ports) || decide (2 ^ 128 ≤ p.peerAddr) || decide (2 ^ 16 ≤ p.udpPort)
    || decide (2 ^ 16 ≤ p.peerVd) || decide (255 < p.peerIndex) || decide (p.winBase % 4096 ≠ 0 ∨ p.winLen % 4096 ≠ 0)
    || decide (2 ^ 52 < p.winBase + p.winLen) || decide (p.counter % 8 ≠ 0) || decide (p.counter < p.winBase ∨ p.winBase + p.winLen < p.counter + 8)
    || decide (7 < p.priority)

/-- What a setup message says (R356, log 50): the window's length, both sides' VDs and indices, and the number of the key it asks for. -/
def setupData (winLen vd i peerVd peerIndex key : Nat) : List Byte :=
  toBytes 8 winLen ++ toBytes 8 (vd + 2 ^ 16 * i + 2 ^ 32 * peerVd + 2 ^ 48 * peerIndex) ++ toBytes 8 key
/-- A setup message of the fabric wick (R355, R356).  It comes before the key that numbers a pair's datagrams, so its PSN is 0 (log 50). -/
def sendSetup (s : State) (vd i : Nat) (e : Endpoint) (key : Nat) : State :=
  let l := setupData e.params.winLen vd i e.params.peerVd e.params.peerIndex key
  dgramOut s vd i { Dgram.plain 7 0 0 l.length with epair := e.pair, data := l }

/-- ENDPOINT_CREATE (R356): the fabric wick asks the peer, for at most 1 s. -/
def execEndpointCreate (s : State) : Outcome :=
  match s.subject.ep with
  | none => .fault .noSuchEvent
  | some p =>
    if !accepts s ∨ endpointBad s p ∨ (s.endpoint p.vd p.index).isSome then .next (reply s 1 p.vd [p.index])
    else
      let e : Endpoint := { params := p, pair := 0, up := false, unreachable := false, psn := 0, seen := [], expect := 0, unacked := [], owed := [],
                            rate := lineRate, lastEcho := s.clk, peerLen := 0, keyNo := 0 }
      .next ((sendSetup (s.setEndpoint p.vd p.index e) p.vd p.index e 1).after Config.second .endpointSetupTimeout { a := p.vd, b := p.index })

/-- Nothing is created: the endpoint that waited for its peer is gone. -/
def refuseEndpoint (s : State) (vd i : Nat) : State :=
  reply (s.modVd vd fun v => { v with endpoints := Tab.put none v.endpoints i none }) 1 vd [i]

/-- ENDPOINT_SETUP_TIMEOUT (R356): no matching endpoint of the peer within 1 s. -/
def execEndpointSetupTimeout (s : State) : Outcome :=
  let o := s.subject
  match s.endpoint o.a o.b with
  | some e => if e.up ∨ s.clk < e.lastEcho + Config.second then .fault .noSuchEvent else .next (refuseEndpoint s o.a o.b)
  | none => .fault .noSuchEvent

/-- Set bits of a byte. -/
def bitCount8 (m : Nat) : Nat := (List.range 8).countP m.testBit
/-- ETH_PORT_SPLIT (R354): port `a` becomes two 400 Gb/s MACs (`b` = 1) or one of 800 Gb/s (`b` = 0); with `b` = 2 its priorities with flow control
become those of mask `c`, at most two (log 51). -/
def execEthPortSplit (s : State) : Outcome :=
  let o := s.subject
  if !accepts s ∨ 15 < o.a ∨ 2 < o.b ∨ (o.b = 2 ∧ (256 ≤ o.c ∨ 2 < bitCount8 o.c)) then .next (reply s 1 0 [o.a])
  else if o.b = 2 then .next (reply { s with platform := { s.platform with ethPfc := Tab.put 0 s.platform.ethPfc o.a o.c } } 0 0 [o.a])
  else .next (reply { s with platform := { s.platform with ethSplit := Tab.put false s.platform.ethSplit o.a (decide (o.b = 1)) } } 0 0 [o.a])

/-- A fresh key of a pair (R355): PSNs begin again in both directions, and what is not acknowledged is sent again under it. -/
def freshKey (s : State) (vd i : Nat) (e : Endpoint) : State :=
  let l := e.unacked.zip (List.range e.unacked.length)
  let num (p : Nat) : Nat := match l.find? fun x => decide (x.1.1.psn = p) with
    | some x => x.2 + 1
    | none => p
  let s := s.setEndpoint vd i
    { e with keyNo := e.keyNo + 1, psn := l.length, seen := [], expect := 0, owed := [], unreachable := false,
             unacked := l.map fun (x : (Dgram × Nat × Nat) × Nat) => ({ x.1.1 with psn := x.2 + 1 }, x.1.2.1, if x.1.2.2 = 0 then 0 else s.clk) }
  let s := (List.range (s.vd vd).params.n).foldl (fun s k => s.modMember ⟨vd, k⟩ fun c =>
    { c with jobs := c.jobs.map fun (x : Nat × Option Job) => (x.1, x.2.map fun j =>
        if cardDsp j.card = 2 ∧ bitsN (cardDaddr j.card) 51 44 = i ∧ j.unacked ≠ [0] then { j with unacked := j.unacked.map num } else j) }) s
  l.foldl (fun s x =>
    let o : Subject := { a := vd, b := i, c := x.2 + 1 }
    if x.1.2.2 = 0 then s.after Config.us .ethRetransmitTimeout o
    else (dgramOut s vd i { x.1.1 with psn := x.2 + 1 }).after (100 * Config.us) .ethRetransmitTimeout o) s

/-- A setup message is that of the matching endpoint of the peer (R356): the peer's own numbers, and ours as its peer's. -/
def setupMatches (vd i : Nat) (e : Endpoint) (l : List Byte) : Bool :=
  decide (l = setupData (ofBytes (l.take 8)) e.params.peerVd e.params.peerIndex vd i (ofBytes (l.drop 16)))
/-- ETH_SETUP (R355, R356): the peer's setup message for endpoint `b` of VD `a`.  One of another endpoint is dropped and counted; a peer that does not
authenticate ends the creation.  The pair is then up, with a number and a fresh key, and the peer is told; on a pair that is up, a message that
asks for a further key begins it. -/
def execEthSetup (s : State) : Outcome :=
  let o := s.subject
  match o.dgram, s.endpoint o.a o.b with
  | some d, some e =>
    let len := ofBytes (d.data.take 8)
    let key := ofBytes (d.data.drop 16)
    if kindReserved d.kind then .next (telemetry s 0x30 [d.epair])
    else if d.kind ≠ 7 then .fault .noSuchEvent
    else if d.bad then .next (if e.up then telemetry s 0x30 [d.epair] else refuseEndpoint s o.a o.b)
    else if !setupMatches o.a o.b e d.data then .next (telemetry s 0x30 [d.epair])
    else if e.up then .next (if key ≤ e.keyNo then s.setEndpoint o.a o.b { e with peerLen := len } else freshKey s o.a o.b { e with peerLen := len })
    else
      let n := if d.epair ≠ 0 ∧ (endpointOfPair s d.epair).isNone then d.epair else s.platform.nextPair
      let s : State := { s with platform := { s.platform with nextPair := (max n s.platform.nextPair + 1) % 2 ^ 16 } }
      let e := { e with up := true, pair := n, peerLen := len, keyNo := 1, lastEcho := s.clk }
      let s := sendSetup (s.setEndpoint o.a o.b e) o.a o.b e 1
      .next ((reply s 0 o.a [o.b, n, len]).after (1000 * Config.us) .ethKeepaliveTimer { a := o.a, b := o.b })
  | _, _ => .fault .noSuchEvent

/-- PAIR_REKEY (R355): before the PSN of a pair wraps, the pair is set up again with a fresh key. -/
def execPairRekey (s : State) : Outcome :=
  let o := s.subject
  match s.endpoint o.a o.b with
  | some e => if e.up then .next (freshKey (sendSetup s o.a o.b e (e.keyNo + 1)) o.a o.b e) else .fault .noSuchEvent
  | none => .fault .noSuchEvent

/-- ETH_KEEPALIVE_TIMER (R355): every 1 ms on an endpoint in use. -/
def execEthKeepaliveTimer (s : State) : Outcome :=
  let o := s.subject
  match s.endpoint o.a o.b with
  | some e =>
    if e.up then .next ((sendOnce s o.a o.b (Dgram.plain 8 0 0 0)).after (1000 * Config.us) .ethKeepaliveTimer o) else .fault .noSuchEvent
  | none => .fault .noSuchEvent

/-! ### What arrives (R355, R357) -/

/-- A datagram of a kind arrives: one of a reserved kind, or whose tag or reserved bits fail, or of no pair, is dropped and counted; one with an ECN
mark is answered by ECHO. -/
def takeDgram (s : State) (kind : Nat) (f : State → Nat → Nat → Endpoint → Dgram → State) : Outcome :=
  match s.subject.dgram with
  | none => .fault .noSuchEvent
  | some d =>
    if kindReserved d.kind then .next (telemetry s 0x30 [d.epair])
    else if d.kind ≠ kind then .fault .noSuchEvent
    else match endpointOfPair s d.epair with
      | none => .next (telemetry s 0x30 [d.epair])
      | some (vd, i, _) =>
        if d.bad then .next (telemetry s 0x30 [d.epair])
        else
          let s := if d.ecn then sendOnce s vd i (Dgram.plain 6 0 d.job 0) else s
          match s.endpoint vd i with
          | some e => .next (f s vd i e d)
          | none => .next s

/-- Highest contiguous PSN received, and the PSNs seen above it. -/
def notePsn (e : Endpoint) (psn : Nat) : Endpoint :=
  let done := psn :: e.seen
  let top := done.foldl (fun a _ => if done.contains ((a + 1) % 2 ^ 32) then (a + 1) % 2 ^ 32 else a) e.expect
  { e with expect := top, seen := done.filter fun q => !clockGe top q }
/-- A PSN has been seen (R357). -/
def psnSeen (e : Endpoint) (psn : Nat) : Bool := e.seen.contains psn || clockGe e.expect psn
/-- A datagram that owes no ACK arrives: its PSN is noted, and one seen before is dropped (R357). -/
def takeOnce (s : State) (kind : Nat) (f : State → Nat → Nat → Endpoint → Dgram → State) : Outcome :=
  takeDgram s kind fun s vd i e d =>
    if psnSeen e d.psn then s
    else
      let e := notePsn e d.psn
      f (s.setEndpoint vd i e) vd i e d

/-- ACK of an endpoint: APSN, the highest contiguous PSN received; the sender's job tag is echoed. -/
def sendEthAck (s : State) (vd i : Nat) : State :=
  match s.endpoint vd i with
  | some e => sendOnce (s.setEndpoint vd i { e with owed := [] }) vd i { Dgram.plain 4 0 (e.owed.getLastD 0) 0 with apsn := e.expect }
  | none => s

/-- A numbered datagram has been performed, or was seen before: an ACK is owed within 10 µs, and at every 64th. -/
def oweAck (s : State) (vd i : Nat) (d : Dgram) : State :=
  match s.endpoint vd i with
  | some e =>
    let s := s.setEndpoint vd i { e with owed := e.owed ++ [d.job] }
    if 64 ≤ e.owed.length + 1 then sendEthAck s vd i
    else if e.owed.isEmpty then s.draw.after (Config.freeDelay s.fresh % (10 * Config.us) + 1) .ethAckTimer { a := vd, b := i } else s
  | none => s

/-- A numbered datagram arrives (R357): a collapsed VD answers BUSY and performs nothing; a PSN seen before is dropped. -/
def takeNumbered (s : State) (kind : Nat) (f : State → Nat → Nat → Endpoint → Dgram → Option State) : Outcome :=
  takeDgram s kind fun s vd i e d =>
    if (s.vd vd).state = .pilot then sendOnce s vd i { Dgram.plain 9 0 d.job 0 with apsn := e.expect }
    else if psnSeen e d.psn then oweAck s vd i d
    else match f s vd i e d with
      | none => telemetry s 0x31 [d.epair, d.kind]
      | some s => match s.endpoint vd i with
        | some e => oweAck (s.setEndpoint vd i (notePsn e d.psn)) vd i d
        | none => s

/-- A range of an endpoint's window. -/
def inWindow (e : Endpoint) (off n : Nat) : Bool := decide (off + n ≤ e.params.winLen)

/-- ETH_WRITE (R357): the writes of a WRITE datagram are performed at the window base plus OFF, as a host-port write is. -/
def execEthWrite (s : State) : Outcome :=
  takeNumbered s 1 fun s vd _ e d =>
    if inWindow e d.off d.data.length ∧ d.data.length = d.len ∧ d.len ≤ 8192 then some (hostVa s vd (e.params.winBase + d.off) d.len (some d.data)) else none

/-- ETH_READ (R357): the window is read, and RDDATA goes back with the sender's job tag. -/
def execEthRead (s : State) : Outcome :=
  takeNumbered s 2 fun s vd i e d =>
    if inWindow e d.off d.len ∧ d.len ≤ 8192 then
      match vaRead s ⟨vd, 0⟩ (e.params.winBase + d.off) d.len with
      | .ok (l, s) => some (sendDgram s vd i { Dgram.plain 3 d.off d.job d.len with data := l })
      | .error _ => none
    else none

/-- ETH_NOTE (R357): LEN is added to the arrival counter as amo.add.64 adds. -/
def execEthNote (s : State) : Outcome :=
  takeNumbered s 5 fun s vd _ e d =>
    match vaRead s ⟨vd, 0⟩ e.params.counter 8 with
    | .ok (l, s) => (vaWrite s ⟨vd, 0⟩ e.params.counter (toBytes 8 (amoNew .add 8 (ofBytes l) d.len 0))).toOption
    | .error _ => none

/-- What concerns a job happens on its die; for a member off its die it waits for the relight (R67). -/
def onJobDie (s : State) (m : MemberId) (i : Instr) (o : Subject) (f : State → State) : State :=
  if (s.die (s.member m).die).ctx = some m then f s
  else { s with paused := Tab.put [] s.paused (memberKey m) (Tab.get [] s.paused (memberKey m) ++ [⟨(s.member m).offAt, .event i o⟩]) }

/-- Fetched data of chunk q of a job are written to its destination. -/
def takeFetched (s : State) (m : MemberId) (h q : Nat) (l : List Byte) : State :=
  match (s.member m).job h with
  | some j =>
    if cardSsp j.card = 2 ∧ j.unacked.contains (2 ^ 32 + q) ∧ l.length = chunkLen j.card q then
      chunkOut (s.modMember m fun x => x.setJob h (some { j with unacked := j.unacked.filter fun p => decide (p ≠ 2 ^ 32 + q) })) m h q 0 l
    else s
  | none => s

/-- ETH_RDDATA (R357): fetched data arrive for the job of their tag; those of a member off its die are written when it is back. -/
def execEthRddata (s : State) : Outcome :=
  match s.subject.l, s.subject.dgram with
  | [h, q], some d => if (s.die (s.member s.subject.m).die).ctx = some s.subject.m then .next (takeFetched s s.subject.m h q d.data) else .fault .noSuchEvent
  | _, _ =>
    takeNumbered s 3 fun s vd _ _ d =>
      let m : MemberId := ⟨vd, d.job / 256⟩
      let h := d.job % 256
      match (s.member m).job h with
      | some j =>
        let q := (d.off - bitsN (cardSaddr j.card) 43 0) / 4096
        some (onJobDie s m .ethRddata { m := m, l := [h, q], dgram := some d } fun s => takeFetched s m h q d.data)
      | none => some s

/-! ### What is answered (R357) -/

/-- One acknowledged datagram of a job: a WRITE advances its chunk; after the NOTE the completion actions follow. -/
def jobAcked (s : State) (m : MemberId) (h : Nat) (d : Dgram) : State :=
  match (s.member m).job h with
  | some j =>
    if d.kind = 5 then (if j.unacked = [0] then finishJob s m h else s)
    else if d.kind = 1 then
      let q := (d.off - bitsN (cardDaddr j.card) 43 0) / 4096
      let s := s.modMember m fun x => x.setJob h (some { j with unacked := j.unacked.filter fun p => decide (p ≠ d.psn) })
      if j.inflight.contains q && chunkQuiet s m h q then chunkDone s m h q true else s
    else s
  | none => s

/-- ETH_ACK (R357): every datagram up to APSN is acknowledged. -/
def execEthAck (s : State) : Outcome :=
  match s.subject.l, s.subject.dgram with
  | [h], some d => if (s.die (s.member s.subject.m).die).ctx = some s.subject.m then .next (jobAcked s s.subject.m h d) else .fault .noSuchEvent
  | _, _ =>
    takeOnce s 4 fun s vd i e d =>
      let done := e.unacked.filter fun x => clockGe d.apsn x.1.psn
      let s := s.setEndpoint vd i { e with unacked := e.unacked.filter fun x => !clockGe d.apsn x.1.psn }
      done.foldl (fun s x =>
        if x.1.kind = 1 ∨ x.1.kind = 5 then
          let m : MemberId := ⟨vd, x.1.job / 256⟩
          onJobDie s m .ethAck { m := m, l := [x.1.job % 256], dgram := some x.1 } fun s => jobAcked s m (x.1.job % 256) x.1
        else s) s

/-- ETH_ECHO (R357): the sending rate falls to 7/8 of what it was, and not below 1/256 of the port rate. -/
def execEthEcho (s : State) : Outcome :=
  takeOnce s 6 fun s vd i e _ =>
    (s.setEndpoint vd i { e with rate := rateFall e.rate, lastEcho := s.clk }).after (16 * Config.us) .ethRateRise { a := vd, b := i }

/-- ETH_RATE_RISE (R357): 16 µs without ECHO raise the rate by 1/32 of the port rate, up to the port rate. -/
def execEthRateRise (s : State) : Outcome :=
  let o := s.subject
  match s.endpoint o.a o.b with
  | some e =>
    if e.rate ≠ lineRate ∧ e.lastEcho + 16 * Config.us ≤ s.clk then
      let r := rateRise e.rate
      let s := s.setEndpoint o.a o.b { e with rate := r, lastEcho := s.clk }
      .next (if r ≠ lineRate then s.after (16 * Config.us) .ethRateRise o else s)
    else .fault .noSuchEvent
  | none => .fault .noSuchEvent

/-- ETH_KEEP (R355): a keep-alive message is taken. -/
def execEthKeep (s : State) : Outcome := takeOnce s 8 fun s _ _ _ _ => s

/-- The datagram a BUSY is about (log 50): of those of its job tag, above its APSN, the first of those sent most often. -/
def busyPsn (e : Endpoint) (d : Dgram) : Option Nat :=
  let l := e.unacked.filter fun x => decide (x.1.job = d.job) && !clockGe d.apsn x.1.psn
  (l.find? fun x => decide (x.2.1 = l.foldl (fun a y => max a y.2.1) 1)).map (·.1.psn)
/-- ETH_BUSY (R357): the transmission that the collapsed receiver answered is not counted; the sender tries again 100 µs after it. -/
def execEthBusy (s : State) : Outcome :=
  takeOnce s 9 fun s vd i e d =>
    s.setEndpoint vd i { e with unacked := e.unacked.map fun (x : Dgram × Nat × Nat) => if busyPsn e d = some x.1.psn then (x.1, x.2.1 - 1, x.2.2) else x }

/-- ETH_ACK_TIMER (R357): what has been received is acknowledged at least every 10 µs. -/
def execEthAckTimer (s : State) : Outcome :=
  let o := s.subject
  match s.endpoint o.a o.b with
  | some e => if e.owed.isEmpty then .fault .noSuchEvent else .next (sendEthAck s o.a o.b)
  | none => .fault .noSuchEvent

/-- A job of an unreachable endpoint aborts (R357, R450): cause 0x0D, REASON 2. -/
def jobUnreachable (s : State) (m : MemberId) (h : Nat) : State :=
  match (s.member m).job h with
  | some j =>
    let s := (abortJob s m h 0x0D 0x200).modMember m fun x => x.setJob h ((x.job h).map fun j => { j with unacked := [] })
    jobCheckEnd ((j.inflight.filter fun q => chunkQuiet s m h q).foldl (fun s q => chunkDone s m h q true) s) m h
  | none => s

/-- ETH_RETRANSMIT_TIMEOUT (R357): datagram `c` of endpoint `b` of VD `a`, not acknowledged 100 µs after its last transmission, is sent again;
after 8 transmissions the endpoint is unreachable. -/
def execEthRetransmitTimeout (s : State) : Outcome :=
  let o := s.subject
  match o.l with
  | [h] => if (s.die (s.member o.m).die).ctx = some o.m then .next (jobUnreachable s o.m h) else .fault .noSuchEvent
  | _ =>
    match s.endpoint o.a o.b with
    | none => .fault .noSuchEvent
    | some e =>
      match e.unacked.find? fun x => decide (x.1.psn = o.c) with
      | none => .fault .noSuchEvent
      | some x =>
        if !e.unreachable ∧ x.2.2 ≠ 0 ∧ s.clk < x.2.2 + 100 * Config.us then .fault .noSuchEvent
        else if x.2.2 = 0 ∧ x.2.1 < 8 ∧ dgramHeld s o.a x.1 then .next (s.after Config.us .ethRetransmitTimeout o)
        else if x.2.1 < 8 then
          let s := s.setEndpoint o.a o.b
            { e with unacked := e.unacked.map fun (y : Dgram × Nat × Nat) => if y.1.psn = o.c then (y.1, y.2.1 + 1, s.clk) else y }
          .next ((dgramOut s o.a o.b x.1).after (100 * Config.us) .ethRetransmitTimeout o)
        else
          let s := s.setEndpoint o.a o.b { e with unreachable := true, unacked := [] }
          let tags := ((e.unacked.filter fun y => decide (y.1.kind ≠ 3)).map fun y => y.1.job).eraseDups
          .next (tags.foldl (fun s t =>
            let m : MemberId := ⟨o.a, t / 256⟩
            onJobDie s m .ethRetransmitTimeout { m := m, l := [t % 256] } fun s => jobUnreachable s m (t % 256)) s)

end Sys2Proof.Machine
end

