-- ==== Sys2Proof/Machine/Platform.lean ====
section
/-!
DEFINITION. Platform.lean: power-up (R373 to R375), wick updates (R376), power and cooling (R377 to R379), telemetry (R381), repair and links
(R17, R25, R319, R382, R430, R441 to R445), power loss (R465), and security (R473 to R475).
-/
namespace Sys2Proof.Machine

/-- Write a repair record to both copies of the record store (R382, R465), as the last of them: true when it is written; a repair whose record cannot
be written is not made, and the stores keep what they held (report 0x45, log 58). -/
def repairRecord (s : State) (kind : Nat) (args : List Nat) : Bool × State :=
  let r := storeBoth (s.modPlatform fun p => { p with records := p.records.map fun e => (e.1, e.2.filter fun x => decide (x ≠ (kind, args))) }) (kind, args)
  if r.1 then r else (false, telemetry (r.2.modPlatform fun p => { p with records := s.platform.records }) 0x45 [kind])

/-! ### Links and ports (R319, R441 to R443) -/

/-- A link or port takes a state. -/
def setLink (s : State) (n : Nat) (l : Link) : State := s.modPlatform fun p => { p with links := Tab.put (linkReset n) p.links n l }
/-- The LINK field of a fabric event record (R439): a reach link, or the port of a physical compute position. -/
def linkField (n : Nat) : Nat :=
  if n < 64 then n / 3 * 4096 + (68 + n % 3) else (n - 64) % 18 * 4096 + (n - 64) / 18
/-- A fabric event record about a link: the LINK field goes first. -/
def linkEvent (s : State) (kind n : Nat) (args : List Nat) : State := fabricEvent s kind 0 0xFF (linkField n :: args)
/-- A number names a reach link or the port of one of the 68 compute positions to one of the 18 switch dies (R15). -/
def isLink (n : Nat) : Bool := decide (n < 48 ∨ (64 ≤ n ∧ n < 64 + 18 * 68))
/-- The logical die at a physical position, if one is (R13). -/
def dieAt (s : State) (p : Nat) : Option Nat := (List.range Config.dies).find? fun d => decide (positionOf s d = p)

/-- A link closes, and is not trained again (R443): a die with 8 or more of its ports down is taken off service. -/
def closeLink (s : State) (n reason : Nat) : State :=
  let l := linkOf s n
  let s := linkEvent (setLink s n { l with up := false, stage := 4 }) 0x03 n [reason, 260 * l.banks]
  match if n < 64 then none else dieAt s ((n - 64) / 18) with
  | some d => if !(s.die d).failed ∧ 8 ≤ (List.range 16).countP (fun w => !portUp s d w) then dieFailed s d else s
  | none => s

/-- The next stage of training of a link comes within a bound: the last two, which are all that a spare lane asks for, take 10 µs (R441). -/
def trainOn (s : State) (n stage : Nat) : State :=
  s.draw.after (1 + Config.freeDelay s.fresh % (if stage < 2 then 100 * 1000 * Config.us else 5 * Config.us)) .linkTraining { a := n }
/-- LINK_TRAINING (R319): link `a` passes the next stage, of lane detect, equalisation, deskew and flit lock, with which it is up.  Whether the peer of
a reach link that is down answers lane detect is not the part's. -/
def execLinkTraining (s : State) : Outcome :=
  let n := s.subject.a
  let l := linkOf s n
  if !isLink n ∨ 4 ≤ l.stage then .fault .noSuchEvent
  else if n < 64 ∧ l.stage = 0 ∧ !l.up ∧ Config.freeChoice s.fresh % 2 = 1 then .next (s.draw.after (100 * 1000 * Config.us) .laneDetectTimeout { a := n })
  else if l.stage = 3 then .next (setLink s.draw n { l with up := true, stage := 4 })
  else .next (trainOn (setLink s.draw n { l with stage := l.stage + 1 }) n (l.stage + 1))

/-- LANE_DETECT_TIMEOUT (R319): link `a` had no answer for 100 ms and stays down. -/
def execLaneDetectTimeout (s : State) : Outcome :=
  let n := s.subject.a
  if !isLink n ∨ (linkOf s n).up ∨ (linkOf s n).stage ≠ 0 then .fault .noSuchEvent else .next (linkEvent s 0x03 n [3, 260 * (linkOf s n).banks])

/-- LANE_FAILURE (R441): lane `b` of link `a` fails.  The link, held up by its replay, is trained again (R319): all of it where its lanes change, deskew and
flit lock where a spare lane stands in. -/
def execLaneFailure (s : State) : Outcome :=
  let n := s.subject.a
  let l := linkOf s n
  let w := l.lanes + l.spares - 1
  if !isLink n ∨ !l.up ∨ 18 ≤ s.subject.b ∨ l.lanes + l.spares = 0 then .fault .noSuchEvent
  else if 16 ≤ w then
    let r := repairRecord s 0x105 [n, 16, w - 16]
    if r.1 then .next (trainOn (linkEvent (setLink r.2 n { l with lanes := 16, spares := w - 16, stage := min l.stage 2 }) 0x01 n [s.subject.b, w - 16]) n 2)
    else .next (trainOn (linkEvent (setLink r.2 n { l with lanes := 15, spares := 0, stage := 0 }) 0x02 n [15, 100]) n 0)
  else if 8 ≤ w then .next (trainOn (linkEvent (setLink s n { l with lanes := w, spares := 0, stage := 0 }) 0x02 n [w, 100]) n 0)
  else .next (closeLink (setLink s n { l with lanes := w, spares := 0 }) n 1)

/-- BUFFER_BANK_ERROR (R442): a bank of link `a`'s receive buffer leaves service; a buffer of one bank closes the link. -/
def execBufferBankError (s : State) : Outcome :=
  let n := s.subject.a
  let l := linkOf s n
  if !isLink n ∨ !l.up ∨ l.banks = 0 then .fault .noSuchEvent
  else
    let s := setLink s n { l with banks := l.banks - 1 }
    .next (if l.banks - 1 < 2 then closeLink s n 2 else s)

/-! ### Switch positions (R445, R453) -/

/-- Reductions on their way to a lost position go again, 50 µs later, by the path that stands then (R444, R446); other packets it held are lost. -/
def loseHeld (s : State) (w : Nat) : State :=
  let held (x : Due) : Option Pkt := match x.act with
    | .event i o => if i = .switchPacketForward ∧ o.a = w then o.pkt else none
    | .perform _ => none
  let mine := s.agenda.filterMap held
  let s := { s with agenda := s.agenda.filter fun x => (held x).isNone }
  (mine.filter fun p => decide (p.type = 0x0B)).foldl (fun s p =>
    s.after (50 * Config.us) .switchPacketForward { a := switchPos s p, pkt := some p }) s

/-- A switch position is declared lost (R445): its slots too (R453); a spare takes over within 2 ms, or its outside ports are lost. -/
def losePosition (s : State) (w : Nat) : State :=
  let waiting := (s.members.map fun e => e.2.retransmit.countP fun x => decide (switchPos s x.pkt = w)).sum
  let s := fabricEvent s 0x04 0 0xFF [w * 4096, w, switchDie s w, waiting]
  let slots := (s.switch w).slots.filterMap fun e => match e.2 with
    | some r => if r.done.isNone then some r else none
    | none => none
  let s := s.modSwitch w fun x => { x with down := true, slots := [], outQueue := [], heartbeats := 0 }
  let s := loseHeld s w
  let s := slots.foldl (fun s r => loseSlot s w r) s
  if s.platform.spareSwitches < 2 then s.draw.after (1 + Config.freeDelay s.fresh % (2000 * Config.us)) .switchTakeover { a := w, b := s.clk }
  else
    let s := s.after 0 .outsidePortLost { a := w, b := 3 }
    let s := if w % 4 = 0 then s.after 0 .outsidePortLost { a := 0x40 + w / 4, b := 3 } else s
    let s := s.modPlatform fun p => { p with ethDown := Tab.put false p.ethDown w true }
    (List.range 3).foldl (fun s i => setLink s (3 * w + i) { linkOf s (3 * w + i) with up := false, stage := 4 }) s

/-- SWITCH_HEARTBEAT_LOSS (R445): `b` heartbeats in a row of position `a` are missed; the third declares it lost. -/
def execSwitchHeartbeatLoss (s : State) : Outcome :=
  let o := s.subject
  let n := (s.switch o.a).heartbeats + max o.b 1
  if Config.switches ≤ o.a ∨ (s.switch o.a).down then .fault .noSuchEvent
  else if n < 3 then .next (s.modSwitch o.a fun x => { x with heartbeats := n })
  else .next (losePosition s o.a)

/-- SWITCH_TAKEOVER (R445, R15): a spare switch die takes position `a`, lost at clk `b`, with its outside ports; the pairs it had left
unreachable have a path again (R447).  A takeover whose repair record cannot be written is not made (R382); the wick tries again 1 µs later,
which is the model's choice (log 54). -/
def execSwitchTakeover (s : State) : Outcome :=
  let o := s.subject
  if Config.switches ≤ o.a ∨ !(s.switch o.a).down ∨ 2 ≤ s.platform.spareSwitches then .fault .noSuchEvent
  else
    let old := switchDie s o.a
    let new := 16 + s.platform.spareSwitches
    let r := repairRecord s 0x104 [o.a, new]
    if !r.1 then .next (r.2.after Config.us .switchTakeover o)
    else
      let s := (r.2.modSwitch o.a fun x => { x with down := false, physical := some new }).modPlatform fun p => { p with spareSwitches := p.spareSwitches + 1 }
      let s := { s with members := s.members.map fun (e : Nat × Member) => (e.1, { e.2 with unreachable := [] }) }
      .next (fabricEvent s 0x05 0 0xFF [o.a * 4096, o.a, old * 256 + new, (s.clk - o.b) / Config.us])

/-! ### Power-up (R373 to R375) and power loss (R465) -/

/-- What the record store and the fuses keep without power: images, configuration, records written, the XMSS index, erased identity. -/
def keptPlatform (p : Platform) : Platform :=
  { Platform.reset with imageA := p.imageA, imageB := p.imageB, active := p.active, powerCap := p.powerCap, inletLimit := p.inletLimit, drain := p.drain,
                        mgmtAddr := p.mgmtAddr, slotCount := p.slotCount, slotQuanta := p.slotQuanta, config := p.config, records := p.records, xmss := p.xmss, erased := p.erased }

/-- POWER_LOSS (R465): everything without a place in the record store is lost, remaps whose records were not written with it; what stands behind
the outside ports stays. -/
def execPowerLoss (s : State) : Outcome :=
  .next { State.reset with fresh := s.fresh, platform := keptPlatform s.platform,
                           mem := s.mem.filter fun c => decide (c.1 / 2 ^ 80 = 3 ∨ c.1 / 2 ^ 80 = 4),
                           wicks := (s.wicks.map fun (e : Nat × Wick) => (e.1, { Wick.reset with bank := e.2.bank, version := e.2.version })).filter fun (e : Nat × Wick) => decide (e.2 ≠ Wick.reset),
                           reports := s.reports }

/-- A record of the store is applied or replayed at power-up (R373, R382, R101): 0x101 columns, 0x102 dies, 0x104 switch positions, 0x105 lanes, 3 rows. -/
def applyRecord (s : State) (r : Nat × List Nat) : State :=
  let a := r.2.getD 0 0
  let b := r.2.getD 1 0
  match r.1 with
  | 0x101 => s.modPlatform fun p => { p with columns := Tab.put 16 p.columns a b }
  | 0x102 =>
    let place := positionOf s a % 17
    (s.modDie a fun t => { t with position := some b }).modPlatform fun p =>
      { p with spareDies := Tab.put false p.spareDies (a / 16) true, steer := Tab.put 0 p.steer (a / 16) (1 + place) }
  | 0x104 => (s.modSwitch a fun x => { x with physical := some b }).modPlatform fun p => { p with spareSwitches := p.spareSwitches + 1 }
  | 0x105 => setLink s a { linkOf s a with lanes := b, spares := r.2.getD 2 0 }
  | _ => replayRow s r

/-- The next boot step, within its bound. -/
def bootNext (s : State) (n bound : Nat) : State :=
  (s.draw.modPlatform fun p => { p with boot := n }).after (1 + Config.freeDelay s.fresh % bound) .powerOnReset { a := n + 1 }

/-- The timers of a booted part start (R55, R378, R381). -/
def startPart (s : State) : State :=
  let s : State := { s with gc := { s.gc with running := true, slots := s.platform.slotCount, quanta := s.platform.slotQuanta } }
  let q := quantumOf s 0
  let s : State := { s with gc := { s.gc with quantumEnd := s.clk + q } }.after q .slotQuantumEnd {}
  (s.after (100 * Config.us) .powerSample {}).after (1000 * Config.us) .telemetrySample {}

/-- Fields of a configuration record that verifies, each in its range (R375): module power cap, inlet limit, drain deadline, management address, host
port mode, then a quantum in clk for each slot; the empty record is that of the defaults. -/
def configOk (l : List Nat) : Bool :=
  let f (i lo hi : Nat) : Bool := decide (lo ≤ l.getD i 0 ∧ l.getD i 0 ≤ hi)
  l.isEmpty || f 0 8000 16500 && f 1 15 45 && f 2 5 200 && f 3 0 127 && f 4 0 7 && decide (6 ≤ l.length ∧ l.length ≤ 21)
    && (l.drop 5).all fun q => decide (100 * Config.us ≤ q ∧ q ≤ Config.second)
/-- Load the values of a configuration record (R373, R375). -/
def loadConfig (l : List Nat) (p : Platform) : Platform :=
  if l.isEmpty then { p with powerCap := 16500, inletLimit := 40, drain := 20, mgmtAddr := 0x4E, slotCount := 1, slotQuanta := [] }
  else { p with powerCap := l.getD 0 0, inletLimit := l.getD 1 0, drain := l.getD 2 0, mgmtAddr := l.getD 3 0, slotCount := l.length - 5,
                slotQuanta := (l.drop 5).zipIdx.foldl (fun t e => Tab.put 0 t e.2 e.1) [] }
/-- POWER_ON_RESET (R373): step `a` of the table. -/
def execPowerOnReset (s : State) : Outcome :=
  let p := s.platform
  let ms := 1000 * Config.us
  if p.stopped ∨ s.subject.a ≠ p.boot + 1 then .fault .noSuchEvent
  else match s.subject.a with
    | 1 => .next (bootNext { s with clk := 0 } 1 (50 * ms))
    | 2 =>
      if p.imageA ∨ p.imageB then .next (bootNext s 2 (200 * ms))
      else .next (telemetry s 0x40 [])
    | 3 =>
      let s := if configOk p.config ∧ Config.freeChoice s.fresh % 2 = 0 then s.draw.modPlatform (loadConfig p.config)
        else telemetry (s.draw.modPlatform (loadConfig [])) 0x41 []
      .next (bootNext s 3 (10 * ms))
    | 4 => .next (bootNext ((Tab.get [] p.records p.mgmtDie).foldl applyRecord s) 4 (100 * ms))
    | 5 =>
      .next (bootNext { s with mem := s.mem.filter fun c => decide (c.1 / 2 ^ 80 ≠ 2 ∧ c.1 / 2 ^ 80 ≠ 5) } 5 (2 * Config.second))
    | 6 => .next (bootNext ((List.range 48).foldl (fun s n => s.after 0 .linkTraining { a := n }) s) 6 (500 * ms))
    | _ => .next (startPart (reply (s.modPlatform fun p => { p with boot := 7 }) 0x300 0 []))

/-! ### Security alarms (R473, R474) -/

/-- The level of a violation (R473). -/
def violationLevel (s : State) (code : Nat) : Nat :=
  let old := Tab.get 0 s.platform.violations (2 * code + 1)
  let third (window : Nat) : Bool := decide (old ≠ 0 ∧ s.clk + 1 ≤ old + window)
  match code with
  | 1 => 3
  | 2 => if third Config.hour then 3 else 2
  | 3 => if third Config.day then 2 else 1
  | 4 => 3
  | _ => 2

/-- An alarm (R473, R474): it is recorded; level 2 freezes every gang; level 3 erases every key, and every VD is treated as destroyed. -/
def raiseAlarm (s : State) (code : Nat) : State :=
  let lv := violationLevel s code
  let s := s.modPlatform fun p =>
    { p with violations := Tab.put 0 (Tab.put 0 p.violations (2 * code + 1) (Tab.get 0 p.violations (2 * code))) (2 * code) (s.clk + 1) }
  let s := storeRecord (memoryEvent s 0x0A 0 0xFF 0xFF [lv, code]) 0x0A [lv, code, s.clk]
  match lv with
  | 1 => s
  | 2 => s.modPlatform fun p => { p with frozen := true }
  | _ =>
    let s := s.modPlatform fun p => { p with erased := true }
    let s := { s with vds := s.vds.map fun (e : Nat × VD) => (e.1, { e.2 with keyNo := 0 }) }
    s.vds.foldl (fun s e => if e.2.live then s.after 0 .vdDestroy { a := e.1 } else s) s

/-- SECURITY_VIOLATION (R473): violation `a`. -/
def execSecurityViolation (s : State) : Outcome :=
  if 1 ≤ s.subject.a ∧ s.subject.a ≤ 5 then .next (raiseAlarm s s.subject.a) else .fault .noSuchEvent

/-- UNFREEZE_REQUEST (R474): a request whose signature verifies (`b` = 1) ends a level-2 freeze. -/
def execUnfreezeRequest (s : State) : Outcome :=
  if s.platform.frozen ∧ s.subject.b = 1 then .next (reply (s.modPlatform fun p => { p with frozen := false }) 0 0 []) else .next (reply s 1 0 [])

/-- ATTESTATION (R475): the XMSS one-time index advances and is written to both copies of the record store before a signature leaves; a failed
write, an exhausted key or an erased identity refuses. -/
def execAttestation (s : State) : Outcome :=
  let p := s.platform
  if p.erased ∨ 2 ^ 20 ≤ p.xmss then .next (reply s 1 0 [])
  else
    let s' := s.draw.modPlatform fun p => { p with xmss := p.xmss + 1 }
    .next (if Config.freeChoice s.fresh % 2 = 0 then reply s' 0 0 [p.xmss] else reply s' 1 0 [])

/-! ### Images and updates (R374, R376) -/

/-- RECOVERY_IMAGE (R374): the host has written an image while the ROM waits for one; it verifies when `b` = 1, is written to the inactive slot,
made active, and booted.  The third in succession that fails is a repeated signature failure. -/
def execRecoveryImage (s : State) : Outcome :=
  let p := s.platform
  if p.boot ≠ 1 ∨ p.imageA ∨ p.imageB then .fault .noSuchEvent
  else if s.subject.b = 1 then
    .next ((s.modPlatform fun p => { p with imageA := p.imageA || decide (p.active = 1), imageB := p.imageB || decide (p.active = 0), active := 1 - p.active,
                                            badImages := 0 }).after 0 .powerOnReset { a := 2 })
  else
    let s := s.modPlatform fun p => { p with badImages := p.badImages + 1 }
    .next (if s.platform.badImages = 3 then raiseAlarm s 5 else s)

/-- WICK_UPDATE (R376): an image of version `c` for wick `a`, that verifies when `v` = 1, is loaded (`b` = 0), by a request;
the new bank starts (`b` = 1). -/
def execWickUpdate (s : State) : Outcome :=
  let o := s.subject
  let w := s.wick o.a
  let put (s : State) (w : Wick) : State := s.modWick o.a fun _ => w
  if (o.b = 0 ∧ !accepts s) ∨ 7 < o.a then .next (reply s 1 0 [o.a])
  else if o.b = 0 then
    if o.v ≠ 1 then
      let s := s.modPlatform fun p => { p with updateFailures := p.updateFailures + 1 }
      .next (reply (if s.platform.updateFailures = 3 then raiseAlarm s 5 else s) 1 0 [o.a])
    else if s.wicks.any fun e => e.2.pendingUpdate.isSome then .next (reply s 1 0 [o.a])
    else
      let s' := put (s.draw.draw.modPlatform fun p => { p with updateFailures := 0 }) { w with pendingUpdate := some (o.c, s.clk) }
      .next (if Config.freeChoice s.fresh % 2 = 0 then
          s'.after (1 + Config.freeDelay (s.fresh + 1) % (100 * 1000 * Config.us - 1)) .wickUpdate { o with b := 1 }
        else s'.after (100 * 1000 * Config.us) .wickUpdateTimeout { a := o.a })
  else match w.pendingUpdate with
    | some (v, _) => .next (reply (put s { w with bank := 1 - w.bank, version := v, pendingUpdate := none }) 0 0 [o.a, v])
    | none => .fault .noSuchEvent

/-- WICK_UPDATE_TIMEOUT (R376): the new bank of wick `a` has not started within 100 ms; the old one resumes, and the update is refused. -/
def execWickUpdateTimeout (s : State) : Outcome :=
  let o := s.subject
  let w := Tab.get Wick.reset s.wicks o.a
  match w.pendingUpdate with
  | some (v, t) =>
    if s.clk < t + 100 * 1000 * Config.us then .fault .noSuchEvent
    else
      let s := { s with wicks := Tab.put Wick.reset s.wicks o.a { w with pendingUpdate := none } }
      let s := s.modPlatform fun p => { p with counters := Tab.put 0 p.counters 0x42 (Tab.get 0 p.counters 0x42 + 1) }
      .next (reply (telemetry s 0x42 [o.a, v]) 1 0 [o.a])
  | none => .fault .noSuchEvent

/-! ### Repairs (R17, R25, R382, R430) -/

/-- MANAGEMENT_DIE_TAKEOVER (R25): the standby takes over from its mirrored state.  The report of a repair that the spec names no record kind for is
telemetry 0x43, the model's choice (log 58). -/
def execManagementDieTakeover (s : State) : Outcome :=
  if s.platform.standby then .next (telemetry (s.modPlatform fun p => { p with mgmtDie := 1 - p.mgmtDie, standby := false }) 0x43 [1 - s.platform.mgmtDie])
  else .fault .noSuchEvent

/-- Physical column of a logical column (R17). -/
def physColumn (unused x : Nat) : Nat := if x < unused then x else x + 1

/-- The granules of the vaults of a die that a test on columns selects lose their place: dirty ones are spilled, or are lost where the vault no
longer answers (R17, R428). -/
def leaveVaults (s : State) (d : Nat) (moves lost : Nat → Bool) : State :=
  let col (g : Nat) : Nat := g / 48 % 16
  let dirty := (s.die d).gran.filter fun e => decide (e.2.res = 2) && moves (col e.1)
  let s := dirty.foldl (fun s e => match memberAt s d e.2.owner with
    | some o =>
      if lost (col e.1) then gangEvent (s.modMember o fun c => { c with lost := Tab.put false c.lost e.1 true }) 0x07 o.vd o.member 0xFFFF [e.1, 1, d]
      else (s.copyAll (vaultKey d (granBase e.1)) (saveKey o (granSave e.1)) Config.granule).modMember o fun c => { c with saved := Tab.put false c.saved e.1 true }
    | none => s) s
  s.modDie d fun t => { t with gran := t.gran.filter fun e => !moves (col e.1) }

/-- CORE_COLUMN_REPAIR (R17): physical column `b` of die `a` becomes the unused one, once no member context holds the die, for which the wick asks
again every 1 µs (the model's choice, log 54); with `c` = 1 its vaults no longer answer.  The report, telemetry 0x44, is the model's choice
(log 58).  The column belongs to the physical die, so its record names the physical position. -/
def execCoreColumnRepair (s : State) : Outcome :=
  let o := s.subject
  let old := columnOf s o.a
  if Config.dies ≤ o.a ∨ 16 < o.b ∨ old = o.b then .fault .noSuchEvent
  else if (s.die o.a).ctx.isSome then .next (s.after Config.us .coreColumnRepair o)
  else
    let r := repairRecord s 0x101 [positionOf s o.a, o.b]
    if !r.1 then .next r.2
    else
      let s := leaveVaults r.2 o.a (fun x => decide (physColumn old x ≠ physColumn o.b x)) fun x => decide (o.c = 1 ∧ physColumn old x = o.b)
      .next (telemetry (s.modPlatform fun p => { p with columns := Tab.put 16 p.columns (positionOf s o.a) o.b }) 0x44 [o.a, o.b])

/-- DIE_REPLACEMENT (R430): the spare of the row of die `a` is brought up (`b` = 0, 5 ms); it then takes the position at the next relight of the die. -/
def execDieReplacement (s : State) : Outcome :=
  let o := s.subject
  let row := o.a / 16
  if Config.dies ≤ o.a ∨ (s.die o.a).newPosition.isSome then .fault .noSuchEvent
  else if o.b = 0 then
    if Tab.get false s.platform.spareDies row then
      let vds := ((s.members.filter fun e => e.2.live && decide (e.2.die = o.a)).map (·.1 / 256)).eraseDups
      .next (vds.foldl (fun s n => gangEvent s 0x0A n 0xFF 0xFFFF [o.a, positionOf s o.a, 0]) s)
    else
      let r := repairRecord s 0x102 [o.a, 17 * row + 16]
      if !r.1 then .next r.2
      else .next ((r.2.modPlatform fun p => { p with spareDies := Tab.put false p.spareDies row true }).after (5000 * Config.us) .dieReplacement { o with b := 1 })
  else if Tab.get false s.platform.spareDies row then
    .next (s.modDie o.a fun t => { t with newPosition := some (17 * row + 16), power := if t.failed then .gated else t.power,
                                              vaultPower := if t.failed then .active else t.vaultPower })
  else .fault .noSuchEvent

/-! ### Power and cooling (R378, R379) -/

/-- Change every die of the package. -/
def modDies (s : State) (f : Die → Die) : State := (List.range Config.dies).foldl (fun s d => s.modDie d f) s

/-- POWER_SAMPLE (R378): the reading is the sensor's; above the cap every ACTIVE die's duty falls by 1/16. -/
def execPowerSample (s : State) : Outcome :=
  let w := Config.freeValue s.fresh
  let s := s.draw.modPlatform fun p => { p with power := w }
  let cap := s.platform.powerCap
  let s := if cap < w then modDies s fun t => if t.power = .active then { t with duty := max 4 (t.duty - 1) } else t else s
  let s := if 97 * cap ≤ 100 * w then s.modPlatform fun p => { p with lastRaise := s.clk }
    else if s.platform.lastRaise + 1000 * Config.us ≤ s.clk then s.after 0 .dutyRaise {} else s
  .next (s.after (100 * Config.us) .powerSample {})

/-- DUTY_RAISE (R378): 1 ms of samples below 97% of the cap raise the duty by 1/16. -/
def execDutyRaise (s : State) : Outcome :=
  if s.clk < s.platform.lastRaise + 1000 * Config.us ∨ 97 * s.platform.powerCap ≤ 100 * s.platform.power then .fault .noSuchEvent
  else .next ((modDies s fun t => { t with duty := min 16 (t.duty + 1) }).modPlatform fun p => { p with lastRaise := s.clk })

/-- JUNCTION_OVERTEMP (R379): die `a` is at 95 °C or above. -/
def execJunctionOvertemp (s : State) : Outcome :=
  if Config.dies ≤ s.subject.a then .fault .noSuchEvent else .next (s.modDie s.subject.a fun t => { t with dutyCap := 8 })

/-- The coolant is as R379 asks: inlet in tenths of °C, flow in tenths of L/min. -/
def coolantOk (p : Platform) : Bool := decide (p.inlet ≤ 10 * p.inletLimit ∧ 240 ≤ p.flow)

/-- JUNCTION_COOLED (R379): die `a` is below 90 °C; its cap ends, unless the coolant alarm's holds. -/
def execJunctionCooled (s : State) : Outcome :=
  if Config.dies ≤ s.subject.a ∨ (s.die s.subject.a).dutyCap = 16 then .fault .noSuchEvent
  else .next (if coolantOk s.platform then s.modDie s.subject.a fun t => { t with dutyCap := 16 } else s)

/-- COOLANT_ALARM (R379): the inlet at `b` tenths of °C is above its limit, or the flow of `c` tenths of L/min has been too low for 1 s. -/
def execCoolantAlarm (s : State) : Outcome :=
  let s := s.modPlatform fun p => { p with inlet := s.subject.b, flow := s.subject.c }
  if coolantOk s.platform then .fault .noSuchEvent
  else .next ((modDies s fun t => { t with dutyCap := 8 }).report
    { kind := 7, code := 1, vd := 0, member := 0xFF, core := 0xFFFF, clk := s.clk, args := [s.subject.b, s.subject.c] })

/-- THERMAL_STOP (R379): every die stops at a bundle boundary, the rails go off, and a record is written; only a power cycle helps. -/
def execThermalStop (s : State) : Outcome :=
  let s := storeRecord s 0x106 [s.clk]
  .next ((modDies s fun t => { t with power := .off, vaultPower := .off, stopped := true }).modPlatform fun p => { p with stopped := true })

/-- TELEMETRY_SAMPLE (R381): every 1 ms, of which the last 1,024 are kept: readings of the sensors, the IEEE 1588 timestamps of the 16 Ethernet ports
(R354), duties and counters. -/
def execTelemetrySample (s : State) : Outcome :=
  let temps := (List.range 208).map fun i => Config.freeValue (s.fresh + i)
  let row := [s.clk, s.platform.power, s.platform.inlet, s.platform.flow] ++ temps ++ (List.range Config.dies).map (dutyOf s ⟨·, 0⟩)
    ++ s.platform.counters.flatMap fun e => [e.1, e.2]
  let s := { s with fresh := s.fresh + 208 }.modPlatform fun p => { p with samples := (row :: p.samples).take 1024 }
  .next (s.after (1000 * Config.us) .telemetrySample {})

end Sys2Proof.Machine
end

