-- ==== Sys2Proof/Machine/Dispatch.lean ====
section
/-!
DEFINITION. Dispatch.lean: one arm per row of the opcode table.
-/
namespace Sys2Proof.Machine

/-- The meaning of an instruction: an op issued alone by the core in focus, or an event happening to the subject. -/
def exec (i : Instr) (s : State) : Host.Outcome State Fault Refusal :=
  match i with
  | .add o => Sys2Proof.Machine.execAdd o s
  | .sub o => Sys2Proof.Machine.execSub o s
  | .addi o => Sys2Proof.Machine.execAddi o s
  | .mul o => Sys2Proof.Machine.execMul o s
  | .mulhS o => Sys2Proof.Machine.execMulhS o s
  | .mulhZ o => Sys2Proof.Machine.execMulhZ o s
  | .divS o => Sys2Proof.Machine.execDivS o s
  | .divZ o => Sys2Proof.Machine.execDivZ o s
  | .remS o => Sys2Proof.Machine.execRemS o s
  | .remZ o => Sys2Proof.Machine.execRemZ o s
  | .and o => Sys2Proof.Machine.execAnd o s
  | .or o => Sys2Proof.Machine.execOr o s
  | .xor o => Sys2Proof.Machine.execXor o s
  | .andn o => Sys2Proof.Machine.execAndn o s
  | .shl o => Sys2Proof.Machine.execShl o s
  | .shr o => Sys2Proof.Machine.execShr o s
  | .sar o => Sys2Proof.Machine.execSar o s
  | .rotr o => Sys2Proof.Machine.execRotr o s
  | .minS o => Sys2Proof.Machine.execMinS o s
  | .minZ o => Sys2Proof.Machine.execMinZ o s
  | .maxS o => Sys2Proof.Machine.execMaxS o s
  | .maxZ o => Sys2Proof.Machine.execMaxZ o s
  | .clz o => Sys2Proof.Machine.execClz o s
  | .popc o => Sys2Proof.Machine.execPopc o s
  | .sext o => Sys2Proof.Machine.execSext o s
  | .zext o => Sys2Proof.Machine.execZext o s
  | .li o => Sys2Proof.Machine.execLi o s
  | .lea o => Sys2Proof.Machine.execLea o s
  | .sel o => Sys2Proof.Machine.execSel o s
  | .pcmp o => Sys2Proof.Machine.execPcmp o s
  | .pcmpi o => Sys2Proof.Machine.execPcmpi o s
  | .pand o => Sys2Proof.Machine.execPand o s
  | .por o => Sys2Proof.Machine.execPor o s
  | .pxor o => Sys2Proof.Machine.execPxor o s
  | .pnot o => Sys2Proof.Machine.execPnot o s
  | .pmovToPred o => Sys2Proof.Machine.execPmovToPred o s
  | .pmovFromPred o => Sys2Proof.Machine.execPmovFromPred o s
  | .br o => Sys2Proof.Machine.execBr o s
  | .jmp o => Sys2Proof.Machine.execJmp o s
  | .jr o => Sys2Proof.Machine.execJr o s
  | .call o => Sys2Proof.Machine.execCall o s
  | .ret o => Sys2Proof.Machine.execRet o s
  | .lnest o => Sys2Proof.Machine.execLnest o s
  | .lbrk o => Sys2Proof.Machine.execLbrk o s
  | .trap o => Sys2Proof.Machine.execTrap o s
  | .tret o => Sys2Proof.Machine.execTret o s
  | .tretSkip o => Sys2Proof.Machine.execTretSkip o s
  | .rstart o => Sys2Proof.Machine.execRstart o s
  | .crr o => Sys2Proof.Machine.execCrr o s
  | .crw o => Sys2Proof.Machine.execCrw o s
  | .svcMap o => Sys2Proof.Machine.execSvcMap o s
  | .svcUnmap o => Sys2Proof.Machine.execSvcUnmap o s
  | .svcProtect o => Sys2Proof.Machine.execSvcProtect o s
  | .svcReport o => Sys2Proof.Machine.execSvcReport o s
  | .yield o => Sys2Proof.Machine.execYield o s
  | .await o => Sys2Proof.Machine.execAwait o s
  | .done o => Sys2Proof.Machine.execDone o s
  | .park o => Sys2Proof.Machine.execPark o s
  | .spawn o => Sys2Proof.Machine.execSpawn o s
  | .halt o => Sys2Proof.Machine.execHalt o s
  | .nswOn o => Sys2Proof.Machine.execNswOn o s
  | .nswOff o => Sys2Proof.Machine.execNswOff o s
  | .dim o => Sys2Proof.Machine.execDim o s
  | .vadd u o => Sys2Proof.Machine.execVadd u o s
  | .vsub u o => Sys2Proof.Machine.execVsub u o s
  | .vmul u o => Sys2Proof.Machine.execVmul u o s
  | .vmin u o => Sys2Proof.Machine.execVmin u o s
  | .vmax u o => Sys2Proof.Machine.execVmax u o s
  | .vabs u o => Sys2Proof.Machine.execVabs u o s
  | .vneg u o => Sys2Proof.Machine.execVneg u o s
  | .vmulh u o => Sys2Proof.Machine.execVmulh u o s
  | .vadds u o => Sys2Proof.Machine.execVadds u o s
  | .vsubs u o => Sys2Proof.Machine.execVsubs u o s
  | .vfmaF32 u o => Sys2Proof.Machine.execVfmaF32 u o s
  | .vfmaF16 u o => Sys2Proof.Machine.execVfmaF16 u o s
  | .vfmaBf16 u o => Sys2Proof.Machine.execVfmaBf16 u o s
  | .vfmsF32 u o => Sys2Proof.Machine.execVfmsF32 u o s
  | .vfmsF16 u o => Sys2Proof.Machine.execVfmsF16 u o s
  | .vfmsBf16 u o => Sys2Proof.Machine.execVfmsBf16 u o s
  | .vfnmaF32 u o => Sys2Proof.Machine.execVfnmaF32 u o s
  | .vfnmaF16 u o => Sys2Proof.Machine.execVfnmaF16 u o s
  | .vfnmaBf16 u o => Sys2Proof.Machine.execVfnmaBf16 u o s
  | .vclampF32 u o => Sys2Proof.Machine.execVclampF32 u o s
  | .vclampS32 u o => Sys2Proof.Machine.execVclampS32 u o s
  | .vclampZ32 u o => Sys2Proof.Machine.execVclampZ32 u o s
  | .vrcp u o => Sys2Proof.Machine.execVrcp u o s
  | .vrsqrt u o => Sys2Proof.Machine.execVrsqrt u o s
  | .vsqrt u o => Sys2Proof.Machine.execVsqrt u o s
  | .vexp2 u o => Sys2Proof.Machine.execVexp2 u o s
  | .vlog2 u o => Sys2Proof.Machine.execVlog2 u o s
  | .vcmp u o => Sys2Proof.Machine.execVcmp u o s
  | .vsel u o => Sys2Proof.Machine.execVsel u o s
  | .vmovpAny u o => Sys2Proof.Machine.execVmovpAny u o s
  | .vmovpAll u o => Sys2Proof.Machine.execVmovpAll u o s
  | .vmovpV u o => Sys2Proof.Machine.execVmovpV u o s
  | .vtst u o => Sys2Proof.Machine.execVtst u o s
  | .vtstSum u o => Sys2Proof.Machine.execVtstSum u o s
  | .vand u o => Sys2Proof.Machine.execVand u o s
  | .vor u o => Sys2Proof.Machine.execVor u o s
  | .vxor u o => Sys2Proof.Machine.execVxor u o s
  | .vnot u o => Sys2Proof.Machine.execVnot u o s
  | .vshl u o => Sys2Proof.Machine.execVshl u o s
  | .vshr u o => Sys2Proof.Machine.execVshr u o s
  | .vsar u o => Sys2Proof.Machine.execVsar u o s
  | .vcvt u o => Sys2Proof.Machine.execVcvt u o s
  | .vquant u o => Sys2Proof.Machine.execVquant u o s
  | .vpack u o => Sys2Proof.Machine.execVpack u o s
  | .vunpack u o => Sys2Proof.Machine.execVunpack u o s
  | .vbcast u o => Sys2Proof.Machine.execVbcast u o s
  | .vshuf u o => Sys2Proof.Machine.execVshuf u o s
  | .vrot u o => Sys2Proof.Machine.execVrot u o s
  | .vidx u o => Sys2Proof.Machine.execVidx u o s
  | .vredadd u o => Sys2Proof.Machine.execVredadd u o s
  | .vredmax u o => Sys2Proof.Machine.execVredmax u o s
  | .vredmin u o => Sys2Proof.Machine.execVredmin u o s
  | .vscan u o => Sys2Proof.Machine.execVscan u o s
  | .vcpush u o => Sys2Proof.Machine.execVcpush u o s
  | .vcpop u o => Sys2Proof.Machine.execVcpop u o s
  | .vcbal u o => Sys2Proof.Machine.execVcbal u o s
  | .mm o => Sys2Proof.Machine.execMm o s
  | .mmz o => Sys2Proof.Machine.execMmz o s
  | .mzero o => Sys2Proof.Machine.execMzero o s
  | .mldt o => Sys2Proof.Machine.execMldt o s
  | .msdt o => Sys2Proof.Machine.execMsdt o s
  | .mtr o => Sys2Proof.Machine.execMtr o s
  | .macc o => Sys2Proof.Machine.execMacc o s
  | .mcvt o => Sys2Proof.Machine.execMcvt o s
  | .mscal o => Sys2Proof.Machine.execMscal o s
  | .ldS8I o => Sys2Proof.Machine.execLdS8I o s
  | .ldS8W o => Sys2Proof.Machine.execLdS8W o s
  | .ldZ8I o => Sys2Proof.Machine.execLdZ8I o s
  | .ldZ8W o => Sys2Proof.Machine.execLdZ8W o s
  | .ldS16I o => Sys2Proof.Machine.execLdS16I o s
  | .ldS16W o => Sys2Proof.Machine.execLdS16W o s
  | .ldZ16I o => Sys2Proof.Machine.execLdZ16I o s
  | .ldZ16W o => Sys2Proof.Machine.execLdZ16W o s
  | .ldS32I o => Sys2Proof.Machine.execLdS32I o s
  | .ldS32W o => Sys2Proof.Machine.execLdS32W o s
  | .ldZ32I o => Sys2Proof.Machine.execLdZ32I o s
  | .ldZ32W o => Sys2Proof.Machine.execLdZ32W o s
  | .ld64I o => Sys2Proof.Machine.execLd64I o s
  | .ld64W o => Sys2Proof.Machine.execLd64W o s
  | .st8I o => Sys2Proof.Machine.execSt8I o s
  | .st8W o => Sys2Proof.Machine.execSt8W o s
  | .st16I o => Sys2Proof.Machine.execSt16I o s
  | .st16W o => Sys2Proof.Machine.execSt16W o s
  | .st32I o => Sys2Proof.Machine.execSt32I o s
  | .st32W o => Sys2Proof.Machine.execSt32W o s
  | .st64I o => Sys2Proof.Machine.execSt64I o s
  | .st64W o => Sys2Proof.Machine.execSt64W o s
  | .vldI o => Sys2Proof.Machine.execVldI o s
  | .vldW o => Sys2Proof.Machine.execVldW o s
  | .vstI o => Sys2Proof.Machine.execVstI o s
  | .vstW o => Sys2Proof.Machine.execVstW o s
  | .vstSumI o => Sys2Proof.Machine.execVstSumI o s
  | .vstSumW o => Sys2Proof.Machine.execVstSumW o s
  | .ldAcq32 o => Sys2Proof.Machine.execLdAcq32 o s
  | .ldAcq64 o => Sys2Proof.Machine.execLdAcq64 o s
  | .stRel32 o => Sys2Proof.Machine.execStRel32 o s
  | .stRel64 o => Sys2Proof.Machine.execStRel64 o s
  | .ldfeKeep o => Sys2Proof.Machine.execLdfeKeep o s
  | .ldfeTake o => Sys2Proof.Machine.execLdfeTake o s
  | .stfeFill o => Sys2Proof.Machine.execStfeFill o s
  | .fechk o => Sys2Proof.Machine.execFechk o s
  | .feset o => Sys2Proof.Machine.execFeset o s
  | .feclr o => Sys2Proof.Machine.execFeclr o s
  | .fenceC o => Sys2Proof.Machine.execFenceC o s
  | .fenceD o => Sys2Proof.Machine.execFenceD o s
  | .fenceG o => Sys2Proof.Machine.execFenceG o s
  | .amoAdd32 o => Sys2Proof.Machine.execAmoAdd32 o s
  | .amoAnd32 o => Sys2Proof.Machine.execAmoAnd32 o s
  | .amoOr32 o => Sys2Proof.Machine.execAmoOr32 o s
  | .amoXor32 o => Sys2Proof.Machine.execAmoXor32 o s
  | .amoMaxS32 o => Sys2Proof.Machine.execAmoMaxS32 o s
  | .amoMaxZ32 o => Sys2Proof.Machine.execAmoMaxZ32 o s
  | .amoMinS32 o => Sys2Proof.Machine.execAmoMinS32 o s
  | .amoMinZ32 o => Sys2Proof.Machine.execAmoMinZ32 o s
  | .amoSwap32 o => Sys2Proof.Machine.execAmoSwap32 o s
  | .cas32 o => Sys2Proof.Machine.execCas32 o s
  | .amoFaddF32 o => Sys2Proof.Machine.execAmoFaddF32 o s
  | .amoFaddBf16 o => Sys2Proof.Machine.execAmoFaddBf16 o s
  | .amoFmaxF32 o => Sys2Proof.Machine.execAmoFmaxF32 o s
  | .amoAdd64 o => Sys2Proof.Machine.execAmoAdd64 o s
  | .amoAnd64 o => Sys2Proof.Machine.execAmoAnd64 o s
  | .amoOr64 o => Sys2Proof.Machine.execAmoOr64 o s
  | .amoXor64 o => Sys2Proof.Machine.execAmoXor64 o s
  | .amoMaxS64 o => Sys2Proof.Machine.execAmoMaxS64 o s
  | .amoMaxZ64 o => Sys2Proof.Machine.execAmoMaxZ64 o s
  | .amoMinS64 o => Sys2Proof.Machine.execAmoMinS64 o s
  | .amoMinZ64 o => Sys2Proof.Machine.execAmoMinZ64 o s
  | .amoSwap64 o => Sys2Proof.Machine.execAmoSwap64 o s
  | .cas64 o => Sys2Proof.Machine.execCas64 o s
  | .ldt o => Sys2Proof.Machine.execLdt o s
  | .vldt o => Sys2Proof.Machine.execVldt o s
  | .sdef o => Sys2Proof.Machine.execSdef o s
  | .ssetBase o => Sys2Proof.Machine.execSsetBase o s
  | .ssetSpace o => Sys2Proof.Machine.execSsetSpace o s
  | .ssetRstride o => Sys2Proof.Machine.execSsetRstride o s
  | .ssetCtl o => Sys2Proof.Machine.execSsetCtl o s
  | .ssetSbase o => Sys2Proof.Machine.execSsetSbase o s
  | .ssetSstride o => Sys2Proof.Machine.execSsetSstride o s
  | .sadv o => Sys2Proof.Machine.execSadv o s
  | .fbind o => Sys2Proof.Machine.execFbind o s
  | .fpush o => Sys2Proof.Machine.execFpush o s
  | .fpop o => Sys2Proof.Machine.execFpop o s
  | .stm64 o => Sys2Proof.Machine.execStm64 o s
  | .stmV o => Sys2Proof.Machine.execStmV o s
  | .cpy o => Sys2Proof.Machine.execCpy o s
  | .cpyr o => Sys2Proof.Machine.execCpyr o s
  | .coll o => Sys2Proof.Machine.execColl o s
  | .binit o => Sys2Proof.Machine.execBinit o s
  | .bexp o => Sys2Proof.Machine.execBexp o s
  | .barr o => Sys2Proof.Machine.execBarr o s
  | .bwait o => Sys2Proof.Machine.execBwait o s
  | .sred o => Sys2Proof.Machine.execSred o s
  | .ifill o => Sys2Proof.Machine.execIfill o s
  | .pref o => Sys2Proof.Machine.execPref o s
  | .trig o => Sys2Proof.Machine.execTrig o s
  | .sig o => Sys2Proof.Machine.execSig o s
  | .wdraw o => Sys2Proof.Machine.execWdraw o s
  | .jobq o => Sys2Proof.Machine.execJobq o s
  | .heat o => Sys2Proof.Machine.execHeat o s
  | .mig o => Sys2Proof.Machine.execMig o s
  | .bundleIssue => Sys2Proof.Machine.execBundleIssue s
  | .resultWriteback => Sys2Proof.Machine.execResultWriteback s
  | .taggedResultLand => Sys2Proof.Machine.execTaggedResultLand s
  | .timingTrap => Sys2Proof.Machine.execTimingTrap s
  | .deferredFaultFound => Sys2Proof.Machine.execDeferredFaultFound s
  | .trapEntry => Sys2Proof.Machine.execTrapEntry s
  | .abortedWrite => Sys2Proof.Machine.execAbortedWrite s
  | .nswWindowExceeded => Sys2Proof.Machine.execNswWindowExceeded s
  | .nswWindowKill => Sys2Proof.Machine.execNswWindowKill s
  | .clockGate => Sys2Proof.Machine.execClockGate s
  | .powerGate => Sys2Proof.Machine.execPowerGate s
  | .hangtExpiry => Sys2Proof.Machine.execHangtExpiry s
  | .panePlacement => Sys2Proof.Machine.execPanePlacement s
  | .taskDispatch => Sys2Proof.Machine.execTaskDispatch s
  | .granuleSequenceEnd => Sys2Proof.Machine.execGranuleSequenceEnd s
  | .translationWalkEnd => Sys2Proof.Machine.execTranslationWalkEnd s
  | .reductionDrain => Sys2Proof.Machine.execReductionDrain s
  | .heatDecay => Sys2Proof.Machine.execHeatDecay s
  | .migrationRequest => Sys2Proof.Machine.execMigrationRequest s
  | .migrationHoldTimeout => Sys2Proof.Machine.execMigrationHoldTimeout s
  | .eccError => Sys2Proof.Machine.execEccError s
  | .hbmScrub => Sys2Proof.Machine.execHbmScrub s
  | .vaultScrub => Sys2Proof.Machine.execVaultScrub s
  | .retirementRecordRetry => Sys2Proof.Machine.execRetirementRecordRetry s
  | .translationInvalidate => Sys2Proof.Machine.execTranslationInvalidate s
  | .inval => Sys2Proof.Machine.execInval s
  | .slotQuantumEnd => Sys2Proof.Machine.execSlotQuantumEnd s
  | .snuff => Sys2Proof.Machine.execSnuff s
  | .countLatch => Sys2Proof.Machine.execCountLatch s
  | .refuse => Sys2Proof.Machine.execRefuse s
  | .count => Sys2Proof.Machine.execCount s
  | .sumreq => Sys2Proof.Machine.execSumreq s
  | .drainDeadline => Sys2Proof.Machine.execDrainDeadline s
  | .hold => Sys2Proof.Machine.execHold s
  | .held => Sys2Proof.Machine.execHeld s
  | .abort => Sys2Proof.Machine.execAbort s
  | .backoffEnd => Sys2Proof.Machine.execBackoffEnd s
  | .relight => Sys2Proof.Machine.execRelight s
  | .lit => Sys2Proof.Machine.execLit s
  | .votePartyTimeout => Sys2Proof.Machine.execVotePartyTimeout s
  | .collapseRequest => Sys2Proof.Machine.execCollapseRequest s
  | .idleTimeout => Sys2Proof.Machine.execIdleTimeout s
  | .collapseWork => Sys2Proof.Machine.execCollapseWork s
  | .strike => Sys2Proof.Machine.execStrike s
  | .wakeLate => Sys2Proof.Machine.execWakeLate s
  | .beaconTimer => Sys2Proof.Machine.execBeaconTimer s
  | .beacon => Sys2Proof.Machine.execBeacon s
  | .stampWaitApply => Sys2Proof.Machine.execStampWaitApply s
  | .stampWaitTimeout => Sys2Proof.Machine.execStampWaitTimeout s
  | .switchPacketForward => Sys2Proof.Machine.execSwitchPacketForward s
  | .writePacket => Sys2Proof.Machine.execWritePacket s
  | .readPacket => Sys2Proof.Machine.execReadPacket s
  | .rdresp => Sys2Proof.Machine.execRdresp s
  | .atomicPacket => Sys2Proof.Machine.execAtomicPacket s
  | .atresp => Sys2Proof.Machine.execAtresp s
  | .ackPacket => Sys2Proof.Machine.execAckPacket s
  | .feop => Sys2Proof.Machine.execFeop s
  | .fifoPacket => Sys2Proof.Machine.execFifoPacket s
  | .cdata => Sys2Proof.Machine.execCdata s
  | .demand => Sys2Proof.Machine.execDemand s
  | .sredPacket => Sys2Proof.Machine.execSredPacket s
  | .sres => Sys2Proof.Machine.execSres s
  | .cflush => Sys2Proof.Machine.execCflush s
  | .tkreq => Sys2Proof.Machine.execTkreq s
  | .tkcall => Sys2Proof.Machine.execTkcall s
  | .bartok => Sys2Proof.Machine.execBartok s
  | .rateLimitRise => Sys2Proof.Machine.execRateLimitRise s
  | .ticketWindowEnd => Sys2Proof.Machine.execTicketWindowEnd s
  | .ticketCall => Sys2Proof.Machine.execTicketCall s
  | .retransmitTimeout => Sys2Proof.Machine.execRetransmitTimeout s
  | .linkTraining => Sys2Proof.Machine.execLinkTraining s
  | .laneDetectTimeout => Sys2Proof.Machine.execLaneDetectTimeout s
  | .laneFailure => Sys2Proof.Machine.execLaneFailure s
  | .bufferBankError => Sys2Proof.Machine.execBufferBankError s
  | .switchHeartbeatLoss => Sys2Proof.Machine.execSwitchHeartbeatLoss s
  | .switchTakeover => Sys2Proof.Machine.execSwitchTakeover s
  | .jobActivate => Sys2Proof.Machine.execJobActivate s
  | .chunkIssue => Sys2Proof.Machine.execChunkIssue s
  | .chunkBoundary => Sys2Proof.Machine.execChunkBoundary s
  | .jobOutFill => Sys2Proof.Machine.execJobOutFill s
  | .jobBarrierArrival => Sys2Proof.Machine.execJobBarrierArrival s
  | .jobSignalWrite => Sys2Proof.Machine.execJobSignalWrite s
  | .triggerFire => Sys2Proof.Machine.execTriggerFire s
  | .fifoOutTransfer => Sys2Proof.Machine.execFifoOutTransfer s
  | .fifoLoadFetch => Sys2Proof.Machine.execFifoLoadFetch s
  | .stepEnd => Sys2Proof.Machine.execStepEnd s
  | .stepSend => Sys2Proof.Machine.execStepSend s
  | .stepRecv => Sys2Proof.Machine.execStepRecv s
  | .stepRrs => Sys2Proof.Machine.execStepRrs s
  | .stepRrd => Sys2Proof.Machine.execStepRrd s
  | .stepCopy => Sys2Proof.Machine.execStepCopy s
  | .stepWait => Sys2Proof.Machine.execStepWait s
  | .stepSignal => Sys2Proof.Machine.execStepSignal s
  | .stepLoop => Sys2Proof.Machine.execStepLoop s
  | .stepEndl => Sys2Proof.Machine.execStepEndl s
  | .stepPeer => Sys2Proof.Machine.execStepPeer s
  | .stepBar => Sys2Proof.Machine.execStepBar s
  | .collectiveAbortNotice => Sys2Proof.Machine.execCollectiveAbortNotice s
  | .reductionSlotDeadline => Sys2Proof.Machine.execReductionSlotDeadline s
  | .slotLingerEnd => Sys2Proof.Machine.execSlotLingerEnd s
  | .launchPacket => Sys2Proof.Machine.execLaunchPacket s
  | .tasksPacket => Sys2Proof.Machine.execTasksPacket s
  | .copyPacket => Sys2Proof.Machine.execCopyPacket s
  | .fencePacket => Sys2Proof.Machine.execFencePacket s
  | .fenceCounterPoll => Sys2Proof.Machine.execFenceCounterPoll s
  | .signalPacket => Sys2Proof.Machine.execSignalPacket s
  | .strikePacket => Sys2Proof.Machine.execStrikePacket s
  | .dimPacket => Sys2Proof.Machine.execDimPacket s
  | .barrierPacket => Sys2Proof.Machine.execBarrierPacket s
  | .nopPacket => Sys2Proof.Machine.execNopPacket s
  | .packetCompletion => Sys2Proof.Machine.execPacketCompletion s
  | .queueDoorbell => Sys2Proof.Machine.execQueueDoorbell s
  | .queuePoll => Sys2Proof.Machine.execQueuePoll s
  | .vdCreate => Sys2Proof.Machine.execVdCreate s
  | .vdReset => Sys2Proof.Machine.execVdReset s
  | .vdDestroy => Sys2Proof.Machine.execVdDestroy s
  | .vaultload => Sys2Proof.Machine.execVaultload s
  | .scheduleChange => Sys2Proof.Machine.execScheduleChange s
  | .liveMigration => Sys2Proof.Machine.execLiveMigration s
  | .stubForward => Sys2Proof.Machine.execStubForward s
  | .stubExpiry => Sys2Proof.Machine.execStubExpiry s
  | .endpointCreate => Sys2Proof.Machine.execEndpointCreate s
  | .endpointSetupTimeout => Sys2Proof.Machine.execEndpointSetupTimeout s
  | .ethPortSplit => Sys2Proof.Machine.execEthPortSplit s
  | .ethWrite => Sys2Proof.Machine.execEthWrite s
  | .ethRead => Sys2Proof.Machine.execEthRead s
  | .ethRddata => Sys2Proof.Machine.execEthRddata s
  | .ethAck => Sys2Proof.Machine.execEthAck s
  | .ethNote => Sys2Proof.Machine.execEthNote s
  | .ethEcho => Sys2Proof.Machine.execEthEcho s
  | .ethSetup => Sys2Proof.Machine.execEthSetup s
  | .ethKeep => Sys2Proof.Machine.execEthKeep s
  | .ethBusy => Sys2Proof.Machine.execEthBusy s
  | .ethKeepaliveTimer => Sys2Proof.Machine.execEthKeepaliveTimer s
  | .ethAckTimer => Sys2Proof.Machine.execEthAckTimer s
  | .ethRetransmitTimeout => Sys2Proof.Machine.execEthRetransmitTimeout s
  | .ethRateRise => Sys2Proof.Machine.execEthRateRise s
  | .powerOnReset => Sys2Proof.Machine.execPowerOnReset s
  | .recoveryImage => Sys2Proof.Machine.execRecoveryImage s
  | .wickUpdate => Sys2Proof.Machine.execWickUpdate s
  | .wickUpdateTimeout => Sys2Proof.Machine.execWickUpdateTimeout s
  | .managementDieTakeover => Sys2Proof.Machine.execManagementDieTakeover s
  | .coreColumnRepair => Sys2Proof.Machine.execCoreColumnRepair s
  | .dieReplacement => Sys2Proof.Machine.execDieReplacement s
  | .powerSample => Sys2Proof.Machine.execPowerSample s
  | .dutyRaise => Sys2Proof.Machine.execDutyRaise s
  | .junctionOvertemp => Sys2Proof.Machine.execJunctionOvertemp s
  | .coolantAlarm => Sys2Proof.Machine.execCoolantAlarm s
  | .thermalStop => Sys2Proof.Machine.execThermalStop s
  | .telemetrySample => Sys2Proof.Machine.execTelemetrySample s
  | .outsidePortTimeout => Sys2Proof.Machine.execOutsidePortTimeout s
  | .outsidePortLost => Sys2Proof.Machine.execOutsidePortLost s
  | .securityViolation => Sys2Proof.Machine.execSecurityViolation s
  | .unfreezeRequest => Sys2Proof.Machine.execUnfreezeRequest s
  | .attestation => Sys2Proof.Machine.execAttestation s
  | .svcReply => Sys2Proof.Machine.execSvcReply s
  | .migrationComplete => Sys2Proof.Machine.execMigrationComplete s
  | .hostPortAccess => Sys2Proof.Machine.execHostPortAccess s
  | .powerLoss => Sys2Proof.Machine.execPowerLoss s
  | .junctionCooled => Sys2Proof.Machine.execJunctionCooled s
  | .pairRekey => Sys2Proof.Machine.execPairRekey s

end Sys2Proof.Machine
end

