-- ==== Sys2Proof/Machine/Step.lean ====
section
/-!
DEFINITION. Step.lean: one step of the package.  Within a clk, what is due happens first, then results land, late and throttled cores freeze,
traps are entered, work ends and bundles issue, lowest core first; when nothing is left in this clk, CYCLE advances (R173, R175, R385).
-/
namespace Sys2Proof.Machine

/-- What is due at a time happens; an event that cannot happen any more is dropped. -/
def runDue (a : Act) (s : State) : Outcome :=
  match a with
  | .perform id => .next (performId s id)
  | .event i o =>
    match exec i { s with subject := o } with
    | .next t => .next t
    | .fault _ => .next s
    | .refused r => .refused r

/-- One thing a core does in this clk, if any. -/
def coreTurn (s : State) : Option Outcome :=
  match firstCore s (heldDue s) with
  | some k => some (.next (s.modCore k fun c => c.freeze s.clk))
  | none =>
  match firstCore s (landingDue s) with
  | some k => some (exec .resultWriteback { s with subject := { k := k } })
  | none =>
  match firstCore s (freezeDue s) with
  | some k => some (if timingDue s k then exec .timingTrap { s with subject := { k := k } } else .next (lateFreeze s k))
  | none =>
  match firstCore s (fun k => entryDue s k && !stopped s k) with
  | some k => some (exec .trapEntry { s with subject := { k := k } })
  | none =>
  match firstCore s (fun k => endingDue s k && !stopped s k) with
  | some k => some (.next (endCore s k))
  | none =>
  match firstCore s (issueDue s) with
  | some k => some (exec .bundleIssue { s with subject := { k := k }, focus := k })
  | none => none

/-- One step.  After a thermal stop nothing happens but the passing of time (R379). -/
def step (s : State) : Host.Outcome State Fault Refusal :=
  if s.platform.stopped then .next { s with clk := s.clk + 1 }
  else match nextDue s with
    | some x => runDue x.act { s with agenda := s.agenda.erase x }
    | none => match coreTurn s with
      | some r => r
      | none => .next { s with clk := s.clk + 1 }

/-- s with one bundle at the PC of core 0 of die 0, which runs a pane of member 0 of VD 1, with nothing else to be done first. -/
def State.withFetchWord (s : State) (nbits w : Nat) : State := placeBundle s (BitVec.ofNat 512 (w % 2 ^ nbits))

end Sys2Proof.Machine
end

