-- ==== Sys2Proof/Safety.lean ====
section
/-!
DEFINITION. Safety.lean: the terms the statements use: a safe step, canonical memory, a core that is ready to issue one op, and what
the issue of one op changes.
-/
namespace Sys2Proof.Machine

/-- A step is safe when the machine goes on. -/
def Safe (s : State) : Prop := ∃ t, step s = .next t

/-- Memory is in its canonical form: addresses strictly rising, no entry equal to what an unlisted address reads as. -/
def Memory.wf (m : Mem) : Bool := Tab.wf 0 m

/-- The core in focus. -/
abbrev State.here (s : State) : Core := s.core s.focus

/-- The schedule clk of the core in focus. -/
abbrev State.now (s : State) : Nat := schedOf s s.here

/-- Nothing but an op's own checks stands between the core in focus and the issue of a bundle that carries that op alone, with
predicate and tag fields `h`: the core runs, no no-switch window has run out (R218), the core is not gated (R52), its IMEM word has no
error (R463), it does not stand at the END bundle of a nest, whose header must say so (R402), the tags it names are ready (R176), and no earlier access holds it (R271, R278). -/
def ready (s : State) (h : Head) : Bool :=
  running s s.focus && !nswDue s s.focus && decide (s.here.gate = .none) && !Tab.get false s.here.imemPoison s.here.pc
    && !(s.here.nestOn && decide (s.here.pc = s.here.nest.stop % 2048)) && !s.here.tagBusy h.tc0.toNat && !s.here.tagBusy h.tc1.toNat && !s.here.tagBusy h.ta.toNat
    && s.here.waitFor.isEmpty

/-- The predicate of an op holds (R167). -/
def holds (s : State) (h : Head) : Bool := (headMask s.here h).getLsbD 0

/-- The latch operands of a list can be read (R84). -/
def latched (s : State) (l : List Operand) : Bool := l.all fun o => (latchFault s.here s.now o).isNone

/-- No result in flight lands on this core in the schedule clk `t` (R177). -/
def clearAt (s : State) (t : Nat) : Bool := (inFlight s.here).all fun e => decide (e.1 ≠ t)

/-- Everything but the cores, the accesses under way and the agenda is as it was; of the cores only the one in focus may differ. -/
structure Kept (s t : State) : Prop where
  clk : t.clk = s.clk
  focus : t.focus = s.focus
  mem : t.mem = s.mem
  fe : t.fe = s.fe
  poison : t.poison = s.poison
  paused : t.paused = s.paused
  dies : t.dies = s.dies
  switches : t.switches = s.switches
  members : t.members = s.members
  vds : t.vds = s.vds
  gc : t.gc = s.gc
  wicks : t.wicks = s.wicks
  migrations : t.migrations = s.migrations
  platform : t.platform = s.platform
  reports : t.reports = s.reports
  others : ∀ k, coreKey k ≠ coreKey s.focus → t.core k = s.core k

/-- Everything but the core in focus is as it was. -/
structure OnlyHere (s t : State) : Prop where
  kept : Kept s t
  accesses : t.accesses = s.accesses
  agenda : t.agenda = s.agenda

/-- The result an op issued now in slot `sl` sends: it lands `lat` schedule clk later (R85). -/
def sent (s : State) (sl : Slot) (lat : Nat) (d : Dest) (v : Val) : Result :=
  { rid := s.nextId, slot := sl.num, due := s.now + lat, dest := d, val := v, deliver := 0, tag := 0, tval := 0 }

/-- The latch entry of an op issued now (R84). -/
def latchOf (s : State) (sl : Slot) (lat : Nat) (v : LatchVal) : BundleRec := [⟨sl.num, s.nextId, s.now + lat, v⟩]

/-- The core in focus after it has issued one op: its results are on their way, its latch entry is in the history of the level, the
busy table is `busy`, and the next bundle is `pc` at schedule clk `nx`. -/
def issuedCore (s : State) (rs : List Result) (lt : BundleRec) (busy : Tab Nat) (pc nx : Nat) : Core :=
  ({ s.here with waited := 0, late := 0, results := s.here.results ++ rs, busy := busy, pc := pc, next := nx }).pushHist s.here.tl lt

/-- One op has issued: nothing but the core in focus has changed, and that core as `issuedCore` says.  No register, operand file,
predicate, special register or byte of memory changes at issue; the results land later (R85). -/
structure Issued (s t : State) (rs : List Result) (lt : BundleRec) (busy : Tab Nat) (pc nx : Nat) : Prop where
  only : OnlyHere s t
  core : t.core s.focus = issuedCore s rs lt busy pc nx

/-- The access an op in slot number `sl` starts now. -/
def accessOf (s : State) (sl : Nat) (kind : AccKind) (ea : Dword) (size : Nat) (dest : Dest) (tag rid : Nat) (rel : Bool) : Access :=
  { id := s.nextId + 2, k := s.focus, vd := (s.ctxD s.focus).vd, member := (s.ctxD s.focus).member, slot := sl, pc := s.here.pc,
    issue := s.clk, ea := ea, size := size, kind := kind, dest := dest, tag := tag, rid := rid, st := .travel, rel := rel }

/-- One op has issued and started one access, which reaches its point at clk `due`: memory is as it was, the op's tag is not ready
(R176), and the core goes on as in `Issued`; with `wait` later bundles wait for the access (R271, R278). -/
structure Started (s t : State) (a : Access) (due : Nat) (rs : List Result) (lt : BundleRec) (wait : Bool) : Prop where
  kept : Kept s t
  accesses : t.accesses = s.accesses ++ [a]
  agenda : t.agenda = s.agenda ++ [⟨due, .perform a.id⟩]
  core : t.core s.focus =
    { issuedCore s rs lt s.here.busy ((s.here.pc + 1) % 2048) (s.now + 1) with
        tags := if a.tag = 0 then s.here.tags else Tab.put 0 s.here.tags a.tag (a.id + 1),
        waitFor := if wait then [a.id] else [] }

/-- An op with one fixed-latency 64-bit result has issued, and issue goes on at the next bundle (R173, R174, R191). -/
def IssuedValue (s t : State) (sl : Slot) (lat : Nat) (d : Dest) (v : Dword) : Prop :=
  Issued s t [sent s sl lat d (.s v)] (latchOf s sl lat (.s v)) s.here.busy ((s.here.pc + 1) % 2048) (s.now + 1)

/-- Element e, w bits wide, of a vector (R220). -/
def vElem (w e : Nat) (v : Vec) : Nat := v.toNat / 2 ^ (w * e) % 2 ^ w

end Sys2Proof.Machine
end

