-- ==== Sys2Proof/Certificates/Slice0/Obligations.lean ====
section
/-!
DEFINITION. Certificates/Slice0/Obligations.lean: the statements for the provers.  Each docstring names the rules of spec/ it formalises.

Every statement about an op says when it answers a next state, and which: `ready` (Safety.lean) holds what the issue of any lone op needs,
`holds` that its predicate is 1, `latched` that its latch operands can be read, `clearAt` that no result in flight lands in the clk of
its own.
-/
open Sys2Proof Sys2Proof.Machine

/-! ### Scalar ops -/

/-- The result of the integer and addressing ops by the tables of R192, R194, R195 and R196: head, source operands, latency, destination,
value. -/
def Sys2Proof.Machine.scalarForm (c : Core) : Instr → Option (Head × List Operand × Nat × Dest × Dword)
  | .add o => some (o.h, [o.a, o.b], 1, sDest 0 o.d, readS c 0 o.a + readS c 0 o.b)
  | .sub o => some (o.h, [o.a, o.b], 1, sDest 0 o.d, readS c 0 o.a - readS c 0 o.b)
  | .addi o => some (o.h, [o.a], 1, sDest 0 o.d, readS c 0 o.a + BitVec.signExtend 64 o.imm)
  | .mul o => some (o.h, [o.a, o.b], 3, sDest 0 o.d, readS c 0 o.a * readS c 0 o.b)
  | .mulhS o => some (o.h, [o.a, o.b], 3, sDest 0 o.d,
      BitVec.ofInt 64 ((readS c 0 o.a).toInt * (readS c 0 o.b).toInt / 2 ^ 64))
  | .mulhZ o => some (o.h, [o.a, o.b], 3, sDest 0 o.d,
      BitVec.ofNat 64 ((readS c 0 o.a).toNat * (readS c 0 o.b).toNat / 2 ^ 64))
  | .and o => some (o.h, [o.a, o.b], 1, sDest 0 o.d, readS c 0 o.a &&& readS c 0 o.b)
  | .or o => some (o.h, [o.a, o.b], 1, sDest 0 o.d, readS c 0 o.a ||| readS c 0 o.b)
  | .xor o => some (o.h, [o.a, o.b], 1, sDest 0 o.d, readS c 0 o.a ^^^ readS c 0 o.b)
  | .andn o => some (o.h, [o.a, o.b], 1, sDest 0 o.d, readS c 0 o.a &&& ~~~readS c 0 o.b)
  | .shl o => some (o.h, [o.a, o.b], 1, sDest 0 o.d, readS c 0 o.a <<< ((readS c 0 o.b).toNat % 64))
  | .shr o => some (o.h, [o.a, o.b], 1, sDest 0 o.d, readS c 0 o.a >>> ((readS c 0 o.b).toNat % 64))
  | .sar o => some (o.h, [o.a, o.b], 1, sDest 0 o.d, (readS c 0 o.a).sshiftRight ((readS c 0 o.b).toNat % 64))
  | .rotr o => some (o.h, [o.a, o.b], 1, sDest 0 o.d, (readS c 0 o.a).rotateRight ((readS c 0 o.b).toNat % 64))
  | .minS o => some (o.h, [o.a, o.b], 1, sDest 0 o.d, if (readS c 0 o.b).toInt < (readS c 0 o.a).toInt then readS c 0 o.b else readS c 0 o.a)
  | .minZ o => some (o.h, [o.a, o.b], 1, sDest 0 o.d, if (readS c 0 o.b).toNat < (readS c 0 o.a).toNat then readS c 0 o.b else readS c 0 o.a)
  | .maxS o => some (o.h, [o.a, o.b], 1, sDest 0 o.d, if (readS c 0 o.a).toInt < (readS c 0 o.b).toInt then readS c 0 o.b else readS c 0 o.a)
  | .maxZ o => some (o.h, [o.a, o.b], 1, sDest 0 o.d, if (readS c 0 o.a).toNat < (readS c 0 o.b).toNat then readS c 0 o.b else readS c 0 o.a)
  | .clz o => some (o.h, [o.a], 1, sDest 0 o.d, clz64 (readS c 0 o.a))
  | .popc o => some (o.h, [o.a], 1, sDest 0 o.d, BitVec.ofNat 64 ((List.range 64).countP fun i => (readS c 0 o.a).getLsbD i))
  | .sext o => some (o.h, [o.a, o.b], 1, sDest 0 o.d, extendBits true (readS c 0 o.a) (readS c 0 o.b))
  | .zext o => some (o.h, [o.a, o.b], 1, sDest 0 o.d, extendBits false (readS c 0 o.a) (readS c 0 o.b))
  | .li o => some (o.h, [], 1, sDest 0 o.d, BitVec.signExtend 64 o.imm)
  | .lea o => some (o.h, [o.a, o.b, o.c], 1, sDest 0 o.d, readS c 0 o.a + (readS c 0 o.b <<< ((readS c 0 o.c).toNat % 8)))
  | .sel o => some (o.h, [o.a, o.b], 1, sDest 0 o.d, if (c.readP o.c.ix).getLsbD 0 then readS c 0 o.a else readS c 0 o.b)
  | .pcmp o => some (o.h, [o.a, o.b], 1, .p o.d.ix, if compareCode (o.c.ix % 16) (readS c 0 o.a) (readS c 0 o.b) then allOnes else 0)
  | .pcmpi o => some (o.h, [o.a], 1, .p o.d.ix,
      if compareCode (o.imm.toNat / 2 ^ 24) (readS c 0 o.a) (BitVec.signExtend 64 (BitVec.ofNat 24 o.imm.toNat)) then allOnes else 0)
  | .pand o => some (o.h, [], 1, .p o.d.ix, c.readP o.a.ix &&& c.readP o.b.ix)
  | .por o => some (o.h, [], 1, .p o.d.ix, c.readP o.a.ix ||| c.readP o.b.ix)
  | .pxor o => some (o.h, [], 1, .p o.d.ix, c.readP o.a.ix ^^^ c.readP o.b.ix)
  | .pnot o => some (o.h, [], 1, .p o.d.ix, ~~~c.readP o.a.ix)
  | .pmovToPred o => some (o.h, [o.a], 1, .p o.d.ix, readS c 0 o.a)
  | .pmovFromPred o => some (o.h, [], 1, sDest 0 o.d, c.readP o.a.ix)
  | _ => none

/-- R191, R192, R194, R195: an arithmetic, logic, shift, count, addressing or predicate op answers a next state in which its result is on
its way to D (x0: to nothing) and in its latch entry, and nothing else of the machine has changed but issue's own place. -/
def Obligations.ScalarOpsSendTheirResult : Prop :=
  ∀ (s : State) (i : Instr) (h : Head) (rd : List Operand) (lat : Nat) (d : Dest) (v : Dword),
    scalarForm s.here i = some (h, rd, lat, d, v) → wellFormed i = true → ready s h = true → holds s h = true → latched s rd = true →
    clearAt s (s.now + lat) = true →
    ∃ t, exec i s = .next t ∧ IssuedValue s t .S lat d v

/-- Quotient and remainder by R193. -/
def Sys2Proof.Machine.quotRem (signed : Bool) (n d : Dword) : Dword × Dword :=
  if d = 0 then (allOnes, n)
  else if signed ∧ n = BitVec.intMin 64 ∧ d = allOnes then (BitVec.intMin 64, 0)
  else if signed then (BitVec.ofInt 64 (n.toInt.tdiv d.toInt), BitVec.ofInt 64 (n.toInt - d.toInt * n.toInt.tdiv d.toInt))
  else (BitVec.ofNat 64 (n.toNat / d.toNat), BitVec.ofNat 64 (n.toNat - d.toNat * (n.toNat / d.toNat)))

/-- The divide ops of R193: op fields and whether the op is signed and gives the remainder. -/
def Sys2Proof.Machine.divideForm : Instr → Option (Q4 × Bool × Bool)
  | .divS o => some (o, true, false)
  | .divZ o => some (o, false, false)
  | .remS o => some (o, true, true)
  | .remZ o => some (o, false, true)
  | _ => none

/-- R193: a divide op on a free divider answers a next state with the quotient or remainder landing 20 clk later and the divider busy for
20 clk; a zero divisor does so too while TRAPEN.DZ is 0.  While TRAPEN.DZ is 1 a zero divisor writes nothing and finds the class-C cause 0x06 with the
dividend in TVAL; its bundle has issued (R389, R391). -/
def Obligations.DivideOps : Prop :=
  ∀ (s : State) (i : Instr) (o : Q4) (sg rm : Bool), divideForm i = some (o, sg, rm) → wellFormed i = true → ready s o.h = true →
    holds s o.h = true → latched s [o.a, o.b] = true → unitBusy s.here s.now (some 6) = false →
    let qr := quotRem sg (readS s.here 0 o.a) (readS s.here 0 o.b)
    let v := if rm then qr.2 else qr.1
    ((readS s.here 0 o.b = 0 → s.here.trapen.getLsbD 0 = false) → clearAt s (s.now + 20) = true → ∃ t, exec i s = .next t ∧
      Issued s t [sent s .S 20 (sDest 0 o.d) (.s v)] (latchOf s .S 20 (.s v)) (Tab.put 0 s.here.busy 6 (s.now + 20))
        ((s.here.pc + 1) % 2048) (s.now + 1)) ∧
    (readS s.here 0 o.b = 0 → s.here.trapen.getLsbD 0 = true → ∃ t, exec i s = .next t ∧ OnlyHere s t ∧
      t.core s.focus = { issuedCore s [] [] s.here.busy ((s.here.pc + 1) % 2048) (s.now + 1) with
        trap := some ⟨.C, 0x06, s.here.pc, readS s.here 0 o.a, 0, s.clk⟩ })

/-! ### Control transfer, the loop sequencer, traps and returns -/

/-- The transfers of R197: head, source operands, link destination if there is one, target, transfer clk. -/
def Sys2Proof.Machine.transferForm (c : Core) : Instr → Option (Head × List Operand × Option Dest × Int × Nat)
  | .br o => some (o.h, [], none, (c.pc : Int) + o.imm.toInt, 2)
  | .jmp o => some (o.h, [], none, o.imm.toInt, 2)
  | .jr o => some (o.h, [o.a], none, (readS c 0 o.a).toNat, 3)
  | .call o => some (o.h, [], some (sDest 0 o.d), (c.pc : Int) + o.imm.toInt, 2)
  | .ret o => some (o.h, [o.a], none, (readS c 0 o.a).toNat, 3)
  | _ => none

/-- A transfer out of the body of the active nest ends the nest (R180, R198). -/
def Sys2Proof.Machine.leaveBody (c : Core) (target : Nat) (d : Core) : Core :=
  if c.nestOn && !inBody c.nest target then d.endNest else d

/-- A taken transfer has issued: issue goes on at the target `n` clk after the clk that follows (R174, R197). -/
def Sys2Proof.Machine.Transferred (s t : State) (rs : List Result) (lt : BundleRec) (target n : Nat) : Prop :=
  OnlyHere s t ∧ t.core s.focus = leaveBody s.here target (issuedCore s rs lt s.here.busy target (s.now + 1 + n))

/-- R197, R198, R180: br, jmp, jr, call and ret, each ready and with a predicate that holds, complete wherever their target lies from 0 to 2,047: each
answers the next state in which issue goes on at that target after its transfer clk; call writes the index of the next bundle as its link after 1 clk;
leaving the body of an active nest ends the nest. -/
def Obligations.TransfersGoToTheirTarget : Prop :=
  (∀ (s : State) (o : I42), wellFormed (.br o) = true → ready s o.h = true → holds s o.h = true →
    0 ≤ (s.here.pc : Int) + o.imm.toInt → (s.here.pc : Int) + o.imm.toInt ≤ 2047 →
    ∃ t, exec (.br o) s = .next t ∧ Transferred s t [] [] ((s.here.pc : Int) + o.imm.toInt).toNat 2) ∧
  (∀ (s : State) (o : I42), wellFormed (.jmp o) = true → ready s o.h = true → holds s o.h = true → 0 ≤ o.imm.toInt → o.imm.toInt ≤ 2047 →
    ∃ t, exec (.jmp o) s = .next t ∧ Transferred s t [] [] o.imm.toInt.toNat 2) ∧
  (∀ (s : State) (o : Q4), wellFormed (.jr o) = true → ready s o.h = true → holds s o.h = true → latched s [o.a] = true → (readS s.here 0 o.a).toNat ≤ 2047 →
    ∃ t, exec (.jr o) s = .next t ∧ Transferred s t [] [] (readS s.here 0 o.a).toNat 3) ∧
  (∀ (s : State) (o : I42), wellFormed (.call o) = true → ready s o.h = true → holds s o.h = true → clearAt s (s.now + 1) = true →
    0 ≤ (s.here.pc : Int) + o.imm.toInt → (s.here.pc : Int) + o.imm.toInt ≤ 2047 →
    let link : Dword := BitVec.ofNat 64 ((s.here.pc + 1) % 2048)
    ∃ t, exec (.call o) s = .next t ∧
      Transferred s t [sent s .S 1 (sDest 0 o.d) (.s link)] (latchOf s .S 1 (.s link)) ((s.here.pc : Int) + o.imm.toInt).toNat 2) ∧
  (∀ (s : State) (o : Q4), wellFormed (.ret o) = true → ready s o.h = true → holds s o.h = true → latched s [o.a] = true → (readS s.here 0 o.a).toNat ≤ 2047 →
    ∃ t, exec (.ret o) s = .next t ∧ Transferred s t [] [] (readS s.here 0 o.a).toNat 3)

/-- R197: a transfer whose target lies outside 0 to 2,047 is an illegal operand: cause 0x03 of class I is found, TRET names the bundle,
and no op of it has acted. -/
def Obligations.TransfersOutsideAreIllegal : Prop :=
  ∀ (s : State) (i : Instr) (h : Head) (rd : List Operand) (link : Option Dest) (target : Int) (n : Nat),
    transferForm s.here i = some (h, rd, link, target, n) → wellFormed i = true → ready s h = true → holds s h = true →
    latched s rd = true → (target < 0 ∨ 2047 < target) →
    ∃ t v, exec i s = .next t ∧ OnlyHere s t ∧ t.core s.focus = { s.here with trap := some ⟨.I, 0x03, s.here.pc, v, 0, s.clk⟩ }

/-- R179, R404, R98: lnest at TL0 with a valid record in the own vault starts the nest of that record, every counter zero; its START bundle
issues 8 clk later, and reductions that wait on the record's lines are drained, as any other access drains them.  lbrk marks the active nest to end at its next END, and does nothing without one (R199). -/
def Obligations.LoopNestOps : Prop :=
  (∀ (s : State) (o : Q4), let i := Instr.lnest o; let a := memAddr s.here 0 o
    wellFormed i = true → ready s o.h = true → holds s o.h = true → latched s [o.a, o.b, o.c] = true → s.here.tl = 0 →
    a.toNat % 256 = 0 → ownVaultOk s a 256 = true → recordReady s s.focus a.toNat = true →
    nestValid (nestRecord s a) = true →
    ∃ t, exec i s = .next t ∧ OnlyHere (s.drainOwn a.toNat 256) t ∧
      t.core s.focus = { issuedCore s [] [] s.here.busy (nestHalf (nestRecord s a) 0 % 2048) (s.now + 8) with
        nest := nestOf s.here (nestRecord s a), loopBuf := [] }) ∧
  (∀ (s : State) (o : Sys), let i := Instr.lbrk o
    wellFormed i = true → ready s o.h = true → holds s o.h = true → s.here.tl = 0 →
    ∃ t, exec i s = .next t ∧ OnlyHere s t ∧
      t.core s.focus = { issuedCore s [] [] s.here.busy ((s.here.pc + 1) % 2048) (s.now + 1) with
        nest := if s.here.nest.active then { s.here.nest with brk := true } else s.here.nest })

/-- R200: trap finds the class-C cause 0x12 with op<27:0> in TVAL; its bundle has issued, and the trap waits for the boundary. -/
def Obligations.TrapOp : Prop :=
  ∀ (s : State) (o : Sys), let i := Instr.trap o
    wellFormed i = true → ready s o.h = true → holds s o.h = true →
    ∃ t, exec i s = .next t ∧ OnlyHere s t ∧
      t.core s.focus = { issuedCore s [] [] s.here.busy ((s.here.pc + 1) % 2048) (s.now + 1) with
        trap := some ⟨.C, 0x12, s.here.pc, BitVec.setWidth 64 o.sys, 0, s.clk⟩ }

/-- R201, R202: at TL1 and TL2, tret goes on at TRET of the level and tret.skip at the bundle after it, rstart at RPA with the predicates
and the sequencer state of the restart checkpoint; each lowers the level by one and costs 3 transfer clk. -/
def Obligations.Returns : Prop :=
  (∀ (s : State) (i : Instr) (o : Sys) (k : Nat), (i = .tret o ∧ k = 0) ∨ (i = .tretSkip o ∧ k = 1) →
    wellFormed i = true → ready s o.h = true → holds s o.h = true → s.here.tl ≠ 0 →
    ∃ t, exec i s = .next t ∧ OnlyHere s t ∧
      t.core s.focus = { issuedCore s [] [] s.here.busy (((s.here.bank s.here.tl).ret + k) % 2048) (s.now + 4) with tl := s.here.tl - 1 }) ∧
  (∀ (s : State) (o : Sys), let i := Instr.rstart o
    wellFormed i = true → ready s o.h = true → holds s o.h = true → s.here.tl ≠ 0 →
    ∃ t, exec i s = .next t ∧ OnlyHere s t ∧ (t.core s.focus).pc = s.here.rpa ∧ (t.core s.focus).next = s.now + 4 ∧
      (t.core s.focus).tl = s.here.tl - 1 ∧ (t.core s.focus).p = s.here.ckpt.preds ∧ (t.core s.focus).nest = s.here.ckpt.nest ∧
      (s.here.ckpt.nest.active = false → (t.core s.focus).x = s.here.x ∧ (t.core s.focus).streams = s.here.streams))

/-- R201, R202, R203, R476: at TL0 a return, and a write of a control register that TL0 may only read, are privileged: cause 0x10; the loop
and suspension ops above TL0 are illegal operands: cause 0x03.  Neither acts. -/
def Obligations.LevelChecks : Prop :=
  ∀ (s : State) (i : Instr) (o : OpSem) (cause : Nat), semOf i = some o → ready s o.head = true → o.level s.here.tl = some cause →
    ∃ t v, exec i s = .next t ∧ OnlyHere s t ∧
      t.core s.focus = { s.here with trap := some ⟨.I, cause, s.here.pc, v, o.slot.num, s.clk⟩ }

/-- Which ops a level forbids, and with which cause (R201 to R203, R217, R404, R476). -/
def Obligations.LevelCauses : Prop :=
  ∀ (s : State) (i : Instr) (o : OpSem) (cause : Nat), semOf i = some o →
    (o.level s.here.tl = some cause ↔
      match i with
      | .tret _ | .tretSkip _ | .rstart _ => s.here.tl = 0 ∧ cause = 0x10
      | .crw w => s.here.tl = 0 ∧ w.sys.toNat < 4096 ∧ crAssigned w.sys.toNat = true ∧ crRw 0 w.sys.toNat = false ∧ cause = 0x10
      | .lnest _ | .lbrk _ | .yield _ | .await _ | .done _ | .park _ | .halt _ => s.here.tl ≠ 0 ∧ cause = 0x03
      | _ => False)

/-! ### Control registers, firmware calls, suspension, windows -/

/-- R203, R204: crr sends the control register's value to D after 1 clk; crw sends val(A) to the register after 1 clk where the level may
write it, and sends nothing to a register that is read-only above TL0. -/
def Obligations.ControlRegisterOps : Prop :=
  (∀ (s : State) (o : Sys), let i := Instr.crr o
    wellFormed i = true → ready s o.h = true → holds s o.h = true → clearAt s (s.now + 1) = true →
    ∃ t, exec i s = .next t ∧ IssuedValue s t .S 1 (sDest 0 o.d) (readCr s s.focus o.sys.toNat)) ∧
  (∀ (s : State) (o : Sys), let i := Instr.crw o
    wellFormed i = true → ready s o.h = true → holds s o.h = true → latched s [o.a] = true → clearAt s (s.now + 1) = true →
    (s.here.tl = 0 → crRw 0 o.sys.toNat = true) →
    ∃ t, exec i s = .next t ∧
      Issued s t (if crRw s.here.tl o.sys.toNat then [sent s .S 1 (.cr o.sys.toNat) (.s (readS s.here 0 o.a))] else []) []
        s.here.busy ((s.here.pc + 1) % 2048) (s.now + 1))

/-- The firmware calls of R210. -/
def Sys2Proof.Machine.svcForm : Instr → Option Sys
  | .svcMap o => some o
  | .svcUnmap o => some o
  | .svcProtect o => some o
  | .svcReport o => some o
  | _ => none

/-- R209, R367: svc puts a message with its service number and x1 to x3 last into the mailbox of the wick that the number names, or, while that holds 32
messages, waits to do so; the core is frozen from the next clk on until the reply, the event SVC_REPLY, which comes after a time the spec leaves open
(a free value).  The model's own: the layout of the message past x3 (log 56). -/
def Obligations.FirmwareCalls : Prop :=
  ∀ (s : State) (i : Instr) (o : Sys), svcForm i = some o → wellFormed i = true → ready s o.h = true → holds s o.h = true →
    let k := s.focus; let m := s.ctxD k; let w := svcWick o.sys.toNat
    let r : Svc := ⟨o.sys.toNat, s.here.readX 1, s.here.readX 2, s.here.readX 3, s.here.tl, s.here.pc, sDest 0 o.d⟩
    ∃ t, exec i s = .next t ∧ t.accesses = s.accesses ∧
      t.core k = { issuedCore s [] [] s.here.busy ((s.here.pc + 1) % 2048) (s.now + 1) with svc := some r, frozeAt := s.clk + 1 } ∧
      (w < 8 → (s.box w).length < 32 → Kept (s.setBox w (s.box w ++ [svcMessage s k m r])) t ∧
        (svcMessage s k m r).take 4 = [boxHead 1 k.die o.sys.toNat s.fresh, s.here.readX 1, s.here.readX 2, s.here.readX 3] ∧
        t.agenda = s.agenda ++ [⟨s.clk + s.delay, .event .svcReply { k := k, m := m, a := w, c := s.fresh % 2 ^ 24 }⟩]) ∧
      (w < 8 → 32 ≤ (s.box w).length → Kept s t ∧ t.agenda = s.agenda ++ [⟨s.clk + 1, .event .svcReply { k := k, m := m, a := w, b := 1 }⟩])

/-- The suspension ops, park and halt: what they wait for the core's ops to finish for (R216, R217); on a task, or on a pane core. -/
def Sys2Proof.Machine.endForm (c : Core) : Instr → Option (Sys × List Operand × Bool × EndKind)
  | .yield o => some (o, [], true, .yield c.pc)
  | .done o => some (o, [o.a], true, .done ((readS c 0 o.a).toNat % 128))
  | .park o => some (o, [], false, .park)
  | .halt o => some (o, [], false, .halt)
  | _ => none

/-- R216, R217: on a core of their kind at TL0, yield, done, park and halt issue, and the core ends its work once its ops have finished;
await does so too for an 8-byte aligned word in the vault window. -/
def Obligations.SuspensionOps : Prop :=
  (∀ (s : State) (i : Instr) (o : Sys) (rd : List Operand) (task : Bool) (e : EndKind), endForm s.here i = some (o, rd, task, e) →
    wellFormed i = true → ready s o.h = true → holds s o.h = true → latched s rd = true → s.here.tl = 0 → s.here.onTask = task →
    ∃ t, exec i s = .next t ∧ OnlyHere s t ∧
      t.core s.focus = { issuedCore s [] [] s.here.busy ((s.here.pc + 1) % 2048) (s.now + 1) with ending := some e }) ∧
  (∀ (s : State) (o : Sys), let i := Instr.await o; let a := readS s.here 0 o.a
    wellFormed i = true → ready s o.h = true → holds s o.h = true → latched s [o.a] = true → s.here.tl = 0 → s.here.onTask = true →
    a.toNat % 8 = 0 → vaultOk s (s.ctxD s.focus) a.toNat 8 = true →
    ∃ t, exec i s = .next t ∧ OnlyHere s t ∧
      t.core s.focus = { issuedCore s [] [] s.here.busy ((s.here.pc + 1) % 2048) (s.now + 1) with
        ending := some (.await s.here.pc a.toNat) })

/-- R214, R98: spawn of a valid record that is resident, with its footprint list, is admitted 3 clk after issue; the task number lands in D 4 clk after
issue, and reductions that wait on the lines it reads are drained. -/
def Obligations.SpawnOp : Prop :=
  ∀ (s : State) (o : Sys), let i := Instr.spawn o; let a := readS s.here 0 o.a; let r := spawnRecord s a
    wellFormed i = true → ready s o.h = true → holds s o.h = true → latched s [o.a] = true → clearAt s (s.now + 4) = true →
    a.toNat % 64 = 0 → vaultOk s (s.ctxD s.focus) a.toNat 64 = true → listFault s r.1 = none → recordBad s (s.ctxD s.focus) r.1 r.2 = false →
    recordReady s s.focus a.toNat = true → (∀ f, recFp (r.1.getD 3 0) = some f → recordReady s s.focus f = true) →
    ∃ t, exec i s = .next t ∧
      Started ((s.drainOwn a.toNat 64).drainList (r.1.getD 3 0)) t (accessOf s 0 (.spawn r.1 r.2) a 64 (sDest 0 o.d) 0 s.nextId false) (s.clk + 3)
        [sent s .S 4 (sDest 0 o.d) .unbound] (latchOf s .S 4 (.s 0)) false

/-- R218, R219: nsw.on opens a no-switch window at this clk unless one is open (the die is not being snuffed); nsw.off closes it; dim marks
the member dimmed. -/
def Obligations.WindowsAndDim : Prop :=
  (∀ (s : State) (o : Sys), let i := Instr.nswOn o
    wellFormed i = true → ready s o.h = true → holds s o.h = true → (s.die s.focus.die).snuffing = false →
    ∃ t, exec i s = .next t ∧ Kept s t ∧ t.accesses = s.accesses ∧
      t.core s.focus = (let c := issuedCore s [] [] s.here.busy ((s.here.pc + 1) % 2048) (s.now + 1)
        if s.here.nsw.isSome then c else { c with nsw := some s.clk, nswRaised := false, nswAt := none })) ∧
  (∀ (s : State) (o : Sys), let i := Instr.nswOff o
    wellFormed i = true → ready s o.h = true → holds s o.h = true →
    ∃ t, exec i s = .next t ∧ OnlyHere s t ∧
      t.core s.focus = { issuedCore s [] [] s.here.busy ((s.here.pc + 1) % 2048) (s.now + 1) with
        nsw := none, nswRaised := false, nswAt := none }) ∧
  (∀ (s : State) (o : Sys), let i := Instr.dim o
    wellFormed i = true → ready s o.h = true → holds s o.h = true →
    ∃ t, exec i s = .next t ∧ (t.member (s.ctxD s.focus)).dimmed = true ∧ t.mem = s.mem ∧ t.accesses = s.accesses ∧
      t.core s.focus = issuedCore s [] [] s.here.busy ((s.here.pc + 1) % 2048) (s.now + 1))

/-! ### Vector ops -/

/-- A V op that gives one vector element by element: unit, head, source operands, destination, latency, busy clk, element width, and what
each element becomes. -/
structure Sys2Proof.Machine.VForm where
  u : VUnit
  h : Head
  srcs : List Operand
  d : Operand
  lat : Nat
  busy : Nat
  w : Nat
  f : Nat → Nat

/-- A V op of a type on the elements of A, of A and B, and of A, B and C. -/
def Sys2Proof.Machine.VForm.on1 (c : Core) (u : VUnit) (o : Q4) (lat busy w : Nat) (f : Nat → Nat) : VForm :=
  ⟨u, o.h, [o.a], o.d, lat, busy, w, fun e => f (vElem w e (readV c u.slot.num o.a))⟩
@[inherit_doc Sys2Proof.Machine.VForm.on1] def Sys2Proof.Machine.VForm.on2 (c : Core) (u : VUnit) (o : Q4) (lat w : Nat) (f : Nat → Nat → Nat) : VForm :=
  ⟨u, o.h, [o.a, o.b], o.d, lat, 0, w, fun e => f (vElem w e (readV c u.slot.num o.a)) (vElem w e (readV c u.slot.num o.b))⟩
@[inherit_doc Sys2Proof.Machine.VForm.on1] def Sys2Proof.Machine.VForm.on3 (c : Core) (u : VUnit) (o : Q4) (t : Nat) (f : Nat → Nat → Nat → Nat) : VForm :=
  ⟨u, o.h, [o.a, o.b, o.c], o.d, 4, 0, tyW t, fun e => f (vElem (tyW t) e (readV c u.slot.num o.a)) (vElem (tyW t) e (readV c u.slot.num o.b))
    (vElem (tyW t) e (readV c u.slot.num o.c))⟩

/-- An op exact in the integers of T modulo 2^w, or a floating one (R225). -/
def Sys2Proof.Machine.byType (t : Nat) (f : Nat → Nat → Nat) (g : Int → Int → Int) (a b : Nat) : Nat :=
  if t < 5 then f a b else (g (intOf t a) (intOf t b) % 2 ^ tyW t).toNat

/-- The element-wise ops of R225 to R227. -/
def Sys2Proof.Machine.arithForm (c : Core) : Instr → Option VForm
  | .vadd u o => some (.on2 c u o 4 (tyW (qType o)) (byType (qType o) (fadd (qType o) (qRm o)) (· + ·)))
  | .vsub u o => some (.on2 c u o 4 (tyW (qType o)) (byType (qType o) (fsub (qType o) (qRm o)) (· - ·)))
  | .vmul u o => some (.on2 c u o 4 (tyW (qType o)) (byType (qType o) (fmul (qType o) (qRm o)) (· * ·)))
  | .vmin u o => some (.on2 c u o 4 (tyW (qType o)) (byType (qType o) (fmin (qType o)) min))
  | .vmax u o => some (.on2 c u o 4 (tyW (qType o)) (byType (qType o) (fmax (qType o)) max))
  | .vabs u o => some (.on1 c u o 4 0 (tyW (qType o)) fun a =>
      if qType o < 5 then (if (fdec (qType o) a).isNan then fmtNan (qType o) else a % 2 ^ (tyW (qType o) - 1))
      else ((intOf (qType o) a).natAbs % 2 ^ tyW (qType o)))
  | .vneg u o => some (.on1 c u o 4 0 (tyW (qType o)) fun a =>
      if qType o < 5 then (if (fdec (qType o) a).isNan then fmtNan (qType o) else a ^^^ 2 ^ (tyW (qType o) - 1))
      else (-(intOf (qType o) a) % 2 ^ tyW (qType o)).toNat)
  | .vmulh u o => some (.on2 c u o 4 (tyW (qType o)) fun a b =>
      (intOf (qType o) a * intOf (qType o) b / 2 ^ tyW (qType o) % 2 ^ tyW (qType o)).toNat)
  | .vadds u o => some (.on2 c u o 4 (tyW (qType o)) fun a b => satInt (qType o) (intOf (qType o) a + intOf (qType o) b))
  | .vsubs u o => some (.on2 c u o 4 (tyW (qType o)) fun a b => satInt (qType o) (intOf (qType o) a - intOf (qType o) b))
  | .vfmaF32 u o => some (.on3 c u o 0 fun a b d => ffma 0 (fdec 0 a) (fdec 0 b) (fdec 0 d))
  | .vfmaF16 u o => some (.on3 c u o 1 fun a b d => ffma 1 (fdec 1 a) (fdec 1 b) (fdec 1 d))
  | .vfmaBf16 u o => some (.on3 c u o 2 fun a b d => ffma 2 (fdec 2 a) (fdec 2 b) (fdec 2 d))
  | .vfmsF32 u o => some (.on3 c u o 0 fun a b d => ffma 0 (fdec 0 a) (fdec 0 b) (fneg (fdec 0 d)))
  | .vfmsF16 u o => some (.on3 c u o 1 fun a b d => ffma 1 (fdec 1 a) (fdec 1 b) (fneg (fdec 1 d)))
  | .vfmsBf16 u o => some (.on3 c u o 2 fun a b d => ffma 2 (fdec 2 a) (fdec 2 b) (fneg (fdec 2 d)))
  | .vfnmaF32 u o => some (.on3 c u o 0 fun a b d => ffma 0 (fneg (fdec 0 a)) (fdec 0 b) (fdec 0 d))
  | .vfnmaF16 u o => some (.on3 c u o 1 fun a b d => ffma 1 (fneg (fdec 1 a)) (fdec 1 b) (fdec 1 d))
  | .vfnmaBf16 u o => some (.on3 c u o 2 fun a b d => ffma 2 (fneg (fdec 2 a)) (fdec 2 b) (fdec 2 d))
  | .vclampF32 u o => some (.on3 c u o 0 fun a b d => fmin 0 (fmax 0 a b) d)
  | .vclampS32 u o => some (.on3 c u o 5 fun a b d => (min (max (intOf 5 a) (intOf 5 b)) (intOf 5 d) % 2 ^ 32).toNat)
  | .vclampZ32 u o => some (.on3 c u o 9 fun a b d => min (max a b) d)
  | .vrcp u o => some (.on1 c u o 12 4 32 (frcp 0 (qRm o)))
  | .vrsqrt u o => some (.on1 c u o 12 4 32 (frsqrt 0 (qRm o)))
  | .vsqrt u o => some (.on1 c u o 12 4 32 (fsqrt 0 (qRm o)))
  | .vexp2 u o => some (.on1 c u o 12 4 32 (fexp2 0 (qRm o)))
  | .vlog2 u o => some (.on1 c u o 12 4 32 (flog2 0 (qRm o)))
  | _ => none

/-- A comparison of R228 holds of two elements. -/
def Sys2Proof.Machine.vcmpHolds (t code a b : Nat) : Bool :=
  let nan := decide (t < 5) && ((fdec t a).isNan || (fdec t b).isNan)
  let lt (a b : Nat) : Bool := if t < 5 then fltV (fdec t a) (fdec t b) else decide (intOf t a < intOf t b)
  match code with
  | 0 => !nan && !lt a b && !lt b a
  | 1 => nan || lt a b || lt b a
  | 2 => lt a b
  | 3 => !nan && !lt b a
  | 4 => lt b a
  | 5 => !nan && !lt a b
  | 6 => nan
  | _ => !nan

/-- The elements of the lanes of A that a mask selects, as raw elements of a type. -/
def Sys2Proof.Machine.chosen (t : Nat) (mask : Dword) (v : Vec) : List Nat :=
  ((List.range (2048 / tyW t)).filter fun e => mask.getLsbD (e * tyW t / 32)).map fun e => vElem (tyW t) e v

/-- Compare, select, mask, summary, logic, shift, interleave and lane-movement ops (R228 to R233, R236, R237). -/
def Sys2Proof.Machine.moveForm (c : Core) : Instr → Option VForm
  | .vcmp u o => some (.on2 c u o 4 (tyW (qType o)) fun a b => if vcmpHolds (qType o) (qSub o) a b then 2 ^ tyW (qType o) - 1 else 0)
  | .vsel u o => some ⟨u, o.h, [o.a, o.b], o.d, 2, 0, 32, fun e =>
      vElem 32 e (readV c u.slot.num (if (c.readP (qSub o)).getLsbD e then o.a else o.b))⟩
  | .vmovpV u o => some ⟨u, o.h, [], o.d, 2, 0, 32, fun e => if (c.readP o.a.ix).getLsbD e then 2 ^ 32 - 1 else 0⟩
  | .vtstSum u o => some ⟨u, o.h, [o.a], o.d, 2, 0, 32, fun _ =>
      summaryOf (qType o) (chosen (qType o) (headMask c o.h) (readV c u.slot.num o.a))⟩
  | .vand u o => some (.on2 c u o 2 32 fun a b => a &&& b)
  | .vor u o => some (.on2 c u o 2 32 fun a b => a ||| b)
  | .vxor u o => some (.on2 c u o 2 32 fun a b => a ^^^ b)
  | .vnot u o => some (.on1 c u o 2 0 32 fun a => 2 ^ 32 - 1 - a)
  | .vshl u o => some (.on2 c u o 2 (tyW (qType o)) fun a n => if tyW (qType o) ≤ n then 0 else a * 2 ^ n % 2 ^ tyW (qType o))
  | .vshr u o => some (.on2 c u o 2 (tyW (qType o)) fun a n => if tyW (qType o) ≤ n then 0 else a / 2 ^ n)
  | .vsar u o => some (.on2 c u o 2 (tyW (qType o)) fun a n =>
      let w := tyW (qType o)
      let z : Int := if 2 ^ (w - 1) ≤ a then (a : Int) - 2 ^ w else a
      (z / 2 ^ (min n w) % 2 ^ w).toNat)
  | .vpack u o =>
    let w := if qType o = 12 then 8 else tyW (qType o)
    some ⟨u, o.h, [o.a, o.b], o.d, 3, 0, w, fun e =>
      vElem w (e / 2 + qSub o * (1024 / w)) (readV c u.slot.num (if e % 2 = 0 then o.a else o.b))⟩
  | .vunpack u o =>
    let w := if qType o = 12 then 8 else tyW (qType o)
    some ⟨u, o.h, [o.a, o.b], o.d, 3, 0, w, fun e =>
      vElem w (2 * (e % (1024 / w)) + qSub o) (readV c u.slot.num (if e < 1024 / w then o.a else o.b))⟩
  | .vbcast u o =>
    let w := if qType o = 12 then 8 else tyW (qType o)
    some ⟨u, o.h, [o.a, o.b], o.d, 2, 0, w, fun _ =>
      vElem w (vElem 32 0 (readV c u.slot.num o.b) % (2048 / w)) (readV c u.slot.num o.a)⟩
  | .vshuf u o =>
    let w := if qType o = 12 then 8 else tyW (qType o)
    some ⟨u, o.h, [o.a, o.b], o.d, 3, 0, w, fun e =>
      vElem w (vElem w e (readV c u.slot.num o.b) % (2048 / w)) (readV c u.slot.num o.a)⟩
  | .vrot u o =>
    let w := if qType o = 12 then 8 else tyW (qType o)
    some ⟨u, o.h, [o.a, o.b], o.d, 3, 0, w, fun e =>
      vElem w ((e + vElem 32 0 (readV c u.slot.num o.b)) % (2048 / w)) (readV c u.slot.num o.a)⟩
  | .vidx u o => some ⟨u, o.h, [o.a, o.b], o.d, 3, 0, tyW (qType o), fun e =>
      (vElem 32 0 (readV c u.slot.num o.a) + e * vElem 32 0 (readV c u.slot.num o.b)) % 2 ^ tyW (qType o)⟩
  | _ => none

/-- What a V op of one destination vector does when it may issue: its vector, in the lanes of its predicate, is on its way to D and in its
latch entry with zeros elsewhere (R222). -/
def Sys2Proof.Machine.VForm.Sends (F : VForm) (s t : State) : Prop :=
  ∃ v : Vec, (∀ e, e * F.w < 2048 → vElem F.w e v = F.f e) ∧
    Issued s t [sent s F.u.slot F.lat (vDest s.here F.u.slot.num F.d) (.v (headMask s.here F.h) v)]
      (latchOf s F.u.slot F.lat (.v (laneMerge (headMask s.here F.h) v 0))) (Tab.put 0 s.here.busy F.u.slot.num (s.now + F.busy))
      ((s.here.pc + 1) % 2048) (s.now + 1)

/-- A V op may issue: a ready core, latch operands that can be read, vector registers below VIEW0.COUNT and free of errors, a free slot
(R221, R174, R463). -/
def Sys2Proof.Machine.VForm.mayIssue (F : VForm) (s : State) : Bool :=
  ready s F.h && latched s F.srcs && (F.d :: F.srcs).all (vopOk s.here ·) && F.srcs.all (fun x => (vPoison s.here x 1).isNone)
    && !unitBusy s.here s.now (some F.u.slot.num) && clearAt s (s.now + F.lat)

/-- R225, R226, R227: the element-wise arithmetic ops, every element of D from the same-numbered elements of the sources. -/
def Obligations.VectorArithmetic : Prop :=
  ∀ (s : State) (i : Instr) (F : VForm), arithForm s.here i = some F → wellFormed i = true → F.mayIssue s = true →
    ∃ t, exec i s = .next t ∧ F.Sends s t

/-- R228 to R233, R236, R237: compare, select, mask, summary, logic, shift, interleave and lane-movement ops. -/
def Obligations.VectorMoves : Prop :=
  ∀ (s : State) (i : Instr) (F : VForm), moveForm s.here i = some F → wellFormed i = true → F.mayIssue s = true →
    ∃ t, exec i s = .next t ∧ F.Sends s t

/-- A V op on groups of vectors: sources with their group sizes, destination group of g, and element e of the sequence it gives. -/
structure Sys2Proof.Machine.GForm where
  u : VUnit
  h : Head
  srcs : List (Operand × Nat)
  d : Operand
  g : Nat
  lat : Nat
  busy : Nat
  w : Nat
  f : Nat → Nat

/-- Element e, w bits wide, of the group of vectors an operand names (R234). -/
def Sys2Proof.Machine.gElem (c : Core) (u : VUnit) (o : Operand) (w e : Nat) : Nat :=
  vElem w (e % (2048 / w)) (readV c u.slot.num o (e / (2048 / w)))

/-- Exact value of element e of a sequence of raw elements of type S (R132 to R134). -/
def Sys2Proof.Machine.valueAt (S : Nat) (src : Nat → Nat) (e : Nat) : Fv :=
  if S = 12 then
    let p := o4Decode (src (e / 2 * 2)) (src (e / 2 * 2 + 1))
    fvInt (if e % 2 = 0 then p.1 else p.2)
  else if S < 5 then fdec S (src e) else fvInt (intOf S (src e))

/-- Element e of exact values converted to type T (R135, R138 to R140). -/
def Sys2Proof.Machine.codeAt (T mode : Nat) (inf : Bool) (v : Nat → Fv) (e : Nat) : Nat :=
  if T = 12 then
    let p := o4Pair (v (e / 2 * 2)) (v (e / 2 * 2 + 1))
    if e % 2 = 0 then p.1 else p.2
  else if T < 5 then fconv T mode inf (v e) else toIntTy T mode (v e)

/-- The running value of vscan after elements 0 to e of the group (R241). -/
def Sys2Proof.Machine.scanAt (ty kind : Nat) (mask : Dword) (src : Nat → Nat) (carry : Nat) : Nat → Nat
  | 0 => carry
  | e + 1 =>
    let c := scanAt ty kind mask src carry e
    if mask.getLsbD (e % 64) then scanCombine ty kind c (src e) else c

/-- The group ops of R234, R235 and R241. -/
def Sys2Proof.Machine.groupForm (c : Core) : Instr → Option GForm
  | .vcvt u o =>
    let T := qType o
    let S := qSub o
    some ⟨u, o.h, [(o.a, tyW S / tyW T + if tyW S < tyW T then 1 else 0)], o.d, tyW T / tyW S + if tyW T < tyW S then 1 else 0, 3, 0, tyW T,
      fun e => if T = S ∧ T < 5 then (if (fdec T (gElem c u o.a (tyW S) e)).isNan then fmtNan T else gElem c u o.a (tyW S) e)
        else codeAt T (qRm o) (qOvf o) (valueAt S (gElem c u o.a (tyW S))) e⟩
  | .vquant u o => some ⟨u, o.h, [(o.a, 32 / tyW (qType o)), (o.b, 1)], o.d, 1, 3, 0, tyW (qType o),
      codeAt (qType o) (qRm o) false fun e => vquantQ (ctabOf c (qSub o)) (gElem c u o.a 32 e) (vElem 32 (e % 64) (readV c u.slot.num o.b))⟩
  | .vscan u o => some ⟨u, o.h, [(o.a, o.n), (o.b, 1)], o.d, o.n, o.n + 8, o.n, 32, fun e =>
      if (headMask c o.h).getLsbD (e % 64) then
        scanAt o.ty (o.m % 4) (headMask c o.h) (gElem c u o.a 32) (vElem 32 0 (readV c u.slot.num o.b)) (e + 1)
      else 0⟩
  | _ => none

/-- R234, R235, R241: vcvt, vquant with a valid compand table, and vscan send every vector of their destination group in one clk, in the
lanes of the predicate. -/
def Obligations.VectorGroups : Prop :=
  ∀ (s : State) (i : Instr) (F : GForm), groupForm s.here i = some F → wellFormed i = true → ready s F.h = true →
    latched s (F.srcs.map (·.1)) = true → ((F.d, F.g) :: F.srcs).all (fun x => vopOk s.here x.1 x.2) = true →
    F.srcs.all (fun x => (vPoison s.here x.1 x.2).isNone) = true → unitBusy s.here s.now (some F.u.slot.num) = false →
    clearAt s (s.now + F.lat) = true →
    (match i with | .vquant _ o => ctabValid (ctabOf s.here (qSub o)) = true | _ => True) →
    ∃ (t : State) (vs : List Vec), exec i s = .next t ∧ vs.length = F.g ∧
      (∀ e, e * F.w < 2048 * F.g → vElem F.w (e % (2048 / F.w)) (vs.getD (e / (2048 / F.w)) 0) = F.f e) ∧
      Issued s t ((List.range F.g).map fun j => sent s F.u.slot F.lat (vDest s.here F.u.slot.num F.d j) (.v (headMask s.here F.h) (vs.getD j 0)))
        (latchOf s F.u.slot F.lat (.v (laneMerge (headMask s.here F.h) (vs.getD 0 0) 0))) (Tab.put 0 s.here.busy F.u.slot.num (s.now + F.busy))
        ((s.here.pc + 1) % 2048) (s.now + 1)

/-- The tree of R142 over the .f32 values of 2^k lanes from lane j. -/
def Sys2Proof.Machine.treeSum (x : Nat → Nat) : Nat → Nat → Nat
  | 0, j => x j
  | k + 1, j => fadd 0 0 (treeSum x k j) (treeSum x k (j + 2 ^ k))

/-- The reductions of R239 and R240: the word they write, from the vectors of A, the carry-in lane and the mask. -/
def Sys2Proof.Machine.reduceWord (c : Core) (mask : Dword) : Instr → Option (VUnit × Str × List (Operand × Nat) × Nat)
  | .vredadd u o =>
    let init := o.m / 2 % 2 = 1
    let a (j i : Nat) : Nat := vElem 32 i (readV c u.slot.num o.a j)
    let lane (j i : Nat) : Nat :=
      if !mask.getLsbD i then 0x80000000
      else if o.ty = 0 then a j i
      else fenc 0 0 (faddX 0 (fdec o.ty (a j i % 2 ^ 16)) (fdec o.ty (a j i / 2 ^ 16)))
    let beat (acc j : Nat) : Nat :=
      if o.ty < 3 then fadd 0 0 acc (treeSum (lane j) 6 0)
      else (acc + ((List.range 64).map fun i => if mask.getLsbD i then a j i else 0).sum) % 2 ^ 32
    some (u, o, (o.a, o.n) :: (if init then [(o.b, 1)] else []),
      (List.range o.n).foldl beat (if init then vElem 32 0 (readV c u.slot.num o.b) else if o.ty < 3 then 0x80000000 else 0))
  | .vredmax u o => some (u, o, [(o.a, o.n)], redExtreme o true c u.slot.num mask)
  | .vredmin u o => some (u, o, [(o.a, o.n)], redExtreme o false c u.slot.num mask)
  | _ => none

/-- R238, R239, R240: the reductions send their word to every lane of D, whatever the predicate, BEATS + 8 clk later, and keep their slot
busy for BEATS clk; their latch entry holds zero in the lanes with g = 0 (R222). -/
def Obligations.VectorReductions : Prop :=
  ∀ (s : State) (i : Instr) (u : VUnit) (o : Str) (srcs : List (Operand × Nat)) (r : Nat),
    reduceWord s.here (headMask s.here o.h) i = some (u, o, srcs, r) → wellFormed i = true → ready s o.h = true →
    latched s (srcs.map (·.1)) = true → ((o.d, 1) :: srcs).all (fun x => vopOk s.here x.1 x.2) = true →
    srcs.all (fun x => (vPoison s.here x.1 x.2).isNone) = true → unitBusy s.here s.now (some u.slot.num) = false →
    clearAt s (s.now + (o.n + 8)) = true →
    ∃ t v, exec i s = .next t ∧ (∀ k < 64, vElem 32 k v = r % 2 ^ 32) ∧
      Issued s t [sent s u.slot (o.n + 8) (vDest s.here u.slot.num o.d) (.v allOnes v)] (latchOf s u.slot (o.n + 8) (.v (laneMerge (headMask s.here o.h) v 0)))
        (Tab.put 0 s.here.busy u.slot.num (s.now + o.n)) ((s.here.pc + 1) % 2048) (s.now + 1)

/-- The extreme of vredmax and vredmin (R240): it is one of the elements taken or the identity, no element taken lies beyond it, and a NaN
not skipped makes it the canonical NaN. -/
def Obligations.ReductionExtremes : Prop :=
  ∀ (c : Core) (sl : Nat) (o : Str) (mask : Dword) (big : Bool), (o.ty = 0 ∨ o.ty = 5 ∨ o.ty = 9) → (o.ty = 0 ∨ o.m % 4 = 0) →
    let taken (j i : Nat) : Nat := let x := vElem 32 i (readV c sl o.a j); if o.m / 2 % 2 = 1 then x % 2 ^ 31 else x
    let r := redExtreme o big c sl mask
    let below (a b : Nat) : Bool := if o.ty = 0 then fbelow (fdec 0 a) (fdec 0 b) else decide (intOf o.ty a < intOf o.ty b)
    let live (j i : Nat) : Prop := j < o.n ∧ i < 64 ∧ mask.getLsbD i = true ∧ (o.ty = 0 → o.m % 2 = 1 → (fdec 0 (taken j i)).isNan = false)
    ((∃ j i, live j i ∧ o.ty = 0 ∧ (fdec 0 (taken j i)).isNan = true) → r = 0x7FC00000) ∧
    ((∀ j i, live j i → o.ty = 0 → (fdec 0 (taken j i)).isNan = false) →
      (∀ j i, live j i → (if big then below r (taken j i) else below (taken j i) r) = false) ∧
      (r = extremeId o.ty big ∨ ∃ j i, live j i ∧ r = taken j i))

/-- A V op whose result is a predicate: unit, head, source, predicate register, and the mask it gives. -/
def Sys2Proof.Machine.maskForm (c : Core) : Instr → Option (VUnit × Head × Operand × Nat × (Nat → Bool))
  | .vmovpAny u o => some (u, o.h, o.a, o.d.ix, fun i => decide (vElem 32 i (readV c u.slot.num o.a) ≠ 0))
  | .vmovpAll u o => some (u, o.h, o.a, o.d.ix, fun i => decide (vElem 32 i (readV c u.slot.num o.a) = 2 ^ 32 - 1))
  | .vtst u o => some (u, o.h, o.a, o.d.ix, fun i =>
      let t := qType o
      testElems t (qSub o) ((List.range (32 / tyW t)).map fun e => vElem (tyW t) (i * (32 / tyW t) + e) (readV c u.slot.num o.a)))
  | _ => none

/-- R230, R231, R222: vmovp.any, vmovp.all and vtst set bit i of p(D) where lane i passes and clear it where it does not, in the bits of the
lanes of the predicate only. -/
def Obligations.VectorMasks : Prop :=
  ∀ (s : State) (i : Instr) (u : VUnit) (h : Head) (a : Operand) (n : Nat) (f : Nat → Bool), maskForm s.here i = some (u, h, a, n, f) →
    wellFormed i = true → ready s h = true → latched s [a] = true → vopOk s.here a = true → (vPoison s.here a 1).isNone = true →
    unitBusy s.here s.now (some u.slot.num) = false → clearAt s (s.now + 2) = true →
    ∃ t m, exec i s = .next t ∧ (∀ k < 64, m.getLsbD k = f k) ∧
      Issued s t [sent s u.slot 2 (.p n) (.p (headMask s.here h) m)]
        (latchOf s u.slot 2 (.v (BitVec.setWidth 2048 (m &&& headMask s.here h)))) (Tab.put 0 s.here.busy u.slot.num s.now)
        ((s.here.pc + 1) % 2048) (s.now + 1)

/-! ### Conditional queues -/

/-- The queues of a core, lane by lane, are `f`. -/
def Sys2Proof.Machine.QueuesAre (c : Core) (f : Nat → Nat → List Word) : Prop := ∀ k < 2, ∀ i < 64, c.cqGet k i = f k i

/-- The result is on its way, and every result of an earlier op is as it was. -/
def Sys2Proof.Machine.NewResult (s t : State) (r : Result) : Prop :=
  r ∈ (t.core s.focus).results ∧
    (t.core s.focus).results.filter (fun x => decide (x.rid ≠ s.nextId)) = s.here.results.filter fun x => decide (x.rid ≠ s.nextId)

/-- The latch entry of the op is the newest of its level's history (R84, R222), its number being that of no other result in flight. -/
def Sys2Proof.Machine.LatchIs (s t : State) (sl : Slot) (lat : Nat) (v : LatchVal) : Prop :=
  (∀ x ∈ s.here.results, x.rid ≠ s.nextId) →
    (t.core s.focus).hist.head? = some (latchOf s sl lat v)

/-- R242, R243: vcpush (OPC 0x50) and vcpop (0x51) name queue SUB<0>, with no TYPE.  vcpush appends the lanes of A under its predicate where a FIFO has room and marks them in p(D); vcpop takes the oldest record
of each FIFO under its predicate into D, zero from an empty one.  The queues change at issue, the results land 4 clk later, and the latch entry holds the result, zero where g = 0 (R222). -/
def Obligations.QueuePushPop : Prop :=
  (∀ (s : State) (u : VUnit) (o : Q4), let i := Instr.vcpush u o; let q := qSub o; let m := headMask s.here o.h; let a := readV s.here u.slot.num o.a
    wellFormed i = true → ready s o.h = true → latched s [o.a] = true → vopOk s.here o.a = true → (vPoison s.here o.a 1).isNone = true →
    unitBusy s.here s.now (some u.slot.num) = false → clearAt s (s.now + 4) = true →
    let room (k : Nat) : Bool := m.getLsbD k && decide ((s.here.cqGet q k).length < 16)
    encode i = some (u.slot, q4Word 0x50 o) ∧ q < 2 ∧ qType o = 0 ∧ ∃ (t : State) (r : Dword), exec i s = .next t ∧ OnlyHere s t ∧ (∀ k < 64, r.getLsbD k = room k) ∧
      QueuesAre (t.core s.focus) (fun j k => if j = q ∧ room k = true then s.here.cqGet q k ++ [BitVec.ofNat 32 (vElem 32 k a)] else s.here.cqGet j k) ∧
      NewResult s t (sent s u.slot 4 (.p o.d.ix) (.p m r)) ∧ LatchIs s t u.slot 4 (.v (BitVec.setWidth 2048 (r &&& m))) ∧
      (t.core s.focus).pc = (s.here.pc + 1) % 2048 ∧ (t.core s.focus).next = s.now + 1 ∧ (t.core s.focus).rs = s.here.rs ∧
      (t.core s.focus).p = s.here.p ∧ (t.core s.focus).x = s.here.x ∧ (t.core s.focus).ofV = s.here.ofV) ∧
  (∀ (s : State) (u : VUnit) (o : Q4), let i := Instr.vcpop u o; let q := qSub o; let m := headMask s.here o.h
    wellFormed i = true → ready s o.h = true → vopOk s.here o.d = true → unitBusy s.here s.now (some u.slot.num) = false →
    clearAt s (s.now + 4) = true →
    encode i = some (u.slot, q4Word 0x51 o) ∧ q < 2 ∧ qType o = 0 ∧ ∃ (t : State) (v : Vec), exec i s = .next t ∧ OnlyHere s t ∧
      (∀ k < 64, m.getLsbD k = true → vElem 32 k v = ((s.here.cqGet q k).headD 0).toNat) ∧
      QueuesAre (t.core s.focus) (fun j k => if j = q ∧ m.getLsbD k = true then (s.here.cqGet q k).tail else s.here.cqGet j k) ∧
      NewResult s t (sent s u.slot 4 (vDest s.here u.slot.num o.d) (.v m v)) ∧ LatchIs s t u.slot 4 (.v (laneMerge m v 0)) ∧
      (t.core s.focus).pc = (s.here.pc + 1) % 2048 ∧ (t.core s.focus).next = s.now + 1 ∧ (t.core s.focus).rs = s.here.rs ∧
      (t.core s.focus).p = s.here.p ∧ (t.core s.focus).x = s.here.x ∧ (t.core s.focus).ofV = s.here.ofV)

/-- The records vcbal deals out (R244): positions below BEATS of the FIFOs of the active lanes, by position, then lane. -/
def Sys2Proof.Machine.dealt (c : Core) (q beats : Nat) (ls : List Nat) : List Word :=
  (List.range beats).flatMap fun p => ls.filterMap fun i => (c.cqGet q i)[p]?

/-- R244: vcbal deals the records of the active lanes out again in turn, each lane then keeping its deep records; p(D) marks the active
lanes whose FIFO holds something, BEATS + 4 clk later.  No other lane's FIFO changes. -/
def Obligations.QueueBalance : Prop :=
  ∀ (s : State) (u : VUnit) (o : Str), let i := Instr.vcbal u o; let q := o.m; let m := headMask s.here o.h
    let ls := (List.range 64).filter fun k => m.getLsbD k
    let seq := dealt s.here q o.n ls
    let new (k : Nat) : List Word := ((List.range seq.length).filter fun j => decide (ls.getD (j % ls.length) 64 = k)).map (fun j => seq.getD j 0)
      ++ (s.here.cqGet q k).drop o.n
    wellFormed i = true → ready s o.h = true → unitBusy s.here s.now (some u.slot.num) = false → clearAt s (s.now + (o.n + 4)) = true →
    (∀ j < 2, ∀ k < 64, (s.here.cqGet j k).length ≤ 16) →
    ∃ (t : State) (r : Dword), exec i s = .next t ∧ OnlyHere s t ∧
      QueuesAre (t.core s.focus) (fun j k => if j = q ∧ m.getLsbD k = true then new k else s.here.cqGet j k) ∧
      (∀ k < 64, r.getLsbD k = (m.getLsbD k && !(new k).isEmpty)) ∧
      NewResult s t (sent s u.slot (o.n + 4) (.p o.d.ix) (.p m r)) ∧ LatchIs s t u.slot (o.n + 4) (.v (BitVec.setWidth 2048 (r &&& m))) ∧
      (t.core s.focus).busy = Tab.put 0 s.here.busy u.slot.num (s.now + o.n) ∧
      (t.core s.focus).pc = (s.here.pc + 1) % 2048 ∧ (t.core s.focus).next = s.now + 1

/-! ### Matrix ops -/

/-- How an M op is carried: fields, source operands whose latches it reads, and whether it may be tagged (R259). -/
def Sys2Proof.Machine.matForm : Instr → Option (Str × Nat × List Operand × Bool)
  | .mm o => some (o, 1, [o.a, o.b], true)
  | .mmz o => some (o, 2, [o.a, o.b], true)
  | .mzero o => some (o, 3, [], false)
  | .mldt o => some (o, 4, [o.a], true)
  | .msdt o => some (o, 5, if o.m / 8 = 1 then [o.b] else [], false)
  | .mtr o => some (o, 6, [], false)
  | .macc o => some (o, 7, [], false)
  | .mcvt o => some (o, 8, [], false)
  | .mscal o => some (o, 9, [o.b], false)
  | _ => none

/-- R253, R256, R174, R260: an M op whose operands pass its checks, on a free M slot, joins the ops in progress; untagged, the slot is busy for BEATS clk.
It has written nothing yet, and issue goes on at the next bundle.  Only msdt starts accesses, those of its rows and, under .sum, of its readiness
word, which take their places behind the accesses under way; it waits while its stream lies on another member's die and no packet may be
injected (R60). -/
def Obligations.MatrixOpsStart : Prop :=
  ∀ (s : State) (i : Instr) (o : Str) (kind : Nat) (rd : List Operand) (tags : Bool) (m : OpSem), matForm i = some (o, kind, rd, tags) →
    semOf i = some m → wellFormed i = true → ready s o.h = true → holds s o.h = true → latched s rd = true →
    unitBusy s.here s.now (some 3) = false → m.check s = none → m.stall s = false → clearAt s (s.now + (o.n + 6)) = true →
    o.a.streamOk = false ∨ kind ∉ [1, 2, 4] → o.b.streamOk = false ∨ kind ∉ [1, 2] → o.h.ta = 0 →
    ∃ (t : State) (e : MOp), exec i s = .next t ∧ Kept s t ∧ t.agenda = s.agenda ∧ (kind ≠ 5 → t.accesses = s.accesses) ∧
      (kind = 5 → ∃ l, t.accesses = s.accesses ++ l ∧
        l.map (fun a => (a.ea, a.size)) = (e.outSection.2.flatMap fun r => (cutRow 4 r.addr r.n 0).map fun p =>
          (BitVec.ofNat 64 (e.out.space * 2 ^ 62 + p.1 % 2 ^ 62), p.2.1)) ++ (if o.m / 8 = 1 then [(e.word, 8)] else []) ∧
        ∀ a ∈ l, a.k = s.focus ∧ a.kind = .mstore e.rid ∧ a.st = .travel) ∧
      e.kind = kind ∧ e.beats = o.n ∧ e.issue = s.now ∧ e.bindAt = s.now + o.n + 5 ∧
      e.fetched = true ∧ e.dead = false ∧
      t.core s.focus = { issuedCore s [] [] (Tab.put 0 s.here.busy 3 (s.now + o.n)) ((s.here.pc + 1) % 2048) (s.now + 1) with
        mops := s.here.mops ++ [e] }

/-- R259, R260: an mm, mmz or mldt with a stream joins the ops in progress with its fetches under way, tagged or, with its streams in the own vault,
untagged; a tag it names is not ready, and no access of it has been performed.  It waits while a stream lies on another member's die and no packet may
be injected (R60). -/
def Obligations.StreamMatrixOpsStart : Prop :=
  ∀ (s : State) (i : Instr) (o : Str) (kind : Nat) (rd : List Operand) (m : OpSem), matForm i = some (o, kind, rd, true) →
    semOf i = some m → wellFormed i = true → ready s o.h = true → holds s o.h = true → latched s rd = true →
    unitBusy s.here s.now (some 3) = false → m.check s = none → m.stall s = false → o.a.streamOk = true ∨ (kind ≠ 4 ∧ o.b.streamOk = true) →
    (o.h.ta = 0 → clearAt s (s.now + (o.n + 6)) = true) →
    ∃ (t : State) (e : MOp), exec i s = .next t ∧ t.mem = s.mem ∧ t.fe = s.fe ∧ e.kind = kind ∧ e.beats = o.n ∧ e.tag = o.h.ta.toNat ∧
      e.fetched = false ∧ (t.core s.focus).mops = s.here.mops ++ [e] ∧ (o.h.ta ≠ 0 → (t.core s.focus).tagBusy o.h.ta.toNat = true) ∧
      (t.core s.focus).rs = s.here.rs ∧ (t.core s.focus).pc = (s.here.pc + 1) % 2048 ∧ (t.core s.focus).next = s.now + 1

/-- R143, R252, R253: over 8-bit integer tile items and a .s32 accumulator, mm leaves in element (i, j) the addend plus the products of row i
of A and column j of B, modulo 2^32; mmz takes no addend. -/
def Obligations.MatrixIntegerResult : Prop :=
  ∀ (m : MOp) (add la lb : List Nat) (ta tb : Nat), (ta = 7 ∨ ta = 11) → (tb = 7 ∨ tb = 11) → (m.kind = 1 ∨ m.kind = 2) →
    m.a = .elems ta la → m.b = .elems tb lb → m.d.ty = 5 → la.length = 32 * (2 * m.beats) → lb.length = 2 * m.beats * 32 →
    ∀ i < 32, ∀ j < 32, (mmElems m add).getD (32 * i + j) 0 =
      (((if m.kind = 2 then 0 else intOf 5 (add.getD (32 * i + j) 0))
        + ((List.range (2 * m.beats)).map fun k => intOf ta (la.getD (i * (2 * m.beats) + k) 0) * intOf tb (lb.getD (k * 32 + j) 0)).sum) % 2 ^ 32).toNat

/-! ### Memory and asynchronous ops -/

/-- An op that starts one access at an effective address: slot, head, source operands, what the access does, address, bytes, destination,
whether its value is a fixed-latency result (TA = 0 with a value), whether it is a release, whether later bundles wait for it, and the limits
of its address: write-class, vault space only. -/
structure Sys2Proof.Machine.AForm where
  sl : Slot
  h : Head
  rd : List Operand
  kind : AccKind
  ea : Dword
  size : Nat
  dest : Dest
  fixed : Bool
  rel : Bool
  wait : Bool
  vaultOnly : Bool

/-- A scalar load (R264, R266, R270). -/
def Sys2Proof.Machine.AForm.load (h : Head) (rd : List Operand) (ea : Dword) (n : Nat) (sx : Bool) (d : Dest) (acq : Bool) : AForm :=
  ⟨.L, h, rd, .load n sx, ea, n, d, decide (h.ta = 0), false, acq, false⟩
/-- A scalar store of the low n bytes of val(D) (R267, R270); to a strike page it is a release (R271). -/
def Sys2Proof.Machine.AForm.store (s : State) (h : Head) (rd : List Operand) (ea : Dword) (n : Nat) (v : Dword) (rel : Bool) : AForm :=
  ⟨.L, h, rd, .store (toBytes n v.toNat), ea, n, .none, false, rel || toStrike s ea, false, false⟩
/-- A full/empty op (R272). -/
def Sys2Proof.Machine.AForm.fullEmpty (c : Core) (o : Q4) (op : FeOp) (v : Dword) (val acq rel : Bool) : AForm :=
  ⟨.L, o.h, [o.a, o.b, o.c], .fe op v, memAddr c 4 o, 8, if val then sDest 4 o.d else .none, val && decide (o.h.ta = 0), rel, acq, true⟩
/-- An atomic on n bytes (R275 to R277): operands in the registers after D; with D = x0 one that merges is a reduction. -/
def Sys2Proof.Machine.AForm.atomic (c : Core) (o : Q4) (op : AmoOp) (n : Nat) (merges : Bool) : AForm :=
  ⟨.L, o.h, [o.a, o.b, o.c], .amo op n (nextReg c o.d 1) (nextReg c o.d 2) (merges && o.d.isX0), memAddr c 4 o, n, sDest 4 o.d, false, false, false,
    false⟩

/-- The loads, stores, full/empty ops and atomics of chapter "Load, Store, Atomic and Fabric-Register Operations". -/
def Sys2Proof.Machine.memoryForm (s : State) (i : Instr) : Option AForm :=
  let c := s.here
  let li (o : Q4) (n : Nat) (sx acq : Bool) : Option AForm := some (.load o.h [o.a, o.b, o.c] (memAddr c 4 o) n sx (sDest 4 o.d) acq)
  let lw (o : I28) (n : Nat) (sx : Bool) : Option AForm := some (.load o.h [o.a] (memAddrW c 4 o) n sx (sDest 4 o.d) false)
  let si (o : Q4) (n : Nat) (rel : Bool) : Option AForm := some (.store s o.h [o.a, o.b, o.c] (memAddr c 4 o) n (readS c 4 o.d) rel)
  let sw (o : I28) (n : Nat) : Option AForm := some (.store s o.h [o.a] (memAddrW c 4 o) n (readS c 4 o.d) false)
  let fe (o : Q4) (op : FeOp) (v : Dword) (val acq rel : Bool) : Option AForm := some (.fullEmpty c o op v val acq rel)
  let am (o : Q4) (op : AmoOp) (n : Nat) (merges : Bool) : Option AForm := some (.atomic c o op n merges)
  match i with
  | .ldS8I o => li o 1 true false
  | .ldS8W o => lw o 1 true
  | .ldZ8I o => li o 1 false false
  | .ldZ8W o => lw o 1 false
  | .ldS16I o => li o 2 true false
  | .ldS16W o => lw o 2 true
  | .ldZ16I o => li o 2 false false
  | .ldZ16W o => lw o 2 false
  | .ldS32I o => li o 4 true false
  | .ldS32W o => lw o 4 true
  | .ldZ32I o => li o 4 false false
  | .ldZ32W o => lw o 4 false
  | .ld64I o => li o 8 false false
  | .ld64W o => lw o 8 false
  | .ldAcq32 o => li o 4 false true
  | .ldAcq64 o => li o 8 false true
  | .vldI o => some ⟨.L, o.h, [o.a, o.b, o.c], .loadV, memAddr c 4 o, 256, vDest c 4 o.d, decide (o.h.ta = 0), false, false, false⟩
  | .vldW o => some ⟨.L, o.h, [o.a], .loadV, memAddrW c 4 o, 256, vDest c 4 o.d, decide (o.h.ta = 0), false, false, false⟩
  | .st8I o => si o 1 false
  | .st8W o => sw o 1
  | .st16I o => si o 2 false
  | .st16W o => sw o 2
  | .st32I o => si o 4 false
  | .st32W o => sw o 4
  | .st64I o => si o 8 false
  | .st64W o => sw o 8
  | .stRel32 o => si o 4 true
  | .stRel64 o => si o 8 true
  | .vstI o => some ⟨.L, o.h, [o.a, o.b, o.c], .store (vecBytes (readVreg c o.d.ix)), memAddr c 4 o, 256, .none, false, toStrike s (memAddr c 4 o), false, false⟩
  | .vstW o => some ⟨.L, o.h, [o.a], .store (vecBytes (readVreg c o.d.ix)), memAddrW c 4 o, 256, .none, false, toStrike s (memAddrW c 4 o), false, false⟩
  | .ldfeKeep o => fe o .keep 0 true true false
  | .ldfeTake o => fe o .take 0 true true false
  | .stfeFill o => fe o .fill (readS c 4 o.d) false false true
  | .fechk o => fe o .chk 0 true false false
  | .feset o => fe o .set 0 false false false
  | .feclr o => fe o .clr 0 false false false
  | .amoAdd32 o => am o .add 4 true
  | .amoAdd64 o => am o .add 8 true
  | .amoAnd32 o => am o .and 4 true
  | .amoAnd64 o => am o .and 8 true
  | .amoOr32 o => am o .or 4 true
  | .amoOr64 o => am o .or 8 true
  | .amoXor32 o => am o .xor 4 true
  | .amoXor64 o => am o .xor 8 true
  | .amoMaxS32 o => am o .maxS 4 true
  | .amoMaxS64 o => am o .maxS 8 true
  | .amoMaxZ32 o => am o .maxZ 4 true
  | .amoMaxZ64 o => am o .maxZ 8 true
  | .amoMinS32 o => am o .minS 4 true
  | .amoMinS64 o => am o .minS 8 true
  | .amoMinZ32 o => am o .minZ 4 true
  | .amoMinZ64 o => am o .minZ 8 true
  | .amoSwap32 o => am o .swap 4 false
  | .amoSwap64 o => am o .swap 8 false
  | .cas32 o => am o .cas 4 false
  | .cas64 o => am o .cas 8 false
  | .amoFaddF32 o => am o .faddF32 4 true
  | .amoFaddBf16 o => am o .faddBf16 2 true
  | .amoFmaxF32 o => am o .fmaxF32 4 true
  | _ => none

/-- The address of a memory op is one it may use at issue (R262 to R264, R288): aligned to its size; in the vaults of the die, and in the core's
own vault within its window; or global, where the op allows it.  A fixed-latency access stays in the own vault. -/
def Sys2Proof.Machine.AForm.addressed (F : AForm) (s : State) : Bool :=
  decide (F.ea.toNat % F.size = 0)
    && ((decide (eaSpace F.ea = 0) && decide (eaAddr F.ea < 2 ^ 30) && (!inOwnVault s.focus F.ea || vaultOk s (s.ctxD s.focus) (eaAddr F.ea) F.size)
          && (!F.fixed || inOwnVault s.focus F.ea))
        || (decide (eaSpace F.ea = 1) && !F.vaultOnly && !F.fixed))

/-- The op would inject a packet while its member injects none: its bundle is frozen (R60, R264). -/
def Sys2Proof.Machine.AForm.stalls (F : AForm) (s : State) : Bool := noInject s && toRemote s F.ea && !F.vaultOnly

/-- The vector register of a vld or vst lies below VIEW0.COUNT and, as a source, holds no error (R268, R463). -/
def Sys2Proof.Machine.vregOfMem (s : State) : Instr → Bool
  | .vldI o => vopOk s.here o.d
  | .vldW o => vopOk s.here o.d
  | .vstI o => vopOk s.here o.d && (rsBad s.here (vregAddr s.here o.d.ix) 256).isNone
  | .vstW o => vopOk s.here o.d && (rsBad s.here (vregAddr s.here o.d.ix) 256).isNone
  | _ => true

/-- R264, R266 to R272, R275: a load, store, full/empty op or atomic whose address passes the checks at issue starts its access, which reaches
its point after the time of R87; nothing in memory has changed yet.  A fixed-latency one sends a result that lands 6 clk later; a tagged one
makes its tag not ready; an acquire makes later bundles wait.  A release issues so once no earlier access is open (R271), and an access to another
member's HBM while its member is not snuffed (R60). -/
def Obligations.MemoryOpsStartTheirAccess : Prop :=
  ∀ (s : State) (i : Instr) (F : AForm), memoryForm s i = some F → wellFormed i = true → ready s F.h = true → holds s F.h = true →
    latched s F.rd = true → F.addressed s = true → vregOfMem s i = true → (F.rel = true → openAccess s = false) → F.stalls s = false →
    (F.fixed = true → clearAt s (s.now + 6) = true) →
    ∃ t, exec i s = .next t ∧
      Started s t (accessOf s 4 F.kind F.ea F.size F.dest F.h.ta.toNat (if F.fixed then s.nextId else 0) F.rel) (accTime s s.focus F.ea)
        (if F.fixed then [sent s .L 6 F.dest .unbound] else []) (if F.fixed then latchOf s .L 6 (.s 0) else []) F.wait

/-- Loads and stores may name register space; full/empty ops and atomics may not (R262). -/
def Sys2Proof.Machine.AForm.regs (F : AForm) : Bool := match F.kind with
  | .load _ _ | .loadV | .store _ => true
  | _ => false

/-- R262, R263, R288: an address an op may not use is found at issue and the op does not act: reserved space, register space past its end or for
an op that may not name it, or a fixed-latency access out of the own vault, is an illegal operand (0x03); a misaligned one raises 0x07; global
space for a vault-only op, and a V-address past the vaults or out of the window, raise 0x0A.  TRET names the bundle. -/
def Obligations.BadAddressesTrap : Prop :=
  ∀ (s : State) (i : Instr) (F : AForm), memoryForm s i = some F → wellFormed i = true → ready s F.h = true → holds s F.h = true →
    vregOfMem s i = true → (F.rel = true → openAccess s = false) → F.stalls s = false → F.addressed s = false →
    ¬(eaSpace F.ea = 2 ∧ F.regs = true ∧ eaAddr F.ea + F.size ≤ 0x30000 ∧ F.ea.toNat % F.size = 0) →
    ∃ t cause v, exec i s = .next t ∧ OnlyHere s t ∧ t.core s.focus = { s.here with trap := some ⟨.I, cause, s.here.pc, v, 4, s.clk⟩ } ∧
      cause = (if eaSpace F.ea = 3 ∨ (eaSpace F.ea = 2 ∧ (F.regs = false ∨ 0x30000 < eaAddr F.ea + F.size))
          ∨ (F.fixed = true ∧ eaSpace F.ea ≠ 2 ∧ inOwnVault s.focus F.ea = false) then 0x03
        else if F.ea.toNat % F.size ≠ 0 then 0x07 else 0x0A)

/-- The value a load finds in register space, and the bytes a store puts there. -/
def Sys2Proof.Machine.AForm.regsVal (F : AForm) (c : Core) : Option Val := match F.kind with
  | .load n sx =>
    let v : Dword := BitVec.ofNat 64 (ofBytes (c.rsBytes (eaAddr F.ea) n))
    some (.s (if sx then sextN (8 * n) v else v))
  | .loadV => some (.v allOnes (vecOf (c.rsBytes (eaAddr F.ea) 256)))
  | _ => none
@[inherit_doc Sys2Proof.Machine.AForm.regsVal] def Sys2Proof.Machine.AForm.stored (F : AForm) : Option (List Byte) := match F.kind with
  | .store l => some l
  | _ => none

/-- A latch entry of a value (R84). -/
def Sys2Proof.Machine.asLatch : Val → LatchVal
  | .s v => .s v
  | .v _ v => .v v
  | _ => .s 0

/-- R262, R264: in register space a load with TA = 0 sends the value there at once, to land 6 clk later; a tagged load lands it 6 clk later too
and makes its tag not ready until then; a store sends its bytes, to land 6 clk later, with its tag if it names one.  No vault is touched. -/
def Obligations.RegisterSpaceAccesses : Prop :=
  ∀ (s : State) (i : Instr) (F : AForm), memoryForm s i = some F → wellFormed i = true → ready s F.h = true → holds s F.h = true →
    latched s F.rd = true → vregOfMem s i = true → (F.rel = true → openAccess s = false) →
    eaSpace F.ea = 2 → F.ea.toNat % F.size = 0 → eaAddr F.ea + F.size ≤ 0x30000 → clearAt s (s.now + 6) = true →
    (∀ v, F.regsVal s.here = some v → rsBad s.here (eaAddr F.ea) F.size = none → F.h.ta = 0 →
      ∃ t, exec i s = .next t ∧
        Issued s t [sent s .L 6 F.dest v] (latchOf s .L 6 (asLatch v)) s.here.busy ((s.here.pc + 1) % 2048) (s.now + 1)) ∧
    (∀ v, F.regsVal s.here = some v → rsBad s.here (eaAddr F.ea) F.size = none → F.h.ta ≠ 0 →
      ∃ t, exec i s = .next t ∧ Kept s t ∧
        t.accesses = s.accesses ++ [{ accessOf s 4 (.load F.size false) F.ea F.size F.dest F.h.ta.toNat 0 false with st := .done v }] ∧
        t.agenda = s.agenda ++ [⟨s.clk + 6, .event .taggedResultLand { k := s.focus, a := s.nextId + 2 }⟩] ∧
        t.core s.focus = { issuedCore s [] [] s.here.busy ((s.here.pc + 1) % 2048) (s.now + 1) with
          tags := Tab.put 0 s.here.tags F.h.ta.toNat (s.nextId + 3) }) ∧
    (∀ l, F.stored = some l →
      ∃ t, exec i s = .next t ∧ OnlyHere s t ∧
        t.core s.focus = { issuedCore s [{ sent s .L 6 (.rs (eaAddr F.ea)) (.bytes l) with tag := F.h.ta.toNat }] [] s.here.busy
            ((s.here.pc + 1) % 2048) (s.now + 1) with
          tags := if F.h.ta = 0 then s.here.tags else Tab.put 0 s.here.tags F.h.ta.toNat (s.nextId + 1) })

/-- An A op or a fence: what the access does, at which address, how many bytes, its destination, the clk it acts at, whether it is a release and
whether later bundles wait for it (R278, R290, R293, R306 to R315); `base` is the state once the reductions that wait on the lines it reads at issue
have drained (R98, R477). -/
structure Sys2Proof.Machine.QForm where
  base : State
  sl : Nat
  h : Head
  rd : List Operand
  kind : AccKind
  ea : Dword
  size : Nat
  dest : Dest
  due : Nat
  rel : Bool
  wait : Bool

/-- The A ops that start one access at issue, and the fences. -/
def Sys2Proof.Machine.asyncForm (s : State) (i : Instr) : Option QForm :=
  let c := s.here
  let a (x : Operand) : Dword := readS c 5 x
  let job (o : Q4) : Option QForm :=
    some ⟨drainCard s (memAddr c 5 o), 5, o.h, [o.a, o.b, o.c], .card (cardAt s (memAddr c 5 o)) (cardFp s (memAddr c 5 o)), memAddr c 5 o, 64, sDest 5 o.d, s.clk, false, false⟩
  let bar (o : Q4) (op : BarOp) (v : Dword) : Option QForm :=
    some ⟨s, 5, o.h, [o.a, o.b], .bar op v, a o.a, 16, if op = .wait then sDest 5 o.d else .none, accTime s s.focus (a o.a), decide (op = .arr),
      decide (op = .wait)⟩
  let fence (o : Sys) (scope : Nat) : Option QForm := some ⟨s, 4, o.h, [], .fence scope, 0, 0, .none, s.clk, decide (scope = 2), true⟩
  match i with
  | .cpy o => job o
  | .cpyr o => job o
  | .coll o => job o
  | .trig o => some ⟨drainCard s (a o.a), 5, o.h, [o.a, o.b, o.c], .trig (a o.b).toNat (a o.c) (cardAt s (a o.a)) (cardFp s (a o.a)), a o.a, 64, sDest 5 o.d, s.clk, false, false⟩
  | .binit o => bar o .init (a o.b &&& 0xFFFFFFFFFFFF)
  | .bexp o => bar o .exp (a o.b)
  | .barr o => bar o .arr (a o.b &&& 0xFFFFFFFFFFFF)
  | .bwait o => bar o .wait (a o.b)
  | .sred o =>
    let n := (a o.b).toNat / 2 ^ 16 % 2 ^ 9
    some ⟨s.drainOwn (a o.a).toNat n, 5, o.h, [o.a, o.b], .sred (qType o) (qRm o) ((a o.b).toNat % 65536) (ownBytes s (a o.a).toNat n), a o.a, n, sDest 5 o.d, s.clk, false, false⟩
  | .pref o => some ⟨s, 5, o.h, [o.a, o.b, o.c], .pref (a o.d).toNat, memAddr c 5 o, 1, .none, s.clk + s.delay, false, false⟩
  | .sig o => some ⟨s, 5, o.h, [o.a, o.b], .sig (a o.b), a o.a, 8, .none, accTime s s.focus (a o.a), true, false⟩
  | .wdraw o => some ⟨s, 5, o.h, [o.a], .wdraw (a o.a).toNat, a o.a, 8, sDest 5 o.d, s.clk, false, false⟩
  | .jobq o => some ⟨s, 5, o.h, [o.a], .jobq (a o.a), 0, 8, sDest 5 o.d, s.clk + 4, false, false⟩
  | .heat o => some ⟨s, 5, o.h, [o.a], .heat, a o.a, 1, sDest 5 o.d, s.clk + 20, false, false⟩
  | .mig o => some ⟨s, 5, o.h, [o.a, o.b], .mig ((a o.b).getLsbD 0), a o.a, 1, sDest 5 o.d, s.clk, false, false⟩
  | .fenceC o => fence o 0
  | .fenceD o => fence o 1
  | .fenceG o => fence o 2
  | _ => none

/-- R290, R278, R98: an A op whose operands pass its checks, and a fence, start their request; beyond the reductions that drain from the lines of a card
or of the elements it reads, nothing in memory has changed yet, the op's tag is not
ready, and issue goes on at the next bundle: jobq acts 4 clk later, heat 20 clk later, a barrier op and a signal write after the time of their
address, the others at once.  After a fence or a bwait the later L, A and stream-reading M bundles wait. -/
def Obligations.AsyncOpsStartTheirRequest : Prop :=
  ∀ (s : State) (i : Instr) (F : QForm) (m : OpSem), asyncForm s i = some F → semOf i = some m → wellFormed i = true → ready s F.h = true →
    holds s F.h = true → latched s F.rd = true → m.check s = none →
    ∃ t, exec i s = .next t ∧
      Started F.base t (accessOf s F.sl F.kind F.ea F.size F.dest F.h.ta.toNat 0 F.rel) F.due [] [] F.wait

/-- R291, R316, R356: the checks of a job card's ea and card, in the order of R390: an ea in reserved space or past the end of register space is an
illegal operand, a misaligned one raises 0x07, one in global space or out of the window 0x0A, a broken card 0x11, a member outside the VD 0x0D, and a
barrier object outside the barrier area or the window, or a footprint list outside the window, 0x0A. -/
def Obligations.CardChecks : Prop :=
  ∀ (s : State) (word : Nat) (ea : Dword) (kinds : List Nat), (eaSpace ea = 2 → rsBad s.here (eaAddr ea) 64 = none) →
    let c := cardAt s ea
    let cause := (cardCheck s word ea kinds).map (·.1)
    let out : Bool := match recFp (c.getD 3 0) with
      | some a => !vaultOk s (s.ctxD s.focus) a 256
      | none => false
    cause =
      if eaSpace ea = 3 ∨ (eaSpace ea = 2 ∧ 0x30000 < eaAddr ea + 64) then some 0x03
      else if ea.toNat % 64 ≠ 0 then some 0x07
      else if eaSpace ea = 1 ∨ (eaSpace ea = 0 ∧ vaultOk s (s.ctxD s.focus) (eaAddr ea) 64 = false) then some 0x0A
      else if cardKind c ∉ kinds ∨ cardBad (cardKind c) c (if out then [] else cardFp s ea) = true
          ∨ cardEpBad (s.vd (s.ctxD s.focus).vd) c = true then some 0x11
      else if (cardMember (s.vd (s.ctxD s.focus).vd).params.n c).isSome = true then some 0x0D
      else if (cardBv c = true ∧ barrierAddrOk s (s.ctxD s.focus) (cardBaddr c) = false) ∨ out = true then some 0x0A else none

/-! ### Stream registers, stream loads, port FIFOs, multicast, fills -/

/-- The stream-register ops of R279 and R280: fields, source operands, latency, and the new record. -/
def Sys2Proof.Machine.streamForm (s : State) (i : Instr) : Option (Str × List Operand × Nat × StreamReg) :=
  let c := s.here
  let r (o : Str) : StreamReg := Tab.get StreamReg.zero c.streams o.d.ix
  let v (o : Str) : Dword := readS c 4 o.a
  match i with
  | .sdef o => some (o, [o.a], 6, ⟨(recordAt s (v o)).getD 0 0, (recordAt s (v o)).getD 1 0, (recordAt s (v o)).getD 2 0, (recordAt s (v o)).getD 3 0⟩)
  | .ssetBase o => some (o, [o.a], 1, { r o with d0 := setBits (r o).d0 (v o) 51 0 })
  | .ssetSpace o => some (o, [o.a], 1, { r o with d0 := setBits (r o).d0 (v o) 63 62 })
  | .ssetRstride o => some (o, [o.a], 1, { r o with d1 := setBits (r o).d1 (v o) 63 32 })
  | .ssetCtl o => some (o, [o.a], 1, { r o with d1 := setBits (r o).d1 (v o) 31 0 })
  | .ssetSbase o => some (o, [o.a], 1, { r o with d2 := setBits (r o).d2 (v o) 51 0 })
  | .ssetSstride o => some (o, [o.a], 1, { r o with d3 := setBits (r o).d3 (v o) 63 32 })
  | .sadv o => some (o, [o.a, o.b], 1,
      { r o with d0 := setBits (r o).d0 (BitVec.ofNat 64 ((r o).d0.toNat % 2 ^ 52) + v o) 51 0,
                 d2 := setBits (r o).d2 (BitVec.ofNat 64 ((r o).d2.toNat % 2 ^ 52) + readS c 4 o.b) 51 0 })
  | _ => none

/-- The state once the reductions that wait on the lines of an sdef's record have drained (R98, R477). -/
def Sys2Proof.Machine.sdefBase (s : State) : Instr → State
  | .sdef o => if eaSpace (readS s.here 4 o.a) = 2 then s else s.drainOwn (eaAddr (readS s.here 4 o.a)) 32
  | _ => s

/-- R279, R280: sdef (of a record it may read) sends the record's four dwords to the stream register 6 clk later; sset and sadv send the
register with the one field replaced, or both bases advanced, 1 clk later, the sums taken in the 52-bit fields.  A tag they name is ready then. -/
def Obligations.StreamRegisterOps : Prop :=
  ∀ (s : State) (i : Instr) (o : Str) (rd : List Operand) (lat : Nat) (r : StreamReg), streamForm s i = some (o, rd, lat, r) →
    wellFormed i = true → ready s o.h = true → holds s o.h = true → latched s rd = true → clearAt s (s.now + lat) = true →
    (match i with
      | .sdef o => let ea := readS s.here 4 o.a
          eaSpace ea ≠ 3 ∧ (eaSpace ea = 2 → eaAddr ea + 32 ≤ 0x30000) ∧ recordCheck s ea true = none ∧
          ∀ a ∈ recordGranule s ea, recordReady s s.focus a = true
      | _ => True) →
    ∃ t, exec i s = .next t ∧ OnlyHere (sdefBase s i) t ∧
      t.core s.focus = { issuedCore s [{ sent s .L lat (.stream o.d.ix) (.stream r) with tag := o.h.ta.toNat }] [] s.here.busy
          ((s.here.pc + 1) % 2048) (s.now + 1) with
        tags := if o.h.ta = 0 then s.here.tags else Tab.put 0 s.here.tags o.h.ta.toNat (s.nextId + 1) }

/-- A setBits keeps every other bit and takes the low bits of the new value (R279). -/
def Obligations.SetBitsReplacesOneField : Prop :=
  ∀ (d v : Dword) (hi lo : Nat), lo ≤ hi → hi < 64 →
    ∀ b < 64, (setBits d v hi lo).getLsbD b = if lo ≤ b ∧ b ≤ hi then v.getLsbD (b - lo) else d.getLsbD b

/-- The stream loads and instruction fill, each one wide access (R281, R282, R311). -/
def Sys2Proof.Machine.wideForm : Instr → Option (Head × List Operand)
  | .ldt o => some (o.h, [])
  | .vldt o => some (o.h, [])
  | .ifill o => some (o.h, [o.a, o.b, o.c])
  | _ => none
/-- The ea of a multicast of n bytes is one it may use (R29, R30, R287): reserved bits zero, the rectangle of R29, in the pane of a pane core, its member
in the gang, aligned to its bytes; and no member it would send a packet to, while its own injects none (R60). -/
def Sys2Proof.Machine.stmUsable (s : State) (e n : Nat) : Prop :=
  e / 2 ^ 61 = 0 ∧ rectOk (stmX0 e) (stmY0 e) (stmLw e) (stmLh e) = true ∧ paneRectOk s.here e = true ∧
    (stmAll e = true ∨ stmMem e < (s.vd (s.ctxD s.focus).vd).params.n) ∧ e % n = 0 ∧
    (noInject s = true → ∀ m ∈ stmMembers s e, m = (s.ctxD s.focus).member)

/-- Nothing has been performed by an op that has just issued: memory, full/empty bits, registers, register space, IMEM and results in flight are
as they were, and issue goes on at the next bundle (R102, R173). -/
structure Sys2Proof.Machine.NothingYet (s t : State) : Prop where
  clk : t.clk = s.clk
  mem : t.mem = s.mem
  fe : t.fe = s.fe
  x : (t.core s.focus).x = s.here.x
  p : (t.core s.focus).p = s.here.p
  rs : (t.core s.focus).rs = s.here.rs
  ofS : (t.core s.focus).ofS = s.here.ofS
  ofV : (t.core s.focus).ofV = s.here.ofV
  streams : (t.core s.focus).streams = s.here.streams
  imem : (t.core s.focus).imem = s.here.imem
  results : (t.core s.focus).results = s.here.results
  pc : (t.core s.focus).pc = (s.here.pc + 1) % 2048
  next : (t.core s.focus).next = s.now + 1

/-- R107, R281, R282, R311: ldt, vldt and ifill whose operands pass their checks start one wide access, which gathers its parts; nothing of it has
been performed, and its tag is not ready. -/
def Obligations.WideOpsStart : Prop :=
  ∀ (s : State) (i : Instr) (h : Head) (rd : List Operand) (m : OpSem), wideForm i = some (h, rd) → semOf i = some m → wellFormed i = true →
    ready s h = true → holds s h = true → latched s rd = true → m.stall s = false → m.check s = none →
    ∃ t, exec i s = .next t ∧ NothingYet s t ∧ (h.ta ≠ 0 → (t.core s.focus).tagBusy h.ta.toNat = true) ∧
      (∀ a ∈ s.accesses, a.id < s.nextId → a ∈ t.accesses) ∧
      ∃ a ∈ t.accesses, ∃ n, a.id = s.nextId + 2 ∧ a.k = s.focus ∧ a.pc = s.here.pc ∧ a.issue = s.clk ∧ a.tag = h.ta.toNat ∧ a.st = .gather n []

/-- A multicast of the bytes l has issued (R115, R287): nothing has been written yet, its tag is not ready when it names a core, and when its offset lies
in the window and every member it names can be reached, there is one write of those bytes under way for every member and core it names, each at the same
offset of that core's vault. -/
structure Sys2Proof.Machine.Multicast (s t : State) (e : Nat) (tag : Nat) (l : List Byte) : Prop where
  nothing : NothingYet s t
  writes : vaultOk s (s.ctxD s.focus) (stmOff e) l.length = true →
    (∀ m ∈ stmMembers s e, m ∉ (s.member (s.ctxD s.focus)).unreachable) → ∀ m ∈ stmMembers s e, ∀ k ∈ stmCores e,
      (tag ≠ 0 → (t.core s.focus).tagBusy tag = true) ∧
      ∃ a ∈ t.accesses, a.k = s.focus ∧ a.kind = .stm (s.nextId + 2) (BitVec.ofNat 64 e) l ∧ a.ea = BitVec.ofNat 64 (k * 2 ^ 22 + stmOff e) ∧
        a.target = m ∧ a.tag = tag

/-- R115, R287: stm.64 sends its 8 bytes, and stm.v the 256 bytes of a vector register it may read, to every core of the rectangle in every member its ea
names; each completes for every ea it may use, and nothing has been written at its issue. -/
def Obligations.MulticastStarts : Prop :=
  (∀ (s : State) (o : Q4), let e := (memAddr s.here 4 o).toNat
    wellFormed (.stm64 o) = true → ready s o.h = true → holds s o.h = true → latched s [o.a, o.b, o.c] = true → stmUsable s e 8 →
    ∃ t, exec (.stm64 o) s = .next t ∧ Multicast s t e o.h.ta.toNat (toBytes 8 (readS s.here 4 o.d).toNat)) ∧
  (∀ (s : State) (o : Q4), let e := (memAddr s.here 4 o).toNat
    wellFormed (.stmV o) = true → ready s o.h = true → holds s o.h = true → latched s [o.a, o.b, o.c] = true → stmUsable s e 256 →
    vopOk s.here o.d = true → rsBad s.here (vregAddr s.here o.d.ix) 256 = none →
    ∃ t, exec (.stmV o) s = .next t ∧ Multicast s t e o.h.ta.toNat (vecBytes (readVreg s.here o.d.ix)))

/-- R283, R98: fbind of a record it may read, on a FIFO with an empty in side, takes effect 6 clk later: until then the FIFO is bound as before; reductions
that wait on the record's line drain. -/
def Obligations.FifoBindOp : Prop :=
  ∀ (s : State) (o : Q4) (m : OpSem), let i := Instr.fbind o; let ea := memAddr s.here 4 o
    semOf i = some m → wellFormed i = true → ready s o.h = true → holds s o.h = true → latched s [o.a, o.b, o.c] = true →
    (∀ a ∈ recordGranule s ea, recordReady s s.focus a = true) → m.check s = none → (o.h.ta ≠ 0 → clearAt s (s.now + 6) = true) →
    ∃ t, exec i s = .next t ∧ OnlyHere (s.drainOwn (eaAddr ea) 32) t ∧ (t.core s.focus).fifos = s.here.fifos ∧ (t.core s.focus).pc = (s.here.pc + 1) % 2048 ∧
      (t.core s.focus).next = s.now + 1 ∧ (t.core s.focus).x = s.here.x ∧ (t.core s.focus).rs = s.here.rs ∧
      ∃ b, (t.core s.focus).binds = s.here.binds ++ [b] ∧ b.due = s.now + 6 ∧ b.k = o.d.ix ∧ b.f.d0 = (recordAt s ea).getD 0 0 ∧
        b.f.d1 = (recordAt s ea).getD 1 0 ∧ b.f.d2 = (recordAt s ea).getD 2 0 ∧ b.f.d3 = (recordAt s ea).getD 3 0 ∧ b.f.n = 0 ∧
        b.f.out = [] ∧ b.f.inn = []

/-- R285, R286: fpush hands its element to the out side of a bound FIFO with room, where the transfer takes it up, and the write it becomes is an open
access of the core (R271, R278); fpop takes the oldest element
of a non-empty in side, which lands in D 2 clk later. -/
def Obligations.FifoPushPop : Prop :=
  (∀ (s : State) (o : Q4) (m : OpSem), let i := Instr.fpush o; let f := s.here.fifo o.d.ix
    semOf i = some m → wellFormed i = true → ready s o.h = true → holds s o.h = true → latched s [o.a] = true → noInject s = false →
    f.out.length < 16 → m.check s = none →
    ∃ t, exec i s = .next t ∧ Kept s t ∧
      t.accesses = s.accesses ++ [accessOf s 4 (.fpush o.d.ix) (3 <<< 62) f.esz .none 0 0 false] ∧
      t.agenda = s.agenda ++ [⟨s.clk, .event .fifoOutTransfer { k := s.focus, a := o.d.ix }⟩] ∧
      t.core s.focus = { issuedCore s [] [] s.here.busy ((s.here.pc + 1) % 2048) (s.now + 1) with
        fifos := Tab.put Fifo.zero s.here.fifos o.d.ix { f with out := f.out ++ [⟨if f.esz = 256 then readVreg s.here o.a.ix
          else BitVec.setWidth 2048 (readS s.here 4 o.a), s.here.pc, s.clk, s.nextId + 2⟩] } }) ∧
  (∀ (s : State) (o : Q4) (m : OpSem) (v : Vec) (rest : List Vec), let i := Instr.fpop o; let f := s.here.fifo o.a.ix
    semOf i = some m → wellFormed i = true → ready s o.h = true → holds s o.h = true → f.inn = v :: rest → m.check s = none → o.h.ta = 0 →
    clearAt s (s.now + 2) = true →
    ∃ t, exec i s = .next t ∧ Kept s t ∧ t.accesses = s.accesses ∧
      t.core s.focus = { issuedCore s
          [sent s .L 2 (if f.esz = 256 then vDest s.here 4 o.d else sDest 4 o.d) (if f.esz = 256 then .v allOnes v else .s (BitVec.setWidth 64 v))]
          (latchOf s .L 2 (if f.esz = 256 then .v v else .s (BitVec.setWidth 64 v))) s.here.busy ((s.here.pc + 1) % 2048) (s.now + 1) with
        fifos := Tab.put Fifo.zero s.here.fifos o.a.ix { f with inn := rest } })

/-- R269: vst.sum starts the store of its vector at the ea with bits 7:0 cleared, or sends it to register space, where it lands 6 clk later; and 2 clk
later o15 holds the readiness word with the vector's summary, joined to the earlier one unless FIRST is set. -/
def Obligations.VectorStoreSum : Prop :=
  ∀ (s : State) (i : Instr) (h : Head) (rd : List Operand) (ea : Dword) (d : Operand),
    ((∃ o : Q4, i = .vstSumI o ∧ h = o.h ∧ rd = [o.a, o.b, o.c] ∧ ea = memAddr s.here 4 o ∧ d = o.d) ∨
     (∃ o : I28, i = .vstSumW o ∧ h = o.h ∧ rd = [o.a] ∧ ea = memAddrW s.here 4 o ∧ d = o.d)) →
    let low := ea.toNat % 256
    let at_ : Dword := BitVec.ofNat 64 (ea.toNat / 256 * 256)
    let sum := summaryOf (low % 16) ((List.range (2048 / tyW (low % 16))).map fun e => vElem (tyW (low % 16)) e (readVreg s.here d.ix))
    let old := Tab.get 0 s.here.ofS (16 * 4 + 15)
    let word : Dword := if low / 16 % 2 = 1 then BitVec.ofNat 64 (0x100 + sum)
      else BitVec.ofNat 64 (old.toNat / 4096 * 4096 + 256 + old.toNat / 128 % 2 * 128 + summaryJoin (old.toNat % 128) sum)
    wellFormed i = true → ready s h = true → holds s h = true → latched s rd = true → low / 32 = 0 → low % 16 ≤ 12 → vopOk s.here d = true →
    rsBad s.here (vregAddr s.here d.ix) 256 = none → clearAt s (s.now + 2) = true →
    let F : AForm := ⟨.L, h, rd, .store (vecBytes (readVreg s.here d.ix)), at_, 256, .none, false, toStrike s at_, false, false⟩
    (F.addressed s = true → (F.rel = true → openAccess s = false) → F.stalls s = false → ∃ t, exec i s = .next t ∧
      Started s t (accessOf s 4 F.kind at_ 256 .none h.ta.toNat 0 F.rel) (accTime s s.focus at_)
        [sent s .L 2 (.ofS 4 15) (.s word)] (latchOf s .L 2 (.s word)) false) ∧
    (eaSpace at_ = 2 → eaAddr at_ + 256 ≤ 0x30000 → clearAt s (s.now + 6) = true → ∃ t, exec i s = .next t ∧ OnlyHere s t ∧
      t.core s.focus = { issuedCore s [sent s .L 2 (.ofS 4 15) (.s word),
            { sent s .L 6 (.rs (eaAddr at_)) (.bytes (vecBytes (readVreg s.here d.ix))) with tag := h.ta.toNat }]
          (latchOf s .L 2 (.s word)) s.here.busy ((s.here.pc + 1) % 2048) (s.now + 1) with
        tags := if h.ta = 0 then s.here.tags else Tab.put 0 s.here.tags h.ta.toNat (s.nextId + 1) })

/-! ### Every op: suppression, word checks, memory at issue -/

/-- R167, R476: an op other than a V op whose predicate is 0 issues without acting: it sends no result, its latch entry reads zero at once,
its tag is ready, and only what the word and the level decide is checked (its checks of registers, records and memory play no part). -/
def Obligations.SuppressedOps : Prop :=
  ∀ (s : State) (i : Instr) (o : OpSem), semOf i = some o → o.vec = false → wellFormed i = true → ready s o.head = true →
    holds s o.head = false → o.level s.here.tl = none →
    ∃ t, exec i s = .next t ∧ OnlyHere s t ∧
      t.core s.focus = (issuedCore s [] [⟨o.slot.num, s.nextId, s.now, .s 0⟩] s.here.busy ((s.here.pc + 1) % 2048) (s.now + 1)).untag o.head.ta.toNat

/-- R402, R476: an op whose word breaks a check is an illegal operand, suppressed or not: cause 0x03, class I, TVAL in op form; it does not act, and it
waits for no FIFO and no record.  While the freezes of R60 and R271 hold its bundle it is not checked yet. -/
def Obligations.IllFormedOpsTrap : Prop :=
  ∀ (s : State) (i : Instr) (o : OpSem), semOf i = some o → wellFormed i = false → ready s o.head = true → o.level s.here.tl = none →
    o.stall s = false → o.order s = false →
    ∃ t, exec i s = .next t ∧ OnlyHere s t ∧
      t.core s.focus = { s.here with trap := some ⟨.I, 0x03, s.here.pc, opForm o.word, o.slot.num, s.clk⟩ }

/-- The ops that read a record, a card or elements of the own vault at issue (R404, R214, R279, R283, R290, R308, R477). -/
def Sys2Proof.Machine.readsVault : Instr → Bool
  | .lnest _ | .spawn _ | .sdef _ | .fbind _ | .cpy _ | .cpyr _ | .coll _ | .trig _ | .sred _ => true
  | _ => false

/-- R102, R98: no op changes a byte of memory, a full/empty bit or an error mark at its issue, whatever becomes of it: stores land at their point of
performance.  An op that reads the own vault at issue drains the reductions that wait in the die's write queues on the lines it reads, and with none of them
waiting it changes nothing either. -/
def Obligations.OpsWriteNoMemoryAtIssue : Prop :=
  ∀ (s t : State) (i : Instr), (semOf i).isSome = true → exec i s = .next t →
    t.clk = s.clk ∧ t.fe = s.fe ∧ (readsVault i = false ∨ (s.die s.focus.die).merges = [] → t.mem = s.mem ∧ t.poison = s.poison)

/-! ### Decoding -/

/-- R166, R168 to R171, R185 to R189: op words written out bit by bit from the spec's encodings stand for their ops.  OPC is bits 79:73, N 72, P 71:68, TA
67:64, TC0 63:60, TC1 59:56; Q4 operands are bits 55:42, 41:28, 27:14 and 13:0, an operand being its level over its index. -/
def Obligations.WordsDecode : Prop :=
  let h (p ta : BitVec 4) : Head := ⟨false, p, ta, 0, 0⟩
  decodeOp .S 0x0200_0000_1400_5FFF_4000 = .ok (.add ⟨h 0 0, ⟨0, 5⟩, ⟨0, 5⟩, ⟨3, 0xFFD⟩, ⟨0, 0⟩⟩) ∧
  decodeOp .S 0x0600_0000_1400_5FFF_FFFF = .ok (.addi ⟨h 0 0, ⟨0, 5⟩, ⟨0, 5⟩, 0xFFFFFFF⟩) ∧
  decodeOp .S 0x5200_0000_0000_5700_0000 = .ok (.pcmpi ⟨h 0 0, ⟨0, 0⟩, ⟨0, 5⟩, 0x7000000⟩) ∧
  decodeOp .S 0x6010_0000_03FF_FFFF_FFFE = .ok (.br ⟨h 1 0, ⟨0, 0⟩, 0x3FFFFFFFFFE⟩) ∧
  decodeOp .V0 0x7000_0000_A000_8000_3300 = .ok (.vcvt .v0 ⟨h 0 0, ⟨0, 0x28⟩, ⟨0, 8⟩, ⟨0, 0⟩, ⟨3, 0x300⟩⟩) ∧
  decodeOp .M 0x0200_0018_0400_1000_84C1 = .ok (.mm ⟨h 0 0, ⟨0, 0x601⟩, ⟨0, 1⟩, ⟨0, 2⟩, 0x13, 1⟩) ∧
  decodeOp .L 0x7202_0000_2800_6000_3010 = .ok (.cas64 ⟨h 0 2, ⟨0, 0xA⟩, ⟨0, 6⟩, ⟨0, 0⟩, ⟨3, 0x010⟩⟩) ∧
  decodeOp .A 0x0203_0000_2400_6000_3000 = .ok (.cpy ⟨h 0 3, ⟨0, 9⟩, ⟨0, 6⟩, ⟨0, 0⟩, ⟨3, 0⟩⟩)

/-- R166, R168 to R171, R185 to R189: decoding the encoding of a well-formed op gives the op back, with every operand at every value its word
admits, alone and in its bundle. -/
def Obligations.DecodeOfEncode : Prop :=
  ∀ (i : Instr) (sl : Slot) (w : Nat), wellFormed i = true → encode i = some (sl, w) →
    w < 2 ^ 80 ∧ decodeOp sl w = .ok i ∧ decodeTableWord 512 (singleBundle sl w) = some i

/-- The OPC values R401 lists as unassigned, by opcode map. -/
def Sys2Proof.Machine.unassigned (sl : Slot) (opc : Nat) : Bool :=
  let among (l : List (Nat × Nat)) : Bool := l.any fun r => decide (r.1 ≤ opc ∧ opc ≤ r.2)
  match sl with
  | .S => among [(0, 0), (0x0B, 0x0F), (0x1E, 0x1F), (0x25, 0x27), (0x2F, 0x2F), (0x35, 0x37), (0x3A, 0x3F), (0x43, 0x43), (0x47, 0x47),
                 (0x4E, 0x4F), (0x53, 0x7F)]
  | .V0 | .V1 => among [(0, 0), (0x14, 0x17), (0x1D, 0x1F), (0x24, 0x27), (0x2F, 0x2F), (0x33, 0x37), (0x3C, 0x3F), (0x44, 0x47), (0x4C, 0x4F),
                        (0x53, 0x7F)]
  | .M => among [(0, 0), (0x0A, 0x7F)]
  | .L => among [(0, 0), (0x0F, 0x0F), (0x1D, 0x1F), (0x2D, 0x2F), (0x3A, 0x3F), (0x40, 0x40), (0x4F, 0x4F), (0x55, 0x57), (0x5D, 0x7F)]
  | .A => among [(0, 0), (0x11, 0x7F)]

/-- R401: an op word with an unassigned OPC decodes to no op in its slot; alone in its bundle it raises cause 0x02, class I, with TVAL in op
form, whatever its predicate, and changes nothing else.  Every other OPC is assigned: 58, 53, 9, 74 and 16 of them.  An absent op word is not decoded. -/
def Obligations.UnassignedOpcodes : Prop :=
  (∀ (sl : Slot) (w : Nat), unassigned sl (opcOf w) = true ↔ decodeOp sl w = .error .unassigned) ∧
  allSlots.map (fun sl => (List.range 128).countP fun n => !unassigned sl n) = [58, 53, 53, 9, 74, 16] ∧
  (∀ (b : Nat) (sl : Slot), bitN b sl.maskBit = false → ∀ e ∈ decodeBundle b, e.1 ≠ sl) ∧
  (∀ (s : State) (sl : Slot) (w : Nat), let k := s.subject.k
    unassigned sl (opcOf w) = true → w < 2 ^ 80 → s.focus = k → ready s (Sys2Proof.Machine.headOf w) = true → (fetchBundle s.here).toNat = singleBundle sl w →
    ∃ t, exec .bundleIssue s = .next t ∧ OnlyHere s t ∧
      t.core k = { s.here with trap := some ⟨.I, 0x02, s.here.pc, opForm w, sl.num, s.clk⟩ })

/-! ### Steps -/

/-- R163, R165, R173: when nothing else is due in this clk, a step runs the op that the bundle at PC of the first core to issue decodes to, alone
in its bundle with a plain header; in the body of an active nest the loop buffer holds the bundle as it issues (R179). -/
def Obligations.StepRunsDecodedOp : Prop :=
  ∀ (s : State) (k : CoreId) (i : Instr) (o : OpSem) (sl : Slot) (w : Nat),
    s.platform.stopped = false → (∀ d ∈ s.agenda, s.clk < d.at_) →
    (∀ j, heldDue s j = false ∧ landingDue s j = false ∧ freezeDue s j = false ∧ (entryDue s j && !stopped s j) = false ∧
      (endingDue s j && !stopped s j) = false) →
    firstCore s (issueDue s) = some k → w < 2 ^ 80 → (fetchBundle (s.core k)).toNat = singleBundle sl w → decodeOp sl w = .ok i → semOf i = some o →
    let s' := { s with subject := { k := k }, focus := k }
    step s = exec i (if ((s.core k).nestOn && inBody (s.core k).nest (s.core k).pc) = true ∧ issueOutcome s' k (plainHeader sl) [o] = .issue
      then s'.modCore k fun c => holdBundle c (fetchBundle (s.core k)) else s')

/-- A bundle placed where the model's fetch reads it is the first thing a step from reset runs (log entry 7 says what a real one
goes through). -/
def Obligations.PlacedBundleRuns : Prop :=
  ∀ (i : Instr) (o : OpSem) (sl : Slot) (w : Nat), w < 2 ^ 80 → decodeOp sl w = .ok i → semOf i = some o →
    let s := State.reset.withFetchWord 512 (singleBundle sl w)
    step s = exec i s

/-- The machine never stops by itself: every state has a next one, by an event, an access, a core's turn or the passing of a clk. -/
def Obligations.EveryStateHasANext : Prop := ∀ s : State, Safe s

/-- R6, R86, R91, R464: memory is kept in one canonical form, so that equal memories are equal data: no step breaks it. -/
def Obligations.MemoryStaysCanonical : Prop :=
  ∀ (s t : State), Memory.wf s.mem = true → step s = .next t → Memory.wf t.mem = true

/-- R7, R33, R55, R72, R204, R319, R373: after power-on reset every control register reads its reset value on every core (CORECOORD the core's place,
TRAPEN 1, NSWMAX the 50 µs of a VD without that parameter, the others 0), every register, predicate, stream, FIFO, byte and full/empty bit reads zero, no granule holds data, every cell of the slot
matrix is EMPTY, no member context exists, no reach link is trained, memory is in canonical form, and boot step 1 is due.  The zero of registers and memory for which the spec
gives no value is the model's choice (log entries 1 and 2). -/
def Obligations.ResetState : Prop :=
  let s := State.reset
  s.clk = 0 ∧ Memory.wf s.mem = true ∧ (∀ a, Tab.get 0 s.mem a = 0) ∧ (∀ a, Tab.get false s.fe a = false) ∧
  s.agenda = [⟨0, .event .powerOnReset { a := 1 }⟩] ∧
  (∀ d g, s.gran d g = ⟨0xFF, 0⟩ ∧ (s.die d).ctx = none ∧ cellOf s g d = .empty) ∧ (∀ m, (s.member m).live = false) ∧ (∀ n < 48, (linkOf s n).up = false) ∧
  (∀ k n, readCr s k n = if n = 0x002 then 1 else if n = 0x040 then coreCoord k else if n = 0x052 then 42500 else 0) ∧
  ∀ k n, (s.core k).readX n = 0 ∧ (s.core k).readP n = 0 ∧ Tab.get StreamReg.zero (s.core k).streams n = StreamReg.zero ∧
    (s.core k).fifo n = Fifo.zero ∧ Tab.get 0 (s.core k).rs n = 0 ∧ Tab.get 0 (s.core k).imem n = 0 ∧ Tab.get 0 (s.core k).ofS n = 0 ∧
    Tab.get 0 (s.core k).ofV n = 0 ∧ (s.core k).nest.active = false ∧ (s.core k).trap = none

/-! ### Accesses at their point of performance -/

/-- An access of a core to its own die's vaults that nothing holds up at its port: it is under way and has not acted there before, its bytes lie in a vault
and the window, its granule is resident, no earlier access, work or fence of the core holds it (R104, R105, R290, R306), and no merged reduction is pending
on the die (R98). -/
structure Sys2Proof.Machine.AtPort (s : State) (a : Access) : Prop where
  there : s.access a.id = some a
  first : a.performed = false ∧ a.inParts = false ∧ a.st ≠ .queued
  core : a.k.core ≠ 256
  die : a.k.die < 2 ^ 16
  fits : a.kind.bytes ≤ max a.size 1
  space : eaSpace a.ea = 0
  inside : vaultOk s a.ctx (eaAddr a.ea) (max a.size 1) = true
  here : resident s a.k.die a.ctx (granOf (eaAddr a.ea)) = true
  free : heldRelease s a = false ∧ heldBehind s a = false ∧ heldWork s a = false ∧ heldFence s a = false
  merges : (s.die a.k.die).merges = []

/-- R88, R102, R107, R266, R267, R272, R275, R276: at its port a plain store of one aligned 16-byte part, or of the core's own vault, writes exactly its
bytes, and one of several parts in the vault of another core leaves each part new or as it was; a load returns the bytes little-endian and
changes none, an atomic leaves its function of the old value and returns that, ldfe.take waits in the word's queue while the word is empty, and takes the
word and clears its bit when it is full. -/
def Obligations.AccessesActAtTheirPort : Prop :=
  (∀ (s : State) (a : Access) (l : List Byte), AtPort s a → a.kind = .store l →
    let t := performId s a.id
    let key := vaultKey a.k.die (eaAddr a.ea)
    t.fe = s.fe ∧ (∀ q, q < key ∨ key + l.length ≤ q → Tab.get 0 t.mem q = Tab.get 0 s.mem q) ∧
      (l.length ≤ 1 ∨ (key + l.length - 1) / 16 = key / 16 ∨ eaAddr a.ea / 2 ^ 22 = a.k.core → memBytes t.mem key l.length = l) ∧
      ∀ b, (∀ j < 16, key ≤ 16 * b + j → 16 * b + j < key + l.length → Tab.get 0 t.mem (16 * b + j) = l.getD (16 * b + j - key) 0)
        ∨ (∀ j < 16, Tab.get 0 t.mem (16 * b + j) = Tab.get 0 s.mem (16 * b + j))) ∧
  (∀ (s : State) (a : Access) (n : Nat) (sx : Bool), AtPort s a → a.kind = .load n sx →
    let t := performId s a.id
    let key := vaultKey a.k.die (eaAddr a.ea)
    let v : Dword := BitVec.ofNat 64 (memNat s.mem key n)
    let val : Val := .s (if sx then sextN (8 * n) v else v)
    poisoned s key n = false →
    t.mem = s.mem ∧ t.fe = s.fe ∧
      (a.rid = 0 → (∃ b ∈ t.accesses, b.id = a.id ∧ b.st = .done val) ∧
        ⟨s.clk + (if eaAddr a.ea / 2 ^ 22 = a.k.core then 3 else 4 + hops a.k.core (eaAddr a.ea / 2 ^ 22)), .event .taggedResultLand { k := a.k, a := a.id }⟩ ∈ t.agenda) ∧
      (a.rid ≠ 0 → ∀ r ∈ (t.core a.k).results, r.rid = a.rid → r.val = val ∧ r.deliver = s.clk + 3)) ∧
  (∀ (s : State) (a : Access) (op : AmoOp) (n : Nat) (b c : Dword), AtPort s a → a.kind = .amo op n b c false → a.rid = 0 → n ≤ 8 →
    let t := performId s a.id
    let key := vaultKey a.k.die (eaAddr a.ea)
    let old := memNat s.mem key n
    let v := b.toNat % 256 ^ n
    let z (x : Nat) : Int := if 2 ^ (8 * n - 1) ≤ x then (x : Int) - (2 ^ (8 * n) : Nat) else x
    let new := match op with
      | .add => old + v | .and => old &&& v | .or => old ||| v | .xor => old ^^^ v
      | .maxS => if z old < z v then v else old | .minS => if z v < z old then v else old | .maxZ => max old v | .minZ => min old v
      | .swap => v | .cas => if old = v then c.toNat else old
      | .faddF32 => fadd 0 0 old v | .faddBf16 => fadd 2 0 old v | .fmaxF32 => fmax 0 old v
    poisoned s key n = false →
    memNat t.mem key n = new % 256 ^ n ∧ (∀ q, q < key ∨ key + n ≤ q → Tab.get 0 t.mem q = Tab.get 0 s.mem q) ∧
      ∃ x ∈ t.accesses, x.id = a.id ∧ x.st = .done (.s (BitVec.ofNat 64 old))) ∧
  (∀ (s : State) (a : Access) (v : Dword), AtPort s a → a.kind = .fe .take v → a.rid = 0 → Tab.get [] (s.die a.k.die).queues (eaAddr a.ea) = [] →
    let t := performId s a.id
    let key := vaultKey a.k.die (eaAddr a.ea)
    t.mem = s.mem ∧ (∀ q, q ≠ key → Tab.get false t.fe q = Tab.get false s.fe q) ∧
      (Tab.get false s.fe key = false → Tab.get false t.fe key = false ∧ (∃ b ∈ t.accesses, b.id = a.id ∧ b.st = .queued) ∧
        Tab.get [] (t.die a.k.die).queues (eaAddr a.ea) = [a.id]) ∧
      (Tab.get false s.fe key = true → poisoned s key 8 = false → Tab.get false t.fe key = false ∧
        ∃ b ∈ t.accesses, b.id = a.id ∧ b.st = .done (.s (memDword s.mem key))))

/-! ### Taking a trap -/

/-- The eight dwords of the entry write of R385. -/
def Sys2Proof.Machine.entryDwords (s : State) (c : Core) : List Dword :=
  [c.readX 60, c.readX 61, c.readX 62, c.readX 63, c.readP 0, c.readP 1, BitVec.ofNat 64 s.clk, 0]

/-- R384, R385: a drained core whose found trap can be entered goes one level up: the bank of that level takes cause, TRET, TVAL and TSLOT, the
other bank, the registers and predicates stay as they are, the history of the level is empty, PC is its vector, and the 64-byte entry write goes to
its save area, performed 6 clk later (DEDUCED, log entry 17); the handler's first bundle issues 8 clk after it.  At level 2 the member context
is killed (R396). -/
def Obligations.TrapEntry : Prop :=
  (∀ (s : State) (r : TrapReq), let k := s.subject.k; let c := s.core k; let n := c.tl + 1
    c.trap = some r → entryDue s k = true → c.tl < 2 → vaultOk s (s.ctxD k) (c.tsave n) 64 = true →
    ∃ t, exec .trapEntry s = .next t ∧ t.mem = s.mem ∧ t.fe = s.fe ∧
      (∀ j, coreKey j ≠ coreKey k → t.core j = s.core j) ∧
      t.core k = { (c.setBank n ⟨r.cause, r.ret, r.val, r.slot⟩) with
        tl := n, trap := none, pc := bitsN c.tvec.toNat (if n = 1 then 10 else 42) (if n = 1 then 0 else 32),
        hist1 := if n = 1 then [] else c.hist1, hist2 := if n = 2 then [] else c.hist2, entry := true, ending := none, svc := none, late := 0,
        waited := 0 } ∧
      (∃ a, t.accesses = s.accesses ++ [a] ∧ a.id = s.nextId ∧ a.k = k ∧ a.ea = BitVec.ofNat 64 (c.tsave n) ∧ a.size = 64 ∧
        a.kind = .entry ((entryDwords s c).flatMap fun v => toBytes 8 v.toNat)) ∧
      t.agenda = s.agenda ++ [⟨s.clk + 6, .perform s.nextId⟩]) ∧
  (∀ (s : State) (a : Access) (l : List Byte), AtPort s a → a.kind = .entry l →
    let t := performId s a.id
    memBytes t.mem (vaultKey a.k.die (eaAddr a.ea)) l.length = l ∧ (t.core a.k).entry = false ∧ (t.core a.k).next = s.clk - (s.core a.k).frozen + 8) ∧
  (∀ (s : State) (r : TrapReq), let k := s.subject.k; let c := s.core k
    c.trap = some r → entryDue s k = true → c.tl = 2 → (s.vd (s.ctxD k).vd).state ≠ .killed →
    ∃ t, exec .trapEntry s = .next t ∧ t.mem = s.mem ∧ (t.vd (s.ctxD k).vd).state = .killed ∧
      (∀ e ∈ t.cores, e.1 / 512 = k.die → e.2.run = .halted) ∧
      ∃ x ∈ t.reports, x.kind = 3 ∧ x.code = r.cause ∧ x.vd = (s.ctxD k).vd ∧ x.member = (s.ctxD k).member ∧ x.core = k.core ∧
        x.args.take 4 = [r.cause, r.ret, r.val.toNat, r.slot])

/-! ### Events -/

/-- An event happens: it answers a next state, of which P holds. -/
def Sys2Proof.Machine.Happens (i : Instr) (s : State) (P : State → Prop) : Prop := ∃ t, exec i s = .next t ∧ P t

/-- Nothing but core k is changed. -/
def Sys2Proof.Machine.OnlyAt (k : CoreId) (s t : State) : Prop := OnlyHere { s with focus := k } { t with focus := k }

/-- Every byte, full/empty bit and error mark of memory, every core and the time stay as they are. -/
structure Sys2Proof.Machine.Quiet (s t : State) : Prop where
  clk : t.clk = s.clk
  mem : t.mem = s.mem
  fe : t.fe = s.fe
  poison : t.poison = s.poison
  cores : t.cores = s.cores

/-- The core after a value has landed at a destination (R80, R83, R178, R191, R195, R222, R245): a write of x0 is discarded, a masked one changes the
lanes or bits of its mask. -/
def Sys2Proof.Machine.landedIn (c : Core) : Dest → Val → Option Core
  | .x n, .s v => some (if n = 0 then c else { c with x := Tab.put 0 c.x n v })
  | .p n, .s v => some { c with p := Tab.put 0 c.p n v }
  | .p n, .p mask v => some { c with p := Tab.put 0 c.p n ((c.readP n &&& ~~~mask) ||| (v &&& mask)) }
  | .ofS sl n, .s v => some { c with ofS := Tab.put 0 c.ofS (16 * sl + n) v }
  | .ofV sl n, .v mask v => some { c with ofV := Tab.put 0 c.ofV (16 * sl + n) (laneMerge mask v (Tab.get 0 c.ofV (16 * sl + n))) }
  | .rs a, .v mask v => some (c.rsPutLanes a mask v)
  | .rs a, .bytes l => some (c.rsPut a l)
  | .stream n, .stream r => some { c with streams := Tab.put StreamReg.zero c.streams n r }
  | .base n, .s v => some (c.putBase n v)
  | _, _ => none

/-- R85, R173, R175, R176, R218, R264, R389, R394, R425, R52: what happens to a core.  An empty bundle issues and changes nothing but the place of
issue; a result that is due lands, and with it its tag; the data of a tagged load land one clk later when a result lands on their destination now;
a result late by 64 frozen clk raises the timing trap of class B, discarded; a faulting load raises a trap of class D at its own bundle and its tag
becomes ready; a no-switch window at NSWMAX raises 0x14, and at 4 NSWMAX ends the context; 4,096 and 1,048,576 frozen clk at an interlock gate the clock
and the power, with everything held. -/
def Obligations.CoreEvents : Prop :=
  (∀ s : State, s.subject.k = s.focus → ready s ⟨false, 0, 0, 0, 0⟩ = true → s.here.nestOn = false → fetchBundle s.here = 0 →
    Happens .bundleIssue s fun t => Issued s t [] [] s.here.busy ((s.here.pc + 1) % 2048) (s.now + 1)) ∧
  (∀ (s : State) (r : Result) (rest : List Result) (c' : Core), let k := s.subject.k; let c := s.core k
    c.binds = [] → c.mops = [] → c.results = r :: rest → r.due ≤ schedOf s c → r.deliver ≤ s.clk → (∀ x ∈ rest, schedOf s c < x.due) →
    landedIn { c with results := rest } r.dest r.val = some c' →
    Happens .resultWriteback s fun t => OnlyAt k s t ∧ t.core k = if r.tag = 0 then c' else { c' with tags := Tab.put 0 c'.tags r.tag 0 }) ∧
  (∀ (s : State) (a : Access) (v : Val) (n : Nat) (sx : Bool) (c' : Core), s.access s.subject.a = some a → a.kind = .load n sx → a.st = .done v →
    landedIn (s.core a.k) a.dest v = some c' →
    (landClash s a v = false → Happens .taggedResultLand s fun t =>
      t.core a.k = { c' with tags := Tab.put 0 c'.tags a.tag 0 } ∧ (∀ j, coreKey j ≠ coreKey a.k → t.core j = s.core j) ∧ t.mem = s.mem ∧
        t.accesses = s.accesses.filter fun b => decide (b.id ≠ a.id)) ∧
    (landClash s a v = true → Happens .taggedResultLand s fun t => Quiet s t ∧ t.accesses = s.accesses ∧
      t.agenda = s.agenda ++ [⟨s.clk + 1, .event .taggedResultLand { k := a.k, a := a.id }⟩])) ∧
  (∀ (s : State) (r : Result), let k := s.subject.k; let c := s.core k
    c.results.find? (resultLate s c) = some r → 64 ≤ c.late → c.trap = none →
    Happens .timingTrap s fun t => OnlyAt k s t ∧ t.core k = { c with
      results := c.results.map fun x => if x = r then { x with dest := .none, tag := 0 } else x, late := 0,
      trap := some ⟨.B, 0x05, c.pc, lateTval s k r, r.slot, s.clk⟩ }) ∧
  (∀ (s : State) (a : Access) (n : Nat) (sx : Bool), s.access s.subject.a = some a → a.kind = .load n sx → a.k.core ≠ 256 → a.slot ≠ 5 → s.subject.b ≠ 0x0C →
    s.ctxD a.k = a.ctx → (s.core a.k).trap = none →
    Happens .deferredFaultFound s fun t => t.mem = s.mem ∧ t.fe = s.fe ∧ t.accesses = s.accesses.filter (fun b => decide (b.id ≠ a.id)) ∧
      (∀ j, coreKey j ≠ coreKey a.k → t.core j = s.core j) ∧
      (t.core a.k).trap = some ⟨.D, s.subject.b, a.pc, s.subject.v, a.slot, a.issue⟩ ∧ (a.tag ≠ 0 → (t.core a.k).tagBusy a.tag = false) ∧
      (t.core a.k).x = (s.core a.k).x ∧ (t.core a.k).p = (s.core a.k).p ∧ (t.core a.k).rs = (s.core a.k).rs ∧ (t.core a.k).pc = (s.core a.k).pc) ∧
  (∀ (s : State) (at_ : Nat), let k := s.subject.k; let c := s.core k
    running s k = true → c.nsw = some at_ → (s.vd (s.ctxD k).vd).params.nswmax ≤ s.clk - at_ → c.nswRaised = false → c.nswAt = none →
    Happens .nswWindowExceeded s fun t => OnlyAt k s t ∧
      t.core k = { c with nswRaised := true, nswAt := some c.tl, trap := some ⟨.B, 0x14, c.pc, BitVec.ofNat 64 at_, 7, s.clk⟩ }) ∧
  (∀ s : State, let k := s.subject.k; let vd := (s.ctxD k).vd
    (s.core k).nsw = some s.subject.a → s.subject.a + 4 * (s.vd vd).params.nswmax ≤ s.clk → (s.vd vd).state ≠ .killed →
    Happens .nswWindowKill s fun t => t.mem = s.mem ∧ (t.vd vd).state = .killed ∧ (∀ e ∈ t.cores, e.1 / 512 = k.die → e.2.run = .halted) ∧
      ∃ r ∈ t.reports, r.kind = 0 ∧ r.code = 3 ∧ r.vd = vd ∧ r.member = (s.ctxD k).member ∧ r.core = k.core ∧ r.args.head? = some s.subject.a) ∧
  (∀ s : State, let k := s.subject.k; let c := s.core k
    4096 ≤ c.waited → c.gate = .none → Happens .clockGate s fun t => OnlyAt k s t ∧ t.core k = { c with gate := .clock }) ∧
  (∀ s : State, let k := s.subject.k; let c := s.core k
    1048576 ≤ c.waited → c.gate ≠ .power → Happens .powerGate s fun t => OnlyAt k s t ∧ t.core k = { c with gate := .power })

/-- No TLB of die d and its cores holds a translation of VD vd that overlaps [lo, hi) (R95). -/
def Sys2Proof.Machine.NoTranslation (t : State) (d vd lo hi : Nat) : Prop :=
  let gone (e : TlbEntry) : Prop := ¬(e.vd = vd ∧ e.page * 4096 < hi ∧ lo < (e.page + e.size) * 4096)
  (∀ e ∈ (t.die d).tlb, gone e) ∧ ∀ k : CoreId, k.die = d → k.core < 512 → (∀ e ∈ (t.core k).utlb, gone e) ∧ ∀ e ∈ (t.core k).stlb, gone e
/-- No TLB of the part holds a translation to a byte of n bytes from key x (R100). -/
def Sys2Proof.Machine.NotTo (t : State) (x n : Nat) : Prop :=
  let gone (e : TlbEntry) : Prop := ∀ y, leafKey t e.vd e.leaf = some y →
    y / (e.size * 4096) * (e.size * 4096) < x + n → x < y / (e.size * 4096) * (e.size * 4096) + e.size * 4096 → False
  (∀ d, ∀ e ∈ (t.die d).tlb, gone e) ∧ ∀ k : CoreId, (∀ e ∈ (t.core k).utlb, gone e) ∧ ∀ e ∈ (t.core k).stlb, gone e

/-- A report of this kind, code and VD is among those sent. -/
def Sys2Proof.Machine.Told (t : State) (kind code vd : Nat) (args : List Nat) : Prop :=
  ∃ r ∈ t.reports, r.kind = kind ∧ r.code = code ∧ r.vd = vd ∧ r.args = args ∧ r.clk = t.clk

/-- An event of the table is on the agenda. -/
def Sys2Proof.Machine.Coming (t : State) (at_ : Nat) (i : Instr) (o : Subject) : Prop := ⟨at_, .event i o⟩ ∈ t.agenda

/-- An access of this number now stands so. -/
def Sys2Proof.Machine.Stands (t : State) (id : Nat) (st : AccState) : Prop := ∃ b ∈ t.accesses, b.id = id ∧ b.st = st

/-- R73, R88, R92 to R95, R98 to R101, R428, R461, R463, R465, R467, R468: what happens in the memories, each with its effect: a granule's
64 KiB and full/empty bits are spilled, filled or zeroed, the new owner holds it clean, and what waited for it proceeds in arrival order, one per clk, from
the next on; a walk sets A and, for a write, D, fills the die TLB and the walk cache, and its accesses go
on; a pending reduction reaches memory; heat halves; a page is copied by the engine of a switch, its dirty sectors are copied again, and in its third step it
moves with its leaf and translations, or stays with its status; errors poison, and the third corrected one of a row within an hour retires it;
scrubbing goes on for ever; retirement records are written to both management dies or tried again; an invalidation empties the TLBs of each die in the
order of the wick and is complete with the last answer; a lost port is lost. -/
def Obligations.MemoryEvents : Prop :=
  -- GRANULE_SEQUENCE_END: zero fill and fill
  (∀ (s : State) (q : GranuleSeq), let d := s.subject.a; let g := s.subject.b; let m : MemberId := ⟨q.vd, q.member⟩
    let v := vaultKey d (granBase g); let saved := Tab.get false (s.member m).saved g
    (s.die d).seqs.find? (fun x => decide (x.g = g) && x.started && decide (x.endAt ≤ s.clk)) = some q → d < 64 → g < 12288 →
    (s.die d).merges = [] → (s.gran d g).res ≠ 2 → Tab.get false (s.member m).lost g = false →
    Happens .granuleSequenceEnd s fun t => t.clk = s.clk ∧ (∀ k, t.core k = { s.core k with recAt := (t.core k).recAt }) ∧
      t.gran d g = ⟨(s.member m).localNo, 1⟩ ∧ (∀ x ∈ (t.die d).seqs, x.g ≠ g) ∧
      (∀ i id, q.waiting[i]? = some (.access id) → (s.access id).isSome = true → ⟨s.clk + 1 + i, .perform id⟩ ∈ t.agenda) ∧
      (∀ i < 65536, Tab.get 0 t.mem (v + i) = (if saved then Tab.get 0 s.mem (saveKey m (granSave g) + i) else 0) ∧
        Tab.get false t.fe (v + i) = (saved && Tab.get false s.fe (saveKey m (granSave g) + i))) ∧
      ∀ x, x < v ∨ v + 65536 ≤ x → Tab.get 0 t.mem x = Tab.get 0 s.mem x ∧ Tab.get false t.fe x = Tab.get false s.fe x) ∧
  -- spill of the old owner's dirty granule
  (∀ (s : State) (q : GranuleSeq) (o : MemberId), let d := s.subject.a; let g := s.subject.b; let v := vaultKey d (granBase g)
    (s.die d).seqs.find? (fun x => decide (x.g = g) && x.started && decide (x.endAt ≤ s.clk)) = some q → d < 64 → g < 12288 →
    (s.die d).merges = [] → (s.gran d g).res = 2 → memberAt s d (s.gran d g).owner = some o → memberKey o ≠ memberKey ⟨q.vd, q.member⟩ →
    Happens .granuleSequenceEnd s fun t => Tab.get false (t.member o).saved g = true ∧
      ∀ i < 65536, Tab.get 0 t.mem (saveKey o (granSave g) + i) = Tab.get 0 s.mem (v + i) ∧
        Tab.get false t.fe (saveKey o (granSave g) + i) = Tab.get false s.fe (v + i)) ∧
  -- fill of a lost granule
  (∀ (s : State) (q : GranuleSeq), let d := s.subject.a; let g := s.subject.b; let m : MemberId := ⟨q.vd, q.member⟩; let v := vaultKey d (granBase g)
    (s.die d).seqs.find? (fun x => decide (x.g = g) && x.started && decide (x.endAt ≤ s.clk)) = some q → d < 64 → g < 12288 →
    (s.die d).merges = [] → (s.gran d g).res ≠ 2 → Tab.get false (s.member m).lost g = true →
    Happens .granuleSequenceEnd s fun t => t.gran d g = ⟨(s.member m).localNo, 1⟩ ∧ Tab.get false (t.member m).lost g = false ∧
      (∀ i < 65536, Tab.get 0 t.mem (v + i) = 0 ∧ Tab.get false t.fe (v + i) = false) ∧ ∀ i < 8192, Tab.get false t.poison (v + 8 * i) = true) ∧
  -- TRANSLATION_WALK_END
  (∀ (s : State) (w : Walk) (lv : Nat) (e : Dword), let d := s.subject.a; let va := w.page * 4096
    (s.die d).walks.find? (fun x => x.active && decide (x.vd = s.subject.b ∧ x.page = s.subject.c)) = some w →
    walkPoison (s.vd w.vd) va = none → findLeaf (cachedPt (s.die d).wcache w.vd (s.vd w.vd) va) va = some (lv, e) → ptTgt e < 4 →
    Happens .translationWalkEnd s fun t => t.mem = s.mem ∧
      let e' := e ||| (if w.write = true ∧ ptW e = true then 0x60 else 0x20)
      Tab.get 0 (t.vd w.vd).pt (ptKey lv va) = e' ∧ ⟨w.vd, (leafSpan lv va e').1, (leafSpan lv va e').2, e'⟩ ∈ (t.die d).tlb ∧
      (∀ l < lv, 1 ≤ l → (w.vd, ptKey l va) ∈ (t.die d).wcache) ∧
      ∀ id ∈ w.waiting, ∀ a, s.access id = some a → ⟨s.clk, .perform id⟩ ∈ t.agenda ∧ (a.inParts = false → Stands t id .travel)) ∧
  (∀ (s : State) (w : Walk), let d := s.subject.a; let va := w.page * 4096
    (s.die d).walks.find? (fun x => x.active && decide (x.vd = s.subject.b ∧ x.page = s.subject.c)) = some w →
    findLeaf (cachedPt (s.die d).wcache w.vd (s.vd w.vd) va) va = none ∨ (walkPoison (s.vd w.vd) va).isSome = true →
    Happens .translationWalkEnd s fun t => Quiet s t ∧ t.vds = s.vds ∧
      ∀ id ∈ w.waiting, ∀ a, s.access id = some a → ∃ v, Coming t s.clk .deferredFaultFound { a := a.id, b := 0x08, v := v }) ∧
  -- REDUCTION_DRAIN
  (∀ (s : State) (e : Merge) (off : Nat) (p : Dword), let d := s.subject.a; let k := e.line * 64 + off
    (s.die d).merges.find? (fun x => decide (x.line = s.subject.b ∧ x.last + 64 ≤ s.clk)) = some e → e.pend = [(off, p)] → e.n ≤ 8 →
    (e.line * 64 / 2 ^ 80 = 1 → ∃ a < 2 ^ 30, e.line * 64 = vaultKey d a ∧ d < 64 ∧ off < 64) →
    (∀ x ∈ (s.vd s.subject.m.vd).tables, k + e.n ≤ x ∨ x + 1024 ≤ k) →
    Happens .reductionDrain s fun t => t.cores = s.cores ∧ e ∉ (t.die d).merges ∧
      memNat t.mem k e.n = amoNew e.op e.n (memNat s.mem k e.n) p.toNat 0 % 256 ^ e.n ∧
      ∀ x, x < k ∨ k + e.n ≤ x → Tab.get 0 t.mem x = Tab.get 0 s.mem x) ∧
  -- HEAT_DECAY
  (∀ s : State, let o := s.subject; let heat (x : State) : Tab Nat := if 64 ≤ o.a then (x.switch (o.a - 64)).heat else (x.die o.a).heat
    Happens .heatDecay s fun t => Quiet s t ∧ Coming t (s.clk + max (min o.b 850000000) 850000) .heatDecay o ∧
      (∀ e ∈ heat s, e.2 / 64 / 2 * 64 + e.2 % 64 ≠ 0 → (e.1, e.2 / 64 / 2 * 64 + e.2 % 64) ∈ heat t) ∧
      ∀ e ∈ heat t, ∃ v, (e.1, v) ∈ heat s ∧ e.2 = v / 64 / 2 * 64 + v % 64) ∧
  -- MIGRATION_REQUEST: refused, already there, or no room where it is to go
  (∀ (s : State) (a : Access) (st : Nat), let o := s.subject; let v := s.vd o.m.vd
    let refused (lv : Nat) (e : Dword) : Prop := lv = 2 ∨ 2 ≤ ptTgt e ∨ v.queueVa ≤ o.a ∧ o.a < v.queueVa + 4096 * v.params.n
    s.migrations.find? (fun g => decide (g.vd = o.m.vd ∧ g.va ≤ o.a ∧ o.a < g.va + g.size)) = none → s.access o.c = some a →
    (findLeaf v o.a = none ∧ st = 3 ∨
      ∃ lv e, findLeaf v o.a = some (lv, e) ∧
        (refused lv e ∧ st = 3 ∨ ¬refused lv e ∧ (ptTgt e = 1 ↔ o.b = 1) ∧ st = 1 ∨
         ¬refused lv e ∧ ¬(ptTgt e = 1 ↔ o.b = 1) ∧ st = 3 ∧
           (if o.b = 1 then tierFor s (pageOf lv o.a e).2 else frameFor s (s.member ⟨o.m.vd, ptMember e⟩).die (pageOf lv o.a e).2) = none)) →
    Happens .migrationRequest s fun t => Quiet s t ∧ t.migrations = s.migrations ∧ Stands t a.id (.done (.s (BitVec.ofNat 64 st)))) ∧
  -- MIGRATION_REQUEST: accepted; the engine of the switch is free and copies the page
  (∀ (s : State) (lv dst : Nat) (e : Dword), let o := s.subject; let v := s.vd o.m.vd; let p := pageOf lv o.a e
    let d := (s.member ⟨o.m.vd, ptMember e⟩).die; let pa := ptPa e / p.2 * p.2
    let src := if o.b = 1 then hbmKey d pa else tierKey pa; let to_ := if o.b = 1 then tierKey dst else hbmKey d dst
    s.migrations = [] → findLeaf v o.a = some (lv, e) → lv ≠ 2 → (o.a < v.queueVa ∨ v.queueVa + 4096 * v.params.n ≤ o.a) →
    (o.b = 1 ∧ ptTgt e = 0 ∧ tierFor s p.2 = some dst ∨ o.b ≠ 1 ∧ ptTgt e = 1 ∧ frameFor s d p.2 = some dst) → portLost s (.phys src) = false →
    (∀ x, (s.die x).merges = []) →
    Happens .migrationRequest s fun t => t.cores = s.cores ∧ t.vds = s.vds ∧ (∃ at_, s.clk < at_ ∧
        Coming t at_ .migrationComplete { m := ⟨o.m.vd, ptMember e⟩, a := p.1, b := 1 }) ∧
      (∃ g, t.migrations = [g] ∧ g.vd = o.m.vd ∧ g.member = ptMember e ∧ g.va = p.1 ∧ g.size = p.2 ∧ g.toTier = decide (o.b = 1) ∧ g.step = 1 ∧
        g.src = pa ∧ g.dst = dst ∧ g.dirty = [] ∧ (o.c ≠ 0 → g.waiting = [o.c])) ∧
      (∀ i < p.2, Tab.get 0 t.mem (to_ + i) = Tab.get 0 s.mem (src + i)) ∧
      ∀ x, x < to_ ∨ to_ + p.2 ≤ x → Tab.get 0 t.mem x = Tab.get 0 s.mem x) ∧
  -- MIGRATION_COMPLETE: what was written since the copy is copied again, and the second step begins
  (∀ (s : State) (g : Migration), let src := g.srcKey s; let dst := g.dstKey s; let d := (s.member ⟨g.vd, g.member⟩).die
    migrationOf s = some g → s.subject.b = 1 → g.step = 1 → stillThere s g = true → portLost s (.phys src) = false → portLost s (.phys dst) = false →
    d < 2 ^ 16 → src % 2 ^ 64 + g.size ≤ 2 ^ 64 → dst % 2 ^ 64 + g.size ≤ 2 ^ 64 → (∀ q ∈ g.dirty, 256 * q < g.size) → (∀ x, (s.die x).merges = []) →
    Happens .migrationComplete s fun t => t.cores = s.cores ∧ t.vds = s.vds ∧
      t.migrations = s.migrations.map (fun x => if x = g then { g with step := 2, dirty := [] } else x) ∧
      (∃ at_, s.clk < at_ ∧ Coming t at_ .migrationComplete { m := ⟨g.vd, g.member⟩, a := g.va, b := 2 }) ∧
      ∀ i < g.size, Tab.get 0 t.mem (dst + i) = if i / 256 ∈ g.dirty then Tab.get 0 s.mem (src + i) else Tab.get 0 s.mem (dst + i)) ∧
  -- the third step begins, unless R38 holds the migration
  (∀ (s : State) (g : Migration), migrationOf s = some g → s.subject.b = 2 → g.step = 2 → stillThere s g = true →
    portLost s (.phys (g.srcKey s)) = false → portLost s (.phys (g.dstKey s)) = false →
    Happens .migrationComplete s fun t => Quiet s t ∧
      if placementHeld s g.vd = true then t.migrations = s.migrations ∧ Coming t (s.clk + 850) .migrationComplete s.subject
      else t.migrations = s.migrations.map (fun x => if x = g then { g with step := 3, holdAt := s.clk } else x) ∧
        Coming t (s.clk + 1700) .migrationHoldTimeout { m := ⟨g.vd, g.member⟩, a := g.va, b := 3 } ∧
        ∃ at_ < s.clk + 1700, Coming t at_ .migrationComplete { m := ⟨g.vd, g.member⟩, a := g.va, b := 3 }) ∧
  -- the swap
  (∀ (s : State) (g : Migration) (e : Dword), let d := (s.member ⟨g.vd, g.member⟩).die; let src := g.srcKey s; let dst := g.dstKey s
    migrationOf s = some g → s.subject.b = 3 → g.step = 3 → s.migrations = [g] → g.held = [] → stillThere s g = true →
    portLost s (.phys src) = false → portLost s (.phys dst) = false → findLeaf (s.vd g.vd) g.va = some (4, e) → g.size = 4096 →
    g.dst % 4096 = 0 → g.dst < 2 ^ 52 → g.src < 2 ^ 56 → d < 64 → (∀ q ∈ g.dirty, q < 16) → (∀ x, (s.die x).merges = []) →
    (busyBut s g.vd g.va (g.va + 4096) [] = true → Happens .migrationComplete s fun t => Quiet s t ∧ t.migrations = s.migrations ∧
      Coming t (s.clk + 1) .migrationComplete s.subject) ∧
    (busyBut s g.vd g.va (g.va + 4096) [] = false → Happens .migrationComplete s fun t => t.migrations = [] ∧ NotTo t src 4096 ∧
      ptPa (Tab.get 0 (t.vd g.vd).pt (ptKey 4 g.va)) = g.dst ∧ ptTgt (Tab.get 0 (t.vd g.vd).pt (ptKey 4 g.va)) = (if g.toTier then 1 else 0) ∧
      (∀ i < 4096, Tab.get 0 t.mem (src + i) = 0 ∧
        Tab.get 0 t.mem (dst + i) = if i / 256 ∈ g.dirty then Tab.get 0 s.mem (src + i) else Tab.get 0 s.mem (dst + i)) ∧
      (∀ x, (x < src ∨ src + 4096 ≤ x) → (x < dst ∨ dst + 4096 ≤ x) → Tab.get 0 t.mem x = Tab.get 0 s.mem x) ∧
      ∀ id ∈ g.waiting, (s.access id).isSome = true → Stands t id (.done (.s 0)))) ∧
  -- MIGRATION_HOLD_TIMEOUT
  (∀ (s : State) (g : Migration), migrationOf s = some g → g.step = 3 → g.holdAt + 1700 ≤ s.clk → s.migrations = [g] → g.held = [] →
    Happens .migrationHoldTimeout s fun t => Quiet s t ∧ t.vds = s.vds ∧ t.migrations = [] ∧ Told t 2 0x05 g.vd [0xFF, g.va, 1, 2] ∧
      ∀ id ∈ g.waiting, (s.access id).isSome = true → Stands t id (.done (.s 2))) ∧
  -- ECC_ERROR
  (∀ s : State, let o := s.subject; o.c = 0 → o.a / 2 ^ 80 = 1 → o.b ≠ 0 →
    Happens .eccError s fun t => t.mem = s.mem ∧ t.fe = s.fe ∧ t.cores = s.cores ∧ Tab.get false t.poison (o.a / 8 * 8) = true) ∧
  (∀ s : State, let o := s.subject; o.c = 0 → o.a / 2 ^ 80 = 2 → o.b ≠ 0 → (∀ b, Tab.get 0 s.platform.sparesUsed b < 8) → s.migrations = [] →
    Happens .eccError s fun t => t.mem = s.mem ∧ t.fe = s.fe ∧ t.cores = s.cores ∧ ∀ i < 8, Tab.get false t.poison (o.a / 64 * 64 + 8 * i) = true) ∧
  (∀ s : State, let o := s.subject; let d := o.a / 2 ^ 64 % 2 ^ 16; let line := o.a % 2 ^ 64 / 64 * 64
    let n := ((Tab.get [] (s.die d).rowErrors (rowKey line)).filter fun t => decide (s.clk ≤ t + 3600 * 850000000)).length
    let bank := (2 * d + stackIn line) * 2 ^ 16 + rowIn line % 65536; let used := Tab.get 0 s.platform.sparesUsed bank
    o.c = 0 → o.a / 2 ^ 80 = 2 → o.b = 0 →
    (n < 2 → Happens .eccError s fun t => Quiet s t ∧ t.platform = s.platform ∧ (Tab.get [] (t.die d).rowErrors (rowKey line)).length = n + 1) ∧
    (2 ≤ n → used < 8 → Happens .eccError s fun t => Quiet s t ∧ Tab.get 0 t.platform.sparesUsed bank = used + 1 ∧
      Tab.get [] (t.die d).rowErrors (rowKey line) = [])) ∧
  (∀ s : State, let o := s.subject; o.c = 1 → o.b ≠ 0 →
    Happens .eccError s fun t => OnlyAt o.k s t ∧ (t.core o.k).rs = (s.core o.k).rs ∧ Tab.get false (t.core o.k).rsPoison (o.a % 0x30000 / 8 * 8) = true) ∧
  (∀ s : State, let o := s.subject; o.c = 2 → o.b ≠ 0 →
    Happens .eccError s fun t => OnlyAt o.k s t ∧ (t.core o.k).imem = (s.core o.k).imem ∧ Tab.get false (t.core o.k).imemPoison (o.a % 2048) = true) ∧
  -- HBM_SCRUB, VAULT_SCRUB
  (∀ s : State, (Happens .hbmScrub s fun t => Quiet s t ∧ Coming t (s.clk + 24 * 3600 * 850000000) .hbmScrub s.subject) ∧
    Happens .vaultScrub s fun t => Quiet s t ∧ Coming t (s.clk + 850000000) .vaultScrub s.subject) ∧
  -- RETIREMENT_RECORD_RETRY
  (∀ (s : State) (kind n : Nat) (args : List Nat) (rest : List (Nat × List Nat × Nat)), s.platform.pendingRecords = (kind, args, n) :: rest →
    Happens .retirementRecordRetry s fun t => Quiet s t ∧
      (((kind, args) ∈ Tab.get [] t.platform.records s.platform.mgmtDie ∧
          (s.platform.standby = true → (kind, args) ∈ Tab.get [] t.platform.records (1 - s.platform.mgmtDie)) ∧ t.platform.pendingRecords = rest) ∨
       (t.platform.pendingRecords.head? = some (kind, args, n + 1) ∧
         Coming t (s.clk + 850000000) .retirementRecordRetry {} ∧ (n + 1 = 3 → Told t 2 0x04 0 [0xFF, kind, 3])))) ∧
  -- TRANSLATION_INVALIDATE, INVAL
  (∀ s : State, let o := s.subject; (s.vd o.a).live = true →
    Happens .translationInvalidate s fun t => Quiet s t ∧ (∃ i, t.invals = s.invals ++ [i] ∧ i.no = s.nextInval ∧ i.vd = o.a ∧ i.lo = o.b ∧ i.hi = o.c ∧
      ∀ d, d ∈ i.left ↔ d ∈ (s.vd o.a).dies) ∧
      ∀ d ∈ (s.vd o.a).dies, ∃ at_, s.clk < at_ ∧ Coming t at_ .inval { a := s.nextInval, l := [d] }) ∧
  (∀ (s : State) (i : Inval) (d : Nat), let o := s.subject
    o.l = [d] → s.invals.find? (fun x => decide (x.no = o.a) && x.left.contains d) = some i →
    (i.todo.contains d = true → invalAhead s i.no d = true → Happens .inval s fun t => Quiet s t ∧ t.dies = s.dies ∧ Coming t (s.clk + 1) .inval o) ∧
    (i.todo.contains d = true → invalAhead s i.no d = false → Happens .inval s fun t => t.mem = s.mem ∧ t.vds = s.vds ∧ NoTranslation t d i.vd i.lo i.hi ∧
      (dieBusy s d i.vd i.lo i.hi = true → Coming t (s.clk + 1) .inval o) ∧
      (dieBusy s d i.vd i.lo i.hi = false → (∀ x ∈ i.left, x = d) → Told t 8 0x100 i.vd [] ∧ ∀ x ∈ t.invals, x.no ≠ i.no))) ∧
  -- OUTSIDE_PORT_TIMEOUT, OUTSIDE_PORT_LOST
  (∀ (s : State) (a : Access), s.access s.subject.a = some a → outsideBound s a = true → a.performed = false → a.issue + 42500000 ≤ s.clk →
    Happens .outsidePortTimeout s fun t => Quiet s t ∧ t.accesses = s.accesses ∧
      Coming t s.clk .deferredFaultFound { a := a.id, b := 0x0D, v := BitVec.ofNat 64 (a.member % 256 + 512) }) ∧
  (∀ s : State, let o := s.subject
    Happens .outsidePortLost s fun t => Quiet s t ∧
      if o.a < 16 then (t.switch o.a).tierUp = false else Tab.get false t.platform.hostPorts (o.a % 4) = true)

/-- The vote of the gang controller has come to a state, with nothing of memory or a core changed. -/
def Sys2Proof.Machine.VoteAt (s t : State) (st : VoteState) : Prop := Quiet s t ∧ t.gc.vote.st = st

/-- R55, R59 to R64, R68, R425 to R427: the vote of the gang controller by the state table of R63: SNUFF at the end of a quantum with the next vote
number, COUNT at T0 + 850·k, ABORT and BACKOFF on any REFUSE, RELIGHT once every sum is equal, HOLD at the deadline, capture into the
network save areas, the save and load of a die, and the next quantum with the last LIT; a die that owes LIT for 100 µs has failed. -/
def Obligations.VoteEvents : Prop :=
  -- SLOT_QUANTUM_END
  (∀ s : State, s.gc.running = true → s.gc.quantumEnd ≤ s.clk → s.gc.vote.st ≠ .idle →
    Happens .slotQuantumEnd s fun t => Quiet s t ∧ t.gc = s.gc ∧ Coming t (s.clk + 850) .slotQuantumEnd {}) ∧
  (∀ (s s' : State) (i : Nat), let here := slotVds s' i
    let on := (s.vds.map (·.1)).filter fun n => onDies s n; let out := on.filter fun n => !here.contains n
    s.gc.running = true → s.gc.quantumEnd ≤ s.clk → s.gc.vote.st = .idle → s.gc.pending = none →
    findSlot (resetCells s s.gc.cur) s.gc.slots (if s.gc.cur + 1 < s.gc.slots then s.gc.cur + 1 else 0) = some (i, s') → (votersOf s out).isEmpty = false →
    Happens .slotQuantumEnd s fun t => VoteAt s t .snuffing ∧ t.gc.vote.leaving = out ∧ t.gc.vote.slot = i ∧ t.gc.cells = s.gc.cells ∧
      t.gc.vote.changes = cellChanges s s' ∧
      t.gc.vote.coming = (here.filter fun n => canRun s' n && !onDies s' n) ∧ t.gc.voteNo = (s.gc.voteNo + 1) % 2 ^ 32 ∧ t.gc.vote.v = t.gc.voteNo ∧
      ∀ e ∈ votersOf s out, ∃ at_, s.clk < at_ ∧ at_ ≤ s.clk + 800 ∧ Coming t at_ .snuff { m := e.1, a := t.gc.voteNo }) ∧
  -- SNUFF
  (∀ s : State, votes s s.subject.m = true → s.gc.vote.st = .snuffing → s.subject.b = 0 →
    Happens .snuff s fun t => Quiet s t ∧ t.gc = s.gc ∧ t.members = s.members ∧ t.dies = s.dies ∧ Coming t (s.clk + 1) .snuff { s.subject with b := 1 }) ∧
  (∀ s : State, let m := s.subject.m; let d := (s.member m).die
    votes s m = true → s.gc.vote.st = .snuffing → s.subject.b ≠ 0 →
    Happens .snuff s fun t => Quiet s t ∧ t.gc = s.gc ∧ (t.die d).snuffing = true ∧
      (∀ i, openWindow s m = some i → (s.vd m.vd).state ≠ .killed → (t.member m).snuffed = (s.member m).snuffed ∧
        ∃ at_, s.clk < at_ ∧ at_ ≤ s.clk + 400 ∧ Coming t at_ .refuse { m := m, a := s.gc.vote.v, b := i }) ∧
      (openWindow s m = none ∨ (s.vd m.vd).state = .killed → (t.member m).snuffed = true)) ∧
  -- COUNT_LATCH
  (∀ s : State, let o := s.subject; let v := s.gc.vote
    v.v = o.a → v.round = o.b → v.st = .snuffing ∨ v.st = .summing → v.sentAt + 1700 + 850 * o.b ≤ s.clk →
    Happens .countLatch s fun t => VoteAt s t v.st ∧ Coming t (s.clk + 850) .sumreq { a := v.v, b := o.b + 1 } ∧
      ∀ e ∈ votersOf s v.leaving, (s.die e.2).failed = false → (t.member e.1).latched = ((s.member e.1).sent, (s.member e.1).received) ∧
        ∃ at_, s.clk < at_ ∧ Coming t at_ .count { a := v.v, b := o.b, c := e.2, l := [(s.vd e.1.vd).gang, (s.member e.1).sent, (s.member e.1).received] }) ∧
  -- REFUSE
  (∀ s : State, let m := s.subject.m; votes s m = true → s.gc.vote.st = .snuffing →
    Happens .refuse s fun t => VoteAt s t .backoff ∧ (t.vd m.vd).refusals = (s.vd m.vd).refusals + 1 ∧ t.gc.cells = s.gc.cells ∧
      Coming t (s.clk + 42500) .backoffEnd { a := s.gc.vote.v } ∧
      (((s.vd m.vd).refusals + 1) % 4 = 0 → ∃ r ∈ t.reports, r.kind = 0 ∧ r.code = 2 ∧ r.vd = m.vd ∧ r.member = m.member ∧ r.core = s.subject.b)) ∧
  -- COUNT
  (∀ s : State, let o := s.subject; let v := s.gc.vote; let rows := v.counts ++ countRows o.c o.l
    let s1 : State := { s with gc := { s.gc with vote := { v with counts := rows } } }
    v.v = o.a → v.round = o.b → v.st = .snuffing ∨ v.st = .summing → (∀ r ∈ v.counts, r.1 ≠ o.c) →
    Happens .count s fun t => t.gc.vote.counts = rows ∧ VoteAt s t (if v.leaving.all (gangEqual s1) then .relighting else v.st)) ∧
  -- SUMREQ
  (∀ s : State, let o := s.subject; let v := s.gc.vote
    v.v = o.a → v.round + 1 = o.b → v.st = .snuffing ∨ v.st = .summing →
    Happens .sumreq s fun t => VoteAt s t .summing ∧ t.gc.vote.round = o.b ∧ t.gc.vote.counts = [] ∧ Coming t s.clk .countLatch { a := o.a, b := o.b }) ∧
  -- DRAIN_DEADLINE
  (∀ s : State, let v := s.gc.vote
    v.v = s.subject.a → v.st = .snuffing ∨ v.st = .summing → v.sentAt + v.deadline ≤ s.clk →
    Happens .drainDeadline s fun t => VoteAt s t .holding ∧ t.gc.vote.hold = (v.leaving.filter fun n => !gangEqual s n) ∧ t.gc.vote.reported = [] ∧
      ∀ p ∈ parties s, ∃ at_, s.clk < at_ ∧ Coming t at_ .hold { a := v.v, b := p }) ∧
  -- HOLD
  (∀ (s : State) (m : MemberId) (p : Pkt), let o := s.subject; let v := s.gc.vote
    v.v = o.a → v.st = .holding → (parties s).contains o.b = true → o.b < 1000 → (s.die o.b).failed = false → (s.die o.b).ctx = some m →
    m.vd ∈ v.hold → (s.member m).landing = [p] → (s.member m).stampWait = [] → (s.member m).unbuilt = [] → servedPkts s m = [] →
    (∀ x ∈ s.agenda, duePkt s x = none) → captureFits s m p = true →
    Happens .hold s fun t => VoteAt s t .holding ∧ (t.member m).landing = [] ∧ (t.member m).netSave = netInsert { p with counted := true } (s.member m).netSave ∧
      (t.member m).received = (s.member m).received + (if p.counted then 0 else 1) ∧
      ∃ at_ l, s.clk < at_ ∧ Coming t at_ .held { m := m, a := v.v, b := o.b, c := 0, l := l } ∧
        (v.hold = [m.vd] → m.member < (s.vd m.vd).params.n → l = [(s.vd m.vd).gang, 1])) ∧
  (∀ (s : State) (m : MemberId), let o := s.subject; let v := s.gc.vote
    v.v = o.a → v.st = .holding → (parties s).contains o.b = true → o.b < 1000 → (s.die o.b).failed = false → (s.die o.b).ctx = some m → m.vd ∉ v.hold →
    Happens .hold s fun t => VoteAt s t .holding ∧ t.members = s.members ∧
      ∃ at_, s.clk < at_ ∧ Coming t at_ .held { m := m, a := v.v, b := o.b, l := heldContent s s v.hold [] }) ∧
  -- HELD
  (∀ s : State, let o := s.subject; let v := s.gc.vote; let rep := v.reported ++ [o.b]
    v.v = o.a → v.st = .holding → o.b ∉ v.reported → o.c = 0 → v.overflow = false →
    Happens .held s fun t => VoteAt s t (if (parties s).all rep.contains then .relighting else .holding) ∧
      ((parties s).all rep.contains = false → t.gc.vote.reported = rep)) ∧
  -- ABORT
  (∀ s : State, let m := s.subject.m; votes s m = true → s.gc.vote.st = .backoff →
    Happens .abort s fun t => Quiet s t ∧ (t.member m).snuffed = false ∧ (t.member m).netSave = []) ∧
  -- BACKOFF_END
  (∀ s : State, s.gc.vote.v = s.subject.a → s.gc.vote.st = .backoff → (votersOf s s.gc.vote.leaving).isEmpty = false →
    Happens .backoffEnd s fun t => VoteAt s t .snuffing ∧ t.gc.vote.v = (s.gc.voteNo + 1) % 2 ^ 32 ∧ t.gc.vote.leaving = s.gc.vote.leaving) ∧
  -- RELIGHT: stop, save, load
  (∀ s : State, let o := s.subject; let v := s.gc.vote
    v.v = o.c → v.st = .relighting → o.a ∈ v.dies → (s.die o.a).failed = false →
    (o.b = 0 → Happens .relight s fun t => Quiet s t ∧ (t.die o.a).stopped = true ∧ Coming t (s.clk + 1) .relight { o with b := 1 }) ∧
    (∀ m, o.b = 1 → (s.die o.a).ctx = some m → stopBusy s o.a m = true →
      Happens .relight s fun t => Quiet s t ∧ t.dies = s.dies ∧ Coming t (s.clk + 1) .relight o) ∧
    (∀ m, o.b = 1 → (s.die o.a).ctx = some m → stopBusy s o.a m = false →
      Happens .relight s fun t => (t.die o.a).ctx = none ∧ (t.member m).offAt = s.clk ∧
        (t.member m).cores = (Tab.slice s.cores (512 * o.a) (512 * o.a + 256)).map (fun e => (e.1 - 512 * o.a, e.2)) ∧
        (∀ e ∈ t.cores, e.1 / 512 ≠ o.a) ∧ ∀ a ∈ t.accesses, a.ctx ≠ m) ∧
    (∀ (m : MemberId) (i : Nat) (c : Core), o.b = 2 → (s.die o.a).newPosition = none → incoming s o.a = some m → (s.member m).die = o.a → (s.vd m.vd).state ≠ .killed →
      (s.member m).cores = [(i, c)] → i < 256 →
      Happens .relight s fun t => (t.die o.a).ctx = some m ∧ (t.die o.a).stopped = false ∧ t.mem = s.mem ∧ (t.core ⟨o.a, i⟩).x = c.x ∧ (t.core ⟨o.a, i⟩).pc = c.pc ∧
        (t.core ⟨o.a, i⟩).next = c.next ∧ (t.core ⟨o.a, i⟩).frozen = c.frozen + (s.clk - (s.member m).offAt) ∧
        ∃ at_, s.clk < at_ ∧ Coming t at_ .lit { a := o.a, b := o.c })) ∧
  -- LIT
  (∀ s : State, let o := s.subject; let v := s.gc.vote; let rep := v.reported ++ [o.a]
    v.v = o.b → v.st = .relighting → o.a ∉ v.reported →
    (v.dies.all rep.contains = false → Happens .lit s fun t => VoteAt s t .relighting ∧ t.gc.vote.reported = rep) ∧
    (v.dies.all rep.contains = true → Happens .lit s fun t => t.clk = s.clk ∧ t.cores = s.cores ∧ t.gc.vote.st = .idle ∧
      (v.restricted = false → t.gc.cur = v.slot ∧ t.gc.quantumEnd = s.clk + quantumOf s v.slot ∧
        Coming t (s.clk + quantumOf s v.slot) .slotQuantumEnd {}) ∧ (v.restricted = true → t.gc.cur = s.gc.cur ∧ t.gc.quantumEnd = s.gc.quantumEnd))) ∧
  -- VOTE_PARTY_TIMEOUT
  (∀ (s : State) (d : Nat), let v := s.gc.vote
    v.v = s.subject.a → v.askedAt = s.subject.b → s.subject.b + 85000 ≤ s.clk → v.st = .relighting → (v.dies.filter fun x => !v.reported.contains x) = [d] → d < 1000 →
    Happens .votePartyTimeout s fun t => (t.die d).failed = true ∧ ∀ e ∈ t.cores, e.1 / 512 ≠ d)

/-- A completion word by the field map of R336. -/
def Sys2Proof.Machine.wordOf336 (part : Bool) (r : RedSlot) : Dword :=
  BitVec.ofNat 64 ((if part then 2 ^ 63 else 0) + (match r.nan with | some m => 2 ^ 62 + m % 256 * 2 ^ 52 | none => 0) + r.mask.length * 2 ^ 43 +
    (r.mask.map (2 ^ ·)).sum % 2 ^ 32)

/-- One element combined by R335, for the integer types: OP 0 wraps, 1 is max, 2 min; TYPE 5 is signed. -/
def Sys2Proof.Machine.combined (ty op : Nat) (p x : Word) : Word :=
  match op with
  | 0 => p + x
  | 1 => if ty = 5 then (if p.toInt < x.toInt then x else p) else if p.toNat < x.toNat then x else p
  | _ => if ty = 5 then (if x.toInt < p.toInt then x else p) else if x.toNat < p.toNat then x else p

/-- None of n bytes from a key lies in a queue table of the VD: RPTR there is read-only (R7, R358). -/
def Sys2Proof.Machine.OffTables (s : State) (vd k n : Nat) : Prop := ∀ p ∈ (s.vd vd).tables, k + n ≤ p ∨ p + 1024 ≤ k

/-- An SRES is on its way to a member (R336): by the switch's own queue, or over a reach link to another package. -/
def Sys2Proof.Machine.SresGone (s t : State) (m : MemberId) (Q : Pkt → Prop) : Prop :=
  ∃ o q, o.pkt = some q ∧ Q q ∧ q.type = 0x0C ∧ q.dmem = m.member ∧
    (Coming t (s.clk + 30) .sres o ∨ Coming t (s.clk + 260) .switchPacketForward o ∧ pkgOf (s.member m).die ≠ switchPkg s.subject.a)

/-- R52, R75 to R78, R334 to R336, R396, R431, R434, R455: hangs are reported once; a VD collapses on a request, at its idle timeout, and into PILOT once it
is off its dies; a strike wakes it within its class bound, or is kept while it collapses; a killed gang's work is discarded, ABORTED goes to its
open signal address and its cells are empty; reduction contributions are combined element by element, the slot answers every contributor
with R336's word when the last one has come or at its deadline, and is free after it has lingered. -/
def Obligations.WakeAndReductionEvents : Prop :=
  -- HANGT_EXPIRY
  (∀ s : State, let k := s.subject.k; let c := s.core k; let m := s.ctxD k
    (s.ctx k).isSome = true → (s.vd m.vd).params.hangt ≤ c.waited → c.hung = false → c.waited ≠ 0 →
    Happens .hangtExpiry s fun t => t.mem = s.mem ∧ t.core k = { c with hung := true } ∧ (∀ j, coreKey j ≠ coreKey k → t.core j = s.core j) ∧
      ∃ r ∈ t.reports, r.kind = 0 ∧ r.code = 1 ∧ r.vd = m.vd ∧ r.member = m.member ∧ r.core = k.core) ∧
  -- COLLAPSE_REQUEST, IDLE_TIMEOUT: the gang is on its dies, or off them
  (∀ (s : State) (i : Instr), let n := s.subject.a; let v := s.vd n
    (i = .collapseRequest ∧ (s.subject.b = 0 ∨ allDimmed s n = true) ∨
      i = .idleTimeout ∧ v.idleSince = some s.subject.b ∧ (∃ t, v.params.idleTimeout = some t ∧ s.subject.b + t ≤ s.clk) ∧
        ∀ j < v.params.n, memberIdle s ⟨n, j⟩ = true) →
    v.live = true → v.state = .running → (i = .idleTimeout → onDies s n = true) →
    (bound s n = false → Happens i s fun t => Quiet s t ∧ (t.vd n).state = .collapsing ∧ t.gc.vote = s.gc.vote ∧
      (∃ at_, s.clk < at_ ∧ Coming t at_ .collapseWork { a := n }) ∧
      ∀ sl, v.params.homeSlot = some sl → ∀ d ∈ v.dies, cellOf t sl d = .idle n) ∧
    (onDies s n = true → s.gc.vote.st = .idle → (votersOf s [n]).isEmpty = false →
      Happens i s fun t => VoteAt s t .snuffing ∧ (t.vd n).state = .collapsing ∧ t.gc.vote.leaving = [n] ∧ t.gc.vote.restricted = true)) ∧
  -- COLLAPSE_WORK
  (∀ s : State, let n := s.subject.a
    (s.vd n).live = true → (s.vd n).state = .collapsing → bound s n = false → (s.vd n).struck = false →
    Happens .collapseWork s fun t => t.clk = s.clk ∧ ((s.vd n).params.wakeClass < 2 → t.cores = s.cores) ∧ (t.vd n).state = .pilot ∧
      (2 ≤ (s.vd n).params.wakeClass → ∀ i < (s.vd n).params.n, (t.member ⟨n, i⟩).cores = [] ∧ (t.member ⟨n, i⟩).jobs = [] ∧ (t.member ⟨n, i⟩).pool = [])) ∧
  -- STRIKE
  (∀ s : State, let n := s.subject.a; (s.vd n).live = true → (s.vd n).movedTo = none →
    ((s.vd n).state = .pilot → Happens .strike s fun t => Quiet s t ∧ (t.vd n).state = .waking ∧ (t.vd n).struckAt = s.clk ∧
      Coming t (s.clk + (match (s.vd n).params.wakeClass with | 0 => 42500 | 1 => 850000 | _ => 17000000)) .wakeLate { a := n, b := s.clk }) ∧
    ((s.vd n).state = .collapsing → Happens .strike s fun t => Quiet s t ∧ t.vd n = { s.vd n with struck := true } ∧ t.gc = s.gc) ∧
    ((s.vd n).state = .running ∨ (s.vd n).state = .killed → Happens .strike s fun t => t = s)) ∧
  -- WAKE_LATE
  (∀ s : State, let n := s.subject.a; (s.vd n).live = true → (s.vd n).started = false → (s.vd n).struckAt = s.subject.b → (s.vd n).late = false →
    Happens .wakeLate s fun t => Quiet s t ∧ t.vd n = { s.vd n with late := true } ∧ ((s.vd n).state = .waking → Coming t s.clk .strike { a := n })) ∧
  -- ABORTED_WRITE
  (∀ s : State, let n := s.subject.a; (s.vd n).live = true → (s.vd n).state = .killed → bound s n = false →
    Happens .abortedWrite s fun t => t.clk = s.clk ∧ t.cores = s.cores ∧ (t.vd n).state = .killed ∧ n ∉ t.gc.backfill ∧
      (∀ e ∈ t.gc.cells, e.2 ≠ .home n ∧ e.2 ≠ .idle n ∧ e.2 ≠ .fill n) ∧
      (∀ i < (s.vd n).params.n, (t.member ⟨n, i⟩).jobs = [] ∧ (t.member ⟨n, i⟩).pool = [] ∧ (t.member ⟨n, i⟩).triggers = [] ∧ (t.member ⟨n, i⟩).packets = []) ∧
      ∀ a l, (s.vd n).params.n = 1 → openSignals (s.member ⟨n, 0⟩) = [a] → a % 8 = 0 → (∀ l, vaLoc s n a true = .ok l → OffTables s n l.key 8) → strikeAt s n a = none → vaLoc s n a true = .ok l → l.key + 8 ≤ 5 * 2 ^ 80 →
        (s.die l.die).merges = [] → memNat t.mem l.key 8 = 0xFFFFFFFFFFFFFFFE) ∧
  -- SRED_PACKET: the first contribution
  (∀ (s : State) (p : Pkt) (i : Nat), let w := s.subject.a; let vd := vdOfGang s p.gang; let n := (s.vd vd).params.n; let dl := s.clk + (s.vd vd).params.deadline
    s.subject.pkt = some p → p.type = 0x0B → p.counted = false → p.opx / 4 ≠ 0 → slotOf s w p.gang p.cid = none → freeSlot s w p.gang p.cid = some i → n ≠ 1 → p.data.length % 4 = 0 →
    Happens .sredPacket s fun t => Quiet s t ∧ Tab.get 0 (t.switch w).received p.gang = Tab.get 0 (s.switch w).received p.gang + 1 ∧
      Coming t dl .reductionSlotDeadline { a := w, b := i, c := dl } ∧
      t.slot w i = some { gang := p.gang, cid := p.cid, ty := p.opx / 4, op := p.opx % 4, len := p.data.length, partials := p.data, mask := [p.smem],
                          stamp := mergeClock [] p.stamp, nan := none,
                          nanElems := [], waiting := [(p.smem, p.rtag, p.addr.toNat)], deadline := dl, done := none }) ∧
  -- a further one, and the last
  (∀ (s : State) (p : Pkt) (i : Nat) (r : RedSlot), let w := s.subject.a; let vd := vdOfGang s p.gang; let n := (s.vd vd).params.n
    let bytes := ((words32 p.data).zip (words32 r.partials)).flatMap fun e => toBytes 4 (combined r.ty r.op (BitVec.ofNat 32 e.2) (BitVec.ofNat 32 e.1)).toNat
    let r' := { r with partials := bytes, mask := r.mask ++ [p.smem], waiting := r.waiting ++ [(p.smem, p.rtag, p.addr.toNat)],
                       stamp := mergeClock r.stamp p.stamp }
    s.subject.pkt = some p → p.type = 0x0B → r.ty ≠ 0 → slotOf s w p.gang p.cid = some i → s.slot w i = some r → r.gang = p.gang → r.cid = p.cid → r.done = none →
    r.len = p.data.length → r.partials.length = p.data.length → r.ty = p.opx / 4 → r.op = p.opx % 4 → p.smem ∉ r.mask → r.mask ≠ [] → r.nanElems = [] →
    (r'.mask.length ≠ n → Happens .sredPacket s fun t => Quiet s t ∧ t.agenda = s.agenda ∧ t.slot w i = some r') ∧
    (r'.mask.length = n → n ≤ 32 → Happens .sredPacket s fun t => Quiet s t ∧
      t.slot w i = some { r' with waiting := [], done := some (wordOf336 false r', s.clk + 85000) } ∧ Coming t (s.clk + 85000) .slotLingerEnd { a := w, b := i } ∧
      ∀ e ∈ r'.waiting, SresGone s t ⟨vd, e.1⟩ fun q => q.gang = p.gang ∧ q.rtag = e.2.1 ∧ q.addr = wordOf336 false r' ∧ q.data = bytes ∧ q.stamp = r'.stamp)) ∧
  -- SRES: with no context on the die, refused, and with a result
  (∀ (s : State) (p : Pkt), let m := s.subject.m
    s.subject.pkt = some p → p.type = 0x0C → (s.member m).live = true → (s.die (s.member m).die).ctx ≠ some m →
    Happens .sres s fun t => Quiet s t ∧ t.members = s.members ∧ Coming t (s.clk + 8) .sres s.subject) ∧
  (∀ (s : State) (p : Pkt) (a : Access), let m := s.subject.m
    s.subject.pkt = some p → p.type = 0x0C → (s.member m).live = true → (s.die (s.member m).die).ctx = some m → sredAccess s m p.rtag = some a →
    (p.data = [] → Happens .sres s fun t => Quiet s t ∧ Stands t a.id (.done (.s p.addr))) ∧
    (p.data ≠ [] → p.data.length ≤ a.size → resident s a.k.die m (granOf (eaAddr a.ea)) = true →
      resident s a.k.die m (granOf (eaAddr a.ea + p.data.length - 1)) = true →
      Happens .sres s fun t => t.cores = s.cores ∧ Stands t a.id (.done (.s p.addr)) ∧
        memBytes t.mem (vaultKey a.k.die (eaAddr a.ea)) p.data.length = p.data ∧
        (∀ x, x < vaultKey a.k.die (eaAddr a.ea) ∨ vaultKey a.k.die (eaAddr a.ea) + p.data.length ≤ x → Tab.get 0 t.mem x = Tab.get 0 s.mem x) ∧
        (t.member m).received = (s.member m).received + (if p.counted then 0 else 1))) ∧
  -- REDUCTION_SLOT_DEADLINE, SLOT_LINGER_END
  (∀ (s : State) (r : RedSlot), let o := s.subject
    s.slot o.a o.b = some r → r.done = none → r.deadline = o.c → o.c ≤ s.clk → Happens .reductionSlotDeadline s fun t => Quiet s t ∧
      t.slot o.a o.b = some { r with waiting := [], done := some (wordOf336 true r, s.clk + 85000) }) ∧
  (∀ (s : State) (r : RedSlot) (word : Dword) (at_ : Nat), let o := s.subject
    s.slot o.a o.b = some r → r.done = some (word, at_) → at_ ≤ s.clk → Happens .slotLingerEnd s fun t => Quiet s t ∧ t.agenda = s.agenda ∧ t.slot o.a o.b = none)

/-- Packet b of queue a of the subject's member was the next one, with these eight dwords, and has been parsed (R359): it stands last on the
member's list, the parse position is past it and the queue is looked at again. -/
structure Sys2Proof.Machine.Parsed (s t : State) (dw : List Dword) (left : Nat) (sat : List Nat) : Prop where
  on : ∃ l p, (t.member s.subject.m).packets = l ++ [p] ∧ p.q = s.subject.a ∧ p.index = s.subject.b ∧ p.dw.take 8 = dw ∧ p.left = left ∧ p.sat = sat
  position : queuePos t s.subject.m s.subject.a = s.subject.b + 1
  again : Coming t (t.clk + 1) .queueDoorbell { m := s.subject.m, a := s.subject.a }

/-- The packet the event is about is complete. -/
def Sys2Proof.Machine.Completes (s t : State) : Prop :=
  Coming t t.clk .packetCompletion { m := s.subject.m, a := s.subject.a * 2 ^ 64 + s.subject.b }

/-- The queue of the event is stopped and the reason reported (R416): EN is 0. -/
def Sys2Proof.Machine.Stopped (s t : State) (q va reason : Nat) : Prop :=
  descEn t s.subject.m q = false ∧ Told t 4 reason s.subject.m.vd [q, va]

/-- R31, R33, R34, R39, R215, R358 to R366, R415 to R417: the front end.  Each packet type acts as R361 gives when it is the next of its queue: the queue moves past
it, its work is queued or done, and it completes; a malformed one stops its queue; a completed one signals with SVAL and leaves the list.  A
launch whose rectangle is free is placed with the core state of R33; the dispatcher's pop starts a task with the registers of R215. -/
def Obligations.FrontEndEvents : Prop :=
  -- QUEUE_DOORBELL
  (∀ (s : State) (bytes : List Byte) (s1 : State) (e : Instr), let m := s.subject.m; let q := s.subject.a; let i := queuePos s m q
    q < 15 → initFirst s m.vd = false → canParse s m q = true → vaRead s m (packetVa s m q i) 64 = .ok (bytes, s1) → packetEvent (bytes.headD 0).toNat = some e →
    Happens .queueDoorbell s fun t => t.cores = s.cores ∧ t.members = s.members ∧ ∃ at_, s1.clk ≤ at_ ∧ Coming t at_ e { m := m, a := q, b := i }) ∧
  (∀ (s : State) (r : Nat), let m := s.subject.m; let q := s.subject.a
    q < 15 → initFirst s m.vd = false → parses s m = true → descEn s m q = true → descBad s m q = some r →
    Happens .queueDoorbell s fun t => t.cores = s.cores ∧ Stopped s t q (packetVa s m q (queuePos s m q)) r) ∧
  -- QUEUE_POLL
  (∀ s : State, parses s s.subject.m = true → Happens .queuePoll s fun t => t.clk = s.clk ∧ t.cores = s.cores ∧ Coming t (s.clk + 85000) .queuePoll { m := s.subject.m }) ∧
  -- LAUNCH_PACKET
  (∀ (s s1 s2 : State) (dw : List Dword) (l : Launch), let o := s.subject; let d0 := (dw.getD 0 0).toNat
    nextPacket s 1 = some (dw, s1) → o.a ≤ 15 → readLaunch s1 o.m o.a o.b dw = .ok (l, s2) → dw.length = 8 → s2.subject = o →
    Happens .launchPacket s fun t => t.cores = s2.cores ∧ Parsed s t dw 1 [] ∧ (t.member o.m).launches = (s2.member o.m).launches ++ [l] ∧ (∃ at_, t.clk ≤ at_ ∧ Coming t at_ .panePlacement { m := o.m }) ∧
      l.lw = 2 ^ bitsN d0 20 18 ∧ l.lh = 2 ^ bitsN d0 23 21 ∧ l.x0 = bitsN d0 27 24 ∧ l.y0 = bitsN d0 31 28 ∧ l.image.length = bitsN d0 42 32 + 1) ∧
  (∀ (s s1 : State) (dw : List Dword) (r : Nat), let o := s.subject
    nextPacket s 1 = some (dw, s1) → o.a ≤ 15 → readLaunch s1 o.m o.a o.b dw = .error r → s1.subject = o →
    Happens .launchPacket s fun t => t.cores = s1.cores ∧ t.members = s1.members ∧ Stopped s t o.a (packetVa s1 o.m o.a o.b) r) ∧
  -- TASKS_PACKET
  (∀ (s s1 s2 : State) (dw l : List Dword) (h : Nat), let o := s.subject; let d0 := (dw.getD 0 0).toNat; let va := (dw.getD 1 0).toNat
    heldPacket s 2 = none → nextPacket s 2 = some (dw, s1) → s2.subject = o → commonBad 2 (0xFFFF * 2 ^ 48 + 3 * 2 ^ 16) true dw o.a = none →
    bitsN d0 63 48 = 1 → bitsN d0 17 16 ≠ 3 → va % 64 = 0 → vaDwords s1 o.m va 8 = .ok (l, s2) → dw.length = 8 → l.length = 8 → o.a < 15 →
    recordBad s2 o.m l (fpDwords s2 o.m (l.getD 3 0)) = false → (∀ p ∈ (s2.member o.m).packets, ¬(p.q = o.a ∧ p.index = o.b)) → (dw.getD 0 0).toNat % 256 = 2 →
    lowestFree (s2.member o.m).pool 4096 = some h →
    Happens .tasksPacket s fun t => t.cores = s2.cores ∧ ((t.member o.m).task h).isSome = true ∧ queuePos t o.m o.a = o.b + 1 ∧
      ∃ p ∈ (t.member o.m).packets, p.q = o.a ∧ p.index = o.b ∧ p.left = 1) ∧
  (∀ (s s1 : State) (dw : List Dword), let o := s.subject
    heldPacket s 2 = none → nextPacket s 2 = some (dw, s1) → s1.subject = o → commonBad 2 (0xFFFF * 2 ^ 48 + 3 * 2 ^ 16) true dw o.a = none → o.a < 15 →
    bitsN (dw.getD 0 0).toNat 63 48 = 0 → Happens .tasksPacket s fun t => t.cores = s1.cores ∧ Stopped s t o.a (packetVa s1 o.m o.a o.b) 4) ∧
  -- COPY_PACKET
  (∀ (s s1 s2 : State) (dw card : List Dword), let o := s.subject; let va := (dw.getD 1 0).toNat
    nextPacket s 3 = some (dw, s1) → s2.subject = o → commonBad 3 0 true dw o.a = none → va % 64 = 0 → vaDwords s1 o.m va 8 = .ok (card, s2) → o.a < 15 →
    cardKind card ≠ 3 → cardBad (cardKind card) card (fpDwords s2 o.m (card.getD 3 0)) = false → cardEpBad (s2.vd o.m.vd) card = false →
    cardMember (s2.vd o.m.vd).params.n card = none →
    (∀ h, lowestFree (s2.member o.m).jobs 256 = some h → Happens .copyPacket s fun t => t.cores = s2.cores ∧ queuePos t o.m o.a = o.b + 1 ∧
      ∃ j, (t.member o.m).job h = some j ∧ j.card = card ∧ j.packet = some (o.a * 2 ^ 64 + o.b)) ∧
    (lowestFree (s2.member o.m).jobs 256 = none → Happens .copyPacket s fun t => t.cores = s2.cores ∧ t.members = s2.members ∧ Coming t (s2.clk + 8) .copyPacket o)) ∧
  -- FENCE_PACKET, FENCE_COUNTER_POLL
  (∀ (s s1 s2 : State) (dw l : List Dword), let o := s.subject; let n := bitsN (dw.getD 0 0).toNat 63 48; let r := fenceRead o.m (pairs l) s2 []
    nextPacket s 4 = some (dw, s1) → r.2.2.subject = o → commonBad 4 (0xFFFF * 2 ^ 48) true dw o.a = none → 1 ≤ n → n ≤ 12 → o.a ≤ 15 → dw.length = 8 →
    vaDwords s1 o.m (dw.getD 1 0).toNat (2 * n) = .ok (l, s2) →
    (∀ e ∈ pairs l, bitsN e.1.toNat 63 60 < 6 ∧ bitsN e.1.toNat 58 52 = 0 ∧ bitsN e.1.toNat 51 0 % 8 = 0) → r.2.1 = false →
    Happens .fencePacket s fun t => t.cores = s.cores ∧ Parsed s t dw 1 r.1 ∧
      (r.1.length = n → Completes s t) ∧ (r.1.length ≠ n → ∃ at_, t.clk < at_ ∧ at_ ≤ t.clk + 1700 ∧ Coming t at_ .fenceCounterPoll { m := o.m, a := o.a * 2 ^ 64 + o.b })) ∧
  (∀ (s : State) (p : Packet), let m := s.subject.m; let r := fenceRead m (pairs (p.dw.drop 8)) s p.sat
    (s.member m).packets.find? (fun p => decide (p.key = s.subject.a ∧ p.type = 4)) = some p → parses s m = true →
    Happens .fenceCounterPoll s fun t => t.mem = r.2.2.mem ∧ t.cores = r.2.2.cores ∧ { p with sat := r.1 } ∈ (t.member m).packets ∧
      (r.1.length = (pairs (p.dw.drop 8)).length → Coming t t.clk .packetCompletion { m := m, a := p.key }) ∧
      (r.1.length ≠ (pairs (p.dw.drop 8)).length → ∃ at_, t.clk < at_ ∧ at_ ≤ t.clk + 1700 ∧ Coming t at_ .fenceCounterPoll { m := m, a := p.key })) ∧
  -- SIGNAL_PACKET
  (∀ (s s1 : State) (dw : List Dword) (l : Loc), let o := s.subject; let a := (dw.getD 6 0).toNat
    heldPacket s 5 = none → nextPacket s 5 = some (dw, s1) → s1.subject = o → commonBad 5 (3 * 2 ^ 16) false dw o.a = none → o.a < 15 → dw.length = 8 →
    (dw.getD 0 0).toNat % 256 = 5 → bitN (dw.getD 0 0).toNat 16 = false → bitN (dw.getD 0 0).toNat 17 = false → strikeAt s1 o.m.vd a = none → vaLoc s1 o.m.vd a true = .ok l → OffTables s1 o.m.vd l.key 8 →
    Happens .signalPacket s fun t => t.cores = s1.cores ∧ Parsed s t dw 0 [] ∧ Completes s t ∧ memDword t.mem l.key = dw.getD 7 0 ∧
      Tab.get 0 (t.member o.m).clock o.m.member = (Tab.get 0 (s1.member o.m).clock o.m.member + 1) % 2 ^ 32) ∧
  -- STRIKE_PACKET
  (∀ (s s1 : State) (dw : List Dword) (vd : Nat), let o := s.subject
    heldPacket s 6 = none → nextPacket s 6 = some (dw, s1) → s1.subject = o → commonBad 6 (2 * 2 ^ 16) true dw o.a = none → o.a < 15 → dw.length = 8 →
    bitN (dw.getD 0 0).toNat 17 = false → strikeTarget (s.vd o.m.vd) (dw.getD 1 0).toNat = .ok vd → s1.vds = s.vds →
    Happens .strikePacket s fun t => t.cores = s1.cores ∧ Parsed s t dw 0 [] ∧ Completes s t ∧ Coming t t.clk .strike { a := vd }) ∧
  -- DIM_PACKET
  (∀ (s s1 : State) (dw : List Dword), let o := s.subject
    heldPacket s 7 = none → nextPacket s 7 = some (dw, s1) → s1.subject = o → commonBad 7 0 false dw o.a = none → o.a < 15 → dw.length = 8 → openPackets s1 o.m none = [] →
    Happens .dimPacket s fun t => t.cores = s1.cores ∧ Parsed s t dw 0 [] ∧ Completes s t ∧ (t.member o.m).dimmed = true ∧
      ((s1.vd o.m.vd).params.n = 1 → o.m.member = 0 → (s1.vd o.m.vd).state = .running → Coming t t.clk .collapseRequest { a := o.m.vd, b := 1 })) ∧
  -- BARRIER_PACKET
  (∀ (s s1 : State) (dw : List Dword), let o := s.subject
    let wait := openPackets s1 o.m (if bitN (dw.getD 0 0).toNat 16 then none else some o.a)
    heldPacket s 8 = none → nextPacket s 8 = some (dw, s1) → s1.subject = o → commonBad 8 (2 ^ 16) false dw o.a = none → o.a ≤ 15 → dw.length = 8 →
    (wait = [] → Happens .barrierPacket s fun t => t.cores = s1.cores ∧ Parsed s t dw 0 [] ∧ Completes s t) ∧
    (wait ≠ [] → Happens .barrierPacket s fun t => t.cores = s1.cores ∧ Parsed s t dw 1 wait ∧ t.agenda = s1.agenda ++ [⟨t.clk + 1, .event .queueDoorbell { m := o.m, a := o.a }⟩])) ∧
  -- NOP_PACKET
  (∀ (s s1 : State) (dw : List Dword), let o := s.subject
    nextPacket s 9 = some (dw, s1) → s1.subject = o → commonBad 9 0 false dw o.a = none → o.a ≤ 15 → dw.length = 8 →
    Happens .nopPacket s fun t => t.cores = s1.cores ∧ Parsed s t dw 0 [] ∧ Completes s t) ∧
  -- PACKET_COMPLETION
  (∀ (s : State) (p : Packet) (l : Loc), let m := s.subject.m
    s.subject.b = 0 → (s.member m).packets.find? (fun p => decide (p.key = s.subject.a)) = some p → (p.type = 1 → bitN (p.dwn 0) 16 = false) →
    bitN (p.dwn 0) 8 = true → p.dwn 6 % 8 = 0 → strikeAt s m.vd (p.dwn 6) = none → vaLoc s m.vd (p.dwn 6) true = .ok l → OffTables s m.vd l.key 8 →
    Happens .packetCompletion s fun t => t.cores = s.cores ∧ (∀ x ∈ (t.member m).packets, x.key ≠ s.subject.a) ∧
      memNat t.mem l.key 8 = (if p.aborted then 0xFFFFFFFFFFFFFFFE else p.dwn 7)) ∧
  -- PANE_PLACEMENT
  (∀ (s : State) (l : Launch) (i : Nat), let m := s.subject.m; let d := (s.member m).die; let c := s.core ⟨d, i⟩
    parses s m = true → placeable s d [] (s.member m).launches = some l → l.presets = [] → i ∈ rectCores l.x0 l.y0 l.lw l.lh → l.image.length ≤ 2048 →
    Happens .panePlacement s fun t => t.mem = s.mem ∧ (∀ k, (∀ j ∈ rectCores l.x0 l.y0 l.lw l.lh, coreKey ⟨d, j⟩ ≠ coreKey k) → t.core k = s.core k) ∧
      ⟨l.packet, l.x0, l.y0, l.lw, l.lh, []⟩ ∈ (t.member m).panes ∧ l ∉ (t.member m).launches ∧
      let c' := t.core ⟨d, i⟩
      c'.run = .running ∧ c'.task = none ∧ c'.pc = 0 ∧ c'.tl = 0 ∧ c'.next = s.clk - c.frozen ∧ (∀ n, c'.readX n = if 1 ≤ n ∧ n ≤ 8 then l.args.getD (n - 1) 0 else 0) ∧
      c'.p = [] ∧ c'.ofS = [] ∧ c'.ofV = [] ∧ c'.streams = [] ∧ c'.fifos = [] ∧ c'.cq = [] ∧ c'.tags = [] ∧ c'.hist0 = [] ∧ c'.hist1 = [] ∧ c'.hist2 = [] ∧ c'.nest.active = false ∧
      c'.rpa = 0 ∧ c'.rpseq = 0 ∧ c'.wdrawn = false ∧ c'.pane = BitVec.ofNat 64 (l.lh.log2 * 4096 + l.lw.log2 * 256 + l.y0 * 16 + l.x0) ∧
      (∀ b < l.image.length, Tab.get 0 c'.imem b = l.image.getD b 0) ∧ (∀ b, l.image.length ≤ b → Tab.get 0 c'.imem b = Tab.get 0 c.imem b) ∧
      c'.views = c.views ∧ c'.ctab = c.ctab ∧ c'.tvec = c.tvec ∧ c'.trapen = c.trapen ∧ c'.tsave1 = c.tsave1 ∧ c'.tsave2 = c.tsave2 ∧ c'.bank1 = c.bank1 ∧ c'.bank2 = c.bank2 ∧
      c'.rs = c.rs) ∧
  -- TASK_DISPATCH
  (∀ (s : State) (b h i : Nat) (x : Task), let m := s.subject.m; let d := (s.member m).die; let c := s.core ⟨d, i⟩
    (s.die d).stopped = false → (s.die d).ctx = some m → rejoins s m = false → (s.member m).lastPop ≠ s.clk + 1 → bankHeads s m = [(b, h)] → (s.member m).task h = some x →
    longestFree s d (heldByLaunch (s.member m)) = some i →
    Happens .taskDispatch s fun t => t.mem = s.mem ∧ (∀ k, coreKey k ≠ coreKey ⟨d, i⟩ → t.core k = s.core k) ∧ (t.member m).lastPop = s.clk + 1 ∧
      Tab.get [] (t.member m).banks b = (Tab.get [] (s.member m).banks b).tail ∧
      let c' := t.core ⟨d, i⟩
      c'.run = .running ∧ c'.task = some h ∧ c'.tl = 0 ∧ c'.next = s.clk - c.frozen + 4 ∧ c'.pane = 0x80000000 ∧ c'.wdrawn = ctlWd x.ctl ∧
      c'.pc = (if x.resumed = false ∧ x.fired = some true then ctlApc x.ctl else ctlPc x.ctl) ∧
      c'.readX 1 = x.x1 ∧ c'.readX 2 = x.x2 ∧ c'.readX 3 = x.x3 ∧ c'.readX 4 = x.x4 ∧ (∀ n, n = 0 ∨ 4 < n → c'.readX n = c.readX n) ∧
      c'.p = c.p ∧ c'.streams = c.streams ∧ c'.views = c.views ∧ c'.rs = c.rs ∧ c'.imem = c.imem)

/-- The chain a packet comes on at member m (R322). -/
def Sys2Proof.Machine.chainAt (s : State) (m : MemberId) (p : Pkt) : Chain := Tab.get Chain.start (s.member m).inChain (2 * p.smem + chainOf p.vc)

/-- The packet of the event is the next of its chain at the subject's member, with no stamp entry of its own, no packet waits there, and its stamp is
dominated (R110, R322 to R324). -/
structure Sys2Proof.Machine.InOrder (s : State) (p : Pkt) (ty : Nat) : Prop where
  pkt : s.subject.pkt = some p
  type : p.type = ty
  dmem : p.dmem = s.subject.m.member
  live : (s.member s.subject.m).live = true
  here : (s.die (s.member s.subject.m).die).ctx = some s.subject.m
  stamp : p.stamp = []
  echo : p.echo = false
  fresh : p.counted = false
  seq : p.seq = ((chainAt s s.subject.m p).seq + 1) % 2 ^ 32
  unseen : seenBefore (chainAt s s.subject.m p) p.seq = false
  waiting : (s.member s.subject.m).stampWait = [] ∧ (s.member s.subject.m).unbuilt = []
  dominated : dominated (s.member s.subject.m).clock (chainAt s s.subject.m p).stamp p.smem = true

/-- Member m has a packet of which Q holds on its way, or waiting for its window. -/
def Sys2Proof.Machine.Sends (t : State) (m : MemberId) (Q : Pkt → Prop) : Prop :=
  (∃ q ∈ (t.member m).outWait, Q q) ∨ ∃ at_ o q, t.clk < at_ ∧ Coming t at_ .switchPacketForward o ∧ o.pkt = some q ∧ q.smem = m.member ∧ Q q

/-- The packet is applied: the received counter has risen (R61), and its SEQ is acknowledged (R322). -/
structure Sys2Proof.Machine.Applied (s t : State) (p : Pkt) : Prop where
  received : (t.member s.subject.m).received = (s.member s.subject.m).received + 1
  next : (chainAt t s.subject.m p).seq = p.seq
  gone : (t.member s.subject.m).stampWait = [] ∧ (t.member s.subject.m).unbuilt = []
  ack : ∃ at_ o q, t.clk < at_ ∧ Coming t at_ .switchPacketForward o ∧ o.pkt = some q ∧ q.type = 0x06 ∧ q.dmem = p.smem

/-- The destination port of a packet to a V-address: an access of its die that acts at the address now (R324). -/
def Sys2Proof.Machine.ServedNow (s t : State) (p : Pkt) : Prop :=
  ∃ a ∈ t.accesses, a.k = ⟨(s.member s.subject.m).die, 256⟩ ∧ a.ctx = s.subject.m ∧ eaSpace a.ea = 0 ∧ eaAddr a.ea = p.addr.toNat % 2 ^ 52 ∧
    (∃ st, a.kind = .served { p with stamp := st }) ∧ ⟨t.clk, .perform a.id⟩ ∈ t.agenda

/-- R48, R110, R284, R304, R317, R320 to R327, R330, R414, R446, R447, R454: packets.  A switch forwards a packet in 50 clk and marks it past 32 KiB, or drops a bad one
and counts it; at its member a packet that is next in its chain and dominated acts by its type, is counted and acknowledged; responses complete
their accesses; an ACK frees what it covers; 50 µs without one sends the packet again, and after the eighth send the member is
unreachable; beacons raise clocks, ECHO-free 4 µs raise a rate by 1/32, and a die in ticket mode calls its tickets in order. -/
def Obligations.FabricEvents : Prop :=
  -- SWITCH_PACKET_FORWARD
  (∀ (s : State) (p : Pkt), let w := s.subject.a
    let home := if p.type = 0x0B then pkgOf (s.member ⟨vdOfGang s p.gang, 0⟩).die else pkgOf p.ddie
    s.subject.pkt = some p →
    (4096 ≤ w ∨ (s.switch w).down = true → p.type ≠ 0x0B → Happens .switchPacketForward s fun t => t = s) ∧
    (4096 ≤ w ∨ (s.switch w).down = true → p.type = 0x0B → Happens .switchPacketForward s fun t => Quiet s t ∧ t.members = s.members ∧
      Coming t (s.clk + 42500) .switchPacketForward { a := switchPos s p, pkt := some p }) ∧
    (w < 4096 → (s.switch w).down = false → pktBad p = false → home ≠ switchPkg w →
      (reachUp s (switchPkg w) home (w % 16) = true → Happens .switchPacketForward s fun t => Quiet s t ∧ t.members = s.members ∧
        Coming t (s.clk + 260) .switchPacketForward { a := 16 * home + w % 16, pkt := some p }) ∧
      (reachUp s (switchPkg w) home (w % 16) = false → Happens .switchPacketForward s fun t => t = s)) ∧
    (w < 4096 → (s.switch w).down = false → pktBad p = false → home = switchPkg w → p.type = 0x0B →
      Happens .switchPacketForward s fun t => Quiet s t ∧ t.members = s.members ∧ Coming t s.clk .sredPacket { a := w, pkt := some p }) ∧
    (w < 4096 → (s.switch w).down = false → pktBad p = true → Happens .switchPacketForward s fun t => Quiet s t ∧ t.agenda = s.agenda ∧
      Tab.get 0 (t.switch w).drops p.gang = Tab.get 0 (s.switch w).drops p.gang + 1 ∧ Tab.get 0 (t.switch w).received p.gang = Tab.get 0 (s.switch w).received p.gang + 1) ∧
    (w < 4096 → (s.switch w).down = false → pktBad p = false → home = switchPkg w → p.type ∈ [0x20, 0x22, 0x23] →
      Happens .switchPacketForward s fun t => t = s) ∧
    (w < 4096 → (s.switch w).down = false → pktBad p = false → home = switchPkg w → p.type ∉ [0x0B, 0x20, 0x22, 0x23] →
      Happens .switchPacketForward s fun t => Quiet s t ∧ t.members = s.members ∧
      Coming t (s.clk + 30) (arrivalEvent p.type) { m := ⟨vdOfGang s p.gang, p.dmem⟩, a := w, pkt := some { p with mark := p.mark || decide (32768 < Tab.get 0 (s.switch w).outQueue p.ddie) } })) ∧
  -- WRITE_PACKET, READ_PACKET, ATOMIC_PACKET, FEOP at a V-address
  (∀ (s : State) (p : Pkt) (i : Instr), InOrder s p p.type →
    (i = .writePacket ∧ p.type = 0x01 ∧ p.addr.toNat / 2 ^ 62 = 0 ∨ i = .readPacket ∧ p.type = 0x02 ∧ p.addr.toNat / 2 ^ 62 = 0 ∨
      i = .atomicPacket ∧ p.type = 0x04 ∧ p.addr.toNat / 2 ^ 62 = 0 ∨ i = .feop ∧ p.type = 0x07) →
    Happens i s fun t => Quiet s t ∧ ServedNow s t p) ∧
  -- the same in HBM
  (∀ (s : State) (p : Pkt), let m := s.subject.m; let k := hbmKey (s.member m).die (p.addr.toNat % 2 ^ 52)
    p.addr.toNat / 2 ^ 62 = 1 → (s.member m).die < 256 → (s.die (s.member m).die).merges = [] →
    (InOrder s p 0x01 → p.opx < 128 → (partsOf k p.data.length).length ≤ 1 → holder s true k p.data.length = none → OffTables s m.vd k p.data.length → Happens .writePacket s fun t => t.cores = s.cores ∧ Applied s t p ∧ memBytes t.mem k p.data.length = p.data ∧
      ∀ x, x < k ∨ k + p.data.length ≤ x → Tab.get 0 t.mem x = Tab.get 0 s.mem x) ∧
    (InOrder s p 0x02 → (partsOf k (p.lenm1 + 1)).length ≤ 1 → Happens .readPacket s fun t => Quiet s t ∧ Applied s t p ∧
      Sends t m fun q => q.type = 0x03 ∧ q.dmem = p.smem ∧ q.rtag = p.rtag ∧ q.data = memBytes s.mem k (p.lenm1 + 1) ∧ q.poison = poisoned s k (p.lenm1 + 1)) ∧
    (InOrder s p 0x04 → p.opx < 128 → let n := amoSizeOf p.opx; let old := memNat s.mem k n
      n ≤ 8 → poisoned s k n = false → holder s true k 8 = none → OffTables s m.vd k n → Happens .atomicPacket s fun t => t.cores = s.cores ∧ Applied s t p ∧
        memNat t.mem k n = amoNew (amoOfCode p.opx) n old (ofBytes (p.data.take 8) % 2 ^ 64) (ofBytes (p.data.drop 8) % 2 ^ 64) % 256 ^ n ∧
        (∀ x, x < k ∨ k + n ≤ x → Tab.get 0 t.mem x = Tab.get 0 s.mem x) ∧
        Sends t m fun q => q.type = 0x05 ∧ q.dmem = p.smem ∧ q.rtag = p.rtag ∧ q.data = toBytes 8 old)) ∧
  -- a plain one of several parts, or one that a migration holds, becomes an access of the die
  (∀ (s : State) (p : Pkt) (i : Instr), let m := s.subject.m; let va := p.addr.toNat % 2 ^ 52; let k := hbmKey (s.member m).die va
    InOrder s p p.type → p.addr.toNat / 2 ^ 62 = 1 → (i = .writePacket ∧ p.type = 0x01 ∨ i = .readPacket ∧ p.type = 0x02 ∨ i = .atomicPacket ∧ p.type = 0x04) →
    (p.type ≠ 0x04 ∧ 1 < (partsOf k (servedSize p)).length ∨ (holder s (decide (p.type ≠ 0x02)) k (servedSize p)).isSome = true) →
    Happens i s fun t => Quiet s t ∧ ∃ a ∈ t.accesses, a.k = ⟨(s.member m).die, 256⟩ ∧ a.ctx = m ∧ a.ea = BitVec.ofNat 64 (2 * 2 ^ 62 + va) ∧
      (∃ st, a.kind = .served { p with stamp := st }) ∧ ⟨t.clk, .perform a.id⟩ ∈ t.agenda) ∧
  -- RDRESP, ATRESP
  (∀ (s : State) (p : Pkt) (a : Access), let m := s.subject.m
    s.accesses.find? (fun a => decide (a.vd = m.vd ∧ a.member = m.member ∧ a.id % 65536 = p.rtag) && (match a.st with | .remote _ _ => true | _ => false)) = some a →
    a.rid = 0 → p.poison = false →
    (InOrder s p 0x03 → ∀ n, a.kind = .load n false → Happens .rdresp s fun t => t.mem = s.mem ∧ Applied s t p ∧ Stands t a.id (.done (.s (BitVec.ofNat 64 (ofBytes p.data))))) ∧
    (InOrder s p 0x05 → ∀ op n b c, a.kind = .amo op n b c false → Happens .atresp s fun t => t.mem = s.mem ∧ Applied s t p ∧
      Stands t a.id (.done (.s (BitVec.ofNat 64 (ofBytes p.data)))))) ∧
  -- FIFO_PACKET: from another die, over the own die
  (∀ (s : State) (p : Pkt), let m := s.subject.m; let k : CoreId := ⟨(s.member m).die, p.addr.toNat⟩
    (InOrder s p 0x08 → p.seq ≠ 0 ∨ p.smem ≠ p.dmem → Happens .fifoPacket s fun t => t.mem = s.mem ∧ Applied s t p ∧
      ((t.core k).fifo p.opx).inn = ((s.core k).fifo p.opx).inn ++ [vecOf p.data]) ∧
    (s.subject.pkt = some p → p.type = 0x08 → p.seq = 0 → p.smem = p.dmem → (s.member m).live = true →
      let mine (a : Access) : Bool := decide (a.vd = m.vd ∧ a.member = m.member ∧ a.id % 65536 = p.rtag) && (match a.kind with | .fpush _ => true | _ => false)
      (s.accesses.find? mine = none → Happens .fifoPacket s fun t => OnlyAt k s t ∧ ((t.core k).fifo p.opx).inn = ((s.core k).fifo p.opx).inn ++ [vecOf p.data]) ∧
      ∀ a, s.accesses.find? mine = some a → Happens .fifoPacket s fun t => t.mem = s.mem ∧ t.clk = s.clk ∧ (∀ b ∈ t.accesses, b.id ≠ a.id) ∧
        (∀ j, coreKey j ≠ coreKey k → coreKey j ≠ coreKey a.k → t.core j = s.core j) ∧
        ((t.core k).fifo p.opx).inn = ((s.core k).fifo p.opx).inn ++ [vecOf p.data])) ∧
  -- CDATA, BARTOK
  (∀ (s : State) (p : Pkt) (i : Instr), let m := s.subject.m; InOrder s p p.type → (i = .cdata ∧ p.type = 0x09 ∧ landingFull (s.member m) p = false ∨ i = .bartok ∧ p.type = 0x10) →
    Happens i s fun t => Quiet s t ∧ ∃ st, (t.member m).landing = (s.member m).landing ++ [{ p with stamp := st }]) ∧
  -- DEMAND: at the word's own die, and on its way to another
  (∀ (s : State) (p : Pkt), let m := s.subject.m; s.subject.pkt = some p → p.type = 0x0A → p.seq = 0 → p.dmem = m.member → (s.member m).live = true →
    (∀ q h x, p.smem = p.dmem → p.opx = 1 → (s.member m).producers.find? (fun q => decide (q.word = p.addr.toNat ∧ q.member = m.member)) = some q → q.owner = .task h →
      (s.member m).task h = some x → Happens .demand s fun t => Quiet s t ∧ t.agenda = s.agenda ∧
        (t.member m).task h = some { x with demand := if x.demand = 255 then 255 else x.demand + 1 }) ∧
    (p.smem ≠ p.dmem → Happens .demand s fun t => Quiet s t ∧ Sends t ⟨m.vd, p.smem⟩ fun q => q.type = 0x0A ∧ q.dmem = p.dmem ∧ q.addr = p.addr ∧ q.opx = p.opx)) ∧
  -- CFLUSH
  (∀ (s : State) (p : Pkt), let m := s.subject.m; InOrder s p 0x0D → Happens .cflush s fun t => Quiet s t ∧ Applied s t p ∧
    ∀ i < 64, let j := p.addr.toNat % 256 + i; Tab.get 0 (chainAt t m p).stamp j =
      if j < (s.vd m.vd).params.n then ofBytes ((p.data.drop (4 * i)).take 4) else Tab.get 0 (chainAt s m p).stamp j) ∧
  -- TKREQ, TKCALL
  (∀ (s : State) (p : Pkt), let m := s.subject.m; let d := (s.member m).die; InOrder s p 0x0E → Happens .tkreq s fun t => Quiet s t ∧ Applied s t p ∧
    Tab.get 0 (t.die d).tickets (s.die d).ticketNext = memberKey ⟨m.vd, p.smem⟩ + 1 ∧ (t.die d).ticketNext = (s.die d).ticketNext + 1 ∧ Coming t s.clk .ticketCall { a := d }) ∧
  (∀ (s : State) (p : Pkt), let m := s.subject.m; InOrder s p 0x0F → Happens .tkcall s fun t => Quiet s t ∧ Applied s t p ∧
    Tab.get 0 (t.member m).tickets p.smem = 1 + 65536 ∧ ∀ e < 4, Coming t s.clk .chunkIssue { m := m, a := e }) ∧
  -- ACK_PACKET
  (∀ (s : State) (p : Pkt), let m := s.subject.m; let seq := p.addr.toNat % 2 ^ 32; let chain := p.addr.toNat / 2 ^ 32 % 2
    s.subject.pkt = some p → p.type = 0x06 → p.dmem = m.member → (s.member m).live = true →
    ((s.die (s.member m).die).ctx ≠ some m → Happens .ackPacket s fun t => Quiet s t ∧ t.members = s.members ∧ Coming t (s.clk + 8) .ackPacket s.subject) ∧
    ((s.die (s.member m).die).ctx = some m → p.echo = false → (s.member m).outWait = [] →
    Happens .ackPacket s fun t => (t.member m).received = (s.member m).received + (if p.counted then 0 else 1) ∧
      (∀ x ∈ (t.member m).retransmit, ¬(x.pkt.dmem = p.smem ∧ chainOf x.pkt.vc = chain ∧ x.pkt.seq ≠ 0 ∧ clockGe seq x.pkt.seq = true)) ∧
      (∀ x ∈ (s.member m).retransmit, x.pkt.dmem ≠ p.smem → x ∈ (t.member m).retransmit) ∧
      ∀ a ∈ s.accesses, ∀ l q, chain = 0 → a.ctx = m → a.kind = .store l → a.st = .remote p.smem q → q ≠ 0 → clockGe seq q = true → ∀ b ∈ t.accesses, b.id ≠ a.id)) ∧
  -- RETRANSMIT_TIMEOUT
  (∀ (s : State) (x : Sent), let o := s.subject
    (s.member o.m).retransmit.find? (fun x => decide (x.pkt.dmem = o.a ∧ chainOf x.pkt.vc = o.b ∧ x.pkt.seq = o.c ∧ x.at_ + 42500 ≤ s.clk)) = some x →
    (x.tries < 8 → Happens .retransmitTimeout s fun t => Quiet s t ∧ { x with tries := x.tries + 1, at_ := s.clk } ∈ (t.member o.m).retransmit ∧
      (∃ at_ w, s.clk < at_ ∧ Coming t at_ .switchPacketForward { a := w, pkt := some x.pkt }) ∧ Coming t (s.clk + 42500) .retransmitTimeout o) ∧
    (8 ≤ x.tries → Happens .retransmitTimeout s fun t => t.mem = s.mem ∧ o.a ∈ (t.member o.m).unreachable ∧ (∀ y ∈ (t.member o.m).retransmit, y.pkt.dmem ≠ o.a) ∧
      Told t 1 0x06 o.m.vd [o.a, o.c, x.tries - 1])) ∧
  -- STAMP_WAIT_APPLY, STAMP_WAIT_TIMEOUT
  (∀ (s : State) (e : Pkt × Nat), let m := s.subject.m; (s.die (s.member m).die).ctx = some m →
    (s.member m).stampWait.find? (fun e => mayApply (s.member m) e.1) = some e →
    Happens .stampWaitApply s fun t => e ∉ (t.member m).stampWait ∧ (e.1.type = 0x09 → Quiet s t ∧ (t.member m).landing = (s.member m).landing ++ [e.1])) ∧
  (∀ (s : State) (e : Pkt × Nat), let o := s.subject
    (s.member o.m).stampWait.find? (fun e => decide (e.1.smem = o.a ∧ e.1.seq = o.b ∧ chainOf e.1.vc = o.c)) = some e →
    Happens .stampWaitTimeout s fun t => Quiet s t ∧ t.members = s.members ∧ Told t 1 0x0B o.m.vd [o.a, o.b, (s.clk - e.2) / 850]) ∧
  -- BEACON_TIMER, BEACON
  (∀ s : State, let m := s.subject.m; (s.die (s.member m).die).ctx = some m → Happens .beaconTimer s fun t => Quiet s t ∧ t.members = s.members ∧
    Coming t (s.clk + 1700) .beaconTimer { m := m } ∧ ∀ j < (s.vd m.vd).params.n, j ≠ m.member → ∃ at_ q, s.clk < at_ ∧ Coming t at_ .beacon { m := ⟨m.vd, j⟩, pkt := some q } ∧
      q.type = 0x21 ∧ q.smem = m.member ∧ q.addr = BitVec.ofNat 64 (Tab.get 0 (s.member m).clock m.member)) ∧
  (∀ (s : State) (p : Pkt), let m := s.subject.m; s.subject.pkt = some p → p.type = 0x21 → (s.member m).live = true → Happens .beacon s fun t => Quiet s t ∧
    Tab.get 0 (t.member m).clock p.smem = clockMax (Tab.get 0 (s.member m).clock p.smem) p.addr.toNat ∧
    ∀ j, j ≠ p.smem → Tab.get 0 (t.member m).clock j = Tab.get 0 (s.member m).clock j) ∧
  -- RATE_LIMIT_RISE
  (∀ s : State, let o := s.subject; let r := Tab.get lineRate (s.member o.m).rate o.a; let top := decide (r.2 ≤ r.1 + r.2 / 32)
    Tab.get 0 (s.member o.m).echoAt o.a + 3400 ≤ s.clk → r ≠ lineRate →
    Happens .rateLimitRise s fun t => Quiet s t ∧
      Tab.get lineRate (t.member o.m).rate o.a = (if top then lineRate else (r.1 + r.2 / 32, r.2)) ∧ Tab.get 0 (t.member o.m).echoAt o.a = s.clk ∧
      (top = false → Coming t (s.clk + 3400) .rateLimitRise o)) ∧
  -- TICKET_WINDOW_END, TICKET_CALL
  (∀ s : State, let i := s.subject.a; let d := s.die i; Happens .ticketWindowEnd s fun t => Quiet s t ∧ (t.die i).arrivals = 0 ∧ (t.die i).marked = 0 ∧
    Coming t (s.clk + 13600) .ticketWindowEnd s.subject ∧
    (t.die i).ticketMode = if d.arrivals < 2 * d.marked then true else if 8 * d.marked ≤ d.arrivals ∧ d.tickets = [] then false else d.ticketMode) ∧
  (∀ (s : State) (n key : Nat) (rest : Tab Nat) (m : MemberId), let i := s.subject.a; let d := s.die i
    d.tickets = (n, key) :: rest → d.ctx = some m →
    (16384 ≤ d.ingress ∨ s.clk < d.lastCall + 850 → Happens .ticketCall s fun t => Quiet s t ∧ t.dies = s.dies ∧ Coming t (s.clk + 850) .ticketCall s.subject) ∧
    (d.ingress < 16384 → d.lastCall + 850 ≤ s.clk → Happens .ticketCall s fun t => Quiet s t ∧ (t.die i).tickets = rest ∧ (t.die i).lastCall = s.clk ∧
      Sends t m fun q => q.type = 0x0F ∧ q.dmem = (key - 1) % 256))

/-- The current step of a collective is asked for. -/
def Sys2Proof.Machine.StepAsked (t : State) (m : MemberId) (h : Nat) : Prop :=
  ∃ at_ j, (t.member m).job h = some j ∧ Coming t at_ (stepEvent (collStep t m j)) { m := m, a := h }

/-- The collective stands at this progress, and its step is asked for (R330). -/
def Sys2Proof.Machine.Progress (t : State) (m : MemberId) (h : Nat) (c : Coll) : Prop := (∃ j, (t.member m).job h = some j ∧ j.coll = c) ∧ StepAsked t m h

/-- The step has ended: the collective goes on with step n (R330). -/
def Sys2Proof.Machine.Coll.at (c : Coll) (n : Nat) : Coll := { c with step := n, bytes := 0, round := 0, got := [] }
/-- The step has moved n bytes more, and goes on. -/
def Sys2Proof.Machine.Coll.more (c : Coll) (n : Nat) : Coll := { c with bytes := c.bytes + n, got := [] }

/-- n bytes at an engine address lie in the member's own vault, resident, and no reduction is pending there. -/
def Sys2Proof.Machine.OwnVault (s : State) (m : MemberId) (ea n : Nat) (write : Bool) : Prop :=
  ea / 2 ^ 62 = 0 ∧ vaultReach s m ea n write = .ok (vaultKey (s.member m).die ea) s

/-- Of memory, the bytes l from key k are written, and nothing else. -/
def Sys2Proof.Machine.Written (s t : State) (k : Nat) (l : List Byte) : Prop :=
  memBytes t.mem k l.length = l ∧ ∀ x, x < k ∨ k + l.length ≤ x → Tab.get 0 t.mem x = Tab.get 0 s.mem x

/-- A collective has ended aborted (R413, R451): its landing packets are gone, and its OUT fill follows. -/
structure Sys2Proof.Machine.CollAborted (t : State) (m : MemberId) (h : Nat) (c : List Dword) : Prop where
  job : ∃ j, (t.member m).job h = some j ∧ j.card = c ∧ j.aborted = true ∧ j.st = .finishing 0
  fill : Coming t (t.clk + 2) .jobOutFill { m := m, a := h }
  landing : ∀ p ∈ (t.member m).landing, p.cid ≠ cardCid c

/-- The first member to abort tells the process and the other members (R413, R439, R451). -/
def Sys2Proof.Machine.AbortTold (t : State) (m : MemberId) (h : Nat) (j : Job) : Prop :=
  Told t 1 0x09 m.vd [h + 1 + j.coll.step * 65536, cardCid j.card, m.member] ∧
    ∀ i < (t.vd m.vd).params.n, i ≠ m.member → ∃ at_, t.clk < at_ ∧ Coming t at_ .collectiveAbortNotice { m := ⟨m.vd, i⟩, a := cardCid j.card, b := m.member }

/-- An access of the die's copy engines has begun. -/
def Sys2Proof.Machine.EngineAccess (s t : State) (m : MemberId) (kind : AccKind) (ea n : Nat) (now : Bool) : Prop :=
  ∃ a ∈ t.accesses, a.k = ⟨(s.member m).die, 256⟩ ∧ a.ctx = m ∧ a.kind = kind ∧ a.ea = BitVec.ofNat 64 ea ∧ a.size = n ∧
    ∃ at_, ⟨at_, .perform a.id⟩ ∈ t.agenda ∧ (if now then at_ = t.clk ∧ a.rel = true else t.clk < at_)

/-- A datagram of endpoint e has gone out, by one of the ports of its mask that carry anything, to its UDP port (R355, R356); with none, nothing goes. -/
def Sys2Proof.Machine.OnWire (s t : State) (vd : Nat) (e : Endpoint) (kind : Nat) (args : List Nat) : Prop :=
  (∃ p < 16, e.params.ports.testBit p = true ∧ Tab.get false s.platform.ethDown p = false ∧ (s.switch p).down = false) →
  ∃ r ∈ t.reports, r.kind = 9 ∧ r.code = kind ∧ r.vd = vd ∧ r.args = args ∧ r.clk = t.clk ∧ e.params.ports.testBit r.member = true ∧
    Tab.get false s.platform.ethDown r.member = false ∧ (s.switch r.member).down = false ∧ r.core = (if e.params.udpPort = 0 then 20300 else e.params.udpPort)

/-- The next PSN of an endpoint's pair in its own direction (R355). -/
def Sys2Proof.Machine.nextPsn (e : Endpoint) : Nat := (e.psn + 1) % 2 ^ 32

/-- R284, R292, R295, R296, R309, R327 to R332, R357, R413, R450, R451: copy jobs, triggers, port FIFOs and collective programs.  A job joins the engine with the
fewest jobs, issues its chunks in turn every 16 clk, ends at its last boundary and then fills OUT, arrives at its barrier and writes its signal; a trigger
at its threshold starts its job; FIFO elements leave and are fetched in order; each step of a collective does what R330 gives and hands on to the
next, a job with a malformed program or told of an abort ends aborted. -/
def Obligations.JobEvents : Prop :=
  -- JOB_ACTIVATE
  (∀ (s : State) (h x : Nat) (rest : List Nat) (j : Job), let m := s.subject.m; let d := (s.member m).die; let load (e : Nat) : Nat := (Tab.get [] (s.die d).engines e).length
    s.subject.b = 0 → (s.member m).jobOrder = h :: rest → x < 4 → load x < 8 → (s.die d).ctx = some m → (s.member m).job h = some j → ∃ e < 4, (∀ y < 4, load e ≤ load y) ∧
    (cardKind j.card ≠ 2 → Happens .jobActivate s fun t => Quiet s t ∧ (t.member m).job h = some { j with st := .active e } ∧ (t.member m).jobOrder = rest ∧
      Tab.get [] (t.die d).engines e = Tab.get [] (s.die d).engines e ++ [h] ∧ Coming t (s.clk + 1) .chunkIssue { m := m, a := e } ∧
      (rest ≠ [] → Coming t s.clk .jobActivate { m := m })) ∧
    (cardKind j.card = 2 → prevDone s j = false → Happens .jobActivate s fun t => Quiet s t ∧ (t.member m).job h = some { j with st := .active e } ∧
      (t.member m).jobOrder = rest ∧ Coming t (s.clk + 8) .jobActivate { m := m, b := h + 1 }) ∧
    (cardKind j.card = 2 → prevDone s j = true → (∀ n ∈ (s.member m).notices, n.1 ≠ cardCid j.card) →
      progOk (s.vd m.vd).params.n j.card (stepWord s m j.card) 4097 0 [] [] = true →
      Happens .jobActivate s fun t => Quiet s t ∧ (t.member m).job h = some { j with st := .active e } ∧ (t.member m).jobOrder = rest ∧ StepAsked t m h) ∧
    (cardKind j.card = 2 → prevDone s j = true → (∀ n ∈ (s.member m).notices, n.1 ≠ cardCid j.card) →
      progOk (s.vd m.vd).params.n j.card (stepWord s m j.card) 4097 0 [] [] = false →
      Happens .jobActivate s fun t => Quiet s t ∧ CollAborted t m h j.card ∧ AbortTold t m h j)) ∧
  (∀ (s : State) (h e : Nat) (j : Job), let m := s.subject.m
    s.subject.b = h + 1 → (s.member m).job h = some j → cardKind j.card = 2 → j.st = .active e → j.aborted = false → (s.die (s.member m).die).ctx = some m →
    prevDone s j = true → (∀ n ∈ (s.member m).notices, n.1 ≠ cardCid j.card) →
    (progOk (s.vd m.vd).params.n j.card (stepWord s m j.card) 4097 0 [] [] = true →
      Happens .jobActivate s fun t => Quiet s t ∧ t.members = s.members ∧ StepAsked t m h) ∧
    (progOk (s.vd m.vd).params.n j.card (stepWord s m j.card) 4097 0 [] [] = false →
      Happens .jobActivate s fun t => Quiet s t ∧ CollAborted t m h j.card ∧ AbortTold t m h j)) ∧
  -- CHUNK_ISSUE
  (∀ (s : State) (h : Nat) (j : Job), let m := s.subject.m; let e := s.subject.a; let d := (s.member m).die; let l := Tab.get [] (s.die d).engines e
    (s.die d).ctx = some m → l.find? (fun h => ((s.member m).job h).any fun j => chunkReady s m j && !ticketWait s m j) = some h → (s.member m).job h = some j →
    j.packet = none →
    (∀ ea, ticketNeed s m j = none → cardSrc m.member j.card (4096 * j.issued) = some ea → Happens .chunkIssue s fun t => Quiet s t ∧
      (t.member m).job h = some { j with issued := j.issued + 1, inflight := j.inflight ++ [j.issued] } ∧ (∃ a b, l = a ++ h :: b ∧ h ∉ a ∧ Tab.get [] (t.die d).engines e = b ++ a ++ [h]) ∧
      EngineAccess s t m (.chunk h j.issued) ea (chunkLen j.card j.issued) false ∧ Coming t (s.clk + 16) .chunkIssue { m := m, a := e }) ∧
    (∀ ep, ticketNeed s m j = none → cardSrc m.member j.card (4096 * j.issued) = none → s.endpoint m.vd (bitsN (cardSaddr j.card) 51 44) = some ep → ep.unreachable = false → h < 256 →
      Happens .chunkIssue s fun t => Quiet s t ∧
        (t.member m).job h = some { j with issued := j.issued + 1, inflight := j.inflight ++ [j.issued], unacked := j.unacked ++ [2 ^ 32 + j.issued] } ∧
        OnWire s t m.vd ep 2 [ep.pair, (ep.psn + 1) % 2 ^ 32, bitsN (cardSaddr j.card) 43 0 + 4096 * j.issued, m.member * 256 + h, chunkLen j.card j.issued, 0]) ∧
    (∀ p, ticketNeed s m j = some (p, 0) → Happens .chunkIssue s fun t => Quiet s t ∧ (t.member m).job h = some j ∧ Tab.get 0 (t.member m).tickets p = 1 ∧
      (Sends t m fun q => q.type = 0x0E ∧ q.dmem = p) ∧ Coming t (s.clk + 8) .chunkIssue { m := m, a := e }) ∧
    (∀ p n ea, ticketNeed s m j = some (p, n + 2) → cardSrc m.member j.card (4096 * j.issued) = some ea → Happens .chunkIssue s fun t => Quiet s t ∧
      (∃ j', (t.member m).job h = some j' ∧ j'.issued = j.issued + 1) ∧ EngineAccess s t m (.chunk h j.issued) ea (chunkLen j.card j.issued) false ∧
      Tab.get 0 (t.member m).tickets p = (if n + 2 < 4098 then 0 else n + 2 - 4096))) ∧
  (∀ (s : State) (h : Nat) (j : Job), let m := s.subject.m; let e := s.subject.a; let d := (s.member m).die; let l := Tab.get [] (s.die d).engines e
    (s.die d).ctx = some m → l.find? (fun h => ((s.member m).job h).any fun j => chunkReady s m j && !ticketWait s m j) = none →
    h ∈ l → (s.member m).job h = some j → j.issued < cardChunks j.card → j.inflight.length < 4 → prevDone s j = false ∨ chunkReady s m j = true →
    Happens .chunkIssue s fun t => Quiet s t ∧ t.members = s.members ∧ t.dies = s.dies ∧ Coming t (s.clk + 8) .chunkIssue { m := m, a := e }) ∧
  -- CHUNK_BOUNDARY
  (∀ (s : State) (j : Job), let m := s.subject.m; let h := s.subject.a; let fl := j.inflight.filter fun x => decide (x ≠ s.subject.b)
    (s.member m).job h = some j → cardKind j.card ≠ 2 → s.subject.b ∈ j.inflight → chunkQuiet s m h s.subject.b = true →
    (fl ≠ [] ∨ j.issued ≠ cardChunks j.card ∧ j.withdrawn = false ∧ j.aborted = false → Happens .chunkBoundary s fun t => Quiet s t ∧
      (t.member m).job h = some { j with inflight := fl, done := (if j.aborted then j.done else fl.foldl min j.issued), steps := j.steps + 1 } ∧
      ∀ e, j.st = .active e → Coming t s.clk .chunkIssue { m := m, a := e }) ∧
    (∀ e, fl = [] → j.issued = cardChunks j.card → cardDsp j.card ≠ 2 → j.st = .active e → Happens .chunkBoundary s fun t => t.clk = s.clk ∧ t.cores = s.cores ∧ t.fe = s.fe ∧ (j.aborted = false → t.mem = s.mem) ∧
      (∃ j', (t.member m).job h = some j' ∧ j'.st = .finishing 0 ∧ j'.card = j.card ∧ j'.done = (if j.aborted then j.done else j.issued)) ∧
      h ∉ Tab.get [] (t.die (s.member m).die).engines e ∧ h ∉ (t.member m).jobOrder ∧ Coming t (s.clk + 2) .jobOutFill { m := m, a := h })) ∧
  -- JOB_OUT_FILL, JOB_BARRIER_ARRIVAL, JOB_SIGNAL_WRITE
  (∀ (s : State) (j : Job), let m := s.subject.m; let h := s.subject.a; let far (va : Nat) : Nat := if cardCmem j.card = m.member then va else 3 * 2 ^ 62 + cardCmem j.card * 2 ^ 52 + va
    (s.member m).job h = some j →
    (j.st = .finishing 0 → Happens .jobOutFill s fun t => Quiet s t ∧ (t.member m).job h = some { j with st := .finishing 1 } ∧
      match cardOut j.card with
      | some w => EngineAccess s t m (.fill (if j.withdrawn || j.aborted then 0x200 else BitVec.ofNat 64 (0x100 + j.summary.getD 0)) (2 * h + 2)) (far w) 8 true
      | none => Coming t s.clk .jobBarrierArrival { m := m, a := h }) ∧
    (j.st = .finishing 1 → Happens .jobBarrierArrival s fun t => Quiet s t ∧ (t.member m).job h = some { j with st := .finishing 2 } ∧
      if cardBv j.card then EngineAccess s t m (.bar .arr (BitVec.ofNat 64 (cardLen j.card))) (far (cardBaddr j.card)) 16 true
      else Coming t s.clk .jobSignalWrite { m := m, a := h }) ∧
    (j.st = .finishing 2 → cardSv j.card = false → Happens .jobSignalWrite s fun t => Quiet s t ∧ (t.member m).job h = none ∧ ∀ d ∈ (t.member m).decls, d.owner ≠ .job h) ∧
    (j.st = .finishing 3 → Happens .jobSignalWrite s fun t => Quiet s t ∧ (t.member m).job h = none ∧ ∀ d ∈ (t.member m).decls, d.owner ≠ .job h) ∧
    (j.st = .finishing 2 → cardSv j.card = true → awayEa s m (2 ^ 62 + cardSadr j.card) = true → Happens .jobSignalWrite s fun t => Quiet s t ∧
      (t.member m).job h = some { j with st := .finishing 3 } ∧
      EngineAccess s t m (.sig (if j.aborted then 0xFFFFFFFFFFFFFFFE else cardSval j.card)) (2 ^ 62 + cardSadr j.card) 8 true) ∧
    (∀ l, j.st = .finishing 2 → cardSv j.card = true → awayEa s m (2 ^ 62 + cardSadr j.card) = false → cardSadr j.card % 8 = 0 → strikeAt s m.vd (cardSadr j.card) = none →
      vaLoc s m.vd (cardSadr j.card) true = .ok l → OffTables s m.vd l.key 8 →
      Happens .jobSignalWrite s fun t => t.cores = s.cores ∧ (t.member m).job h = none ∧ (∀ d ∈ (t.member m).decls, d.owner ≠ .job h) ∧
        memNat t.mem l.key 8 = (if j.aborted then 0xFFFFFFFFFFFFFFFE else (cardSval j.card).toNat) ∧
        Tab.get 0 (t.member m).clock m.member = (Tab.get 0 (s.member m).clock m.member + 1) % 2 ^ 32)) ∧
  -- the fill of OUT at its word: with it the job's registration as the word's producer ends
  (∀ (s : State) (a : Access) (v : Dword) (h : Nat), let va := eaAddr a.ea; let key := vaultKey a.k.die va
    s.access a.id = some a → a.k = ⟨(s.member a.ctx).die, 256⟩ → a.kind = .fill v (2 * h + 2) → a.st = .travel → eaSpace a.ea = 0 →
    vaultOk s a.ctx va (max a.size 1) = true → waitFirst s a va = none → (s.die a.k.die).merges = [] → Tab.get false s.fe key = false →
    Tab.get [] (s.die a.k.die).queues va = [] →
    let t := performId s a.id
    memDword t.mem key = v ∧ Tab.get false t.fe key = true ∧ Coming t s.clk .jobBarrierArrival { m := a.ctx, a := h } ∧
      ∀ p ∈ (t.member a.ctx).producers, ¬(p.word = va ∧ p.member = a.member ∧ p.owner = .job h)) ∧
  -- TRIGGER_FIRE
  (∀ (s : State) (tr : Trigger), let m := s.subject.m; let i := s.subject.a
    Tab.get none (s.member m).triggers i = some tr → tr.fired = true ∨ tr.threshold.toNat ≤ (wordOf s m tr.counter).toNat →
    (∀ h, lowestFree (s.member m).jobs 256 = some h → Happens .triggerFire s fun t => Quiet s t ∧ Tab.get none (t.member m).triggers i = none ∧
      ∃ j, (t.member m).job h = some j ∧ j.card = tr.card.take 8 ∧ j.prev = tr.prev ∧ j.issued = 0) ∧
    (lowestFree (s.member m).jobs 256 = none → Happens .triggerFire s fun t => Quiet s t ∧ t.agenda = s.agenda ∧ (t.member m).jobs = (s.member m).jobs ∧
      Tab.get none (t.member m).triggers i = some { tr with fired := true })) ∧
  -- FIFO_OUT_TRANSFER: to a peer core, to memory
  (∀ (s : State) (e : FifoElem) (rest : List FifoElem) (m : MemberId), let k := s.subject.k; let i := s.subject.a; let f := (s.core k).fifo i
    let pm := fifoMember s m f; let pk : CoreId := ⟨(s.member ⟨m.vd, pm⟩).die, f.pcore⟩; let pf := (s.core pk).fifo i
    let room := pf.kind = 1 ∧ pf.esz = f.esz ∧ pf.inn.length + pf.asked < 16 ∧ (s.ctx pk).isSome = true ∧ (pm = m.member ∨ (s.member m).snuffed = false)
    f.out = e :: rest → s.ctx k = some m →
    (f.kind = 1 → room → Happens .fifoOutTransfer s fun t => t.mem = s.mem ∧ ((t.core k).fifo i).out = rest ∧ ((t.core pk).fifo i).asked = pf.asked + 1 ∧
      (∀ j, coreKey j ≠ coreKey k → coreKey j ≠ coreKey pk → t.core j = s.core j) ∧ (rest ≠ [] → Coming t (s.clk + 1) .fifoOutTransfer s.subject) ∧
      let Q (q : Pkt) : Prop := q.type = 0x08 ∧ q.dmem = pm ∧ q.addr = BitVec.ofNat 64 f.pcore ∧ q.opx = i ∧ q.data = (vecBytes e.v).take f.esz
      if pm = m.member then ∃ q, Q q ∧ Coming t (s.clk + 8 + 2 * hops k.core f.pcore) .fifoPacket { m := m, pkt := some q } else Sends t m Q) ∧
    (f.kind = 1 → ¬room → Happens .fifoOutTransfer s fun t => Quiet s t ∧ Coming t (s.clk + 1) .fifoOutTransfer s.subject) ∧
    (f.kind = 2 → (∀ a, s.access e.acc = some a → a.k = k ∧ a.size = f.esz) → Happens .fifoOutTransfer s fun t => t.mem = s.mem ∧ ((t.core k).fifo i).out = rest ∧ ((t.core k).fifo i).n = f.n + 1 ∧
      (∀ j, coreKey j ≠ coreKey k → t.core j = s.core j) ∧ (rest ≠ [] → Coming t (s.clk + 1) .fifoOutTransfer s.subject) ∧
      ∃ a ∈ t.accesses, a.k = k ∧ a.kind = .store ((vecBytes e.v).take f.esz) ∧ a.ea = BitVec.ofNat 64 (fifoEa s m f f.n) ∧ a.size = f.esz)) ∧
  -- FIFO_LOAD_FETCH
  (∀ (s : State) (m : MemberId), let k := s.subject.k; let i := s.subject.a; let f := (s.core k).fifo i
    s.ctx k = some m → f.kind = 3 → f.inn.length + f.asked < 16 → f.count = 0 ∨ f.n < f.count →
    let held := (s.member m).snuffed && (decide (fifoEa s m f f.n / 2 ^ 62 = 3) || awayVa s m (fifoEa s m f f.n))
    (held = true → Happens .fifoLoadFetch s fun t => Quiet s t ∧ Coming t (s.clk + 1) .fifoLoadFetch s.subject) ∧
    (held = false → Happens .fifoLoadFetch s fun t => t.mem = s.mem ∧ (t.core k).fifo i = { f with n := f.n + 1, asked := f.asked + 1 } ∧ (∀ j, coreKey j ≠ coreKey k → t.core j = s.core j) ∧
      Coming t (s.clk + 1) .fifoLoadFetch s.subject ∧
      ∃ a ∈ t.accesses, a.k = k ∧ a.kind = .fifoLoad i f.n f.esz ∧ a.ea = BitVec.ofNat 64 (fifoEa s m f f.n) ∧ a.size = f.esz)) ∧
  -- STEP_END
  (∀ (s : State) (h : Nat) (j : Job) (w : StepWord), let m := s.subject.m; stepOf s 0 = some (h, j, w) →
    (chunkQuiet s m h 0 = true → Happens .stepEnd s fun t => Quiet s t ∧ (t.member m).job h = some { j with st := .finishing 0 } ∧ Coming t (s.clk + 2) .jobOutFill { m := m, a := h }) ∧
    (chunkQuiet s m h 0 = false → Happens .stepEnd s fun t => t = s)) ∧
  -- STEP_SEND
  (∀ (s : State) (h : Nat) (j : Job) (w : StepWord), let m := s.subject.m; let c := j.card; let n := (s.vd m.vd).params.n; let peer := j.coll.peers.getD w.pr 0
    let total := stepTotal n c w; let o := stepOffset n m.member c w (j.coll.k.getD w.ctr 0) j.coll.bytes; let k := min (min 256 o.2) (total - j.coll.bytes)
    let ea := bufEa m c (w.sb || decide (w.mode = 3)) ((stepArea n c w.mode).2.1 + o.1); let msg := Tab.get 0 j.coll.sendMsg peer
    stepOf s 1 = some (h, j, w) → peer ≠ m.member → (s.member m).snuffed = false → chunkQuiet s m h 0 = true → dataHeld s m (cardCid c) = false →
    let ended : Coll := { (j.coll.at (j.coll.step + 1)) with sendMsg := Tab.put 0 j.coll.sendMsg peer (msg + 1) }
    (total ≤ j.coll.bytes → Happens .stepSend s fun t => Quiet s t ∧ Progress t m h ended) ∧
    (j.coll.bytes < total → OwnVault s m ea k false →
    poisoned s (vaultKey (s.member m).die ea) k = false →
    Happens .stepSend s fun t => Quiet s t ∧
      (Sends t m fun q => q.type = 0x09 ∧ q.vc = 3 ∧ q.dmem = peer ∧ q.cid = cardCid c ∧ q.data = toWire w.mode (cardEtype c) (memBytes s.mem (vaultKey (s.member m).die ea) k) ∧
        q.addr = BitVec.ofNat 64 ((if w.db || decide (w.mode = 3) then 2 ^ 63 else 0) + msg % 2 ^ 15 * 2 ^ 48 + o.1 % 2 ^ 40)) ∧
      Progress t m h (if total ≤ j.coll.bytes + k ∧ dataHeld t m (cardCid c) = false then ended else j.coll.more k))) ∧
  (∀ (s : State) (h : Nat) (j : Job) (w : StepWord), let m := s.subject.m; stepOf s 1 = some (h, j, w) → j.coll.peers.getD w.pr 0 = m.member →
    Happens .stepSend s fun t => Quiet s t ∧ CollAborted t m h j.card ∧ AbortTold t m h j) ∧
  -- STEP_RECV, STEP_RRS, STEP_RRD
  (∀ (s : State) (h code : Nat) (j : Job) (w : StepWord) (p : Pkt), let m := s.subject.m; let c := j.card; let n := (s.vd m.vd).params.n; let peer := j.coll.peers.getD w.pr 0
    let x := fromWire w.mode (cardEtype c) p.data; let ea := bufEa m c (bitN p.addr.toNat 63) ((stepArea n c w.mode).2.1 + bitsN p.addr.toNat 39 0)
    let k := vaultKey (s.member m).die ea; let new := modeReduce w.mode (cardEtype c) (cardRop c) (memBytes s.mem k x.length) x
    let up (fwd : Option Nat) : Coll := if p.mlen ≤ j.coll.bytes + x.length then
        { (j.coll.at (j.coll.step + 1)) with recvMsg := Tab.put 0 j.coll.recvMsg peer (Tab.get 0 j.coll.recvMsg peer + 1),
                                             sendMsg := match fwd with | some q => Tab.put 0 j.coll.sendMsg q (Tab.get 0 j.coll.sendMsg q + 1) | none => j.coll.sendMsg }
      else j.coll.more x.length
    let taken (t : State) : Prop := t.clk = s.clk ∧ t.cores = s.cores ∧ p ∉ (t.member m).landing ∧ (t.member m).received = (s.member m).received + (if p.counted then 0 else 1)
    stepOf s code = some (h, j, w) → peer ≠ m.member → nextCdata (s.member m) (cardCid c) peer (Tab.get 0 j.coll.recvMsg peer) = some p → chunkQuiet s m h 0 = true →
    (code = 2 → OwnVault s m ea x.length true → Happens .stepRecv s fun t => taken t ∧ Written s t k x ∧ Progress t m h (up none)) ∧
    (code = 4 → OwnVault s m ea x.length false → poisoned s k x.length = false → OwnVault s m ea new.length true →
      Happens .stepRrd s fun t => taken t ∧ Written s t k new ∧ Progress t m h (up none)) ∧
    (∀ q, code = 3 → q = j.coll.peers.getD w.ps 0 → q ≠ m.member → (s.member m).snuffed = false → OwnVault s m ea x.length false → poisoned s k x.length = false →
      OwnVault s m ea new.length true → Happens .stepRrs s fun t => taken t ∧ Written s t k new ∧ Progress t m h (up (some q)) ∧
        Sends t m fun r => r.type = 0x09 ∧ r.dmem = q ∧ r.cid = cardCid c ∧ r.data = toWire w.mode (cardEtype c) new)) ∧
  -- STEP_COPY: what a piece is, plain and with the exponent table, and the step
  (∀ (s : State) (m : MemberId) (h : Nat) (c : List Dword) (w : StepWord) (off n : Nat),
    let src := bufEa m c w.sb (if w.mode = 2 then off / 256 * 256 else off); let k := if w.mode = 2 then min 256 (cardLen c - off / 256 * 256) else n
    OwnVault s m src k false → poisoned s (vaultKey (s.member m).die src) k = false → let l := memBytes s.mem (vaultKey (s.member m).die src) k
    (w.mode = 0 → copyPiece s m h c w off n = .ok (off, l) s) ∧
    (w.mode = 2 → copyPiece s m h c w off n = .ok (cardLen c + off / 256 * 4, toBytes 4 (groupEntry (words32 l))) s)) ∧
  (∀ (s s1 : State) (h : Nat) (j : Job) (w : StepWord) (p : Nat × List Byte), let m := s.subject.m; let c := j.card; let n := (s.vd m.vd).params.n; let total := stepTotal n c w
    let o := stepOffset n m.member c w (j.coll.k.getD w.ctr 0) j.coll.bytes; let k := min (min (256 - o.1 % 256) o.2) (total - j.coll.bytes)
    let dst := bufEa m c (w.db || decide (w.mode = 2)) p.1
    stepOf s 5 = some (h, j, w) → chunkQuiet s m h 0 = true → copyPiece s m h c w o.1 k = .ok p s1 → s1.members = s.members → OwnVault s1 m dst p.2.length true →
    Happens .stepCopy s fun t => t.clk = s1.clk ∧ t.cores = s1.cores ∧ Written s1 t (vaultKey (s.member m).die dst) p.2 ∧
      Progress t m h (if total ≤ j.coll.bytes + k then j.coll.at (j.coll.step + 1) else j.coll.more k)) ∧
  -- STEP_WAIT, STEP_SIGNAL
  (∀ (s : State) (h : Nat) (j : Job) (w : StepWord), let m := s.subject.m; stepOf s 6 = some (h, j, w) →
    (collUnacked s m h j = true → Happens .stepWait s fun t => t = s) ∧
    (collUnacked s m h j = false → Happens .stepWait s fun t => Quiet s t ∧ Progress t m h (j.coll.at (j.coll.step + 1)))) ∧
  (∀ (s : State) (h : Nat) (j : Job) (w : StepWord), let m := s.subject.m; let va := bitsN w.lo 61 32
    stepOf s 7 = some (h, j, w) → collUnacked s m h j = false → j.coll.bytes = 0 → OwnVault s m va 8 true → Happens .stepSignal s fun t => t.clk = s.clk ∧ t.cores = s.cores ∧
      Written s t (vaultKey (s.member m).die va) (toBytes 8 (w.lo % 2 ^ 32)) ∧ Progress t m h (j.coll.at (j.coll.step + 1)) ∧
      Tab.get 0 (t.member m).clock m.member = (Tab.get 0 (s.member m).clock m.member + 1) % 2 ^ 32) ∧
  -- STEP_LOOP, STEP_ENDL, STEP_PEER
  (∀ (s : State) (h code : Nat) (j : Job) (w : StepWord), let m := s.subject.m; let k := j.coll.k.getD w.ctr 0; stepOf s code = some (h, j, w) →
    (code = 8 → Happens .stepLoop s fun t => Quiet s t ∧
      Progress t m h { (j.coll.at (j.coll.step + 1)) with k := j.coll.k.set w.ctr 0, lim := j.coll.lim.set w.ctr (w.lo % 2 ^ 32) }) ∧
    (code = 9 → Happens .stepEndl s fun t => Quiet s t ∧
      Progress t m h { (j.coll.at (if k + 1 < j.coll.lim.getD w.ctr 0 then w.lo % 65536 else j.coll.step + 1)) with k := j.coll.k.set w.ctr (k + 1) }) ∧
    (code = 0xA → Happens .stepPeer s fun t => Quiet s t ∧
      Progress t m h { (j.coll.at (j.coll.step + 1)) with
        peers := j.coll.peers.set w.pr (((m.member : Int) + sgn 8 w.aF * (k : Int) + w.cF) % (max (s.vd m.vd).params.n 1 : Nat)).toNat })) ∧
  -- STEP_BAR: a round's token leaves, its token comes, the last round is over
  (∀ (s : State) (h : Nat) (j : Job) (w : StepWord), let m := s.subject.m; let n := (s.vd m.vd).params.n; let i := j.coll.round
    stepOf s 0xB = some (h, j, w) →
    (i < barRounds n → j.coll.bytes = 0 → (i = 0 → collUnacked s m h j = false) → (s.member m).snuffed = false → Happens .stepBar s fun t => Quiet s t ∧
      Progress t m h { j.coll with bytes := 1 } ∧ Sends t m fun q => q.type = 0x10 ∧ q.vc = 3 ∧ q.dmem = (m.member + 2 ^ i) % n ∧ q.cid = cardCid j.card ∧ q.addr = BitVec.ofNat 64 i) ∧
    (∀ p, i < barRounds n → j.coll.bytes ≠ 0 →
      (s.member m).landing.find? (fun p => decide (p.type = 0x10 ∧ p.cid = cardCid j.card ∧ p.addr.toNat = i ∧ p.smem = (m.member + n - 2 ^ i % n) % n)) = some p →
      Happens .stepBar s fun t => Quiet s t ∧ p ∉ (t.member m).landing ∧ (t.member m).received = (s.member m).received + (if p.counted then 0 else 1) ∧
        Progress t m h { j.coll with bytes := 0, round := i + 1 }) ∧
    (barRounds n ≤ i → (i = 0 → j.coll.bytes = 0 → collUnacked s m h j = false) → Happens .stepBar s fun t => Quiet s t ∧ Progress t m h (j.coll.at (j.coll.step + 1)) ∧
      Tab.get 0 (t.member m).clock m.member = (Tab.get 0 (s.member m).clock m.member + 1) % 2 ^ 32)) ∧
  -- COLLECTIVE_ABORT_NOTICE
  (∀ (s : State), let o := s.subject
    let mine (e : Nat × Option Job) : Bool := match e.2 with | some j => decide (cardKind j.card = 2 ∧ cardCid j.card = o.a) && (jobEngine j).isSome | none => false
    (s.member o.m).live = true →
    (∀ h j, (s.member o.m).jobs.find? mine = some (h, some j) → Happens .collectiveAbortNotice s fun t => Quiet s t ∧ CollAborted t o.m h j.card ∧
      (o.c ≠ 0 → AbortTold t o.m h j) ∧ (o.c = 0 → t.reports = s.reports)) ∧
    ((s.member o.m).jobs.find? mine = none → Happens .collectiveAbortNotice s fun t => Quiet s t ∧ t.agenda = s.agenda ∧
      (t.member o.m).notices = (s.member o.m).notices ++ [(o.a, o.b)]))

/-- Requests are served (R373, R379, R474). -/
def Sys2Proof.Machine.Serving (s : State) : Prop := s.platform.boot = 7 ∧ s.platform.frozen = false ∧ s.platform.stopped = false

/-- The address of a VD's global space that a host access of the subject reaches (R352, R358). -/
def Sys2Proof.Machine.HostReaches (s : State) (va : Nat) : Prop :=
  let o := s.subject; let v := s.vd o.a
  o.b = 2 ∧ o.c < 2 ^ 32 ∧ va = v.bar2 + o.c ∨ o.b = 0 ∧ o.c < 4096 * v.params.n ∧ o.c < 2 ^ 21 ∧ va = v.queueVa + o.c ∨
    o.b = 0 ∧ 4096 * v.params.n ≤ o.c ∧ 0x100000 ≤ o.c ∧ o.c < 0x101000 ∧ va = v.strikeVa + o.c - 0x100000

/-- A host port serves accesses: the part has booted and has not stopped, and some port is up (R352, R373, R468, R474). -/
def Sys2Proof.Machine.HostUp (s : State) : Prop :=
  s.platform.boot = 7 ∧ s.platform.stopped = false ∧ ∃ i < 4, Tab.get false s.platform.hostPorts i = false

/-- The subject's call is served now: its message is the first of its wick's mailbox, or the wick is one that takes none (R209, R367). -/
abbrev Sys2Proof.Machine.AtWick (s : State) : Prop := s.subject.b = 0 ∧ (8 ≤ s.subject.a ∨ atHead s s.subject.a s.subject.c = true)

/-- R72, R209, R210, R352, R358, R368 to R372, R405, R470, R472, R478: requests to the firmware and from the host.  A VD is made as its parameters say, or refused; reset
kills it, leaves its dies and clears its run-time state; destruction also zeroes and releases its pages; a vault image goes to the vault, or to the
save area of a member off its die; a schedule takes effect at the next slot boundary; a VD that moves leaves stubs, which forward until they expire;
a firmware call answers or raises cause 0x13; the host reads, writes and strikes through its BARs, reads the capability list and sends messages to the
wicks.  The model's own (log 56): what a wick answers to a message of the host, the offset of a mailbox, and the 1 clk retries. -/
def Obligations.FirmwareEvents : Prop :=
  -- VD_CREATE
  (∀ (s : State) (p : VdParams), s.subject.vd = some p →
    (¬Serving s ∨ s.platform.erased = true ∨ paramsBad s p = true ∨ chooseDies s p = none → Happens .vdCreate s fun t => Quiet s t ∧ t.vds = s.vds ∧ t.members = s.members ∧
      t.gc = s.gc ∧ Told t 8 1 0 []) ∧
    (∀ dies vd gang vf, Serving s → s.platform.erased = false → paramsBad s p = false → chooseDies s p = some dies →
      lowestNot (fun i => (s.vd i).live) 1 65535 = some vd → lowestNot (fun i => s.vds.any fun e => e.2.live && decide (e.2.gang = i)) 0 65536 = some gang →
      lowestNot (fun i => s.vds.any fun e => e.2.live && decide (e.2.vf = i)) (256 * pkgOf (dies.headD 0) + 1) 255 = some vf →
      Happens .vdCreate s fun t => t.clk = s.clk ∧ t.cores = s.cores ∧ (∀ n, n ≠ vd → t.vd n = s.vd n) ∧ Told t 8 0 vd [gang, vf % 256, (t.vd vd).queueVa, (t.vd vd).strikeVa] ∧
        (s.vd vd).live = false ∧ (t.vd vd).live = true ∧ (t.vd vd).params = p ∧ (t.vd vd).gang = gang ∧ (t.vd vd).vf = vf ∧ (t.vd vd).dies = dies ∧ (t.vd vd).state = .running ∧
        (t.vd vd).keyNo = (s.vd vd).keyNo + 1 ∧ (∀ w, Tab.get 0 (t.switch w).sent gang = 0 ∧ Tab.get 0 (t.switch w).received gang = 0) ∧
        (∀ i < p.n, ∃ no, t.member ⟨vd, i⟩ = { Member.blank with live := true, die := dies.getD i 0, localNo := no }) ∧
        (∀ i, p.homeSlot = some i → ∀ d ∈ dies, cellOf t i d = .home vd) ∧ (p.homeSlot = none ∨ p.backfill = true → vd ∈ t.gc.backfill))) ∧
  -- VD_RESET, VD_DESTROY
  (∀ s : State, let n := s.subject.a; (s.vd n).live = true →
    ((s.vd n).state ≠ .killed → (Happens .vdReset s fun t => t.mem = s.mem ∧ (t.vd n).state = .killed ∧ Coming t (s.clk + 850) .vdReset { a := n }) ∧
      Happens .vdDestroy s fun t => t.mem = s.mem ∧ (t.vd n).state = .killed ∧ Coming t (s.clk + 850) .vdDestroy { a := n }) ∧
    ((s.vd n).state = .killed → onDies s n = true → (Happens .vdReset s fun t => Quiet s t ∧ t.vds = s.vds ∧ Coming t (s.clk + 850) .vdReset { a := n }) ∧
      Happens .vdDestroy s fun t => Quiet s t ∧ t.vds = s.vds ∧ Coming t (s.clk + 850) .vdDestroy { a := n }) ∧
    ((s.vd n).state = .killed → onDies s n = false → (Happens .vdReset s fun t => t.clk = s.clk ∧ t.cores = s.cores ∧ (t.vd n).state = .running ∧ (t.vd n).live = true ∧
        (t.vd n).pt = (s.vd n).pt ∧ Told t 2 0x08 n [0xFF, 1, 0] ∧
        ∀ i < (s.vd n).params.n, ∃ pos snt rcv, t.member ⟨n, i⟩ = { Member.blank with
          live := (s.member ⟨n, i⟩).live, die := (s.member ⟨n, i⟩).die, localNo := (s.member ⟨n, i⟩).localNo, parsed := pos, sent := snt, received := rcv }) ∧
      Happens .vdDestroy s fun t => t.clk = s.clk ∧ t.vd n = { VD.blank with keyNo := (s.vd n).keyNo } ∧ (∀ e ∈ t.members, e.1 / 256 ≠ n) ∧ n ∉ t.gc.backfill ∧
        (∀ d, NoTranslation t d n 0 (2 ^ 52)) ∧ (∀ i, (s.vd n).params.homeSlot = some i → ∀ d ∈ (s.vd n).dies, cellOf t i d = .empty) ∧ (∃ pages, Told t 2 0x08 n [0xFF, 2, pages]) ∧
        ((∀ d, (s.die d).merges = []) → ∀ l ∈ leavesOf (s.vd n), ptTgt l.2 < 2 → sharedPage s n l.2 = false → (s.member ⟨n, ptMember l.2⟩).die < 256 → ∀ i < leafBytes l.1,
          Tab.get 0 t.mem ((if ptTgt l.2 = 0 then hbmKey (s.member ⟨n, ptMember l.2⟩).die (ptPa l.2) else tierKey (ptPa l.2)) + i) = 0))) ∧
  -- VAULTLOAD
  (∀ s : State, let o := s.subject; let v := s.vd o.m.vd; let va := o.a * 4194304 + o.b
    ¬Serving s ∨ (s.member o.m).live = false ∨ v.state = .collapsing ∨ v.state = .pilot ∨ o.b % 8 ≠ 0 ∨ o.c % 8 ≠ 0 ∨ o.c = 0 ∨ 255 < o.a ∨ vaultOk s o.m va o.c = false →
    Happens .vaultload s fun t => Quiet s t ∧ Told t 8 1 o.m.vd []) ∧
  (∀ (s s1 : State) (l : List Byte), let o := s.subject; let m := o.m; let v := s.vd m.vd; let va := o.a * 4194304 + o.b; let d := (s.member m).die
    Serving s → (s.member m).live = true → v.state ≠ .collapsing → v.state ≠ .pilot → o.b % 8 = 0 → o.c % 8 = 0 → o.c ≠ 0 → o.a ≤ 255 → vaultOk s m va o.c = true →
    vaRead s m o.v.toNat o.c = .ok (l, s1) →
    ((s1.die d).ctx = some m → (∀ g ∈ rangeGrans va o.c, resident s1 d m g = true) → (s1.die d).merges = [] → Happens .vaultload s fun t => t.clk = s1.clk ∧ t.cores = s1.cores ∧
      Written s1 t (vaultKey d va) l ∧ Told t 8 0 m.vd [] ∧ ∀ g ∈ rangeGrans va o.c, (t.gran d g).res = 2) ∧
    ((s1.die d).ctx ≠ some m → Happens .vaultload s fun t => t.clk = s1.clk ∧ t.cores = s1.cores ∧ memBytes t.mem (saveKey m (granSave (granOf va) + va % 65536)) l.length = l ∧
      Told t 8 0 m.vd [] ∧ ∀ g ∈ rangeGrans va o.c, Tab.get false (t.member m).saved g = true ∧ Tab.get false (t.member m).lost g = false)) ∧
  -- SCHEDULE_CHANGE
  (∀ s : State, let o := s.subject
    let bad : Prop := o.a < 1 ∨ 16 < o.a ∨ o.l.length ≠ o.a ∨ (∃ q ∈ o.l, q < 85000 ∨ 850000000 < q) ∨ ∃ e ∈ s.vds, e.2.live = true ∧ ∃ i, e.2.params.homeSlot = some i ∧ o.a ≤ i
    (bad → Happens .scheduleChange s fun t => Quiet s t ∧ t.gc = s.gc ∧ Told t 8 1 0 []) ∧
    (¬bad → Happens .scheduleChange s fun t => Quiet s t ∧ Told t 8 0 0 [] ∧
      ∃ q, t.gc = { s.gc with pending := some (o.a, q) } ∧ ∀ i < o.a, Tab.get 0 q i = o.l.getD i 0)) ∧
  -- LIVE_MIGRATION
  (∀ s : State, let o := s.subject; let v := s.vd o.a; let life := max (min o.v.toNat 3060000000000) 850000000; v.live = true →
    (o.b = 0 → v.movedTo = none → Serving s → Happens .liveMigration s fun t => Quiet s t ∧ t.vds = s.vds ∧ ∃ at_, s.clk < at_ ∧ Coming t at_ .liveMigration { o with b := 1 }) ∧
    (o.b = 1 → v.movedTo = none → Happens .liveMigration s fun t => Quiet s t ∧
      (t.vd o.a = { v with movedTo := some (o.c, 0) } ∧ Coming t s.clk .liveMigration o ∨ t.vds = s.vds ∧ Told t 2 0x09 o.a [0xFF, 2, o.c])) ∧
    (o.b = 1 → v.movedTo ≠ none → onDies s o.a = true → s.gc.vote.st ≠ .idle → Happens .liveMigration s fun t => Quiet s t ∧ t.vds = s.vds ∧ Coming t (s.clk + 850) .liveMigration o) ∧
    (o.b = 1 → v.movedTo ≠ none → onDies s o.a = false → Happens .liveMigration s fun t => t.clk = s.clk ∧ t.cores = s.cores ∧ t.vds = s.vds ∧
      ∃ at_, s.clk < at_ ∧ Coming t at_ .liveMigration { o with b := 2 }) ∧
    (o.b = 2 → v.movedTo ≠ none → v.stubs = [] → Happens .liveMigration s fun t => t.clk = s.clk ∧
      (t.vd o.a = { v with movedTo := none } ∧ Told t 2 0x09 o.a [0xFF, 3, o.c] ∨
       (t.vd o.a).stubs = (stubPages v).map (fun a => (a, s.clk + life, false)) ∧ (t.vd o.a).movedTo = v.movedTo ∧ (∀ d, NoTranslation t d o.a 0 (2 ^ 52)) ∧
         Coming t (s.clk + life) .stubExpiry { a := o.a } ∧ ∀ i, v.params.homeSlot = some i → ∀ d ∈ v.dies, cellOf t i d = .empty))) ∧
  -- STUB_FORWARD, STUB_EXPIRY
  (∀ (s : State) (p : Nat × Nat), let o := s.subject; (s.vd o.a).movedTo = some p → stubLive (s.vd o.a) o.b = true →
    Happens .stubForward s fun t => Quiet s t ∧ t.agenda = s.agenda ∧ t.vds = s.vds ∧ Told t 11 o.c o.a (p.1 :: o.b :: o.l)) ∧
  (∀ (s : State) (e : Nat × Nat × Bool), let n := s.subject.a; e ∈ (s.vd n).stubs → e.2.1 ≤ s.clk → e.2.2 = false → Happens .stubExpiry s fun t => Quiet s t ∧ t.agenda = s.agenda ∧
    (∀ x ∈ (t.vd n).stubs, x.2.1 ≤ s.clk → x.2.2 = true) ∧ (t.vd n).stubs.map (fun x => (x.1, x.2.1)) = (s.vd n).stubs.map (fun x => (x.1, x.2.1)) ∧
    ∀ x ∈ (s.vd n).stubs, s.clk < x.2.1 → x ∈ (t.vd n).stubs) ∧
  -- SVC_REPLY: a message that is not the first of its mailbox waits; a message of the host is taken, and the memory wick's answer names a granule entry
  (∀ s : State, let o := s.subject; o.b ≠ 1 → o.a < 8 → inBox s o.a o.c = true → atHead s o.a o.c = false →
    Happens .svcReply s fun t => Quiet s t ∧ t.wicks = s.wicks ∧ Coming t (s.clk + 1) .svcReply o) ∧
  (∀ (s : State) (h x : Dword) (rest : List Dword) (more : List (List Dword)), let o := s.subject
    o.b = 2 → o.a < 8 → atHead s o.a o.c = true → s.box o.a = (h :: x :: rest) :: more →
    Happens .svcReply s fun t => Quiet s t ∧ t.agenda = s.agenda ∧ t.box o.a = more ∧
      (o.a = 2 → x.toNat / 2 ^ 32 < 64 → x.toNat % 2 ^ 32 < 12288 →
        let e := Tab.get Granule.none (s.die (x.toNat / 2 ^ 32)).gran (x.toNat % 2 ^ 32); Told t 8 0x202 0 [2, 256 * e.owner + e.res])) ∧
  -- refusals
  (∀ (s : State) (r : Svc), let m := s.subject.m; let k := s.subject.k; let v := s.vd m.vd; let a := r.x1.toNat; let n := r.x2.toNat
    let bad : Prop := a % 4096 ≠ 0 ∨ n % 4096 ≠ 0 ∨ 2 ^ 30 < n ∨ 2 ^ 52 < a + n
    let refused (code : Nat) : Prop := Happens .svcReply s fun t => t.clk = s.clk ∧ t.mem = s.mem ∧ t.vds = s.vds ∧ t.members = s.members ∧
      (∀ j, coreKey j ≠ coreKey k → t.core j = s.core j) ∧ (s.subject.a < 8 → t.box s.subject.a = (s.box s.subject.a).tail) ∧ t.core k = { (s.core k).freeze s.clk with
        svc := none, next := s.clk - (s.core k).frozen, trap := some ⟨.C, 0x13, r.pc, BitVec.ofNat 64 (r.number + code * 2 ^ 32), 0, s.clk⟩ }
    s.ctx k = some m → (s.core k).svc = some r → AtWick s →
    (r.number ∉ [0x2000001, 0x2000002, 0x2000003, 0x3000001] → refused 1) ∧ (r.number = 0x3000001 → r.tl = 0 → refused 2) ∧
    (r.number ∈ [0x2000001, 0x2000002, 0x2000003] → bad → refused 3) ∧
    (r.number = 0x2000001 → ¬bad → v.params.memory * v.params.n < v.memUsed + n → refused 4) ∧
    (r.number = 0x2000001 → ¬bad → v.memUsed + n ≤ v.params.memory * v.params.n → (∃ p ∈ rangePages a n, (findLeaf v p).isSome = true) → refused 5) ∧
    (r.number = 0x2000001 → ¬bad → v.memUsed + n ≤ v.params.memory * v.params.n → (∀ p ∈ rangePages a n, findLeaf v p = none) → backPages m (n / 4096) a s = none → refused 4) ∧
    (r.number = 0x2000002 ∨ r.number = 0x2000003 → ¬bad → (∃ p ∈ rangePages a n, findLeaf v p = none) → refused 5)) ∧
  -- SVC_REPLY: MAP, UNMAP, PROTECT, REPORT
  (∀ (s : State) (r : Svc) (dst : Nat), let m := s.subject.m; let k := s.subject.k; let v := s.vd m.vd; let a := r.x1.toNat; let n := r.x2.toNat
    let good : Prop := a % 4096 = 0 ∧ n % 4096 = 0 ∧ n ≤ 2 ^ 30 ∧ a + n ≤ 2 ^ 52
    let answered (t : State) : Prop := t.clk = s.clk ∧ (∀ j, coreKey j ≠ coreKey k → (t.core j).x = (s.core j).x) ∧ (t.core k).svc = none ∧ (t.core k).readX dst = 0 ∧
      (t.core k).trap = (s.core k).trap ∧ (t.core k).next = s.clk - (s.core k).frozen ∧ (t.core k).frozen = (s.core k).frozen + 1
    s.ctx k = some m → (s.core k).svc = some r → AtWick s → r.dest = .x dst →
    (r.number = 0x2000001 → good → v.memUsed + n ≤ v.params.memory * v.params.n → (∀ p ∈ rangePages a n, findLeaf v p = none) → (backPages m (n / 4096) a s).isSome = true →
      Happens .svcReply s fun t => answered t ∧ (t.vd m.vd).memUsed = v.memUsed + n ∧ ∀ p ∈ rangePages a n, ∃ e, findLeaf (t.vd m.vd) p = some (4, e) ∧ ptW e = true ∧ ptTgt e = 0) ∧
    (r.number = 0x2000002 → good → (∀ p ∈ rangePages a n, ∃ e, findLeaf v p = some (4, e)) →
      (notInvalid s m.vd a n = false → Happens .svcReply s fun t => answered t ∧
        (t.vd m.vd).memUsed = v.memUsed - 4096 * (rangePages a n).countP (counted v) ∧ (∀ d, NoTranslation t d m.vd a (a + n)) ∧
        ∀ p ∈ rangePages a n, findLeaf (t.vd m.vd) p = none) ∧
      (notInvalid s m.vd a n = true → Happens .svcReply s fun t => t.mem = s.mem ∧ t.vds = s.vds ∧ (t.core k).svc = some r ∧ Coming t (s.clk + 1) .svcReply s.subject)) ∧
    (∀ e, r.number = 0x2000003 → good → n = 4096 → findLeaf v a = some (4, e) → bitN e.toNat 3 = false → notInvalid s m.vd a n = false →
      Happens .svcReply s fun t => answered t ∧ t.mem = s.mem ∧ (∀ d, NoTranslation t d m.vd a (a + n)) ∧
        findLeaf (t.vd m.vd) a = some (4, (e &&& ~~~28) ||| (if r.x3.getLsbD 0 then 4 else 0))) ∧
    (r.number = 0x3000001 → r.tl ≠ 0 → Happens .svcReply s fun t => answered t ∧ t.mem = s.mem ∧ t.vds = s.vds ∧ Told t 5 1 m.vd [a])) ∧
  -- HOST_PORT_ACCESS: the capability list in the PF's BAR0, a write there, a message to a wick, and an access that a frozen part refuses
  (∀ s : State, let o := s.subject; o.a = 0 → HostUp s → s.platform.frozen = false → o.b = 0 →
    (∀ (i : Nat) (e : Nat × Nat), [(1, 0), (2, 0), (3, 256), (4, 7), (5, 7), (6, 0x100008), (7, 48), (8, 1)][i]? = some e → o.l = [] → o.c = 0x1000 + 32 * i → o.v = 32 →
      Happens .hostPortAccess s fun t => Quiet s t ∧ Told t 8 0x200 0 ((toBytes 8 (e.1 + 2 ^ 16 + 32 * 2 ^ 32) ++
        toBytes 8 (if i = 7 then 0 else 0x1000 + 32 * (i + 1)) ++ toBytes 8 e.2 ++ toBytes 8 0).map (·.toNat))) ∧
    (o.l ≠ [] → Happens .hostPortAccess s fun t => t = s)) ∧
  (∀ s : State, let o := s.subject; o.a = 0 → HostUp s → s.platform.frozen = false → o.b = 1 → o.c < 8 → o.l.length = 64 →
    ((s.box o.c).length < 32 → Happens .hostPortAccess s fun t => Quiet s t ∧ ∃ msg at_, t.box o.c = s.box o.c ++ [msg] ∧ (msg.headD 0).toNat / 2 ^ 60 = 5 ∧ s.clk < at_ ∧
      Coming t at_ .svcReply { a := o.c, b := 2, c := (msg.headD 0).toNat % 2 ^ 24 }) ∧
    (32 ≤ (s.box o.c).length → Happens .hostPortAccess s fun t => Quiet s t ∧ t.wicks = s.wicks ∧ Coming t (s.clk + 1) .hostPortAccess o)) ∧
  (∀ s : State, let o := s.subject; o.a = 0 ∨ (s.vd o.a).live = true → HostUp s → s.platform.frozen = true →
    Happens .hostPortAccess s fun t => Quiet s t ∧ (if o.l = [] then Told t 8 0x201 o.a [] else Told t 6 0x20 0 [o.a])) ∧
  -- to memory, to a strike page, refused, to a stub, and to the rest of BAR0
  (∀ (s : State) (va : Nat), let o := s.subject; let v := s.vd o.a; let n := o.v.toNat
    o.a ≠ 0 → v.live = true → HostUp s → s.platform.frozen = false →
    (HostReaches s va → (∀ x ∈ v.stubs, x.1 ≠ va / 4096 * 4096) →
      (∀ lv e l, findLeaf v va = some (lv, e) → ptTgt e ≠ 3 → vaLoc s o.a va true = .ok l → o.l ≠ [] → (∀ b ∈ o.l, b < 256) → o.l.length ≤ 4096 - va % 4096 →
        OffTables s o.a l.key o.l.length →
        Happens .hostPortAccess s fun t => t.clk = s.clk ∧ t.cores = s.cores ∧ (memBytes t.mem l.key o.l.length).map (·.toNat) = o.l) ∧
      (∀ lv e l s1, findLeaf v va = some (lv, e) → ptTgt e ≠ 3 → o.l = [] → vaRead s ⟨o.a, 0⟩ va n = .ok (l, s1) →
        Happens .hostPortAccess s fun t => t.mem = s1.mem ∧ t.cores = s1.cores ∧ Told t 8 0x200 o.a (l.map (·.toNat))) ∧
      (∀ lv e, findLeaf v va = some (lv, e) → ptTgt e = 3 → o.l ≠ [] → Happens .hostPortAccess s fun t => Quiet s t ∧ Coming t s.clk .strike { a := ptPa e / 4096 }) ∧
      (∀ lv e, findLeaf v va = some (lv, e) → ptTgt e = 3 → o.l = [] → va % 8 = 0 → n = 8 →
        Happens .hostPortAccess s fun t => Quiet s t ∧ Told t 8 0x200 o.a [(s.vd (ptPa e / 4096)).state.code, 0, 0, 0, 0, 0, 0, 0]) ∧
      (findLeaf v va = none → Happens .hostPortAccess s fun t => Quiet s t ∧ (if o.l = [] then Told t 8 0x201 o.a [] else Told t 6 0x20 0 [o.a]))) ∧
    (HostReaches s va → stubDead v va = false → stubLive v va = true → Happens .hostPortAccess s fun t => Quiet s t ∧
      ∃ l, Coming t s.clk .stubForward { a := o.a, b := va, c := if o.l = [] then 0 else 1, l := l } ∧ ((∀ b ∈ o.l, b < 256) → l = o.l)) ∧
    (o.b = 0 → 4096 * v.params.n ≤ o.c → o.c < 0x100000 ∨ 0x101000 ≤ o.c → o.c < 2 ^ 21 → Happens .hostPortAccess s fun t => Quiet s t ∧ t.vds = s.vds ∧
      (o.l = [] → Told t 8 0x200 o.a (List.replicate n 0))))

/-- A datagram of a kind arrives for endpoint i of a VD, whole and without a mark (R355, R357). -/
structure Sys2Proof.Machine.Arrives (s : State) (kind vd i : Nat) (e : Endpoint) (d : Dgram) : Prop where
  dgram : s.subject.dgram = some d
  kind : d.kind = kind
  pair : endpointOfPair s d.epair = some (vd, i, e)
  endpoint : s.endpoint vd i = some e
  good : d.bad = false
  plain : d.ecn = false
  fresh : s.subject.l = []

/-- It is a new one of its pair, and the VD is not collapsed. -/
def Sys2Proof.Machine.Unseen (s : State) (vd : Nat) (e : Endpoint) (d : Dgram) : Prop :=
  (s.vd vd).state ≠ .pilot ∧ d.psn ∉ e.seen ∧ clockGe e.expect d.psn = false

/-- The acknowledgement of a datagram with this job tag is owed on an endpoint that stood as e: sent at every 64th, else within 10 µs (R357). -/
def Sys2Proof.Machine.AckOwed (s t : State) (vd i : Nat) (e : Endpoint) (job : Nat) : Prop :=
  if 64 ≤ e.owed.length + 1 then t.endpoint vd i = some { e with owed := [], psn := nextPsn e } ∧ OnWire s t vd e 4 [e.pair, nextPsn e, 0, job, 0, e.expect]
  else t.endpoint vd i = some { e with owed := e.owed ++ [job] } ∧
    (e.owed = [] → ∃ at_, t.clk < at_ ∧ at_ ≤ t.clk + 8500 ∧ Coming t at_ .ethAckTimer { a := vd, b := i })

/-- A setup message of endpoint i of a VD has gone out (R356; its layout is the model's, log 50). -/
def Sys2Proof.Machine.SetupSent (s t : State) (vd i : Nat) (e : Endpoint) (pair key : Nat) : Prop :=
  OnWire s t vd e 7 ([pair, 0, 0, 0, 24, 0] ++ (setupData e.params.winLen vd i e.params.peerVd e.params.peerIndex key).map (·.toNat))

/-- The pair has a fresh key: PSNs start again, and what is not acknowledged goes out again under it, but for what has not gone out yet (R355, R357). -/
def Sys2Proof.Machine.Rekeyed (s t : State) (vd i : Nat) (e : Endpoint) : Prop :=
  ∃ l, t.endpoint vd i = some { e with keyNo := e.keyNo + 1, psn := e.unacked.length, seen := [], expect := 0, owed := [], unreachable := false, unacked := l } ∧
    l.length = e.unacked.length ∧ ∀ (j : Nat) (x : Dgram × Nat × Nat), e.unacked[j]? = some x →
      l[j]? = some ({ x.1 with psn := j + 1 }, x.2.1, if x.2.2 = 0 then 0 else t.clk) ∧
      (x.2.2 ≠ 0 → OnWire s t vd e x.1.kind ([x.1.epair, j + 1, x.1.off, x.1.job, x.1.len, x.1.apsn] ++ x.1.data.map (·.toNat))) ∧
      Coming t (t.clk + if x.2.2 = 0 then 850 else 85000) .ethRetransmitTimeout { a := vd, b := i, c := j + 1 }

/-- The whole of a chunk's data is on its way to the job's destination (R292, R357). -/
def Sys2Proof.Machine.ChunkWrites (t : State) (m : MemberId) (h q : Nat) (c : List Dword) (ea : Nat) (l : List Byte) : Prop :=
  ∀ p ∈ chunkPieces 18 ea 0 l.length, ∃ a ∈ t.accesses, a.ctx = m ∧ a.ea = BitVec.ofNat 64 (ea + p.1) ∧ a.size = p.2 ∧
    a.kind = .copyOut h q (if cardKind c = 1 then some (cardRop c) else none) (cardEtype c) ((l.drop p.1).take p.2) ∧ ∃ at_, ⟨at_, .perform a.id⟩ ∈ t.agenda

/-- R354 to R357, R450: the scale-out transport.  An endpoint asks its peer and waits a second; a pair gets a number and a key and can be keyed again; keep-alives go
out every millisecond; WRITE, READ and NOTE act on the window once each and are acknowledged; RDDATA completes a fetch; an ACK frees what it
covers; BUSY, ECHO and the timers do what R357 gives, and after eight transmissions the endpoint is unreachable and its jobs abort.  The model's own (logs 50, 51):
the layout of a setup message and its PSN, which datagrams take a PSN, the job a BUSY names, and the request that sets the flow-controlled priorities. -/
def Obligations.EthernetEvents : Prop :=
  -- ENDPOINT_CREATE, ENDPOINT_SETUP_TIMEOUT
  (∀ (s : State) (p : EndpointParams), s.subject.ep = some p →
    (¬Serving s ∨ endpointBad s p = true ∨ (s.endpoint p.vd p.index).isSome = true → Happens .endpointCreate s fun t => Quiet s t ∧ t.vds = s.vds ∧ Told t 8 1 p.vd [p.index]) ∧
    (Serving s → endpointBad s p = false → s.endpoint p.vd p.index = none → Happens .endpointCreate s fun t => Quiet s t ∧ (∀ n, n ≠ p.vd → t.vd n = s.vd n) ∧
      (∃ e, t.endpoint p.vd p.index = some e ∧ e.params = p ∧ e.up = false ∧ e.psn = 0 ∧ e.unacked = [] ∧ e.rate = (256, 256) ∧ e.expect = 0 ∧
        SetupSent s t p.vd p.index e 0 1) ∧ Coming t (s.clk + 850000000) .endpointSetupTimeout { a := p.vd, b := p.index })) ∧
  (∀ (s : State) (e : Endpoint), let o := s.subject; s.endpoint o.a o.b = some e → e.up = false → e.lastEcho + 850000000 ≤ s.clk →
    Happens .endpointSetupTimeout s fun t => Quiet s t ∧ t.endpoint o.a o.b = none ∧ Told t 8 1 o.a [o.b]) ∧
  -- ETH_PORT_SPLIT
  (∀ s : State, let o := s.subject
    (Serving s → o.a ≤ 15 → o.b ≤ 1 → Happens .ethPortSplit s fun t => Quiet s t ∧ Told t 8 0 0 [o.a] ∧ Tab.get false t.platform.ethSplit o.a = decide (o.b = 1) ∧
      ∀ i, i ≠ o.a → Tab.get false t.platform.ethSplit i = Tab.get false s.platform.ethSplit i) ∧
    (Serving s → o.a ≤ 15 → o.b = 2 → o.c < 256 → (List.range 8).countP o.c.testBit ≤ 2 → Happens .ethPortSplit s fun t => Quiet s t ∧ Told t 8 0 0 [o.a] ∧
      t.platform.ethSplit = s.platform.ethSplit ∧ Tab.get 0 t.platform.ethPfc o.a = o.c ∧ ∀ i, i ≠ o.a → Tab.get 0 t.platform.ethPfc i = Tab.get 0 s.platform.ethPfc i) ∧
    (¬Serving s ∨ 15 < o.a ∨ 2 < o.b ∨ o.b = 2 ∧ (256 ≤ o.c ∨ 2 < (List.range 8).countP o.c.testBit) → Happens .ethPortSplit s fun t => Quiet s t ∧ t.platform = s.platform ∧ Told t 8 1 0 [o.a])) ∧
  -- ETH_SETUP, PAIR_REKEY
  (∀ (s : State) (e : Endpoint) (d : Dgram), let o := s.subject; o.dgram = some d → d.kind = 7 → s.endpoint o.a o.b = some e →
    (d.bad = true → e.up = false → Happens .ethSetup s fun t => Quiet s t ∧ t.endpoint o.a o.b = none ∧ Told t 8 1 o.a [o.b]) ∧
    (d.bad = true → e.up = true → Happens .ethSetup s fun t => Quiet s t ∧ t.vds = s.vds ∧ Told t 6 0x30 0 [d.epair]) ∧
    (d.bad = false → (∀ len key, d.data ≠ setupData len e.params.peerVd e.params.peerIndex o.a o.b key) → Happens .ethSetup s fun t => Quiet s t ∧ t.vds = s.vds ∧
      Told t 6 0x30 0 [d.epair]) ∧
    ∀ len key, d.bad = false → d.data = setupData len e.params.peerVd e.params.peerIndex o.a o.b key → len < 2 ^ 64 → key < 2 ^ 64 →
      (e.up = false → ∃ n, (if d.epair ≠ 0 ∧ endpointOfPair s d.epair = none then n = d.epair else n = s.platform.nextPair) ∧
        Happens .ethSetup s fun t => Quiet s t ∧ t.platform.nextPair = (max n s.platform.nextPair + 1) % 2 ^ 16 ∧
          t.endpoint o.a o.b = some { e with up := true, pair := n, peerLen := len, keyNo := 1, lastEcho := s.clk } ∧ Told t 8 0 o.a [o.b, n, len] ∧
          SetupSent s t o.a o.b e n 1 ∧ Coming t (s.clk + 850000) .ethKeepaliveTimer { a := o.a, b := o.b }) ∧
      (e.up = true → key ≤ e.keyNo → Happens .ethSetup s fun t => Quiet s t ∧ t.agenda = s.agenda ∧ t.endpoint o.a o.b = some { e with peerLen := len }) ∧
      (e.up = true → e.keyNo < key → Happens .ethSetup s fun t => Quiet s t ∧ Rekeyed s t o.a o.b { e with peerLen := len })) ∧
  (∀ (s : State) (e : Endpoint), let o := s.subject; s.endpoint o.a o.b = some e → e.up = true →
    Happens .pairRekey s fun t => Quiet s t ∧ Rekeyed s t o.a o.b e ∧ SetupSent s t o.a o.b e e.pair (e.keyNo + 1)) ∧
  -- ETH_KEEPALIVE_TIMER, ETH_KEEP
  (∀ (s : State) (e : Endpoint), let o := s.subject; s.endpoint o.a o.b = some e → e.up = true →
    Happens .ethKeepaliveTimer s fun t => Quiet s t ∧ t.endpoint o.a o.b = some { e with psn := nextPsn e } ∧
      OnWire s t o.a e 8 [e.pair, nextPsn e, 0, 0, 0, 0] ∧ Coming t (s.clk + 850000) .ethKeepaliveTimer o ∧
      (nextPsn e = 2 ^ 32 - 1 → Coming t s.clk .pairRekey { a := o.a, b := o.b })) ∧
  (∀ (s : State) (vd i : Nat) (e : Endpoint) (d : Dgram), s.subject.dgram = some d → d.kind = 8 → endpointOfPair s d.epair = some (vd, i, e) →
    s.endpoint vd i = some e → d.bad = false → let e' : Endpoint := { e with psn := nextPsn e }
    (d.ecn = false → psnSeen e d.psn = true → Happens .ethKeep s fun t => t = s) ∧
    (d.ecn = false → psnSeen e d.psn = false → Happens .ethKeep s fun t => Quiet s t ∧ t.agenda = s.agenda ∧ t.endpoint vd i = some (notePsn e d.psn)) ∧
    (d.ecn = true → Happens .ethKeep s fun t => Quiet s t ∧ OnWire s t vd e 6 [e.pair, nextPsn e, 0, d.job, 0, 0] ∧
      t.endpoint vd i = some (if psnSeen e d.psn then e' else notePsn e' d.psn))) ∧
  -- one that fails its tag, or is of no pair
  (∀ (s : State) (d : Dgram) (i : Instr) (kind : Nat),
    (i, kind) ∈ [(Instr.ethWrite, 1), (.ethRead, 2), (.ethRddata, 3), (.ethAck, 4), (.ethNote, 5), (.ethEcho, 6), (.ethKeep, 8), (.ethBusy, 9)] →
    s.subject.dgram = some d → s.subject.l = [] → d.kind = 0 ∨ 9 < d.kind ∨ d.kind = kind ∧ (d.bad = true ∨ endpointOfPair s d.epair = none) →
    Happens i s fun t => Quiet s t ∧ t.vds = s.vds ∧ t.members = s.members ∧ t.agenda = s.agenda ∧ Told t 6 0x30 0 [d.epair]) ∧
  -- a numbered one for a collapsed VD, or seen before
  (∀ (s : State) (vd i : Nat) (e : Endpoint) (d : Dgram) (ev : Instr) (kind : Nat), (ev, kind) ∈ [(Instr.ethWrite, 1), (.ethRead, 2), (.ethRddata, 3), (.ethNote, 5)] →
    Arrives s kind vd i e d →
    ((s.vd vd).state = .pilot → Happens ev s fun t => Quiet s t ∧ t.members = s.members ∧ t.endpoint vd i = some { e with psn := nextPsn e } ∧
      OnWire s t vd e 9 [e.pair, nextPsn e, 0, d.job, 0, e.expect]) ∧
    ((s.vd vd).state ≠ .pilot → d.psn ∈ e.seen ∨ clockGe e.expect d.psn = true → Happens ev s fun t => Quiet s t ∧ t.members = s.members ∧ AckOwed s t vd i e d.job)) ∧
  -- ETH_WRITE
  (∀ (s : State) (vd i : Nat) (e : Endpoint) (d : Dgram), Arrives s 1 vd i e d → Unseen s vd e d →
    let va := e.params.winBase + d.off; let inside := d.off + d.data.length ≤ e.params.winLen ∧ d.data.length = d.len ∧ d.len ≤ 8192
    (¬inside → Happens .ethWrite s fun t => Quiet s t ∧ t.vds = s.vds ∧ Told t 6 0x31 0 [d.epair, 1]) ∧
    (∀ lv x l, inside → (∀ y ∈ (s.vd vd).stubs, y.1 ≠ va / 4096 * 4096) → findLeaf (s.vd vd) va = some (lv, x) → ptTgt x ≠ 3 → vaLoc s vd va true = .ok l →
      d.data.length ≤ 4096 - va % 4096 → OffTables s vd l.key d.data.length → Happens .ethWrite s fun t => t.clk = s.clk ∧ t.cores = s.cores ∧ memBytes t.mem l.key d.data.length = d.data ∧
        AckOwed s t vd i (notePsn e d.psn) d.job)) ∧
  -- ETH_READ
  (∀ (s s1 : State) (vd i : Nat) (e : Endpoint) (d : Dgram) (l : List Byte), Arrives s 2 vd i e d → Unseen s vd e d →
    (e.params.winLen < d.off + d.len ∨ 8192 < d.len → Happens .ethRead s fun t => Quiet s t ∧ t.vds = s.vds ∧ Told t 6 0x31 0 [d.epair, 2]) ∧
    (d.off + d.len ≤ e.params.winLen → d.len ≤ 8192 → vaRead s ⟨vd, 0⟩ (e.params.winBase + d.off) d.len = .ok (l, s1) → s1.vds = s.vds → e.unreachable = false →
      e.owed.length < 63 → Happens .ethRead s fun t => t.clk = s1.clk ∧ t.mem = s1.mem ∧ t.cores = s1.cores ∧
        OnWire s1 t vd e 3 ([e.pair, nextPsn e, d.off, d.job, d.len, 0] ++ l.map (·.toNat)) ∧
        ∃ e', t.endpoint vd i = some e' ∧ e'.psn = nextPsn e ∧ e'.expect = (notePsn e d.psn).expect ∧ e'.unacked.length = e.unacked.length + 1)) ∧
  -- ETH_NOTE
  (∀ (s s1 : State) (vd i : Nat) (e : Endpoint) (d : Dgram) (old : List Byte) (l : Loc), Arrives s 5 vd i e d → Unseen s vd e d → e.params.counter % 8 = 0 →
    vaRead s ⟨vd, 0⟩ e.params.counter 8 = .ok (old, s1) → s1.vds = s.vds → s1.members = s.members → vaLoc s vd e.params.counter true = .ok l → OffTables s vd l.key 8 →
    Happens .ethNote s fun t => t.clk = s1.clk ∧ t.cores = s1.cores ∧ memNat t.mem l.key 8 = (ofBytes old + d.len) % 2 ^ 64 ∧ AckOwed s1 t vd i (notePsn e d.psn) d.job) ∧
  -- ETH_RDDATA
  (∀ (s : State) (vd i : Nat) (e : Endpoint) (d : Dgram) (j : Job), let m : MemberId := ⟨vd, d.job / 256⟩; let h := d.job % 256; let q := (d.off - bitsN (cardSaddr j.card) 43 0) / 4096
    Arrives s 3 vd i e d → Unseen s vd e d → (s.member m).job h = some j → cardKind j.card ≠ 2 →
    (∀ ea, (s.die (s.member m).die).ctx = some m → cardSsp j.card = 2 → 2 ^ 32 + q ∈ j.unacked → d.data.length = chunkLen j.card q → cardDst m.member j.card (4096 * q) = some ea →
      Happens .ethRddata s fun t => Quiet s t ∧ (t.member m).job h = some { j with unacked := j.unacked.filter fun p => decide (p ≠ 2 ^ 32 + q) } ∧
        ChunkWrites t m h q j.card ea d.data ∧ AckOwed s t vd i (notePsn e d.psn) d.job) ∧
    ((s.die (s.member m).die).ctx ≠ some m → Happens .ethRddata s fun t => Quiet s t ∧ t.members = s.members ∧ AckOwed s t vd i (notePsn e d.psn) d.job ∧
      Tab.get [] t.paused (memberKey m) = Tab.get [] s.paused (memberKey m) ++ [⟨(s.member m).offAt, .event .ethRddata { m := m, l := [h, q], dgram := some d }⟩])) ∧
  (∀ (s : State) (d : Dgram) (h q ea : Nat) (j : Job), let m := s.subject.m
    s.subject.l = [h, q] → s.subject.dgram = some d → (s.die (s.member m).die).ctx = some m → (s.member m).job h = some j → cardKind j.card ≠ 2 → cardSsp j.card = 2 → 2 ^ 32 + q ∈ j.unacked →
    d.data.length = chunkLen j.card q → cardDst m.member j.card (4096 * q) = some ea →
    Happens .ethRddata s fun t => Quiet s t ∧ (t.member m).job h = some { j with unacked := j.unacked.filter fun p => decide (p ≠ 2 ^ 32 + q) } ∧ ChunkWrites t m h q j.card ea d.data) ∧
  -- ETH_ACK
  (∀ (s : State) (vd i : Nat) (e : Endpoint) (d : Dgram), Arrives s 4 vd i e d →
    (psnSeen e d.psn = true → Happens .ethAck s fun t => t = s) ∧
    (psnSeen e d.psn = false → Happens .ethAck s fun t => t.clk = s.clk ∧ t.cores = s.cores ∧ ∃ e', t.endpoint vd i = some e' ∧
      (∀ x ∈ e.unacked, clockGe d.apsn x.1.psn = false → x ∈ e'.unacked) ∧
      ((∀ x ∈ e.unacked, clockGe d.apsn x.1.psn = true → x.1.kind ≠ 1 ∧ x.1.kind ≠ 5) → t.mem = s.mem ∧
        e' = { notePsn e d.psn with unacked := e.unacked.filter fun x => !clockGe d.apsn x.1.psn }))) ∧
  (∀ (s : State) (d : Dgram) (h : Nat) (j : Job), let m := s.subject.m; let q := (d.off - bitsN (cardDaddr j.card) 43 0) / 4096
    s.subject.l = [h] → s.subject.dgram = some d → (s.die (s.member m).die).ctx = some m → (s.member m).job h = some j →
    (d.kind = 5 → j.unacked = [0] → cardDsp j.card = 2 → Happens .ethAck s fun t => Quiet s t ∧ (t.member m).job h = some { j with st := .finishing 0 } ∧ Coming t (s.clk + 2) .jobOutFill { m := m, a := h }) ∧
    (d.kind = 1 → q ∉ j.inflight → Happens .ethAck s fun t => Quiet s t ∧ (t.member m).job h = some { j with unacked := j.unacked.filter fun p => decide (p ≠ d.psn) })) ∧
  -- ETH_ECHO, ETH_RATE_RISE
  (∀ (s : State) (vd i : Nat) (e : Endpoint) (d : Dgram), Arrives s 6 vd i e d → let r := e.rate
    (psnSeen e d.psn = true → Happens .ethEcho s fun t => t = s) ∧
    (psnSeen e d.psn = false → Happens .ethEcho s fun t => Quiet s t ∧ Coming t (s.clk + 13600) .ethRateRise { a := vd, b := i } ∧
      t.endpoint vd i = some { notePsn e d.psn with rate := (if 7 * r.1 * 256 < 8 * r.2 then (1, 256) else (7 * r.1, 8 * r.2)), lastEcho := s.clk })) ∧
  (∀ (s : State) (e : Endpoint), let o := s.subject; let r := e.rate; let top := decide (r.2 ≤ r.1 + r.2 / 32)
    s.endpoint o.a o.b = some e → r ≠ (256, 256) → e.lastEcho + 13600 ≤ s.clk → Happens .ethRateRise s fun t => Quiet s t ∧
    t.endpoint o.a o.b = some { e with rate := (if top then (256, 256) else (r.1 + r.2 / 32, r.2)), lastEcho := s.clk } ∧
    (top = false → Coming t (s.clk + 13600) .ethRateRise o)) ∧
  -- ETH_BUSY
  (∀ (s : State) (vd i : Nat) (e : Endpoint) (d : Dgram), Arrives s 9 vd i e d →
    (psnSeen e d.psn = true → Happens .ethBusy s fun t => t = s) ∧
    (psnSeen e d.psn = false → Happens .ethBusy s fun t => Quiet s t ∧ t.agenda = s.agenda ∧ ∃ u, t.endpoint vd i = some { notePsn e d.psn with unacked := u } ∧
      ∀ x, e.unacked = [x] → x.2.1 ≥ 1 → u = [if x.1.job = d.job ∧ clockGe d.apsn x.1.psn = false then (x.1, x.2.1 - 1, x.2.2) else x])) ∧
  -- ETH_ACK_TIMER
  (∀ (s : State) (e : Endpoint), let o := s.subject; s.endpoint o.a o.b = some e → e.owed ≠ [] → Happens .ethAckTimer s fun t => Quiet s t ∧
    t.endpoint o.a o.b = some { e with owed := [], psn := nextPsn e } ∧ OnWire s t o.a e 4 [e.pair, nextPsn e, 0, e.owed.getLastD 0, 0, e.expect]) ∧
  -- ETH_RETRANSMIT_TIMEOUT
  (∀ (s : State) (e : Endpoint) (x : Dgram × Nat × Nat), let o := s.subject
    o.l = [] → s.endpoint o.a o.b = some e → e.unacked.find? (fun x => decide (x.1.psn = o.c)) = some x → e.unreachable = true ∨ x.2.2 = 0 ∨ x.2.2 + 85000 ≤ s.clk →
    (x.2.1 < 8 → x.2.2 = 0 → dgramHeld s o.a x.1 = true → Happens .ethRetransmitTimeout s fun t => Quiet s t ∧ t.vds = s.vds ∧ t.members = s.members ∧
      Coming t (s.clk + 850) .ethRetransmitTimeout o) ∧
    (x.2.1 < 8 → x.2.2 ≠ 0 ∨ dgramHeld s o.a x.1 = false → Happens .ethRetransmitTimeout s fun t => Quiet s t ∧ t.members = s.members ∧
      t.endpoint o.a o.b = some { e with unacked := e.unacked.map fun y => if y.1.psn = o.c then (y.1, y.2.1 + 1, s.clk) else y } ∧
      OnWire s t o.a e x.1.kind ([x.1.epair, x.1.psn, x.1.off, x.1.job, x.1.len, x.1.apsn] ++ x.1.data.map (·.toNat)) ∧ Coming t (s.clk + 85000) .ethRetransmitTimeout o) ∧
    (8 ≤ x.2.1 → Happens .ethRetransmitTimeout s fun t => t.clk = s.clk ∧ t.cores = s.cores ∧ t.fe = s.fe ∧
      t.endpoint o.a o.b = some { e with unreachable := true, unacked := [] } ∧ ((∀ y ∈ e.unacked, y.1.kind = 3) → t.mem = s.mem ∧ t.members = s.members))) ∧
  (∀ (s : State) (h : Nat) (j : Job), let m := s.subject.m; s.subject.l = [h] → (s.die (s.member m).die).ctx = some m → (s.member m).job h = some j → j.aborted = false →
    Happens .ethRetransmitTimeout s fun t => t.clk = s.clk ∧ t.cores = s.cores ∧ t.fe = s.fe ∧ (cardDsp j.card = 2 → t.mem = s.mem) ∧
      Told t 1 0x08 m.vd [h + 1 + j.done * 65536, 0x0D, 0x200] ∧ ∃ j', (t.member m).job h = some j' ∧ j'.aborted = true ∧ j'.unacked = [])

/-- The record store of management die `i` takes records: the active one, and the standby as far as it answers (R20, R25). -/
def Sys2Proof.Machine.Stores (s : State) (i : Nat) : Prop := i = s.platform.mgmtDie ∨ s.platform.standby = true ∧ i = 1 - s.platform.mgmtDie

/-- A record is in the record stores, or a write has failed and is tried again a second later; what stood there stays (R382, R465). -/
def Sys2Proof.Machine.Recorded (s t : State) (kind : Nat) (args : List Nat) : Prop :=
  (∀ i, ∀ x ∈ Tab.get [] s.platform.records i, x ∈ Tab.get [] t.platform.records i) ∧
  ((∀ i, Stores s i → (kind, args) ∈ Tab.get [] t.platform.records i) ∧ t.platform.pendingRecords = s.platform.pendingRecords ∨
    t.platform.pendingRecords = s.platform.pendingRecords ++ [(kind, args, 1)] ∧ Coming t (t.clk + 850000000) .retirementRecordRetry {})

/-- A repair record is written to the record stores, as the last of them, beside those that stood there (R382, R465). -/
def Sys2Proof.Machine.Repaired (s t : State) (kind : Nat) (args : List Nat) : Prop :=
  ∀ i, (Stores s i → Tab.get [] t.platform.records i = (Tab.get [] s.platform.records i).filter (fun x => decide (x ≠ (kind, args))) ++ [(kind, args)]) ∧
    (¬Stores s i → Tab.get [] t.platform.records i = (Tab.get [] s.platform.records i).filter fun x => decide (x ≠ (kind, args)))

/-- A repair whose record could not be written is not made (R382); telemetry 0x45 is the model's report of it (log 58). -/
def Sys2Proof.Machine.NotRepaired (s t : State) (kind : Nat) : Prop := t.platform = s.platform ∧ Told t 6 0x45 0 [kind]

/-- The level of violation `a` now (R473): codes 2 and 3 rise at the third within an hour and within a day. -/
def Sys2Proof.Machine.alarmLevel (s : State) (a : Nat) : Nat :=
  let old := Tab.get 0 s.platform.violations (2 * a + 1)
  if a = 1 ∨ a = 4 then 3 else if a = 2 then (if old ≠ 0 ∧ s.clk + 1 ≤ old + 3060000000000 then 3 else 2)
  else if a = 3 then (if old ≠ 0 ∧ s.clk + 1 ≤ old + 73440000000000 then 2 else 1) else 2

/-- An alarm of violation `a` has been raised (R473, R474). -/
structure Sys2Proof.Machine.Alarmed (s t : State) (a : Nat) : Prop where
  told : Told t 2 0x0A 0 [0xFF, alarmLevel s a, a]
  stored : Recorded s t 0x0A [alarmLevel s a, a, s.clk]
  kept : t.clk = s.clk ∧ t.mem = s.mem ∧ t.cores = s.cores
  level1 : alarmLevel s a = 1 → t.platform.frozen = s.platform.frozen ∧ t.platform.erased = s.platform.erased
  level2 : alarmLevel s a = 2 → t.platform.frozen = true ∧ t.platform.erased = s.platform.erased
  level3 : alarmLevel s a = 3 → t.platform.erased = true ∧ (∀ e ∈ t.vds, e.2.keyNo = 0) ∧ ∀ e ∈ s.vds, e.2.live = true → Coming t s.clk .vdDestroy { a := e.1 }

/-- R13 to R17, R25, R319, R373 to R382, R430, R439, R441 to R445, R465, R468, R473 to R475: the platform.  Links train, lose lanes and buffers and close; a lost switch
position gets a spare; the boot steps follow one another within their bounds; a wick update takes the new bank or is refused; a spare column or die
takes its place once its record is written; samples drive the duty; alarms do what their level says; an attestation advances the one-time index
first; power loss keeps the record store and what stands behind the outside ports.  The model's own: the report codes 0x43 to 0x45 (log 58) and the 1 µs
after which a repair that had to wait is tried again (log 54). -/
def Obligations.PlatformEvents : Prop :=
  -- LINK_TRAINING, LANE_DETECT_TIMEOUT, LANE_FAILURE, BUFFER_BANK_ERROR
  (∀ s : State, let n := s.subject.a; let l := linkOf s n; let w := l.lanes + l.spares - 1
    let port := if n < 64 then n / 3 * 4096 + 68 + n % 3 else (n - 64) % 18 * 4096 + (n - 64) / 18
    let trains (t : State) (bound : Nat) : Prop := ∃ at_, s.clk < at_ ∧ at_ ≤ s.clk + bound ∧ Coming t at_ .linkTraining { a := n }
    n < 48 ∨ (64 ≤ n ∧ n < 1288) →
    (l.stage < 4 → Happens .linkTraining s fun t => Quiet s t ∧ (∀ j, j ≠ n → linkOf t j = linkOf s j) ∧
      (l.stage = 3 ∧ linkOf t n = { l with up := true, stage := 4 } ∨
       l.stage < 3 ∧ linkOf t n = { l with stage := l.stage + 1 } ∧ trains t (if l.stage = 0 then 85000000 else 4250) ∨
       n < 48 ∧ l.stage = 0 ∧ l.up = false ∧ linkOf t n = l ∧ Coming t (s.clk + 85000000) .laneDetectTimeout { a := n })) ∧
    (l.up = false → l.stage = 0 → Happens .laneDetectTimeout s fun t => Quiet s t ∧ t.platform = s.platform ∧ Told t 1 0x03 0 [port, 3, 260 * l.banks]) ∧
    (l.up = true → s.subject.b < 18 → l.lanes + l.spares ≠ 0 →
      (16 ≤ w → Happens .laneFailure s fun t => Quiet s t ∧
        (linkOf t n = { l with lanes := 16, spares := w - 16, stage := min l.stage 2 } ∧ Repaired s t 0x105 [n, 16, w - 16] ∧
          Told t 1 0x01 0 [port, s.subject.b, w - 16] ∧ trains t 4250 ∨
         linkOf t n = { l with lanes := 15, spares := 0, stage := 0 } ∧ t.platform.records = s.platform.records ∧ Told t 6 0x45 0 [0x105] ∧
          Told t 1 0x02 0 [port, 15, 100] ∧ trains t 85000000)) ∧
      (8 ≤ w → w < 16 → Happens .laneFailure s fun t => Quiet s t ∧ linkOf t n = { l with lanes := w, spares := 0, stage := 0 } ∧ Told t 1 0x02 0 [port, w, 100] ∧
        trains t 85000000) ∧
      (w < 8 → Happens .laneFailure s fun t => t.clk = s.clk ∧ linkOf t n = { l with lanes := w, spares := 0, up := false, stage := 4 } ∧
        Told t 1 0x03 0 [port, 1, 260 * l.banks])) ∧
    (l.up = true → 3 ≤ l.banks → Happens .bufferBankError s fun t => Quiet s t ∧ linkOf t n = { l with banks := l.banks - 1 }) ∧
    (l.up = true → 1 ≤ l.banks → l.banks < 3 → Happens .bufferBankError s fun t => t.clk = s.clk ∧
      linkOf t n = { l with banks := l.banks - 1, up := false, stage := 4 } ∧ Told t 1 0x03 0 [port, 2, 260 * (l.banks - 1)])) ∧
  -- SWITCH_HEARTBEAT_LOSS, SWITCH_TAKEOVER
  (∀ s : State, let o := s.subject; let n := (s.switch o.a).heartbeats + max o.b 1; let old := (s.switch o.a).physical.getD o.a; o.a < 16 →
    ((s.switch o.a).down = false → n < 3 → Happens .switchHeartbeatLoss s fun t => Quiet s t ∧ t.switch o.a = { s.switch o.a with heartbeats := n }) ∧
    ((s.switch o.a).down = false → 3 ≤ n → Happens .switchHeartbeatLoss s fun t => Quiet s t ∧ (t.switch o.a).down = true ∧ (t.switch o.a).slots = [] ∧
      Told t 1 0x04 0 [o.a * 4096, o.a, old, (s.members.map fun e => e.2.retransmit.countP fun x => decide (switchPos s x.pkt = o.a)).sum] ∧
      (∀ at_ o' p, o'.a = o.a → o'.pkt = some p →
        (p.type = 0x0B → Coming s at_ .switchPacketForward o' → ∃ w, Coming t (s.clk + 42500) .switchPacketForward { a := w, pkt := some p }) ∧
        (p.type ≠ 0x0B → p.type ≠ 0x0C → ¬Coming t at_ .switchPacketForward o')) ∧
      (s.platform.spareSwitches < 2 → t.platform = s.platform ∧ ∃ at_, s.clk < at_ ∧ at_ ≤ s.clk + 1700000 ∧ Coming t at_ .switchTakeover { a := o.a, b := s.clk }) ∧
      (2 ≤ s.platform.spareSwitches → Coming t s.clk .outsidePortLost { a := o.a, b := 3 } ∧ (o.a % 4 = 0 → Coming t s.clk .outsidePortLost { a := 0x40 + o.a / 4, b := 3 }) ∧
        Tab.get false t.platform.ethDown o.a = true ∧ ∀ i < 3, (linkOf t (3 * o.a + i)).up = false)) ∧
    ((s.switch o.a).down = true → s.platform.spareSwitches < 2 → Happens .switchTakeover s fun t => Quiet s t ∧
      ((t.switch o.a).down = false ∧ (t.switch o.a).physical = some (16 + s.platform.spareSwitches) ∧ t.platform.spareSwitches = s.platform.spareSwitches + 1 ∧
        Repaired s t 0x104 [o.a, 16 + s.platform.spareSwitches] ∧ (∀ e ∈ t.members, e.2.unreachable = []) ∧
        Told t 1 0x05 0 [o.a * 4096, o.a, old * 256 + (16 + s.platform.spareSwitches), (s.clk - o.b) / 850] ∨
       t.switches = s.switches ∧ t.members = s.members ∧ NotRepaired s t 0x104 ∧ Coming t (s.clk + 850) .switchTakeover o))) ∧
  -- POWER_ON_RESET
  (∀ s : State, let p := s.platform; let a := s.subject.a; let only (r : Nat × List Nat) : Prop := Tab.get [] p.records p.mgmtDie = [r]
    p.stopped = false → a = p.boot + 1 →
    (1 ≤ a → a ≤ 6 → (a = 2 → p.imageA = true ∨ p.imageB = true) → Happens .powerOnReset s fun t => t.cores = s.cores ∧ t.platform.boot = a ∧ t.clk = (if a = 1 then 0 else s.clk) ∧
      (∃ at_, t.clk < at_ ∧ at_ ≤ t.clk + [0, 42500000, 170000000, 8500000, 85000000, 1700000000, 425000000].getD a 0 ∧ Coming t at_ .powerOnReset { a := a + 1 }) ∧
      (∀ x, Tab.get 0 t.mem x = if a = 5 ∧ (x / 2 ^ 80 = 2 ∨ x / 2 ^ 80 = 5) then 0 else Tab.get 0 s.mem x) ∧
      (a = 3 → let u := t.platform
        (∃ mode quanta, p.config = [u.powerCap, u.inletLimit, u.drain, u.mgmtAddr, mode] ++ quanta ∧ u.slotCount = quanta.length ∧
          (∀ i, Tab.get 0 u.slotQuanta i = quanta.getD i 0) ∧ 8000 ≤ u.powerCap ∧ u.powerCap ≤ 16500 ∧ 15 ≤ u.inletLimit ∧ u.inletLimit ≤ 45 ∧
          5 ≤ u.drain ∧ u.drain ≤ 200 ∧ u.mgmtAddr < 128 ∧ 1 ≤ u.slotCount ∧ u.slotCount ≤ 16) ∨
        u.powerCap = 16500 ∧ u.inletLimit = 40 ∧ u.drain = 20 ∧ u.mgmtAddr = 0x4E ∧ u.slotCount = 1 ∧ u.slotQuanta = [] ∧ (p.config = [] ∨ Told t 6 0x41 0 [])) ∧
      (a = 4 → (∀ d c, only (0x101, [d, c]) → Tab.get 16 t.platform.columns d = c) ∧
        (∀ d q, only (0x102, [d, q]) → (t.die d).position = some q ∧ Tab.get false t.platform.spareDies (d / 16) = true ∧
          Tab.get 0 t.platform.steer (d / 16) = 1 + positionOf s d % 17) ∧
        (∀ w q, only (0x104, [w, q]) → (t.switch w).physical = some q ∧ t.platform.spareSwitches = p.spareSwitches + 1) ∧
        (∀ n l sp, only (0x105, [n, l, sp]) → linkOf t n = { linkOf s n with lanes := l, spares := sp }) ∧
        (∀ d row n x, only (3, [d, row, n, x, 0]) → Tab.get 0 t.platform.remaps (d * 2 ^ 48 + row) = n + 1) ∧
        ∀ d row n x, only (3, [d, row, n, x, 1]) → Tab.get false (t.die (d / 2)).offline (d % 2 * 2 ^ 64 + row) = true) ∧
      (a = 6 → ∀ n < 48, Coming t s.clk .linkTraining { a := n })) ∧
    (a = 2 → p.imageA = false → p.imageB = false → Happens .powerOnReset s fun t => Quiet s t ∧ t.platform = p ∧ t.agenda = s.agenda ∧ Told t 6 0x40 0 []) ∧
    (a = 7 → let q := if Tab.get 0 p.slotQuanta 0 = 0 then 1700000 else Tab.get 0 p.slotQuanta 0; Happens .powerOnReset s fun t => Quiet s t ∧ t.platform = { p with boot := 7 } ∧
      t.gc.running = true ∧ t.gc.slots = p.slotCount ∧ t.gc.quanta = p.slotQuanta ∧ t.gc.quantumEnd = s.clk + q ∧ Coming t (s.clk + q) .slotQuantumEnd {} ∧
      Coming t (s.clk + 85000) .powerSample {} ∧ Coming t (s.clk + 850000) .telemetrySample {} ∧ Told t 8 0x300 0 [])) ∧
  -- RECOVERY_IMAGE
  (∀ s : State, let p := s.platform; p.boot = 1 → p.imageA = false → p.imageB = false →
    (s.subject.b = 1 → Happens .recoveryImage s fun t => Quiet s t ∧ t.platform = { p with imageA := decide (p.active = 1), imageB := decide (p.active = 0), active := 1 - p.active, badImages := 0 } ∧
      Coming t s.clk .powerOnReset { a := 2 }) ∧
    (s.subject.b ≠ 1 → Happens .recoveryImage s fun t => t.platform.badImages = p.badImages + 1 ∧ t.platform.boot = 1 ∧ (p.badImages = 2 → Alarmed s t 5))) ∧
  -- WICK_UPDATE, WICK_UPDATE_TIMEOUT
  (∀ s : State, let o := s.subject; let w := Tab.get Wick.reset s.wicks o.a
    (o.b = 0 ∧ ¬Serving s ∨ 7 < o.a → Happens .wickUpdate s fun t => Quiet s t ∧ t.wicks = s.wicks ∧ Told t 8 1 0 [o.a]) ∧
    (Serving s → o.a ≤ 7 → o.b = 0 → o.v ≠ 1 → Happens .wickUpdate s fun t => t.wicks = s.wicks ∧ t.platform.updateFailures = s.platform.updateFailures + 1 ∧ Told t 8 1 0 [o.a] ∧
      (s.platform.updateFailures = 2 → Alarmed s t 5)) ∧
    (Serving s → o.a ≤ 7 → o.b = 0 → o.v = 1 → (∃ e ∈ s.wicks, e.2.pendingUpdate ≠ none) → Happens .wickUpdate s fun t => Quiet s t ∧ t.wicks = s.wicks ∧ Told t 8 1 0 [o.a]) ∧
    (Serving s → o.a ≤ 7 → o.b = 0 → o.v = 1 → (∀ e ∈ s.wicks, e.2.pendingUpdate = none) → Happens .wickUpdate s fun t => Quiet s t ∧ t.platform.updateFailures = 0 ∧
      Tab.get Wick.reset t.wicks o.a = { w with pendingUpdate := some (o.c, s.clk) } ∧
      ((∃ at_, s.clk < at_ ∧ at_ < s.clk + 85000000 ∧ Coming t at_ .wickUpdate { o with b := 1 }) ∨ Coming t (s.clk + 85000000) .wickUpdateTimeout { a := o.a })) ∧
    (∀ v at_, o.a ≤ 7 → o.b ≠ 0 → w.pendingUpdate = some (v, at_) → Happens .wickUpdate s fun t => Quiet s t ∧ Told t 8 0 0 [o.a, v] ∧
      Tab.get Wick.reset t.wicks o.a = { w with bank := 1 - w.bank, version := v, pendingUpdate := none }) ∧
    (∀ v at_, w.pendingUpdate = some (v, at_) → at_ + 85000000 ≤ s.clk → Happens .wickUpdateTimeout s fun t => Quiet s t ∧ Told t 8 1 0 [o.a] ∧ Told t 6 0x42 0 [o.a, v] ∧
      Tab.get Wick.reset t.wicks o.a = { w with pendingUpdate := none })) ∧
  -- MANAGEMENT_DIE_TAKEOVER
  (∀ s : State, s.platform.standby = true → Happens .managementDieTakeover s fun t => Quiet s t ∧ t.agenda = s.agenda ∧ Told t 6 0x43 0 [1 - s.platform.mgmtDie] ∧
    t.platform = { s.platform with mgmtDie := 1 - s.platform.mgmtDie, standby := false }) ∧
  -- CORE_COLUMN_REPAIR
  (∀ s : State, let o := s.subject; let place := positionOf s o.a; let old := Tab.get 16 s.platform.columns place
    let moves (g : Nat) : Prop := physColumn old (g / 48 % 16) ≠ physColumn o.b (g / 48 % 16)
    let fails (g : Nat) : Prop := o.c = 1 ∧ physColumn old (g / 48 % 16) = o.b
    o.a < 64 → o.b ≤ 16 → old ≠ o.b →
    ((s.die o.a).ctx ≠ none → Happens .coreColumnRepair s fun t => Quiet s t ∧ t.dies = s.dies ∧ Coming t (s.clk + 850) .coreColumnRepair o) ∧
    ((s.die o.a).ctx = none → Happens .coreColumnRepair s fun t => t.clk = s.clk ∧ t.cores = s.cores ∧
      (Repaired s t 0x101 [place, o.b] ∧ (∀ p, Tab.get 16 t.platform.columns p = if p = place then o.b else Tab.get 16 s.platform.columns p) ∧
        Told t 6 0x44 0 [o.a, o.b] ∧ (∀ e ∈ (t.die o.a).gran, ¬moves e.1) ∧
        (∀ e ∈ (s.die o.a).gran, ∀ m, e.2.res = 2 → memberAt s o.a e.2.owner = some m → moves e.1 →
          (fails e.1 → Tab.get false (t.member m).lost e.1 = true ∧ Told t 0 0x07 m.vd [e.1, 1, o.a]) ∧ (¬fails e.1 → Tab.get false (t.member m).saved e.1 = true)) ∨
       t.dies = s.dies ∧ t.mem = s.mem ∧ NotRepaired s t 0x101))) ∧
  -- DIE_REPLACEMENT
  (∀ s : State, let o := s.subject; let row := o.a / 16; let spare := Tab.get false s.platform.spareDies row; o.a < 64 → (s.die o.a).newPosition = none →
    (o.b = 0 → spare = false → Happens .dieReplacement s fun t => Quiet s t ∧ t.dies = s.dies ∧
      (Tab.get false t.platform.spareDies row = true ∧ Repaired s t 0x102 [o.a, 17 * row + 16] ∧ Coming t (s.clk + 4250000) .dieReplacement { o with b := 1 } ∨
       NotRepaired s t 0x102)) ∧
    (o.b = 0 → spare = true → Happens .dieReplacement s fun t => Quiet s t ∧ t.dies = s.dies ∧ t.platform = s.platform ∧
      ∀ e ∈ s.members, e.2.live = true → e.2.die = o.a → Told t 0 0x0A (e.1 / 256) [o.a, positionOf s o.a, 0]) ∧
    (o.b ≠ 0 → spare = true → Happens .dieReplacement s fun t => Quiet s t ∧ (t.die o.a).newPosition = some (17 * row + 16) ∧
      ((s.die o.a).failed = true → (t.die o.a).power = .gated ∧ (t.die o.a).vaultPower = .active) ∧
      (t.die o.a).ctx = (s.die o.a).ctx ∧ (t.die o.a).gran = (s.die o.a).gran ∧ ∀ d, d ≠ o.a → t.die d = s.die d)) ∧
  -- POWER_SAMPLE, DUTY_RAISE
  (∀ s : State, let p := s.platform
    (Happens .powerSample s fun t => Quiet s t ∧ Coming t (s.clk + 85000) .powerSample {} ∧ let w := t.platform.power
      (∀ d < 64, t.die d = if p.powerCap < w ∧ (s.die d).power = .active then { s.die d with duty := max 4 ((s.die d).duty - 1) } else s.die d) ∧
      (100 * w < 97 * p.powerCap → p.lastRaise + 850000 ≤ s.clk → Coming t s.clk .dutyRaise {}) ∧ (97 * p.powerCap ≤ 100 * w → t.platform.lastRaise = s.clk)) ∧
    (p.lastRaise + 850000 ≤ s.clk → 100 * p.power < 97 * p.powerCap → Happens .dutyRaise s fun t => Quiet s t ∧ t.platform = { p with lastRaise := s.clk } ∧
      ∀ d < 64, t.die d = { s.die d with duty := min 16 ((s.die d).duty + 1) })) ∧
  -- JUNCTION_OVERTEMP, JUNCTION_COOLED, COOLANT_ALARM, THERMAL_STOP
  (∀ s : State, let d := s.subject.a; d < 64 →
    (Happens .junctionOvertemp s fun t => Quiet s t ∧ t.die d = { s.die d with dutyCap := 8 } ∧ ∀ j, j ≠ d → t.die j = s.die j) ∧
    ((s.die d).dutyCap ≠ 16 → Happens .junctionCooled s fun t => Quiet s t ∧
      t.die d = if s.platform.inlet ≤ 10 * s.platform.inletLimit ∧ 240 ≤ s.platform.flow then { s.die d with dutyCap := 16 } else s.die d)) ∧
  (∀ s : State, let o := s.subject
    (10 * s.platform.inletLimit < o.b ∨ o.c < 240 → Happens .coolantAlarm s fun t => Quiet s t ∧ Told t 7 1 0 [o.b, o.c] ∧ ∀ d < 64, t.die d = { s.die d with dutyCap := 8 }) ∧
    Happens .thermalStop s fun t => Quiet s t ∧ Recorded s t 0x106 [s.clk] ∧ t.platform.stopped = true ∧
      ∀ d < 64, t.die d = { s.die d with power := .off, vaultPower := .off, stopped := true }) ∧
  -- TELEMETRY_SAMPLE
  (∀ s : State, Happens .telemetrySample s fun t => Quiet s t ∧ Coming t (s.clk + 850000) .telemetrySample {} ∧ t.platform.samples.length ≤ 1024 ∧
    ∃ row, t.platform.samples = (row :: s.platform.samples).take 1024 ∧ row.take 4 = [s.clk, s.platform.power, s.platform.inlet, s.platform.flow] ∧
      row.length = 276 + 2 * s.platform.counters.length ∧ (row.drop 212).take 64 = (List.range 64).map fun d => min (s.die d).duty (s.die d).dutyCap) ∧
  -- SECURITY_VIOLATION, UNFREEZE_REQUEST, ATTESTATION
  (∀ s : State, let a := s.subject.a; 1 ≤ a → a ≤ 5 → Happens .securityViolation s fun t => Alarmed s t a ∧ Tab.get 0 t.platform.violations (2 * a) = s.clk + 1 ∧
    Tab.get 0 t.platform.violations (2 * a + 1) = Tab.get 0 s.platform.violations (2 * a)) ∧
  (∀ s : State, (s.platform.frozen = true → s.subject.b = 1 → Happens .unfreezeRequest s fun t => Quiet s t ∧ t.platform = { s.platform with frozen := false } ∧ Told t 8 0 0 []) ∧
    (s.platform.frozen = false ∨ s.subject.b ≠ 1 → Happens .unfreezeRequest s fun t => Quiet s t ∧ t.platform = s.platform ∧ Told t 8 1 0 [])) ∧
  (∀ s : State, let p := s.platform
    (p.erased = true ∨ 2 ^ 20 ≤ p.xmss → Happens .attestation s fun t => Quiet s t ∧ t.platform = p ∧ Told t 8 1 0 []) ∧
    (p.erased = false → p.xmss < 2 ^ 20 → Happens .attestation s fun t => Quiet s t ∧ t.platform = { p with xmss := p.xmss + 1 } ∧ (Told t 8 0 0 [p.xmss] ∨ Told t 8 1 0 []))) ∧
  -- POWER_LOSS
  ∀ s : State, Happens .powerLoss s fun t => (∀ x, Tab.get 0 t.mem x = if x / 2 ^ 80 = 3 ∨ x / 2 ^ 80 = 4 then Tab.get 0 s.mem x else 0) ∧ t.agenda = State.reset.agenda ∧
    t.cores = [] ∧ t.dies = [] ∧ t.switches = [] ∧ t.members = [] ∧ t.vds = [] ∧ t.gc = GC.reset ∧ t.accesses = [] ∧ t.platform.boot = 0 ∧ t.platform.records = s.platform.records ∧
    t.platform.pendingRecords = [] ∧ t.platform.xmss = s.platform.xmss ∧ t.platform.erased = s.platform.erased ∧ t.platform.imageA = s.platform.imageA ∧
    t.platform.imageB = s.platform.imageB ∧ t.platform.active = s.platform.active ∧ t.platform.powerCap = s.platform.powerCap ∧
    t.platform.config = s.platform.config ∧ t.platform.remaps = [] ∧ t.platform.columns = [] ∧ ∀ n < 48, (linkOf t n).up = false
end

