-- ==== Sys2Proof/Laws/Float.lean ====
section
/-!
SUPPORT. Laws/Float.lean: the results of the float functions fit their formats.
-/
namespace Sys2Proof.Machine

theorem fmt_sizes {t : Nat} (h : t < 5) : fmtMax t + 1 < fmtSign t ∧ fmtNan t < fmtSign t ∧ 2 * fmtSign t = 2 ^ tyW t := by
  interval_cases t <;> decide

theorem fmtMax_lt {t : Nat} (h : t < 5) : fmtMax t < fmtSign t := by have := (fmt_sizes h).1; omega

theorem withSign_lt {t : Nat} (h : t < 5) (n : Bool) {m : Nat} (hm : m < fmtSign t) : withSign t n m < 2 ^ tyW t := by
  have := (fmt_sizes h).2.2
  unfold withSign
  cases n <;> simp only [b2n, if_true, Bool.false_eq_true, if_false] <;> omega

theorem overflowBits_lt {t : Nat} (h : t < 5) (mode : Nat) (n : Bool) : overflowBits t mode n < fmtSign t := by
  have := (fmt_sizes h).1
  unfold overflowBits
  split
  · omega
  · split
    · omega
    · omega
    · split <;> omega
    · split <;> omega

/-- A rounded result is an encoding of its format (R131, R137). -/
theorem fenc_lt {t : Nat} (h : t < 5) (mode : Nat) (v : Fv) (st : Bool) : fenc t mode v st < 2 ^ tyW t := by
  have h1 := fmt_sizes h
  have h2 := overflowBits_lt h mode
  unfold fenc
  split
  · omega
  · exact withSign_lt h _ (by split <;> omega)
  · refine withSign_lt h _ ?_
    split
    · exact h2 _
    · have := h1.1; omega

/-- A converted result is an encoding of its format (R138). -/
theorem fconv_lt {t : Nat} (h : t < 5) (mode : Nat) (inf : Bool) (v : Fv) : fconv t mode inf v < 2 ^ tyW t := by
  have h1 := fmt_sizes h
  unfold fconv
  split
  · omega
  · exact withSign_lt h _ (by split <;> omega)
  · refine withSign_lt h _ ?_
    split
    · split <;> omega
    · have := h1.1; omega

theorem fdivV_lt {t : Nat} (h : t < 5) (mode : Nat) (a b : Fv) : fdivV t mode a b < 2 ^ tyW t := by
  have h1 := fmt_sizes h
  have hn : fmtNan t < 2 ^ tyW t := by omega
  unfold fdivV
  split
  · exact hn
  · exact hn
  · exact hn
  · exact fenc_lt h _ _ _
  · exact fenc_lt h _ _ _
  · split
    · split
      · exact hn
      · exact fenc_lt h _ _ _
    · exact fenc_lt h _ _ _

/-- The result of max or min is one of the operands or the canonical NaN (R137). -/
theorem fmax_lt {t : Nat} (h : t < 5) (a b : Nat) (ha : a < 2 ^ tyW t) (hb : b < 2 ^ tyW t) :
    fmax t a b < 2 ^ tyW t ∧ fmin t a b < 2 ^ tyW t := by
  have h1 := fmt_sizes h
  constructor
  · unfold fmax; split
    · omega
    · split <;> assumption
  · unfold fmin; split
    · omega
    · split <;> assumption

/-- The functions of R141 give encodings of their format. -/
theorem functions_lt {t : Nat} (h : t < 5) (mode a : Nat) :
    frcp t mode a < 2 ^ tyW t ∧ frsqrt t mode a < 2 ^ tyW t ∧ fsqrt t mode a < 2 ^ tyW t ∧ fexp2 t mode a < 2 ^ tyW t
      ∧ flog2 t mode a < 2 ^ tyW t := by
  have h1 := fmt_sizes h
  refine ⟨?_, ?_, ?_, ?_, ?_⟩
  · unfold frcp; split
    · split
      · exact withSign_lt h _ h1.1
      · exact fdivV_lt h _ _ _
    · exact fdivV_lt h _ _ _
  · unfold frsqrt; split
    · omega
    · split <;> omega
    · split
      · exact fenc_lt h _ _ _
      · split
        · omega
        · exact fenc_lt h _ _ _
  · unfold fsqrt; split
    · omega
    · split <;> omega
    · split
      · exact withSign_lt h _ (by omega)
      · split
        · omega
        · exact fenc_lt h _ _ _
  · unfold fexp2; split
    · omega
    · split <;> omega
    · split
      · exact fenc_lt h _ _ _
      · split <;> exact fenc_lt h _ _ _
  · unfold flog2; split
    · omega
    · split <;> omega
    · split
      · exact fenc_lt h _ _ _
      · split
        · omega
        · dsimp only
          split
          · exact fenc_lt h _ _ _
          · split <;> exact fenc_lt h _ _ _

theorem rawOf_lt (t : Nat) (z : Int) : rawOf t z < 2 ^ tyW t := by
  unfold rawOf
  have hp : (0 : Int) < (2 ^ tyW t : Nat) := by positivity
  have h1 := Int.emod_lt_of_pos z hp
  have h2 := Int.emod_nonneg z (ne_of_gt hp)
  omega

end Sys2Proof.Machine
end

