-- ==== Sys2Proof/Laws/Tab.lean ====
section
/-!
SUPPORT. Laws/Tab.lean: the laws of sparse tables and of memory over them: a read after a write, and that every write keeps the
canonical form.
-/
namespace Sys2Proof.Tab

variable {α : Type}

theorem get_erase_same (d : α) (t : Tab α) (n : Nat) : get d (erase t n) n = d := by
  induction t with
  | nil => rfl
  | cons e t ih => obtain ⟨k, v⟩ := e; simp only [erase]; split <;> simp_all [get]

theorem get_erase_other (d : α) (t : Tab α) {n m : Nat} (h : m ≠ n) : get d (erase t n) m = get d t m := by
  induction t with
  | nil => rfl
  | cons e t ih => obtain ⟨k, v⟩ := e; simp only [erase]; split <;> simp_all [get]

theorem get_insert_same (d : α) (t : Tab α) (n : Nat) (a : α) : get d (insert t n a) n = a := by
  induction t with
  | nil => simp [insert, get]
  | cons e t ih =>
    obtain ⟨k, v⟩ := e
    simp only [insert]
    split
    · simp [get]
    · split
      · simp [get]
      · simp_all [get]

theorem get_insert_other (d : α) (t : Tab α) (a : α) {n m : Nat} (h : m ≠ n) : get d (insert t n a) m = get d t m := by
  induction t with
  | nil => simp [insert, get, h]
  | cons e t ih =>
    obtain ⟨k, v⟩ := e
    simp only [insert]
    split
    · simp [get, h]
    · split
      · subst_vars; simp [get, h]
      · simp [get, ih]

/-- A read of the key just written. -/
@[simp] theorem get_put_same [DecidableEq α] (d : α) (t : Tab α) (n : Nat) (a : α) : get d (put d t n a) n = a := by
  unfold put
  split
  · rename_i h; rw [h]; exact get_erase_same d t n
  · exact get_insert_same d t n a

/-- A read of any other key. -/
theorem get_put_other [DecidableEq α] (d : α) (t : Tab α) (a : α) {n m : Nat} (h : m ≠ n) : get d (put d t n a) m = get d t m := by
  unfold put
  split
  · exact get_erase_other d t h
  · exact get_insert_other d t a h

theorem get_put [DecidableEq α] (d : α) (t : Tab α) (n m : Nat) (a : α) : get d (put d t n a) m = if m = n then a else get d t m := by
  by_cases h : m = n
  · subst h; simp
  · simp [h, get_put_other d t a h]

/-! ### The canonical form -/

/-- Every key is above a bound. -/
def above (n : Nat) (t : Tab α) : Prop := ∀ e ∈ t, n < e.1

theorem sorted_cons (k : Nat) (v : α) (t : Tab α) : sorted ((k, v) :: t) = true ↔ above k t ∧ sorted t = true := by
  induction t generalizing k v with
  | nil => simp [sorted, above]
  | cons e t ih =>
    obtain ⟨k', v'⟩ := e
    simp only [sorted, Bool.and_eq_true, decide_eq_true_eq]
    constructor
    · rintro ⟨h, hs⟩
      refine ⟨?_, hs⟩
      intro x hx
      rcases List.mem_cons.mp hx with rfl | hx
      · exact h
      · exact h.trans (((ih k' v').mp hs).1 x hx)
    · rintro ⟨h, hs⟩
      exact ⟨h (k', v') (by simp), hs⟩

theorem above_erase {n m : Nat} {t : Tab α} (h : above n t) : above n (erase t m) := by
  induction t with
  | nil => simp [erase, above]
  | cons e t ih =>
    obtain ⟨k, v⟩ := e
    have ht : above n t := fun x hx => h x (by simp [hx])
    simp only [erase]
    split
    · exact ih ht
    · intro x hx
      rcases List.mem_cons.mp hx with rfl | hx
      · exact h (k, v) (by simp)
      · exact ih ht x hx

theorem sorted_erase {t : Tab α} (m : Nat) (h : sorted t = true) : sorted (erase t m) = true := by
  induction t with
  | nil => rfl
  | cons e t ih =>
    obtain ⟨k, v⟩ := e
    have h' := (sorted_cons k v t).mp h
    simp only [erase]
    split
    · exact ih h'.2
    · exact (sorted_cons _ _ _).mpr ⟨above_erase h'.1, ih h'.2⟩

theorem above_insert {n m : Nat} {a : α} {t : Tab α} (h : above n t) (hm : n < m) : above n (insert t m a) := by
  induction t with
  | nil => intro x hx; simp [insert] at hx; subst hx; exact hm
  | cons e t ih =>
    obtain ⟨k, v⟩ := e
    have ht : above n t := fun x hx => h x (by simp [hx])
    simp only [insert]
    split
    · intro x hx
      rcases List.mem_cons.mp hx with rfl | hx
      · exact hm
      · exact h x hx
    · split
      · intro x hx
        rcases List.mem_cons.mp hx with rfl | hx
        · exact hm
        · exact ht x hx
      · intro x hx
        rcases List.mem_cons.mp hx with rfl | hx
        · exact h (k, v) (by simp)
        · exact ih ht x hx

theorem sorted_insert {t : Tab α} (m : Nat) (a : α) (h : sorted t = true) : sorted (insert t m a) = true := by
  induction t with
  | nil => rfl
  | cons e t ih =>
    obtain ⟨k, v⟩ := e
    have h' := (sorted_cons k v t).mp h
    simp only [insert]
    split
    · refine (sorted_cons _ _ _).mpr ⟨?_, h⟩
      intro x hx
      rcases List.mem_cons.mp hx with rfl | hx
      · assumption
      · have := h'.1 x hx; omega
    · split
      · subst_vars; exact (sorted_cons _ _ _).mpr h'
      · exact (sorted_cons _ _ _).mpr ⟨above_insert h'.1 (by omega), ih h'.2⟩

theorem all_erase {t : Tab α} (m : Nat) {p : Nat × α → Bool} (h : t.all p = true) : (erase t m).all p = true := by
  induction t with
  | nil => rfl
  | cons e t ih =>
    obtain ⟨k, v⟩ := e
    simp only [List.all_cons, Bool.and_eq_true] at h
    simp only [erase]
    split
    · exact ih h.2
    · simp [h.1, ih h.2]

theorem all_insert {t : Tab α} (m : Nat) {a : α} {p : Nat × α → Bool} (h : t.all p = true) (hp : p (m, a) = true) :
    (insert t m a).all p = true := by
  induction t with
  | nil => simp [insert, hp]
  | cons e t ih =>
    obtain ⟨k, v⟩ := e
    have h' := h
    simp only [List.all_cons, Bool.and_eq_true] at h'
    simp only [insert]
    split
    · simp [hp, h'.1, h'.2]
    · split
      · simp [hp, h'.2]
      · simp [h'.1, ih h'.2]

/-- Every write keeps the canonical form. -/
theorem wf_put [DecidableEq α] {d : α} {t : Tab α} (n : Nat) (a : α) (h : wf d t = true) : wf d (put d t n a) = true := by
  simp only [wf, Bool.and_eq_true] at h ⊢
  unfold put
  split
  · exact ⟨sorted_erase n h.1, all_erase n h.2⟩
  · exact ⟨sorted_insert n a h.1, all_insert n h.2 (by simpa)⟩

/-- So does the removal of a set of keys. -/
theorem wf_filter [DecidableEq α] {d : α} {t : Tab α} (p : Nat × α → Bool) (h : wf d t = true) : wf d (t.filter p) = true := by
  simp only [wf, Bool.and_eq_true] at h ⊢
  refine ⟨?_, ?_⟩
  · have hs := h.1
    clear h
    induction t with
    | nil => rfl
    | cons e t ih =>
      obtain ⟨k, v⟩ := e
      have h' := (sorted_cons k v t).mp hs
      simp only [List.filter_cons]
      split
      · refine (sorted_cons _ _ _).mpr ⟨fun x hx => h'.1 x (List.mem_of_mem_filter hx), ih h'.2⟩
      · exact ih h'.2
  · rw [List.all_eq_true] at h ⊢
    exact fun x hx => h.2 x (List.mem_of_mem_filter hx)

end Sys2Proof.Tab

namespace Sys2Proof.Machine

/-- Memory keeps its canonical form under a write of bytes. -/
theorem memPut_wf (l : List Byte) : ∀ (m : Mem) (k : Nat), Tab.wf 0 m = true → Tab.wf 0 (memPut m k l) = true := by
  induction l with
  | nil => intro m k h; exact h
  | cons b t ih => intro m k h; exact ih _ _ (Tab.wf_put k b h)

/-- A write leaves every byte outside it as it was. -/
theorem memPut_other (l : List Byte) : ∀ (m : Mem) (k a : Nat), a < k ∨ k + l.length ≤ a → Tab.get 0 (memPut m k l) a = Tab.get 0 m a := by
  induction l with
  | nil => intro m k a _; rfl
  | cons b t ih =>
    intro m k a h
    simp only [List.length_cons] at h
    rw [memPut, ih _ _ _ (by omega), Tab.get_put_other _ _ _ (by omega)]

/-- A read of bytes after a write of them gives them back. -/
theorem memBytes_memPut (l : List Byte) : ∀ (m : Mem) (k : Nat), memBytes (memPut m k l) k l.length = l := by
  induction l with
  | nil => intro m k; rfl
  | cons b t ih =>
    intro m k
    simp only [List.length_cons, memBytes, memPut]
    rw [ih, memPut_other t _ _ _ (by omega), Tab.get_put_same]

/-- A read of bytes outside a write. -/
theorem memBytes_other (l : List Byte) (n : Nat) : ∀ (m : Mem) (k a : Nat), a + n ≤ k ∨ k + l.length ≤ a →
    memBytes (memPut m k l) a n = memBytes m a n := by
  induction n with
  | zero => intro m k a _; rfl
  | succ n ih =>
    intro m k a h
    simp only [memBytes]
    rw [ih m k (a + 1) (by omega), memPut_other l m k a (by omega)]

theorem memBytes_length (m : Mem) (n : Nat) : ∀ k, (memBytes m k n).length = n := by
  induction n with
  | zero => intro k; rfl
  | succ n ih => intro k; simp [memBytes, ih]

theorem toBytes_length (n : Nat) : ∀ v, (toBytes n v).length = n := by
  induction n with
  | zero => intro v; rfl
  | succ n ih => intro v; simp [toBytes, ih]

/-- Little-endian bytes of a number, read back (R6). -/
theorem ofBytes_toBytes (n : Nat) : ∀ v, ofBytes (toBytes n v) = v % 256 ^ n := by
  induction n with
  | zero => intro v; simp [toBytes, ofBytes, Nat.mod_one]
  | succ n ih =>
    intro v
    simp only [toBytes, ofBytes, ih, BitVec.toNat_ofNat]
    have h : 256 ^ (n + 1) = 256 * 256 ^ n := by ring
    rw [h, Nat.mod_mul]

end Sys2Proof.Machine
end

