-- ==== Sys2Proof/Laws/State.lean ====
section
/-!
SUPPORT. Laws/State.lean: what every update of State leaves as it was, field by field, and what it changes; no later proof unfolds a
record update.
-/
namespace Sys2Proof.Machine

/-! ### State.setCore -/

@[simp] theorem State.setCore_clk (s : State) (k : CoreId) (c : Core) : (s.setCore k c).clk = s.clk := rfl
@[simp] theorem State.setCore_fresh (s : State) (k : CoreId) (c : Core) : (s.setCore k c).fresh = s.fresh := rfl
@[simp] theorem State.setCore_focus (s : State) (k : CoreId) (c : Core) : (s.setCore k c).focus = s.focus := rfl
@[simp] theorem State.setCore_subject (s : State) (k : CoreId) (c : Core) : (s.setCore k c).subject = s.subject := rfl
@[simp] theorem State.setCore_agenda (s : State) (k : CoreId) (c : Core) : (s.setCore k c).agenda = s.agenda := rfl
@[simp] theorem State.setCore_paused (s : State) (k : CoreId) (c : Core) : (s.setCore k c).paused = s.paused := rfl
@[simp] theorem State.setCore_mem (s : State) (k : CoreId) (c : Core) : (s.setCore k c).mem = s.mem := rfl
@[simp] theorem State.setCore_fe (s : State) (k : CoreId) (c : Core) : (s.setCore k c).fe = s.fe := rfl
@[simp] theorem State.setCore_poison (s : State) (k : CoreId) (c : Core) : (s.setCore k c).poison = s.poison := rfl
@[simp] theorem State.setCore_accesses (s : State) (k : CoreId) (c : Core) : (s.setCore k c).accesses = s.accesses := rfl
@[simp] theorem State.setCore_nextId (s : State) (k : CoreId) (c : Core) : (s.setCore k c).nextId = s.nextId := rfl
@[simp] theorem State.setCore_dies (s : State) (k : CoreId) (c : Core) : (s.setCore k c).dies = s.dies := rfl
@[simp] theorem State.setCore_switches (s : State) (k : CoreId) (c : Core) : (s.setCore k c).switches = s.switches := rfl
@[simp] theorem State.setCore_members (s : State) (k : CoreId) (c : Core) : (s.setCore k c).members = s.members := rfl
@[simp] theorem State.setCore_vds (s : State) (k : CoreId) (c : Core) : (s.setCore k c).vds = s.vds := rfl
@[simp] theorem State.setCore_gc (s : State) (k : CoreId) (c : Core) : (s.setCore k c).gc = s.gc := rfl
@[simp] theorem State.setCore_wicks (s : State) (k : CoreId) (c : Core) : (s.setCore k c).wicks = s.wicks := rfl
@[simp] theorem State.setCore_migrations (s : State) (k : CoreId) (c : Core) : (s.setCore k c).migrations = s.migrations := rfl
@[simp] theorem State.setCore_platform (s : State) (k : CoreId) (c : Core) : (s.setCore k c).platform = s.platform := rfl
@[simp] theorem State.setCore_reports (s : State) (k : CoreId) (c : Core) : (s.setCore k c).reports = s.reports := rfl

/-! ### State.modCore -/

@[simp] theorem State.modCore_clk (s : State) (k : CoreId) (f : Core → Core) : (s.modCore k f).clk = s.clk := rfl
@[simp] theorem State.modCore_fresh (s : State) (k : CoreId) (f : Core → Core) : (s.modCore k f).fresh = s.fresh := rfl
@[simp] theorem State.modCore_focus (s : State) (k : CoreId) (f : Core → Core) : (s.modCore k f).focus = s.focus := rfl
@[simp] theorem State.modCore_subject (s : State) (k : CoreId) (f : Core → Core) : (s.modCore k f).subject = s.subject := rfl
@[simp] theorem State.modCore_agenda (s : State) (k : CoreId) (f : Core → Core) : (s.modCore k f).agenda = s.agenda := rfl
@[simp] theorem State.modCore_paused (s : State) (k : CoreId) (f : Core → Core) : (s.modCore k f).paused = s.paused := rfl
@[simp] theorem State.modCore_mem (s : State) (k : CoreId) (f : Core → Core) : (s.modCore k f).mem = s.mem := rfl
@[simp] theorem State.modCore_fe (s : State) (k : CoreId) (f : Core → Core) : (s.modCore k f).fe = s.fe := rfl
@[simp] theorem State.modCore_poison (s : State) (k : CoreId) (f : Core → Core) : (s.modCore k f).poison = s.poison := rfl
@[simp] theorem State.modCore_accesses (s : State) (k : CoreId) (f : Core → Core) : (s.modCore k f).accesses = s.accesses := rfl
@[simp] theorem State.modCore_nextId (s : State) (k : CoreId) (f : Core → Core) : (s.modCore k f).nextId = s.nextId := rfl
@[simp] theorem State.modCore_dies (s : State) (k : CoreId) (f : Core → Core) : (s.modCore k f).dies = s.dies := rfl
@[simp] theorem State.modCore_switches (s : State) (k : CoreId) (f : Core → Core) : (s.modCore k f).switches = s.switches := rfl
@[simp] theorem State.modCore_members (s : State) (k : CoreId) (f : Core → Core) : (s.modCore k f).members = s.members := rfl
@[simp] theorem State.modCore_vds (s : State) (k : CoreId) (f : Core → Core) : (s.modCore k f).vds = s.vds := rfl
@[simp] theorem State.modCore_gc (s : State) (k : CoreId) (f : Core → Core) : (s.modCore k f).gc = s.gc := rfl
@[simp] theorem State.modCore_wicks (s : State) (k : CoreId) (f : Core → Core) : (s.modCore k f).wicks = s.wicks := rfl
@[simp] theorem State.modCore_migrations (s : State) (k : CoreId) (f : Core → Core) : (s.modCore k f).migrations = s.migrations := rfl
@[simp] theorem State.modCore_platform (s : State) (k : CoreId) (f : Core → Core) : (s.modCore k f).platform = s.platform := rfl
@[simp] theorem State.modCore_reports (s : State) (k : CoreId) (f : Core → Core) : (s.modCore k f).reports = s.reports := rfl

/-! ### State.modDie -/

@[simp] theorem State.modDie_clk (s : State) (d : Nat) (f : Die → Die) : (s.modDie d f).clk = s.clk := rfl
@[simp] theorem State.modDie_fresh (s : State) (d : Nat) (f : Die → Die) : (s.modDie d f).fresh = s.fresh := rfl
@[simp] theorem State.modDie_focus (s : State) (d : Nat) (f : Die → Die) : (s.modDie d f).focus = s.focus := rfl
@[simp] theorem State.modDie_subject (s : State) (d : Nat) (f : Die → Die) : (s.modDie d f).subject = s.subject := rfl
@[simp] theorem State.modDie_agenda (s : State) (d : Nat) (f : Die → Die) : (s.modDie d f).agenda = s.agenda := rfl
@[simp] theorem State.modDie_paused (s : State) (d : Nat) (f : Die → Die) : (s.modDie d f).paused = s.paused := rfl
@[simp] theorem State.modDie_mem (s : State) (d : Nat) (f : Die → Die) : (s.modDie d f).mem = s.mem := rfl
@[simp] theorem State.modDie_fe (s : State) (d : Nat) (f : Die → Die) : (s.modDie d f).fe = s.fe := rfl
@[simp] theorem State.modDie_poison (s : State) (d : Nat) (f : Die → Die) : (s.modDie d f).poison = s.poison := rfl
@[simp] theorem State.modDie_cores (s : State) (d : Nat) (f : Die → Die) : (s.modDie d f).cores = s.cores := rfl
@[simp] theorem State.modDie_accesses (s : State) (d : Nat) (f : Die → Die) : (s.modDie d f).accesses = s.accesses := rfl
@[simp] theorem State.modDie_nextId (s : State) (d : Nat) (f : Die → Die) : (s.modDie d f).nextId = s.nextId := rfl
@[simp] theorem State.modDie_switches (s : State) (d : Nat) (f : Die → Die) : (s.modDie d f).switches = s.switches := rfl
@[simp] theorem State.modDie_members (s : State) (d : Nat) (f : Die → Die) : (s.modDie d f).members = s.members := rfl
@[simp] theorem State.modDie_vds (s : State) (d : Nat) (f : Die → Die) : (s.modDie d f).vds = s.vds := rfl
@[simp] theorem State.modDie_gc (s : State) (d : Nat) (f : Die → Die) : (s.modDie d f).gc = s.gc := rfl
@[simp] theorem State.modDie_wicks (s : State) (d : Nat) (f : Die → Die) : (s.modDie d f).wicks = s.wicks := rfl
@[simp] theorem State.modDie_migrations (s : State) (d : Nat) (f : Die → Die) : (s.modDie d f).migrations = s.migrations := rfl
@[simp] theorem State.modDie_platform (s : State) (d : Nat) (f : Die → Die) : (s.modDie d f).platform = s.platform := rfl
@[simp] theorem State.modDie_reports (s : State) (d : Nat) (f : Die → Die) : (s.modDie d f).reports = s.reports := rfl

/-! ### State.modMember -/

@[simp] theorem State.modMember_clk (s : State) (m : MemberId) (f : Member → Member) : (s.modMember m f).clk = s.clk := rfl
@[simp] theorem State.modMember_fresh (s : State) (m : MemberId) (f : Member → Member) : (s.modMember m f).fresh = s.fresh := rfl
@[simp] theorem State.modMember_focus (s : State) (m : MemberId) (f : Member → Member) : (s.modMember m f).focus = s.focus := rfl
@[simp] theorem State.modMember_subject (s : State) (m : MemberId) (f : Member → Member) : (s.modMember m f).subject = s.subject := rfl
@[simp] theorem State.modMember_agenda (s : State) (m : MemberId) (f : Member → Member) : (s.modMember m f).agenda = s.agenda := rfl
@[simp] theorem State.modMember_paused (s : State) (m : MemberId) (f : Member → Member) : (s.modMember m f).paused = s.paused := rfl
@[simp] theorem State.modMember_mem (s : State) (m : MemberId) (f : Member → Member) : (s.modMember m f).mem = s.mem := rfl
@[simp] theorem State.modMember_fe (s : State) (m : MemberId) (f : Member → Member) : (s.modMember m f).fe = s.fe := rfl
@[simp] theorem State.modMember_poison (s : State) (m : MemberId) (f : Member → Member) : (s.modMember m f).poison = s.poison := rfl
@[simp] theorem State.modMember_cores (s : State) (m : MemberId) (f : Member → Member) : (s.modMember m f).cores = s.cores := rfl
@[simp] theorem State.modMember_accesses (s : State) (m : MemberId) (f : Member → Member) : (s.modMember m f).accesses = s.accesses := rfl
@[simp] theorem State.modMember_nextId (s : State) (m : MemberId) (f : Member → Member) : (s.modMember m f).nextId = s.nextId := rfl
@[simp] theorem State.modMember_dies (s : State) (m : MemberId) (f : Member → Member) : (s.modMember m f).dies = s.dies := rfl
@[simp] theorem State.modMember_switches (s : State) (m : MemberId) (f : Member → Member) : (s.modMember m f).switches = s.switches := rfl
@[simp] theorem State.modMember_vds (s : State) (m : MemberId) (f : Member → Member) : (s.modMember m f).vds = s.vds := rfl
@[simp] theorem State.modMember_gc (s : State) (m : MemberId) (f : Member → Member) : (s.modMember m f).gc = s.gc := rfl
@[simp] theorem State.modMember_wicks (s : State) (m : MemberId) (f : Member → Member) : (s.modMember m f).wicks = s.wicks := rfl
@[simp] theorem State.modMember_migrations (s : State) (m : MemberId) (f : Member → Member) : (s.modMember m f).migrations = s.migrations := rfl
@[simp] theorem State.modMember_platform (s : State) (m : MemberId) (f : Member → Member) : (s.modMember m f).platform = s.platform := rfl
@[simp] theorem State.modMember_reports (s : State) (m : MemberId) (f : Member → Member) : (s.modMember m f).reports = s.reports := rfl

/-! ### State.modVd -/

@[simp] theorem State.modVd_clk (s : State) (n : Nat) (f : VD → VD) : (s.modVd n f).clk = s.clk := rfl
@[simp] theorem State.modVd_fresh (s : State) (n : Nat) (f : VD → VD) : (s.modVd n f).fresh = s.fresh := rfl
@[simp] theorem State.modVd_focus (s : State) (n : Nat) (f : VD → VD) : (s.modVd n f).focus = s.focus := rfl
@[simp] theorem State.modVd_subject (s : State) (n : Nat) (f : VD → VD) : (s.modVd n f).subject = s.subject := rfl
@[simp] theorem State.modVd_agenda (s : State) (n : Nat) (f : VD → VD) : (s.modVd n f).agenda = s.agenda := rfl
@[simp] theorem State.modVd_paused (s : State) (n : Nat) (f : VD → VD) : (s.modVd n f).paused = s.paused := rfl
@[simp] theorem State.modVd_mem (s : State) (n : Nat) (f : VD → VD) : (s.modVd n f).mem = s.mem := rfl
@[simp] theorem State.modVd_fe (s : State) (n : Nat) (f : VD → VD) : (s.modVd n f).fe = s.fe := rfl
@[simp] theorem State.modVd_poison (s : State) (n : Nat) (f : VD → VD) : (s.modVd n f).poison = s.poison := rfl
@[simp] theorem State.modVd_cores (s : State) (n : Nat) (f : VD → VD) : (s.modVd n f).cores = s.cores := rfl
@[simp] theorem State.modVd_accesses (s : State) (n : Nat) (f : VD → VD) : (s.modVd n f).accesses = s.accesses := rfl
@[simp] theorem State.modVd_nextId (s : State) (n : Nat) (f : VD → VD) : (s.modVd n f).nextId = s.nextId := rfl
@[simp] theorem State.modVd_dies (s : State) (n : Nat) (f : VD → VD) : (s.modVd n f).dies = s.dies := rfl
@[simp] theorem State.modVd_switches (s : State) (n : Nat) (f : VD → VD) : (s.modVd n f).switches = s.switches := rfl
@[simp] theorem State.modVd_members (s : State) (n : Nat) (f : VD → VD) : (s.modVd n f).members = s.members := rfl
@[simp] theorem State.modVd_gc (s : State) (n : Nat) (f : VD → VD) : (s.modVd n f).gc = s.gc := rfl
@[simp] theorem State.modVd_wicks (s : State) (n : Nat) (f : VD → VD) : (s.modVd n f).wicks = s.wicks := rfl
@[simp] theorem State.modVd_migrations (s : State) (n : Nat) (f : VD → VD) : (s.modVd n f).migrations = s.migrations := rfl
@[simp] theorem State.modVd_platform (s : State) (n : Nat) (f : VD → VD) : (s.modVd n f).platform = s.platform := rfl
@[simp] theorem State.modVd_reports (s : State) (n : Nat) (f : VD → VD) : (s.modVd n f).reports = s.reports := rfl

/-! ### State.modSwitch -/

@[simp] theorem State.modSwitch_clk (s : State) (n : Nat) (f : Switch → Switch) : (s.modSwitch n f).clk = s.clk := rfl
@[simp] theorem State.modSwitch_fresh (s : State) (n : Nat) (f : Switch → Switch) : (s.modSwitch n f).fresh = s.fresh := rfl
@[simp] theorem State.modSwitch_focus (s : State) (n : Nat) (f : Switch → Switch) : (s.modSwitch n f).focus = s.focus := rfl
@[simp] theorem State.modSwitch_subject (s : State) (n : Nat) (f : Switch → Switch) : (s.modSwitch n f).subject = s.subject := rfl
@[simp] theorem State.modSwitch_agenda (s : State) (n : Nat) (f : Switch → Switch) : (s.modSwitch n f).agenda = s.agenda := rfl
@[simp] theorem State.modSwitch_paused (s : State) (n : Nat) (f : Switch → Switch) : (s.modSwitch n f).paused = s.paused := rfl
@[simp] theorem State.modSwitch_mem (s : State) (n : Nat) (f : Switch → Switch) : (s.modSwitch n f).mem = s.mem := rfl
@[simp] theorem State.modSwitch_fe (s : State) (n : Nat) (f : Switch → Switch) : (s.modSwitch n f).fe = s.fe := rfl
@[simp] theorem State.modSwitch_poison (s : State) (n : Nat) (f : Switch → Switch) : (s.modSwitch n f).poison = s.poison := rfl
@[simp] theorem State.modSwitch_cores (s : State) (n : Nat) (f : Switch → Switch) : (s.modSwitch n f).cores = s.cores := rfl
@[simp] theorem State.modSwitch_accesses (s : State) (n : Nat) (f : Switch → Switch) : (s.modSwitch n f).accesses = s.accesses := rfl
@[simp] theorem State.modSwitch_nextId (s : State) (n : Nat) (f : Switch → Switch) : (s.modSwitch n f).nextId = s.nextId := rfl
@[simp] theorem State.modSwitch_dies (s : State) (n : Nat) (f : Switch → Switch) : (s.modSwitch n f).dies = s.dies := rfl
@[simp] theorem State.modSwitch_members (s : State) (n : Nat) (f : Switch → Switch) : (s.modSwitch n f).members = s.members := rfl
@[simp] theorem State.modSwitch_vds (s : State) (n : Nat) (f : Switch → Switch) : (s.modSwitch n f).vds = s.vds := rfl
@[simp] theorem State.modSwitch_gc (s : State) (n : Nat) (f : Switch → Switch) : (s.modSwitch n f).gc = s.gc := rfl
@[simp] theorem State.modSwitch_wicks (s : State) (n : Nat) (f : Switch → Switch) : (s.modSwitch n f).wicks = s.wicks := rfl
@[simp] theorem State.modSwitch_migrations (s : State) (n : Nat) (f : Switch → Switch) : (s.modSwitch n f).migrations = s.migrations := rfl
@[simp] theorem State.modSwitch_platform (s : State) (n : Nat) (f : Switch → Switch) : (s.modSwitch n f).platform = s.platform := rfl
@[simp] theorem State.modSwitch_reports (s : State) (n : Nat) (f : Switch → Switch) : (s.modSwitch n f).reports = s.reports := rfl

/-! ### State.modPlatform -/

@[simp] theorem State.modPlatform_clk (s : State) (f : Platform → Platform) : (s.modPlatform f).clk = s.clk := rfl
@[simp] theorem State.modPlatform_fresh (s : State) (f : Platform → Platform) : (s.modPlatform f).fresh = s.fresh := rfl
@[simp] theorem State.modPlatform_focus (s : State) (f : Platform → Platform) : (s.modPlatform f).focus = s.focus := rfl
@[simp] theorem State.modPlatform_subject (s : State) (f : Platform → Platform) : (s.modPlatform f).subject = s.subject := rfl
@[simp] theorem State.modPlatform_agenda (s : State) (f : Platform → Platform) : (s.modPlatform f).agenda = s.agenda := rfl
@[simp] theorem State.modPlatform_paused (s : State) (f : Platform → Platform) : (s.modPlatform f).paused = s.paused := rfl
@[simp] theorem State.modPlatform_mem (s : State) (f : Platform → Platform) : (s.modPlatform f).mem = s.mem := rfl
@[simp] theorem State.modPlatform_fe (s : State) (f : Platform → Platform) : (s.modPlatform f).fe = s.fe := rfl
@[simp] theorem State.modPlatform_poison (s : State) (f : Platform → Platform) : (s.modPlatform f).poison = s.poison := rfl
@[simp] theorem State.modPlatform_cores (s : State) (f : Platform → Platform) : (s.modPlatform f).cores = s.cores := rfl
@[simp] theorem State.modPlatform_accesses (s : State) (f : Platform → Platform) : (s.modPlatform f).accesses = s.accesses := rfl
@[simp] theorem State.modPlatform_nextId (s : State) (f : Platform → Platform) : (s.modPlatform f).nextId = s.nextId := rfl
@[simp] theorem State.modPlatform_dies (s : State) (f : Platform → Platform) : (s.modPlatform f).dies = s.dies := rfl
@[simp] theorem State.modPlatform_switches (s : State) (f : Platform → Platform) : (s.modPlatform f).switches = s.switches := rfl
@[simp] theorem State.modPlatform_members (s : State) (f : Platform → Platform) : (s.modPlatform f).members = s.members := rfl
@[simp] theorem State.modPlatform_vds (s : State) (f : Platform → Platform) : (s.modPlatform f).vds = s.vds := rfl
@[simp] theorem State.modPlatform_gc (s : State) (f : Platform → Platform) : (s.modPlatform f).gc = s.gc := rfl
@[simp] theorem State.modPlatform_wicks (s : State) (f : Platform → Platform) : (s.modPlatform f).wicks = s.wicks := rfl
@[simp] theorem State.modPlatform_migrations (s : State) (f : Platform → Platform) : (s.modPlatform f).migrations = s.migrations := rfl
@[simp] theorem State.modPlatform_reports (s : State) (f : Platform → Platform) : (s.modPlatform f).reports = s.reports := rfl

/-! ### State.modWick -/

@[simp] theorem State.modWick_clk (s : State) (w : Nat) (f : Wick → Wick) : (s.modWick w f).clk = s.clk := rfl
@[simp] theorem State.modWick_fresh (s : State) (w : Nat) (f : Wick → Wick) : (s.modWick w f).fresh = s.fresh := rfl
@[simp] theorem State.modWick_focus (s : State) (w : Nat) (f : Wick → Wick) : (s.modWick w f).focus = s.focus := rfl
@[simp] theorem State.modWick_subject (s : State) (w : Nat) (f : Wick → Wick) : (s.modWick w f).subject = s.subject := rfl
@[simp] theorem State.modWick_agenda (s : State) (w : Nat) (f : Wick → Wick) : (s.modWick w f).agenda = s.agenda := rfl
@[simp] theorem State.modWick_paused (s : State) (w : Nat) (f : Wick → Wick) : (s.modWick w f).paused = s.paused := rfl
@[simp] theorem State.modWick_mem (s : State) (w : Nat) (f : Wick → Wick) : (s.modWick w f).mem = s.mem := rfl
@[simp] theorem State.modWick_fe (s : State) (w : Nat) (f : Wick → Wick) : (s.modWick w f).fe = s.fe := rfl
@[simp] theorem State.modWick_poison (s : State) (w : Nat) (f : Wick → Wick) : (s.modWick w f).poison = s.poison := rfl
@[simp] theorem State.modWick_cores (s : State) (w : Nat) (f : Wick → Wick) : (s.modWick w f).cores = s.cores := rfl
@[simp] theorem State.modWick_accesses (s : State) (w : Nat) (f : Wick → Wick) : (s.modWick w f).accesses = s.accesses := rfl
@[simp] theorem State.modWick_nextId (s : State) (w : Nat) (f : Wick → Wick) : (s.modWick w f).nextId = s.nextId := rfl
@[simp] theorem State.modWick_dies (s : State) (w : Nat) (f : Wick → Wick) : (s.modWick w f).dies = s.dies := rfl
@[simp] theorem State.modWick_switches (s : State) (w : Nat) (f : Wick → Wick) : (s.modWick w f).switches = s.switches := rfl
@[simp] theorem State.modWick_members (s : State) (w : Nat) (f : Wick → Wick) : (s.modWick w f).members = s.members := rfl
@[simp] theorem State.modWick_vds (s : State) (w : Nat) (f : Wick → Wick) : (s.modWick w f).vds = s.vds := rfl
@[simp] theorem State.modWick_gc (s : State) (w : Nat) (f : Wick → Wick) : (s.modWick w f).gc = s.gc := rfl
@[simp] theorem State.modWick_migrations (s : State) (w : Nat) (f : Wick → Wick) : (s.modWick w f).migrations = s.migrations := rfl
@[simp] theorem State.modWick_platform (s : State) (w : Nat) (f : Wick → Wick) : (s.modWick w f).platform = s.platform := rfl
@[simp] theorem State.modWick_reports (s : State) (w : Nat) (f : Wick → Wick) : (s.modWick w f).reports = s.reports := rfl

/-! ### State.setBox -/

@[simp] theorem State.setBox_clk (s : State) (w : Nat) (l : List (List Dword)) : (s.setBox w l).clk = s.clk := rfl
@[simp] theorem State.setBox_fresh (s : State) (w : Nat) (l : List (List Dword)) : (s.setBox w l).fresh = s.fresh := rfl
@[simp] theorem State.setBox_focus (s : State) (w : Nat) (l : List (List Dword)) : (s.setBox w l).focus = s.focus := rfl
@[simp] theorem State.setBox_subject (s : State) (w : Nat) (l : List (List Dword)) : (s.setBox w l).subject = s.subject := rfl
@[simp] theorem State.setBox_agenda (s : State) (w : Nat) (l : List (List Dword)) : (s.setBox w l).agenda = s.agenda := rfl
@[simp] theorem State.setBox_paused (s : State) (w : Nat) (l : List (List Dword)) : (s.setBox w l).paused = s.paused := rfl
@[simp] theorem State.setBox_mem (s : State) (w : Nat) (l : List (List Dword)) : (s.setBox w l).mem = s.mem := rfl
@[simp] theorem State.setBox_fe (s : State) (w : Nat) (l : List (List Dword)) : (s.setBox w l).fe = s.fe := rfl
@[simp] theorem State.setBox_poison (s : State) (w : Nat) (l : List (List Dword)) : (s.setBox w l).poison = s.poison := rfl
@[simp] theorem State.setBox_cores (s : State) (w : Nat) (l : List (List Dword)) : (s.setBox w l).cores = s.cores := rfl
@[simp] theorem State.setBox_accesses (s : State) (w : Nat) (l : List (List Dword)) : (s.setBox w l).accesses = s.accesses := rfl
@[simp] theorem State.setBox_nextId (s : State) (w : Nat) (l : List (List Dword)) : (s.setBox w l).nextId = s.nextId := rfl
@[simp] theorem State.setBox_dies (s : State) (w : Nat) (l : List (List Dword)) : (s.setBox w l).dies = s.dies := rfl
@[simp] theorem State.setBox_switches (s : State) (w : Nat) (l : List (List Dword)) : (s.setBox w l).switches = s.switches := rfl
@[simp] theorem State.setBox_members (s : State) (w : Nat) (l : List (List Dword)) : (s.setBox w l).members = s.members := rfl
@[simp] theorem State.setBox_vds (s : State) (w : Nat) (l : List (List Dword)) : (s.setBox w l).vds = s.vds := rfl
@[simp] theorem State.setBox_gc (s : State) (w : Nat) (l : List (List Dword)) : (s.setBox w l).gc = s.gc := rfl
@[simp] theorem State.setBox_migrations (s : State) (w : Nat) (l : List (List Dword)) : (s.setBox w l).migrations = s.migrations := rfl
@[simp] theorem State.setBox_platform (s : State) (w : Nat) (l : List (List Dword)) : (s.setBox w l).platform = s.platform := rfl
@[simp] theorem State.setBox_reports (s : State) (w : Nat) (l : List (List Dword)) : (s.setBox w l).reports = s.reports := rfl

/-! ### State.due -/

@[simp] theorem State.due_clk (s : State) (t : Nat) (a : Act) : (s.due t a).clk = s.clk := rfl
@[simp] theorem State.due_fresh (s : State) (t : Nat) (a : Act) : (s.due t a).fresh = s.fresh := rfl
@[simp] theorem State.due_focus (s : State) (t : Nat) (a : Act) : (s.due t a).focus = s.focus := rfl
@[simp] theorem State.due_subject (s : State) (t : Nat) (a : Act) : (s.due t a).subject = s.subject := rfl
@[simp] theorem State.due_paused (s : State) (t : Nat) (a : Act) : (s.due t a).paused = s.paused := rfl
@[simp] theorem State.due_mem (s : State) (t : Nat) (a : Act) : (s.due t a).mem = s.mem := rfl
@[simp] theorem State.due_fe (s : State) (t : Nat) (a : Act) : (s.due t a).fe = s.fe := rfl
@[simp] theorem State.due_poison (s : State) (t : Nat) (a : Act) : (s.due t a).poison = s.poison := rfl
@[simp] theorem State.due_cores (s : State) (t : Nat) (a : Act) : (s.due t a).cores = s.cores := rfl
@[simp] theorem State.due_accesses (s : State) (t : Nat) (a : Act) : (s.due t a).accesses = s.accesses := rfl
@[simp] theorem State.due_nextId (s : State) (t : Nat) (a : Act) : (s.due t a).nextId = s.nextId := rfl
@[simp] theorem State.due_dies (s : State) (t : Nat) (a : Act) : (s.due t a).dies = s.dies := rfl
@[simp] theorem State.due_switches (s : State) (t : Nat) (a : Act) : (s.due t a).switches = s.switches := rfl
@[simp] theorem State.due_members (s : State) (t : Nat) (a : Act) : (s.due t a).members = s.members := rfl
@[simp] theorem State.due_vds (s : State) (t : Nat) (a : Act) : (s.due t a).vds = s.vds := rfl
@[simp] theorem State.due_gc (s : State) (t : Nat) (a : Act) : (s.due t a).gc = s.gc := rfl
@[simp] theorem State.due_wicks (s : State) (t : Nat) (a : Act) : (s.due t a).wicks = s.wicks := rfl
@[simp] theorem State.due_migrations (s : State) (t : Nat) (a : Act) : (s.due t a).migrations = s.migrations := rfl
@[simp] theorem State.due_platform (s : State) (t : Nat) (a : Act) : (s.due t a).platform = s.platform := rfl
@[simp] theorem State.due_reports (s : State) (t : Nat) (a : Act) : (s.due t a).reports = s.reports := rfl

/-! ### State.after -/

@[simp] theorem State.after_clk (s : State) (n : Nat) (i : Instr) (o : Subject) : (s.after n i o).clk = s.clk := rfl
@[simp] theorem State.after_fresh (s : State) (n : Nat) (i : Instr) (o : Subject) : (s.after n i o).fresh = s.fresh := rfl
@[simp] theorem State.after_focus (s : State) (n : Nat) (i : Instr) (o : Subject) : (s.after n i o).focus = s.focus := rfl
@[simp] theorem State.after_subject (s : State) (n : Nat) (i : Instr) (o : Subject) : (s.after n i o).subject = s.subject := rfl
@[simp] theorem State.after_paused (s : State) (n : Nat) (i : Instr) (o : Subject) : (s.after n i o).paused = s.paused := rfl
@[simp] theorem State.after_mem (s : State) (n : Nat) (i : Instr) (o : Subject) : (s.after n i o).mem = s.mem := rfl
@[simp] theorem State.after_fe (s : State) (n : Nat) (i : Instr) (o : Subject) : (s.after n i o).fe = s.fe := rfl
@[simp] theorem State.after_poison (s : State) (n : Nat) (i : Instr) (o : Subject) : (s.after n i o).poison = s.poison := rfl
@[simp] theorem State.after_cores (s : State) (n : Nat) (i : Instr) (o : Subject) : (s.after n i o).cores = s.cores := rfl
@[simp] theorem State.after_accesses (s : State) (n : Nat) (i : Instr) (o : Subject) : (s.after n i o).accesses = s.accesses := rfl
@[simp] theorem State.after_nextId (s : State) (n : Nat) (i : Instr) (o : Subject) : (s.after n i o).nextId = s.nextId := rfl
@[simp] theorem State.after_dies (s : State) (n : Nat) (i : Instr) (o : Subject) : (s.after n i o).dies = s.dies := rfl
@[simp] theorem State.after_switches (s : State) (n : Nat) (i : Instr) (o : Subject) : (s.after n i o).switches = s.switches := rfl
@[simp] theorem State.after_members (s : State) (n : Nat) (i : Instr) (o : Subject) : (s.after n i o).members = s.members := rfl
@[simp] theorem State.after_vds (s : State) (n : Nat) (i : Instr) (o : Subject) : (s.after n i o).vds = s.vds := rfl
@[simp] theorem State.after_gc (s : State) (n : Nat) (i : Instr) (o : Subject) : (s.after n i o).gc = s.gc := rfl
@[simp] theorem State.after_wicks (s : State) (n : Nat) (i : Instr) (o : Subject) : (s.after n i o).wicks = s.wicks := rfl
@[simp] theorem State.after_migrations (s : State) (n : Nat) (i : Instr) (o : Subject) : (s.after n i o).migrations = s.migrations := rfl
@[simp] theorem State.after_platform (s : State) (n : Nat) (i : Instr) (o : Subject) : (s.after n i o).platform = s.platform := rfl
@[simp] theorem State.after_reports (s : State) (n : Nat) (i : Instr) (o : Subject) : (s.after n i o).reports = s.reports := rfl

/-! ### State.report -/

@[simp] theorem State.report_clk (s : State) (r : Report) : (s.report r).clk = s.clk := rfl
@[simp] theorem State.report_fresh (s : State) (r : Report) : (s.report r).fresh = s.fresh := rfl
@[simp] theorem State.report_focus (s : State) (r : Report) : (s.report r).focus = s.focus := rfl
@[simp] theorem State.report_subject (s : State) (r : Report) : (s.report r).subject = s.subject := rfl
@[simp] theorem State.report_agenda (s : State) (r : Report) : (s.report r).agenda = s.agenda := rfl
@[simp] theorem State.report_paused (s : State) (r : Report) : (s.report r).paused = s.paused := rfl
@[simp] theorem State.report_mem (s : State) (r : Report) : (s.report r).mem = s.mem := rfl
@[simp] theorem State.report_fe (s : State) (r : Report) : (s.report r).fe = s.fe := rfl
@[simp] theorem State.report_poison (s : State) (r : Report) : (s.report r).poison = s.poison := rfl
@[simp] theorem State.report_cores (s : State) (r : Report) : (s.report r).cores = s.cores := rfl
@[simp] theorem State.report_accesses (s : State) (r : Report) : (s.report r).accesses = s.accesses := rfl
@[simp] theorem State.report_nextId (s : State) (r : Report) : (s.report r).nextId = s.nextId := rfl
@[simp] theorem State.report_dies (s : State) (r : Report) : (s.report r).dies = s.dies := rfl
@[simp] theorem State.report_switches (s : State) (r : Report) : (s.report r).switches = s.switches := rfl
@[simp] theorem State.report_members (s : State) (r : Report) : (s.report r).members = s.members := rfl
@[simp] theorem State.report_vds (s : State) (r : Report) : (s.report r).vds = s.vds := rfl
@[simp] theorem State.report_gc (s : State) (r : Report) : (s.report r).gc = s.gc := rfl
@[simp] theorem State.report_wicks (s : State) (r : Report) : (s.report r).wicks = s.wicks := rfl
@[simp] theorem State.report_migrations (s : State) (r : Report) : (s.report r).migrations = s.migrations := rfl
@[simp] theorem State.report_platform (s : State) (r : Report) : (s.report r).platform = s.platform := rfl

/-! ### State.draw -/

@[simp] theorem State.draw_clk (s : State) : s.draw.clk = s.clk := rfl
@[simp] theorem State.draw_focus (s : State) : s.draw.focus = s.focus := rfl
@[simp] theorem State.draw_subject (s : State) : s.draw.subject = s.subject := rfl
@[simp] theorem State.draw_agenda (s : State) : s.draw.agenda = s.agenda := rfl
@[simp] theorem State.draw_paused (s : State) : s.draw.paused = s.paused := rfl
@[simp] theorem State.draw_mem (s : State) : s.draw.mem = s.mem := rfl
@[simp] theorem State.draw_fe (s : State) : s.draw.fe = s.fe := rfl
@[simp] theorem State.draw_poison (s : State) : s.draw.poison = s.poison := rfl
@[simp] theorem State.draw_cores (s : State) : s.draw.cores = s.cores := rfl
@[simp] theorem State.draw_accesses (s : State) : s.draw.accesses = s.accesses := rfl
@[simp] theorem State.draw_nextId (s : State) : s.draw.nextId = s.nextId := rfl
@[simp] theorem State.draw_dies (s : State) : s.draw.dies = s.dies := rfl
@[simp] theorem State.draw_switches (s : State) : s.draw.switches = s.switches := rfl
@[simp] theorem State.draw_members (s : State) : s.draw.members = s.members := rfl
@[simp] theorem State.draw_vds (s : State) : s.draw.vds = s.vds := rfl
@[simp] theorem State.draw_gc (s : State) : s.draw.gc = s.gc := rfl
@[simp] theorem State.draw_wicks (s : State) : s.draw.wicks = s.wicks := rfl
@[simp] theorem State.draw_migrations (s : State) : s.draw.migrations = s.migrations := rfl
@[simp] theorem State.draw_platform (s : State) : s.draw.platform = s.platform := rfl
@[simp] theorem State.draw_reports (s : State) : s.draw.reports = s.reports := rfl

/-! ### State.store -/

@[simp] theorem State.store_clk (s : State) (a : Nat) (l : List Byte) : (s.store a l).clk = s.clk := rfl
@[simp] theorem State.store_fresh (s : State) (a : Nat) (l : List Byte) : (s.store a l).fresh = s.fresh := rfl
@[simp] theorem State.store_focus (s : State) (a : Nat) (l : List Byte) : (s.store a l).focus = s.focus := rfl
@[simp] theorem State.store_subject (s : State) (a : Nat) (l : List Byte) : (s.store a l).subject = s.subject := rfl
@[simp] theorem State.store_agenda (s : State) (a : Nat) (l : List Byte) : (s.store a l).agenda = s.agenda := rfl
@[simp] theorem State.store_paused (s : State) (a : Nat) (l : List Byte) : (s.store a l).paused = s.paused := rfl
@[simp] theorem State.store_fe (s : State) (a : Nat) (l : List Byte) : (s.store a l).fe = s.fe := rfl
@[simp] theorem State.store_cores (s : State) (a : Nat) (l : List Byte) : (s.store a l).cores = s.cores := rfl
@[simp] theorem State.store_accesses (s : State) (a : Nat) (l : List Byte) : (s.store a l).accesses = s.accesses := rfl
@[simp] theorem State.store_nextId (s : State) (a : Nat) (l : List Byte) : (s.store a l).nextId = s.nextId := rfl
@[simp] theorem State.store_dies (s : State) (a : Nat) (l : List Byte) : (s.store a l).dies = s.dies := rfl
@[simp] theorem State.store_switches (s : State) (a : Nat) (l : List Byte) : (s.store a l).switches = s.switches := rfl
@[simp] theorem State.store_members (s : State) (a : Nat) (l : List Byte) : (s.store a l).members = s.members := rfl
@[simp] theorem State.store_vds (s : State) (a : Nat) (l : List Byte) : (s.store a l).vds = s.vds := rfl
@[simp] theorem State.store_gc (s : State) (a : Nat) (l : List Byte) : (s.store a l).gc = s.gc := rfl
@[simp] theorem State.store_wicks (s : State) (a : Nat) (l : List Byte) : (s.store a l).wicks = s.wicks := rfl
@[simp] theorem State.store_migrations (s : State) (a : Nat) (l : List Byte) : (s.store a l).migrations = s.migrations := rfl
@[simp] theorem State.store_platform (s : State) (a : Nat) (l : List Byte) : (s.store a l).platform = s.platform := rfl
@[simp] theorem State.store_reports (s : State) (a : Nat) (l : List Byte) : (s.store a l).reports = s.reports := rfl

/-! ### State.setAccess -/

@[simp] theorem State.setAccess_clk (s : State) (a : Access) : (s.setAccess a).clk = s.clk := rfl
@[simp] theorem State.setAccess_fresh (s : State) (a : Access) : (s.setAccess a).fresh = s.fresh := rfl
@[simp] theorem State.setAccess_focus (s : State) (a : Access) : (s.setAccess a).focus = s.focus := rfl
@[simp] theorem State.setAccess_subject (s : State) (a : Access) : (s.setAccess a).subject = s.subject := rfl
@[simp] theorem State.setAccess_agenda (s : State) (a : Access) : (s.setAccess a).agenda = s.agenda := rfl
@[simp] theorem State.setAccess_paused (s : State) (a : Access) : (s.setAccess a).paused = s.paused := rfl
@[simp] theorem State.setAccess_mem (s : State) (a : Access) : (s.setAccess a).mem = s.mem := rfl
@[simp] theorem State.setAccess_fe (s : State) (a : Access) : (s.setAccess a).fe = s.fe := rfl
@[simp] theorem State.setAccess_poison (s : State) (a : Access) : (s.setAccess a).poison = s.poison := rfl
@[simp] theorem State.setAccess_cores (s : State) (a : Access) : (s.setAccess a).cores = s.cores := rfl
@[simp] theorem State.setAccess_nextId (s : State) (a : Access) : (s.setAccess a).nextId = s.nextId := rfl
@[simp] theorem State.setAccess_dies (s : State) (a : Access) : (s.setAccess a).dies = s.dies := rfl
@[simp] theorem State.setAccess_switches (s : State) (a : Access) : (s.setAccess a).switches = s.switches := rfl
@[simp] theorem State.setAccess_members (s : State) (a : Access) : (s.setAccess a).members = s.members := rfl
@[simp] theorem State.setAccess_vds (s : State) (a : Access) : (s.setAccess a).vds = s.vds := rfl
@[simp] theorem State.setAccess_gc (s : State) (a : Access) : (s.setAccess a).gc = s.gc := rfl
@[simp] theorem State.setAccess_wicks (s : State) (a : Access) : (s.setAccess a).wicks = s.wicks := rfl
@[simp] theorem State.setAccess_migrations (s : State) (a : Access) : (s.setAccess a).migrations = s.migrations := rfl
@[simp] theorem State.setAccess_platform (s : State) (a : Access) : (s.setAccess a).platform = s.platform := rfl
@[simp] theorem State.setAccess_reports (s : State) (a : Access) : (s.setAccess a).reports = s.reports := rfl

/-! ### State.dropAccess -/

@[simp] theorem State.dropAccess_clk (s : State) (n : Nat) : (s.dropAccess n).clk = s.clk := rfl
@[simp] theorem State.dropAccess_fresh (s : State) (n : Nat) : (s.dropAccess n).fresh = s.fresh := rfl
@[simp] theorem State.dropAccess_focus (s : State) (n : Nat) : (s.dropAccess n).focus = s.focus := rfl
@[simp] theorem State.dropAccess_subject (s : State) (n : Nat) : (s.dropAccess n).subject = s.subject := rfl
@[simp] theorem State.dropAccess_agenda (s : State) (n : Nat) : (s.dropAccess n).agenda = s.agenda := rfl
@[simp] theorem State.dropAccess_paused (s : State) (n : Nat) : (s.dropAccess n).paused = s.paused := rfl
@[simp] theorem State.dropAccess_mem (s : State) (n : Nat) : (s.dropAccess n).mem = s.mem := rfl
@[simp] theorem State.dropAccess_fe (s : State) (n : Nat) : (s.dropAccess n).fe = s.fe := rfl
@[simp] theorem State.dropAccess_poison (s : State) (n : Nat) : (s.dropAccess n).poison = s.poison := rfl
@[simp] theorem State.dropAccess_cores (s : State) (n : Nat) : (s.dropAccess n).cores = s.cores := rfl
@[simp] theorem State.dropAccess_nextId (s : State) (n : Nat) : (s.dropAccess n).nextId = s.nextId := rfl
@[simp] theorem State.dropAccess_dies (s : State) (n : Nat) : (s.dropAccess n).dies = s.dies := rfl
@[simp] theorem State.dropAccess_switches (s : State) (n : Nat) : (s.dropAccess n).switches = s.switches := rfl
@[simp] theorem State.dropAccess_members (s : State) (n : Nat) : (s.dropAccess n).members = s.members := rfl
@[simp] theorem State.dropAccess_vds (s : State) (n : Nat) : (s.dropAccess n).vds = s.vds := rfl
@[simp] theorem State.dropAccess_gc (s : State) (n : Nat) : (s.dropAccess n).gc = s.gc := rfl
@[simp] theorem State.dropAccess_wicks (s : State) (n : Nat) : (s.dropAccess n).wicks = s.wicks := rfl
@[simp] theorem State.dropAccess_migrations (s : State) (n : Nat) : (s.dropAccess n).migrations = s.migrations := rfl
@[simp] theorem State.dropAccess_platform (s : State) (n : Nat) : (s.dropAccess n).platform = s.platform := rfl
@[simp] theorem State.dropAccess_reports (s : State) (n : Nat) : (s.dropAccess n).reports = s.reports := rfl

/-! ### What the updates change -/

@[simp] theorem State.core_setCore (s : State) (k : CoreId) (c : Core) : (s.setCore k c).core k = c := by
  simp [State.core, State.setCore]
theorem State.core_setCore_other (s : State) {k j : CoreId} (c : Core) (h : coreKey j ≠ coreKey k) : (s.setCore k c).core j = s.core j := by
  simp [State.core, State.setCore, Tab.get_put_other _ _ _ h]
@[simp] theorem State.core_modCore (s : State) (k : CoreId) (f : Core → Core) : (s.modCore k f).core k = f (s.core k) := by
  simp [State.modCore]
theorem State.core_modCore_other (s : State) {k j : CoreId} (f : Core → Core) (h : coreKey j ≠ coreKey k) : (s.modCore k f).core j = s.core j :=
  State.core_setCore_other s _ h
@[simp] theorem State.die_modDie (s : State) (d : Nat) (f : Die → Die) : (s.modDie d f).die d = f (s.die d) := by
  simp [State.die, State.modDie]
theorem State.die_modDie_other (s : State) {d e : Nat} (f : Die → Die) (h : e ≠ d) : (s.modDie d f).die e = s.die e := by
  simp [State.die, State.modDie, Tab.get_put_other _ _ _ h]
@[simp] theorem State.member_modMember (s : State) (m : MemberId) (f : Member → Member) : (s.modMember m f).member m = f (s.member m) := by
  simp [State.member, State.modMember]
theorem State.member_modMember_other (s : State) {m n : MemberId} (f : Member → Member) (h : memberKey n ≠ memberKey m) :
    (s.modMember m f).member n = s.member n := by
  simp [State.member, State.modMember, Tab.get_put_other _ _ _ h]
@[simp] theorem State.vd_modVd (s : State) (n : Nat) (f : VD → VD) : (s.modVd n f).vd n = f (s.vd n) := by
  simp [State.vd, State.modVd]
theorem State.vd_modVd_other (s : State) {n m : Nat} (f : VD → VD) (h : m ≠ n) : (s.modVd n f).vd m = s.vd m := by
  simp [State.vd, State.modVd, Tab.get_put_other _ _ _ h]
@[simp] theorem State.switch_modSwitch (s : State) (n : Nat) (f : Switch → Switch) : (s.modSwitch n f).switch n = f (s.switch n) := by
  simp [State.switch, State.modSwitch]
@[simp] theorem State.platform_modPlatform (s : State) (f : Platform → Platform) : (s.modPlatform f).platform = f s.platform := rfl
@[simp] theorem State.wick_modWick (s : State) (w : Nat) (f : Wick → Wick) : (s.modWick w f).wick w = f (s.wick w) := by
  simp [State.wick, State.modWick]
@[simp] theorem State.box_setBox (s : State) (w : Nat) (l : List (List Dword)) : (s.setBox w l).box w = l := by
  simp [State.box, State.setBox]

/-! ### What the readers see through other updates -/

@[simp] theorem State.die_setCore (s : State) (k : CoreId) (c : Core) (d₂ : Nat) : (s.setCore k c).die d₂ = s.die d₂ := rfl
@[simp] theorem State.member_setCore (s : State) (k : CoreId) (c : Core) (m₂ : MemberId) : (s.setCore k c).member m₂ = s.member m₂ := rfl
@[simp] theorem State.vd_setCore (s : State) (k : CoreId) (c : Core) (n₂ : Nat) : (s.setCore k c).vd n₂ = s.vd n₂ := rfl
@[simp] theorem State.switch_setCore (s : State) (k : CoreId) (c : Core) (n₂ : Nat) : (s.setCore k c).switch n₂ = s.switch n₂ := rfl
@[simp] theorem State.wick_setCore (s : State) (k : CoreId) (c : Core) (w₂ : Nat) : (s.setCore k c).wick w₂ = s.wick w₂ := rfl
@[simp] theorem State.box_setCore (s : State) (k : CoreId) (c : Core) (w₂ : Nat) : (s.setCore k c).box w₂ = s.box w₂ := rfl
@[simp] theorem State.ctx_setCore (s : State) (k : CoreId) (c : Core) (k₂ : CoreId) : (s.setCore k c).ctx k₂ = s.ctx k₂ := rfl
@[simp] theorem State.ctxD_setCore (s : State) (k : CoreId) (c : Core) (k₂ : CoreId) : (s.setCore k c).ctxD k₂ = s.ctxD k₂ := rfl
@[simp] theorem State.delay_setCore (s : State) (k : CoreId) (c : Core) : (s.setCore k c).delay = s.delay := rfl
@[simp] theorem State.die_modCore (s : State) (k : CoreId) (f : Core → Core) (d₂ : Nat) : (s.modCore k f).die d₂ = s.die d₂ := rfl
@[simp] theorem State.member_modCore (s : State) (k : CoreId) (f : Core → Core) (m₂ : MemberId) : (s.modCore k f).member m₂ = s.member m₂ := rfl
@[simp] theorem State.vd_modCore (s : State) (k : CoreId) (f : Core → Core) (n₂ : Nat) : (s.modCore k f).vd n₂ = s.vd n₂ := rfl
@[simp] theorem State.switch_modCore (s : State) (k : CoreId) (f : Core → Core) (n₂ : Nat) : (s.modCore k f).switch n₂ = s.switch n₂ := rfl
@[simp] theorem State.wick_modCore (s : State) (k : CoreId) (f : Core → Core) (w₂ : Nat) : (s.modCore k f).wick w₂ = s.wick w₂ := rfl
@[simp] theorem State.box_modCore (s : State) (k : CoreId) (f : Core → Core) (w₂ : Nat) : (s.modCore k f).box w₂ = s.box w₂ := rfl
@[simp] theorem State.ctx_modCore (s : State) (k : CoreId) (f : Core → Core) (k₂ : CoreId) : (s.modCore k f).ctx k₂ = s.ctx k₂ := rfl
@[simp] theorem State.ctxD_modCore (s : State) (k : CoreId) (f : Core → Core) (k₂ : CoreId) : (s.modCore k f).ctxD k₂ = s.ctxD k₂ := rfl
@[simp] theorem State.delay_modCore (s : State) (k : CoreId) (f : Core → Core) : (s.modCore k f).delay = s.delay := rfl
@[simp] theorem State.core_modDie (s : State) (d : Nat) (f : Die → Die) (k₂ : CoreId) : (s.modDie d f).core k₂ = s.core k₂ := rfl
@[simp] theorem State.member_modDie (s : State) (d : Nat) (f : Die → Die) (m₂ : MemberId) : (s.modDie d f).member m₂ = s.member m₂ := rfl
@[simp] theorem State.vd_modDie (s : State) (d : Nat) (f : Die → Die) (n₂ : Nat) : (s.modDie d f).vd n₂ = s.vd n₂ := rfl
@[simp] theorem State.switch_modDie (s : State) (d : Nat) (f : Die → Die) (n₂ : Nat) : (s.modDie d f).switch n₂ = s.switch n₂ := rfl
@[simp] theorem State.wick_modDie (s : State) (d : Nat) (f : Die → Die) (w₂ : Nat) : (s.modDie d f).wick w₂ = s.wick w₂ := rfl
@[simp] theorem State.box_modDie (s : State) (d : Nat) (f : Die → Die) (w₂ : Nat) : (s.modDie d f).box w₂ = s.box w₂ := rfl
@[simp] theorem State.delay_modDie (s : State) (d : Nat) (f : Die → Die) : (s.modDie d f).delay = s.delay := rfl
@[simp] theorem State.core_modMember (s : State) (m : MemberId) (f : Member → Member) (k₂ : CoreId) : (s.modMember m f).core k₂ = s.core k₂ := rfl
@[simp] theorem State.die_modMember (s : State) (m : MemberId) (f : Member → Member) (d₂ : Nat) : (s.modMember m f).die d₂ = s.die d₂ := rfl
@[simp] theorem State.vd_modMember (s : State) (m : MemberId) (f : Member → Member) (n₂ : Nat) : (s.modMember m f).vd n₂ = s.vd n₂ := rfl
@[simp] theorem State.switch_modMember (s : State) (m : MemberId) (f : Member → Member) (n₂ : Nat) : (s.modMember m f).switch n₂ = s.switch n₂ := rfl
@[simp] theorem State.wick_modMember (s : State) (m : MemberId) (f : Member → Member) (w₂ : Nat) : (s.modMember m f).wick w₂ = s.wick w₂ := rfl
@[simp] theorem State.box_modMember (s : State) (m : MemberId) (f : Member → Member) (w₂ : Nat) : (s.modMember m f).box w₂ = s.box w₂ := rfl
@[simp] theorem State.ctx_modMember (s : State) (m : MemberId) (f : Member → Member) (k₂ : CoreId) : (s.modMember m f).ctx k₂ = s.ctx k₂ := rfl
@[simp] theorem State.ctxD_modMember (s : State) (m : MemberId) (f : Member → Member) (k₂ : CoreId) : (s.modMember m f).ctxD k₂ = s.ctxD k₂ := rfl
@[simp] theorem State.delay_modMember (s : State) (m : MemberId) (f : Member → Member) : (s.modMember m f).delay = s.delay := rfl
@[simp] theorem State.core_modVd (s : State) (n : Nat) (f : VD → VD) (k₂ : CoreId) : (s.modVd n f).core k₂ = s.core k₂ := rfl
@[simp] theorem State.die_modVd (s : State) (n : Nat) (f : VD → VD) (d₂ : Nat) : (s.modVd n f).die d₂ = s.die d₂ := rfl
@[simp] theorem State.member_modVd (s : State) (n : Nat) (f : VD → VD) (m₂ : MemberId) : (s.modVd n f).member m₂ = s.member m₂ := rfl
@[simp] theorem State.switch_modVd (s : State) (n : Nat) (f : VD → VD) (n₂ : Nat) : (s.modVd n f).switch n₂ = s.switch n₂ := rfl
@[simp] theorem State.wick_modVd (s : State) (n : Nat) (f : VD → VD) (w₂ : Nat) : (s.modVd n f).wick w₂ = s.wick w₂ := rfl
@[simp] theorem State.box_modVd (s : State) (n : Nat) (f : VD → VD) (w₂ : Nat) : (s.modVd n f).box w₂ = s.box w₂ := rfl
@[simp] theorem State.ctx_modVd (s : State) (n : Nat) (f : VD → VD) (k₂ : CoreId) : (s.modVd n f).ctx k₂ = s.ctx k₂ := rfl
@[simp] theorem State.ctxD_modVd (s : State) (n : Nat) (f : VD → VD) (k₂ : CoreId) : (s.modVd n f).ctxD k₂ = s.ctxD k₂ := rfl
@[simp] theorem State.delay_modVd (s : State) (n : Nat) (f : VD → VD) : (s.modVd n f).delay = s.delay := rfl
@[simp] theorem State.core_modSwitch (s : State) (n : Nat) (f : Switch → Switch) (k₂ : CoreId) : (s.modSwitch n f).core k₂ = s.core k₂ := rfl
@[simp] theorem State.die_modSwitch (s : State) (n : Nat) (f : Switch → Switch) (d₂ : Nat) : (s.modSwitch n f).die d₂ = s.die d₂ := rfl
@[simp] theorem State.member_modSwitch (s : State) (n : Nat) (f : Switch → Switch) (m₂ : MemberId) : (s.modSwitch n f).member m₂ = s.member m₂ := rfl
@[simp] theorem State.vd_modSwitch (s : State) (n : Nat) (f : Switch → Switch) (n₂ : Nat) : (s.modSwitch n f).vd n₂ = s.vd n₂ := rfl
@[simp] theorem State.wick_modSwitch (s : State) (n : Nat) (f : Switch → Switch) (w₂ : Nat) : (s.modSwitch n f).wick w₂ = s.wick w₂ := rfl
@[simp] theorem State.box_modSwitch (s : State) (n : Nat) (f : Switch → Switch) (w₂ : Nat) : (s.modSwitch n f).box w₂ = s.box w₂ := rfl
@[simp] theorem State.ctx_modSwitch (s : State) (n : Nat) (f : Switch → Switch) (k₂ : CoreId) : (s.modSwitch n f).ctx k₂ = s.ctx k₂ := rfl
@[simp] theorem State.ctxD_modSwitch (s : State) (n : Nat) (f : Switch → Switch) (k₂ : CoreId) : (s.modSwitch n f).ctxD k₂ = s.ctxD k₂ := rfl
@[simp] theorem State.delay_modSwitch (s : State) (n : Nat) (f : Switch → Switch) : (s.modSwitch n f).delay = s.delay := rfl
@[simp] theorem State.core_modPlatform (s : State) (f : Platform → Platform) (k₂ : CoreId) : (s.modPlatform f).core k₂ = s.core k₂ := rfl
@[simp] theorem State.die_modPlatform (s : State) (f : Platform → Platform) (d₂ : Nat) : (s.modPlatform f).die d₂ = s.die d₂ := rfl
@[simp] theorem State.member_modPlatform (s : State) (f : Platform → Platform) (m₂ : MemberId) : (s.modPlatform f).member m₂ = s.member m₂ := rfl
@[simp] theorem State.vd_modPlatform (s : State) (f : Platform → Platform) (n₂ : Nat) : (s.modPlatform f).vd n₂ = s.vd n₂ := rfl
@[simp] theorem State.switch_modPlatform (s : State) (f : Platform → Platform) (n₂ : Nat) : (s.modPlatform f).switch n₂ = s.switch n₂ := rfl
@[simp] theorem State.wick_modPlatform (s : State) (f : Platform → Platform) (w₂ : Nat) : (s.modPlatform f).wick w₂ = s.wick w₂ := rfl
@[simp] theorem State.box_modPlatform (s : State) (f : Platform → Platform) (w₂ : Nat) : (s.modPlatform f).box w₂ = s.box w₂ := rfl
@[simp] theorem State.ctx_modPlatform (s : State) (f : Platform → Platform) (k₂ : CoreId) : (s.modPlatform f).ctx k₂ = s.ctx k₂ := rfl
@[simp] theorem State.ctxD_modPlatform (s : State) (f : Platform → Platform) (k₂ : CoreId) : (s.modPlatform f).ctxD k₂ = s.ctxD k₂ := rfl
@[simp] theorem State.delay_modPlatform (s : State) (f : Platform → Platform) : (s.modPlatform f).delay = s.delay := rfl
@[simp] theorem State.core_modWick (s : State) (w : Nat) (f : Wick → Wick) (k₂ : CoreId) : (s.modWick w f).core k₂ = s.core k₂ := rfl
@[simp] theorem State.die_modWick (s : State) (w : Nat) (f : Wick → Wick) (d₂ : Nat) : (s.modWick w f).die d₂ = s.die d₂ := rfl
@[simp] theorem State.member_modWick (s : State) (w : Nat) (f : Wick → Wick) (m₂ : MemberId) : (s.modWick w f).member m₂ = s.member m₂ := rfl
@[simp] theorem State.vd_modWick (s : State) (w : Nat) (f : Wick → Wick) (n₂ : Nat) : (s.modWick w f).vd n₂ = s.vd n₂ := rfl
@[simp] theorem State.switch_modWick (s : State) (w : Nat) (f : Wick → Wick) (n₂ : Nat) : (s.modWick w f).switch n₂ = s.switch n₂ := rfl
@[simp] theorem State.ctx_modWick (s : State) (w : Nat) (f : Wick → Wick) (k₂ : CoreId) : (s.modWick w f).ctx k₂ = s.ctx k₂ := rfl
@[simp] theorem State.ctxD_modWick (s : State) (w : Nat) (f : Wick → Wick) (k₂ : CoreId) : (s.modWick w f).ctxD k₂ = s.ctxD k₂ := rfl
@[simp] theorem State.delay_modWick (s : State) (w : Nat) (f : Wick → Wick) : (s.modWick w f).delay = s.delay := rfl
@[simp] theorem State.core_setBox (s : State) (w : Nat) (l : List (List Dword)) (k₂ : CoreId) : (s.setBox w l).core k₂ = s.core k₂ := rfl
@[simp] theorem State.die_setBox (s : State) (w : Nat) (l : List (List Dword)) (d₂ : Nat) : (s.setBox w l).die d₂ = s.die d₂ := rfl
@[simp] theorem State.member_setBox (s : State) (w : Nat) (l : List (List Dword)) (m₂ : MemberId) : (s.setBox w l).member m₂ = s.member m₂ := rfl
@[simp] theorem State.vd_setBox (s : State) (w : Nat) (l : List (List Dword)) (n₂ : Nat) : (s.setBox w l).vd n₂ = s.vd n₂ := rfl
@[simp] theorem State.switch_setBox (s : State) (w : Nat) (l : List (List Dword)) (n₂ : Nat) : (s.setBox w l).switch n₂ = s.switch n₂ := rfl
@[simp] theorem State.ctx_setBox (s : State) (w : Nat) (l : List (List Dword)) (k₂ : CoreId) : (s.setBox w l).ctx k₂ = s.ctx k₂ := rfl
@[simp] theorem State.ctxD_setBox (s : State) (w : Nat) (l : List (List Dword)) (k₂ : CoreId) : (s.setBox w l).ctxD k₂ = s.ctxD k₂ := rfl
@[simp] theorem State.delay_setBox (s : State) (w : Nat) (l : List (List Dword)) : (s.setBox w l).delay = s.delay := rfl
@[simp] theorem State.core_due (s : State) (t : Nat) (a : Act) (k₂ : CoreId) : (s.due t a).core k₂ = s.core k₂ := rfl
@[simp] theorem State.die_due (s : State) (t : Nat) (a : Act) (d₂ : Nat) : (s.due t a).die d₂ = s.die d₂ := rfl
@[simp] theorem State.member_due (s : State) (t : Nat) (a : Act) (m₂ : MemberId) : (s.due t a).member m₂ = s.member m₂ := rfl
@[simp] theorem State.vd_due (s : State) (t : Nat) (a : Act) (n₂ : Nat) : (s.due t a).vd n₂ = s.vd n₂ := rfl
@[simp] theorem State.switch_due (s : State) (t : Nat) (a : Act) (n₂ : Nat) : (s.due t a).switch n₂ = s.switch n₂ := rfl
@[simp] theorem State.wick_due (s : State) (t : Nat) (a : Act) (w₂ : Nat) : (s.due t a).wick w₂ = s.wick w₂ := rfl
@[simp] theorem State.box_due (s : State) (t : Nat) (a : Act) (w₂ : Nat) : (s.due t a).box w₂ = s.box w₂ := rfl
@[simp] theorem State.ctx_due (s : State) (t : Nat) (a : Act) (k₂ : CoreId) : (s.due t a).ctx k₂ = s.ctx k₂ := rfl
@[simp] theorem State.ctxD_due (s : State) (t : Nat) (a : Act) (k₂ : CoreId) : (s.due t a).ctxD k₂ = s.ctxD k₂ := rfl
@[simp] theorem State.delay_due (s : State) (t : Nat) (a : Act) : (s.due t a).delay = s.delay := rfl
@[simp] theorem State.core_after (s : State) (n : Nat) (i : Instr) (o : Subject) (k₂ : CoreId) : (s.after n i o).core k₂ = s.core k₂ := rfl
@[simp] theorem State.die_after (s : State) (n : Nat) (i : Instr) (o : Subject) (d₂ : Nat) : (s.after n i o).die d₂ = s.die d₂ := rfl
@[simp] theorem State.member_after (s : State) (n : Nat) (i : Instr) (o : Subject) (m₂ : MemberId) : (s.after n i o).member m₂ = s.member m₂ := rfl
@[simp] theorem State.vd_after (s : State) (n : Nat) (i : Instr) (o : Subject) (n₂ : Nat) : (s.after n i o).vd n₂ = s.vd n₂ := rfl
@[simp] theorem State.switch_after (s : State) (n : Nat) (i : Instr) (o : Subject) (n₂ : Nat) : (s.after n i o).switch n₂ = s.switch n₂ := rfl
@[simp] theorem State.wick_after (s : State) (n : Nat) (i : Instr) (o : Subject) (w₂ : Nat) : (s.after n i o).wick w₂ = s.wick w₂ := rfl
@[simp] theorem State.box_after (s : State) (n : Nat) (i : Instr) (o : Subject) (w₂ : Nat) : (s.after n i o).box w₂ = s.box w₂ := rfl
@[simp] theorem State.ctx_after (s : State) (n : Nat) (i : Instr) (o : Subject) (k₂ : CoreId) : (s.after n i o).ctx k₂ = s.ctx k₂ := rfl
@[simp] theorem State.ctxD_after (s : State) (n : Nat) (i : Instr) (o : Subject) (k₂ : CoreId) : (s.after n i o).ctxD k₂ = s.ctxD k₂ := rfl
@[simp] theorem State.delay_after (s : State) (n : Nat) (i : Instr) (o : Subject) : (s.after n i o).delay = s.delay := rfl
@[simp] theorem State.core_report (s : State) (r : Report) (k₂ : CoreId) : (s.report r).core k₂ = s.core k₂ := rfl
@[simp] theorem State.die_report (s : State) (r : Report) (d₂ : Nat) : (s.report r).die d₂ = s.die d₂ := rfl
@[simp] theorem State.member_report (s : State) (r : Report) (m₂ : MemberId) : (s.report r).member m₂ = s.member m₂ := rfl
@[simp] theorem State.vd_report (s : State) (r : Report) (n₂ : Nat) : (s.report r).vd n₂ = s.vd n₂ := rfl
@[simp] theorem State.switch_report (s : State) (r : Report) (n₂ : Nat) : (s.report r).switch n₂ = s.switch n₂ := rfl
@[simp] theorem State.wick_report (s : State) (r : Report) (w₂ : Nat) : (s.report r).wick w₂ = s.wick w₂ := rfl
@[simp] theorem State.box_report (s : State) (r : Report) (w₂ : Nat) : (s.report r).box w₂ = s.box w₂ := rfl
@[simp] theorem State.ctx_report (s : State) (r : Report) (k₂ : CoreId) : (s.report r).ctx k₂ = s.ctx k₂ := rfl
@[simp] theorem State.ctxD_report (s : State) (r : Report) (k₂ : CoreId) : (s.report r).ctxD k₂ = s.ctxD k₂ := rfl
@[simp] theorem State.delay_report (s : State) (r : Report) : (s.report r).delay = s.delay := rfl
@[simp] theorem State.core_draw (s : State) (k₂ : CoreId) : s.draw.core k₂ = s.core k₂ := rfl
@[simp] theorem State.die_draw (s : State) (d₂ : Nat) : s.draw.die d₂ = s.die d₂ := rfl
@[simp] theorem State.member_draw (s : State) (m₂ : MemberId) : s.draw.member m₂ = s.member m₂ := rfl
@[simp] theorem State.vd_draw (s : State) (n₂ : Nat) : s.draw.vd n₂ = s.vd n₂ := rfl
@[simp] theorem State.switch_draw (s : State) (n₂ : Nat) : s.draw.switch n₂ = s.switch n₂ := rfl
@[simp] theorem State.wick_draw (s : State) (w₂ : Nat) : s.draw.wick w₂ = s.wick w₂ := rfl
@[simp] theorem State.box_draw (s : State) (w₂ : Nat) : s.draw.box w₂ = s.box w₂ := rfl
@[simp] theorem State.ctx_draw (s : State) (k₂ : CoreId) : s.draw.ctx k₂ = s.ctx k₂ := rfl
@[simp] theorem State.ctxD_draw (s : State) (k₂ : CoreId) : s.draw.ctxD k₂ = s.ctxD k₂ := rfl
@[simp] theorem State.core_store (s : State) (a : Nat) (l : List Byte) (k₂ : CoreId) : (s.store a l).core k₂ = s.core k₂ := rfl
@[simp] theorem State.die_store (s : State) (a : Nat) (l : List Byte) (d₂ : Nat) : (s.store a l).die d₂ = s.die d₂ := rfl
@[simp] theorem State.member_store (s : State) (a : Nat) (l : List Byte) (m₂ : MemberId) : (s.store a l).member m₂ = s.member m₂ := rfl
@[simp] theorem State.vd_store (s : State) (a : Nat) (l : List Byte) (n₂ : Nat) : (s.store a l).vd n₂ = s.vd n₂ := rfl
@[simp] theorem State.switch_store (s : State) (a : Nat) (l : List Byte) (n₂ : Nat) : (s.store a l).switch n₂ = s.switch n₂ := rfl
@[simp] theorem State.wick_store (s : State) (a : Nat) (l : List Byte) (w₂ : Nat) : (s.store a l).wick w₂ = s.wick w₂ := rfl
@[simp] theorem State.box_store (s : State) (a : Nat) (l : List Byte) (w₂ : Nat) : (s.store a l).box w₂ = s.box w₂ := rfl
@[simp] theorem State.ctx_store (s : State) (a : Nat) (l : List Byte) (k₂ : CoreId) : (s.store a l).ctx k₂ = s.ctx k₂ := rfl
@[simp] theorem State.ctxD_store (s : State) (a : Nat) (l : List Byte) (k₂ : CoreId) : (s.store a l).ctxD k₂ = s.ctxD k₂ := rfl
@[simp] theorem State.delay_store (s : State) (a : Nat) (l : List Byte) : (s.store a l).delay = s.delay := rfl
@[simp] theorem State.core_setAccess (s : State) (a : Access) (k₂ : CoreId) : (s.setAccess a).core k₂ = s.core k₂ := rfl
@[simp] theorem State.die_setAccess (s : State) (a : Access) (d₂ : Nat) : (s.setAccess a).die d₂ = s.die d₂ := rfl
@[simp] theorem State.member_setAccess (s : State) (a : Access) (m₂ : MemberId) : (s.setAccess a).member m₂ = s.member m₂ := rfl
@[simp] theorem State.vd_setAccess (s : State) (a : Access) (n₂ : Nat) : (s.setAccess a).vd n₂ = s.vd n₂ := rfl
@[simp] theorem State.switch_setAccess (s : State) (a : Access) (n₂ : Nat) : (s.setAccess a).switch n₂ = s.switch n₂ := rfl
@[simp] theorem State.wick_setAccess (s : State) (a : Access) (w₂ : Nat) : (s.setAccess a).wick w₂ = s.wick w₂ := rfl
@[simp] theorem State.box_setAccess (s : State) (a : Access) (w₂ : Nat) : (s.setAccess a).box w₂ = s.box w₂ := rfl
@[simp] theorem State.ctx_setAccess (s : State) (a : Access) (k₂ : CoreId) : (s.setAccess a).ctx k₂ = s.ctx k₂ := rfl
@[simp] theorem State.ctxD_setAccess (s : State) (a : Access) (k₂ : CoreId) : (s.setAccess a).ctxD k₂ = s.ctxD k₂ := rfl
@[simp] theorem State.delay_setAccess (s : State) (a : Access) : (s.setAccess a).delay = s.delay := rfl
@[simp] theorem State.core_dropAccess (s : State) (n : Nat) (k₂ : CoreId) : (s.dropAccess n).core k₂ = s.core k₂ := rfl
@[simp] theorem State.die_dropAccess (s : State) (n : Nat) (d₂ : Nat) : (s.dropAccess n).die d₂ = s.die d₂ := rfl
@[simp] theorem State.member_dropAccess (s : State) (n : Nat) (m₂ : MemberId) : (s.dropAccess n).member m₂ = s.member m₂ := rfl
@[simp] theorem State.vd_dropAccess (s : State) (n : Nat) (n₂ : Nat) : (s.dropAccess n).vd n₂ = s.vd n₂ := rfl
@[simp] theorem State.switch_dropAccess (s : State) (n : Nat) (n₂ : Nat) : (s.dropAccess n).switch n₂ = s.switch n₂ := rfl
@[simp] theorem State.wick_dropAccess (s : State) (n : Nat) (w₂ : Nat) : (s.dropAccess n).wick w₂ = s.wick w₂ := rfl
@[simp] theorem State.box_dropAccess (s : State) (n : Nat) (w₂ : Nat) : (s.dropAccess n).box w₂ = s.box w₂ := rfl
@[simp] theorem State.ctx_dropAccess (s : State) (n : Nat) (k₂ : CoreId) : (s.dropAccess n).ctx k₂ = s.ctx k₂ := rfl
@[simp] theorem State.ctxD_dropAccess (s : State) (n : Nat) (k₂ : CoreId) : (s.dropAccess n).ctxD k₂ = s.ctxD k₂ := rfl
@[simp] theorem State.delay_dropAccess (s : State) (n : Nat) : (s.dropAccess n).delay = s.delay := rfl

@[simp] theorem State.afterK_eq (s : State) (n : Nat) (i : Instr) (k : CoreId) : s.afterK n i k = s.after n i { k := k } := rfl
@[simp] theorem State.afterM_eq (s : State) (n : Nat) (i : Instr) (m : MemberId) (a : Nat) : s.afterM n i m a = s.after n i { m := m, a := a } := rfl
@[simp] theorem State.after_agenda (s : State) (n : Nat) (i : Instr) (o : Subject) :
    (s.after n i o).agenda = s.agenda ++ [⟨s.clk + n, .event i o⟩] := rfl
@[simp] theorem State.due_agenda (s : State) (t : Nat) (a : Act) : (s.due t a).agenda = s.agenda ++ [⟨t, a⟩] := rfl
@[simp] theorem State.report_reports (s : State) (r : Report) : (s.report r).reports = s.reports ++ [r] := rfl
@[simp] theorem State.draw_fresh (s : State) : s.draw.fresh = s.fresh + 1 := rfl
theorem State.store_mem (s : State) (a : Nat) (l : List Byte) : (s.store a l).mem = memPut s.mem a l := rfl

end Sys2Proof.Machine
end

