-- ==== Sys2Proof/Laws/Issue.lean ====
section
/-!
SUPPORT. Laws/Issue.lean: what the issue of one op alone can do: when it issues, and what issuing it changes.
-/
namespace Sys2Proof.Machine

theorem itGate_plain (c : Core) (sl : Slot) : itGate c (plainHeader sl) = true := by
  cases sl <;> simp [itGate, plainHeader, hdrIt, Slot.maskBit]

theorem hdrReserved_plain (sl : Slot) : hdrReserved (plainHeader sl) = false := by cases sl <;> decide

theorem hdrRp_plain (sl : Slot) : hdrRp (plainHeader sl) = false := by cases sl <;> decide

theorem hdrLe_plain (sl : Slot) : hdrLe (plainHeader sl) = false := by cases sl <;> decide

theorem hdrIdle_plain (sl : Slot) : hdrIdle (plainHeader sl) = 0 := by cases sl <;> decide

/-- What `ready` says, piece by piece. -/
theorem ready_iff {s : State} {h : Head} (hr : ready s h = true) :
    running s s.focus = true ∧ nswDue s s.focus = false ∧ s.here.gate = .none ∧ Tab.get false s.here.imemPoison s.here.pc = false
      ∧ (s.here.nestOn && decide (s.here.pc = s.here.nest.stop % 2048)) = false ∧ s.here.tagBusy h.tc0.toNat = false ∧ s.here.tagBusy h.tc1.toNat = false
      ∧ s.here.tagBusy h.ta.toNat = false ∧ s.here.waitFor = [] := by
  simp only [ready, Bool.and_eq_true, Bool.not_eq_true', decide_eq_true_eq, List.isEmpty_iff] at hr
  tauto

/-- Two writes that land in different clk do not clash. -/
theorem clashWith_none {old : List (Nat × Nat × Dest × Val)} {new : List (Nat × Dest × Val)}
    (h : ∀ e ∈ old, ∀ n ∈ new, n.1 ≠ e.1) : clashWith old new = none := by
  simp only [clashWith, Option.map_eq_none_iff, List.find?_eq_none, Bool.not_eq_true, List.any_eq_false,
    Bool.and_eq_true, decide_eq_true_eq, not_and]
  exact fun e he n hn h' => absurd h' (h e he n hn)

/-- With its tags ready and nothing to wait for, no interlock holds one op alone (R175, R271, R278). -/
theorem goes_on {o : OpSem} {s : State} (h6 : s.here.tagBusy o.head.tc0.toNat = false) (h7 : s.here.tagBusy o.head.tc1.toNat = false)
    (h8 : s.here.tagBusy o.head.ta.toNat = false) (h9 : s.here.waitFor = []) (hstall : o.stall s = false) (hord : o.order s = false)
    (hfifo : o.fifo s = false) :
    residentBy s s.focus true [o] = false ∧ stalledBy s s.focus true [o] = false ∧ orderHeld s s.focus true [o] = false := by
  simp [residentBy, stalledBy, orderHeld, h6, h7, h8, h9, hstall, hord, hfifo]

/-- One op alone issues when the core is ready and the op's own checks pass (R173 to R177, R390). -/
theorem runOne_issues (o : OpSem) (s : State) (hr : ready s o.head = true) (hact : o.vec = true ∨ holds s o.head = true)
    (hlev : o.level s.here.tl = none) (hwf : o.wf = true) (hstall : o.stall s = false) (hord : o.order s = false) (hfifo : o.fifo s = false)
    (hrec : ∀ a ∈ o.record s, recordReady s s.focus a = true) (hchk : o.check s = none)
    (hbusy : unitBusy s.here s.now o.unit = false)
    (hreads : latched s o.reads = true)
    (hclash : ∀ w ∈ (if (o.late s).isSome then [] else o.outs s (headMask s.here o.head) ++ o.spans s), clearAt s (s.now + w.1) = true) :
    runOne o s = .next (issueAll s.focus (plainHeader o.slot) true [o] s) := by
  obtain ⟨h1, h2, h3, h4, h5, h6, h7, h8, h9⟩ := ready_iff hr
  have hacts : acts (s.core s.focus) true o = true := by
    simp only [acts, Bool.true_and, Bool.or_eq_true]
    exact hact
  obtain ⟨hw1, hw2, hw3⟩ := goes_on (o := o) h6 h7 h8 h9 hstall hord hfifo
  have hrw : recordWait s s.focus true [o] = none := by
    have : (o.record s).find? (fun a => !recordReady s s.focus a) = none := by
      rw [List.find?_eq_none]
      intro a ha
      simp [hrec a ha]
    simp [recordWait, this]
  have hlat : o.reads.findSome? (latchFault s.here s.now) = none := by
    rw [List.findSome?_eq_none_iff]
    intro x hx
    simpa using List.all_eq_true.mp hreads x hx
  have hcl : clashWith (inFlight s.here ++ (bundleWrites s s.focus true [o]).filter (fun w => decide (w.2.1 ≠ o.slot.num)))
      ((if (o.late s).isSome then [] else o.outs s (headMask s.here o.head) ++ o.spans s).map fun w => (s.now + w.1, w.2)) = none := by
    apply clashWith_none
    intro e he n hn
    simp only [List.mem_map] at hn
    obtain ⟨w, hw, rfl⟩ := hn
    have hown : (bundleWrites s s.focus true [o]).filter (fun w => decide (w.2.1 ≠ o.slot.num)) = [] := by
      rw [List.filter_eq_nil_iff]
      intro x hx
      simp only [bundleWrites, List.flatMap_cons, List.flatMap_nil, List.append_nil] at hx
      split at hx
      · split at hx
        · simp at hx
        · simp only [List.mem_map] at hx
          obtain ⟨y, _, rfl⟩ := hx
          simp
      · simp at hx
    rw [hown, List.append_nil] at he
    have := List.all_eq_true.mp (hclash w hw) e he
    simp only [ne_eq, decide_eq_true_eq] at this
    exact fun h' => this h'.symm
  have htag : ((bundleTags [o]).find? fun t => decide (t.1 = o.head.ta.toNat ∧ t.2 ≠ o.slot.num)) = none := by
    rw [List.find?_eq_none]
    intro t ht
    simp only [bundleTags, List.mem_map, List.mem_filter, List.mem_singleton] at ht
    obtain ⟨x, ⟨rfl, _⟩, rfl⟩ := ht
    simp
  have hcause : bundleCause s s.focus true [o] = none := by
    have hne : (decide (o.slot = .A) && decide ([o].length ≠ 1)) = false := by simp
    simp only [bundleCause, List.findSome?_cons, List.findSome?_nil]
    have : opCause s s.focus true o (bundleWrites s s.focus true [o]) (bundleTags [o]) = none := by
      unfold opCause
      simp only [hlev, hwf, hacts, hchk, Bool.not_true, if_true, Bool.false_eq_true, if_false]
      rw [show schedOf s (s.core s.focus) = s.now from rfl, show s.core s.focus = s.here from rfl, hbusy, hlat]
      simp only [Bool.false_eq_true, if_false]
      rw [hcl]
      simp only []
      split
      · rfl
      · rw [htag]; rfl
    simp [this]
  have hout : issueOutcome s s.focus (plainHeader o.slot) [o] = .issue := by
    unfold issueOutcome
    simp only [itGate_plain, h2, hw1, hw2, hw3, hrw, hcause, Bool.false_eq_true, if_false]
    have hg : (s.core s.focus).gate = .none := h3
    have hp : Tab.get false (s.core s.focus).imemPoison (s.core s.focus).pc = false := h4
    have hn : ((s.core s.focus).nestOn && decide ((s.core s.focus).pc = (s.core s.focus).nest.stop % 2048)) = false := h5
    have hbad : hdrBad (s.core s.focus) (plainHeader o.slot) = false := by
      rw [hdrBad, hdrReserved_plain, hdrLe_plain]
      simpa [Bool.and_eq_false_iff] using hn
    have hsc : seqClash s s.focus (plainHeader o.slot) true [o] = none := by
      have : (!(s.core s.focus).nestOn || decide ((s.core s.focus).pc ≠ (s.core s.focus).nest.stop % 2048) || (s.core s.focus).nest.brk) = true := by
        simp only [Bool.and_eq_false_iff, decide_eq_false_iff_not] at hn
        rcases hn with hn | hn <;> simp [hn]
      simp only [seqClash, this, Bool.true_or, if_true]
    simp [hg, hp, hbad, hsc]
  simp [runOne, h1, issueOps, hout, itGate_plain]

/-- An op whose value is not bound as it acts leaves its latch entry as it was at issue (R222, R242). -/
@[simp] theorem boundEntry_plain (o : OpSem) (n : Nat) (c : Core) (hb : o.binds = false) : boundEntry [(n, o)] c = id := by
  funext e
  simp [boundEntry, hb]

/-- The latch entry of one op that acts (R84, R167). -/
def latchOne (s : State) (o : OpSem) : BundleRec :=
  match o.latch with
  | some l => latchOf s o.slot l (o.latchVal s (headMask s.here o.head))
  | none => []

/-- One op's results are sent: the state its effect starts from. -/
def sentState (s : State) (o : OpSem) : State :=
  ((s.takeIds 2).modCore s.focus Core.unwait0).modCore s.focus fun c =>
    (c.sendAll (o.sends s s.focus s.nextId) o.head.ta.toNat s.nextId).setBusy (o.busies s.now c.busy)

/-- The issue of one op that acts and raises no class-C trap, in its parts. -/
theorem issueAll_one (o : OpSem) (s : State) (hb : o.binds = false) (hact : acts s.here true o = true) (hlate : o.late s = none) :
    issueAll s.focus (plainHeader o.slot) true [o] s =
      (o.final (advance s s.focus (plainHeader o.slot) (o.ctl s) (s.nextId + 1) (o.effect s.nextId (sentState s o)))).modCore s.focus
        fun c => c.pushHist s.here.tl (latchOne s o) := by
  have h1 : acts (s.core s.focus) true o = true := hact
  have hrec : latchRec s s.focus true [(s.nextId, o)] = latchOne s o := by
    simp only [latchRec, List.filterMap_cons, List.filterMap_nil, h1, hlate, latchOne, latchOf]
    cases o.latch <;> simp
  have hctl : ([o].findSome? fun o => o.ctl s) = o.ctl s := by
    simp only [List.findSome?_cons, List.findSome?_nil]
    cases o.ctl s <;> rfl
  have hl : ([o].findSome? fun o => (o.late s).map fun e => (o.slot.num, e)) = none := by simp [hlate]
  have hf : [o].filter (acts (s.core s.focus) true) = [o] := by simp [h1]
  simp only [issueAll, numbered, hdrRp_plain, List.foldl_cons, List.foldl_nil, h1, if_true, hf, hctl, hl, List.length_singleton, hrec,
    Bool.false_eq_true, if_false, issueOp, hlate, Option.isSome_none, boundEntry_plain o _ _ hb, List.map_id]
  rfl

/-- One op alone issues, acts, and raises no class-C trap: the state it leaves (R173). -/
theorem runOne_one (o : OpSem) (s : State) (hb : o.binds = false) (hr : ready s o.head = true) (hact : o.vec = true ∨ holds s o.head = true)
    (hlev : o.level s.here.tl = none) (hwf : o.wf = true) (hstall : o.stall s = false) (hord : o.order s = false) (hfifo : o.fifo s = false)
    (hrec : ∀ a ∈ o.record s, recordReady s s.focus a = true) (hchk : o.check s = none)
    (hbusy : unitBusy s.here s.now o.unit = false) (hreads : latched s o.reads = true) (hlate : o.late s = none)
    (hclash : ∀ w ∈ o.outs s (headMask s.here o.head) ++ o.spans s, clearAt s (s.now + w.1) = true) :
    runOne o s = .next ((o.final (advance s s.focus (plainHeader o.slot) (o.ctl s) (s.nextId + 1) (o.effect s.nextId (sentState s o)))).modCore
      s.focus fun c => c.pushHist s.here.tl (latchOne s o)) := by
  have hac : acts s.here true o = true := by
    simp only [acts, Bool.true_and, Bool.or_eq_true]; exact hact
  rw [runOne_issues o s hr hact hlev hwf hstall hord hfifo hrec hchk hbusy hreads (by simpa [hlate] using hclash), issueAll_one o s hb hac hlate]

/-- One op alone whose class-C trap is raised (R389): it has issued, and has written nothing. -/
theorem runOne_late (o : OpSem) (s : State) (cause : Nat) (v : Dword) (hr : ready s o.head = true)
    (hact : o.vec = true ∨ holds s o.head = true)
    (hlev : o.level s.here.tl = none) (hwf : o.wf = true) (hstall : o.stall s = false) (hord : o.order s = false) (hfifo : o.fifo s = false)
    (hrec : ∀ a ∈ o.record s, recordReady s s.focus a = true) (hchk : o.check s = none)
    (hbusy : unitBusy s.here s.now o.unit = false) (hreads : latched s o.reads = true) (hlate : o.late s = some (cause, v)) :
    runOne o s = .next (raiseTrap (((o.final (advance s s.focus (plainHeader o.slot) (o.ctl s) (s.nextId + 1)
      ((s.takeIds 2).modCore s.focus Core.unwait0))).modCore s.focus fun c => c.pushHist s.here.tl []).modCore s.focus
        fun c => { c with next := s.now + 1 }) s.focus ⟨.C, cause, s.here.pc, v, o.slot.num, s.clk⟩) := by
  have hac : acts (s.core s.focus) true o = true := by
    simp only [acts, Bool.true_and, Bool.or_eq_true]; exact hact
  rw [runOne_issues o s hr hact hlev hwf hstall hord hfifo hrec hchk hbusy hreads (by simp [hlate])]
  have hrec : latchRec s s.focus true [(s.nextId, o)] = [] := by
    simp [latchRec, hac, hlate]
  have hl : ([o].findSome? fun o => (o.late s).map fun e => (o.slot.num, e)) = some (o.slot.num, cause, v) := by simp [hlate]
  have hf : [o].filter (acts (s.core s.focus) true) = [o] := by simp [hac]
  have hctl : ([o].findSome? fun o => o.ctl s) = o.ctl s := by
    simp only [List.findSome?_cons, List.findSome?_nil]
    cases o.ctl s <;> rfl
  simp only [issueAll, numbered, hdrRp_plain, List.foldl_cons, List.foldl_nil, hac, if_true, hf, hctl, hl, List.length_singleton, hrec,
    Bool.false_eq_true, if_false, issueOp, hlate, Option.isSome_some, List.map_nil]

/-- The first class-I cause of one op alone (R390). -/
theorem runOne_fault (o : OpSem) (s : State) (cause : Nat) (v : Dword) (hr : ready s o.head = true)
    (hstall : o.stall s = false) (hord : o.order s = false) (hfifo : o.fifo s = false) (hrec : recordWait s s.focus true [o] = none)
    (hc : opCause s s.focus true o (bundleWrites s s.focus true [o]) (bundleTags [o]) = some (cause, v)) :
    runOne o s = .next (s.modCore s.focus fun c => { c with trap := some ⟨.I, cause, s.here.pc, v, o.slot.num, s.clk⟩ }) := by
  obtain ⟨h1, h2, h3, h4, h5, h6, h7, h8, h9⟩ := ready_iff hr
  obtain ⟨hw1, hw2, hw3⟩ := goes_on (o := o) h6 h7 h8 h9 hstall hord hfifo
  have hcause : bundleCause s s.focus true [o] = some (o.slot.num, cause, v) := by
    simp [bundleCause, hc]
  have hout : issueOutcome s s.focus (plainHeader o.slot) [o] = .fault o.slot.num cause v := by
    unfold issueOutcome
    simp only [itGate_plain, h2, hw1, hw2, hw3, hrec, hcause, Bool.false_eq_true, if_false]
    have hg : (s.core s.focus).gate = .none := h3
    have hp : Tab.get false (s.core s.focus).imemPoison (s.core s.focus).pc = false := h4
    have hn : ((s.core s.focus).nestOn && decide ((s.core s.focus).pc = (s.core s.focus).nest.stop % 2048)) = false := h5
    have hbad : hdrBad (s.core s.focus) (plainHeader o.slot) = false := by
      rw [hdrBad, hdrReserved_plain, hdrLe_plain]
      simpa [Bool.and_eq_false_iff] using hn
    simp [hg, hp, hbad]
  have ht : (s.core s.focus).trap = none := by
    have := h1
    simp only [running, Bool.and_eq_true, Option.isNone_iff_eq_none] at this
    tauto
  simp only [runOne, h1, issueOps, hout, raiseTrap, State.modCore, ht]
  rfl

/-- An op the trap level forbids (R201 to R203, R476). -/
theorem runOne_level (o : OpSem) (s : State) (cause : Nat) (hr : ready s o.head = true) (hlev : o.level s.here.tl = some cause)
    (hstall : o.stall s = false) (hord : o.order s = false) (hfifo : o.fifo s = false) :
    runOne o s = .next (s.modCore s.focus fun c => { c with trap := some ⟨.I, cause, s.here.pc, opForm o.word, o.slot.num, s.clk⟩ }) := by
  have hl : o.level (s.core s.focus).tl = some cause := hlev
  exact runOne_fault o s cause _ hr hstall hord hfifo (by simp [recordWait, hl]) (by simp [opCause, hl])

/-- An op whose word breaks a check of R476. -/
theorem runOne_illformed (o : OpSem) (s : State) (hr : ready s o.head = true) (hlev : o.level s.here.tl = none) (hwf : o.wf = false)
    (hstall : o.stall s = false) (hord : o.order s = false) (hfifo : o.fifo s = false) :
    runOne o s = .next (s.modCore s.focus fun c => { c with trap := some ⟨.I, 0x03, s.here.pc, opForm o.word, o.slot.num, s.clk⟩ }) := by
  have hl : o.level (s.core s.focus).tl = none := hlev
  exact runOne_fault o s 0x03 _ hr hstall hord hfifo (by simp [recordWait, hwf]) (by simp [opCause, hl, hwf])

/-- An acting op whose own check fails (R390). -/
theorem runOne_check (o : OpSem) (s : State) (cause : Nat) (v : Dword) (hr : ready s o.head = true)
    (hact : o.vec = true ∨ holds s o.head = true) (hlev : o.level s.here.tl = none) (hwf : o.wf = true)
    (hstall : o.stall s = false) (hord : o.order s = false) (hfifo : o.fifo s = false)
    (hrec : ∀ a ∈ o.record s, recordReady s s.focus a = true) (hchk : o.check s = some (cause, v)) :
    runOne o s = .next (s.modCore s.focus fun c => { c with trap := some ⟨.I, cause, s.here.pc, v, o.slot.num, s.clk⟩ }) := by
  have hl : o.level (s.core s.focus).tl = none := hlev
  have hac : acts (s.core s.focus) true o = true := by
    simp only [acts, Bool.true_and, Bool.or_eq_true]; exact hact
  refine runOne_fault o s cause v hr hstall hord hfifo ?_ (by simp [opCause, hl, hwf, hac, hchk])
  have : (o.record s).find? (fun a => !recordReady s s.focus a) = none := by
    rw [List.find?_eq_none]
    intro a ha
    simp [hrec a ha]
  simp [recordWait, this]

/-- A suppressed op (R167): it issues, sends nothing, and its latch entry reads zero at once. -/
theorem runOne_suppressed (o : OpSem) (s : State) (hb : o.binds = false) (hr : ready s o.head = true) (hvec : o.vec = false) (hnot : holds s o.head = false)
    (hlev : o.level s.here.tl = none) (hwf : o.wf = true) (hta : o.head.ta = 0) :
    runOne o s = .next (((((s.takeIds 2).modCore s.focus Core.unwait0).modCore s.focus fun c => c).modCore s.focus
      fun c => c.goto ((s.here.pc + 1) % 2048) (s.now + 1)).modCore s.focus
        fun c => c.pushHist s.here.tl [⟨o.slot.num, s.nextId, s.now, .s 0⟩]) := by
  obtain ⟨h1, h2, h3, h4, h5, h6, h7, h8, h9⟩ := ready_iff hr
  have hl : o.level (s.core s.focus).tl = none := hlev
  have hac : acts (s.core s.focus) true o = false := by
    simp only [acts, Bool.true_and, hvec, Bool.false_or]; exact hnot
  have hw : residentBy s s.focus true [o] = false ∧ stalledBy s s.focus true [o] = false ∧ orderHeld s s.focus true [o] = false := by
    simp [residentBy, stalledBy, orderHeld, h6, h7, hac]
  have hcause : bundleCause s s.focus true [o] = none := by
    simp [bundleCause, opCause, hl, hwf, hac, hta]
  have hg : (s.core s.focus).gate = .none := h3
  have hp : Tab.get false (s.core s.focus).imemPoison (s.core s.focus).pc = false := h4
  have hn : ((s.core s.focus).nestOn && decide ((s.core s.focus).pc = (s.core s.focus).nest.stop % 2048)) = false := h5
  have hout : issueOutcome s s.focus (plainHeader o.slot) [o] = .issue := by
    unfold issueOutcome
    have hbad : hdrBad (s.core s.focus) (plainHeader o.slot) = false := by
      rw [hdrBad, hdrReserved_plain, hdrLe_plain]
      simpa [Bool.and_eq_false_iff] using hn
    have hsc : seqClash s s.focus (plainHeader o.slot) true [o] = none := by
      have : (!(s.core s.focus).nestOn || decide ((s.core s.focus).pc ≠ (s.core s.focus).nest.stop % 2048) || (s.core s.focus).nest.brk) = true := by
        simp only [Bool.and_eq_false_iff, decide_eq_false_iff_not] at hn
        rcases hn with hn | hn <;> simp [hn]
      simp only [seqClash, this, Bool.true_or, if_true]
    simp [itGate_plain, h2, hw, recordWait, hac, hcause, hg, hp, hbad, hsc]
  have hf : [o].filter (acts (s.core s.focus) true) = [] := by simp [hac]
  simp only [runOne, h1, if_true, issueOps, hout, itGate_plain, issueAll, numbered, hdrRp_plain, List.foldl_cons, List.foldl_nil, hac, hf,
    List.findSome?_nil, List.length_singleton, latchRec, List.filterMap_cons, List.filterMap_nil, advance, hn, hdrIdle_plain, hta,
    Bool.false_eq_true, if_false, Bool.not_false, boundEntry_plain o _ _ hb, List.map_id]
  rfl

/-- What stays as it is through a change of the core in focus. -/
theorem Kept.refl (s : State) : Kept s s :=
  { clk := rfl, focus := rfl, mem := rfl, fe := rfl, poison := rfl, paused := rfl, dies := rfl, switches := rfl, members := rfl, vds := rfl,
    gc := rfl, wicks := rfl, migrations := rfl, platform := rfl, reports := rfl, others := fun _ _ => rfl }

theorem Kept.modCore {s t : State} (h : Kept s t) (f : Core → Core) : Kept s (t.modCore s.focus f) :=
  { h with others := fun k hk => (State.core_modCore_other _ _ hk).trans (h.others k hk) }

theorem Kept.takeIds {s t : State} (h : Kept s t) (n : Nat) : Kept s (t.takeIds n) := { h with }

theorem OnlyHere.refl (s : State) : OnlyHere s s := ⟨.refl s, rfl, rfl⟩

theorem OnlyHere.modCore {s t : State} (h : OnlyHere s t) (f : Core → Core) : OnlyHere s (t.modCore s.focus f) :=
  ⟨h.kept.modCore f, h.accesses, h.agenda⟩

theorem OnlyHere.takeIds {s t : State} (h : OnlyHere s t) (n : Nat) : OnlyHere s (t.takeIds n) := ⟨h.kept.takeIds n, h.accesses, h.agenda⟩

theorem sentState_only (s : State) (o : OpSem) : OnlyHere s (sentState s o) :=
  (((OnlyHere.refl s).takeIds 2).modCore _).modCore _

/-- With no tag to allocate, the results sent are those `sent` names. -/
theorem sends_eq (s : State) (o : OpSem) (hta : o.head.ta = 0) :
    o.sends s s.focus s.nextId = (o.outs s (headMask s.here o.head)).map fun w => sent s o.slot w.1 w.2.1 w.2.2 := by
  simp [OpSem.sends, sent, hta]

theorem sentState_here (s : State) (o : OpSem) (hta : o.head.ta = 0) :
    (sentState s o).core s.focus
      = (s.here.unwait0.sendAll ((o.outs s (headMask s.here o.head)).map fun w => sent s o.slot w.1 w.2.1 w.2.2) 0 s.nextId).setBusy
          (o.busies s.now s.here.busy) := by
  simp only [sentState, State.core_modCore, sends_eq s o hta, hta]
  rfl

theorem sendAll_untagged (c : Core) (rs : List Result) (a n : Nat) (h : ∀ r ∈ rs, r.tag = 0) :
    c.sendAll rs a n = { c with results := c.results ++ rs } := by
  simp only [Core.sendAll]
  rw [if_neg]
  rw [Bool.not_eq_true, List.any_eq_false]
  intro r hr
  simp [h r hr]

/-- Issue goes on at the next bundle (R173). -/
theorem advance_next (s t : State) (sl : Slot) (n : Nat) (hn : (s.here.nestOn && decide (s.here.pc = s.here.nest.stop % 2048)) = false) :
    advance s s.focus (plainHeader sl) none n t
      = t.modCore s.focus fun c => c.goto ((s.here.pc + 1) % 2048) (s.now + 1) := by
  have hn' : ((s.core s.focus).nestOn && decide ((s.core s.focus).pc = (s.core s.focus).nest.stop % 2048)) = false := hn
  simp only [advance, hn', hdrIdle_plain, Bool.false_eq_true, if_false]

/-- What `advance` does to the core in focus after one op alone outside an END bundle (R173, R174, R198). -/
def advCore (s : State) (o : OpSem) (c : Core) : Core :=
  match o.ctl s with
  | some t =>
    let c := c.goto t.pc (if t.whole then s.now + t.clk else s.now + 1 + t.clk)
    if t.branch && s.here.nestOn && !inBody s.here.nest t.pc then c.endNest else c
  | none => c.goto ((s.here.pc + 1) % 2048) (s.now + 1)

theorem advance_core (s t : State) (o : OpSem) (n : Nat) (hn : (s.here.nestOn && decide (s.here.pc = s.here.nest.stop % 2048)) = false) :
    advance s s.focus (plainHeader o.slot) (o.ctl s) n t = t.modCore s.focus (advCore s o) := by
  have hn' : ((s.core s.focus).nestOn && decide ((s.core s.focus).pc = (s.core s.focus).nest.stop % 2048)) = false := hn
  unfold advCore
  cases hc : o.ctl s with
  | none => exact advance_next s t o.slot n hn
  | some x =>
    simp only [advance, hdrIdle_plain, Nat.add_zero]
    congr 1
    funext c
    have : ((s.core s.focus).nestOn && (decide ((s.core s.focus).pc = (s.core s.focus).nest.stop % 2048) || !inBody (s.core s.focus).nest x.pc))
        = ((s.core s.focus).nestOn && !inBody (s.core s.focus).nest x.pc) := by
      rw [Bool.and_or_distrib_left, hn', Bool.false_or]
    rw [Bool.and_assoc, this, ← Bool.and_assoc]

/-- An op whose effect and last change are of the core in focus alone (R173). -/
theorem runOne_core (o : OpSem) (s : State) (f g : Core → Core) (hb : o.binds = false) (hr : ready s o.head = true) (hact : o.vec = true ∨ holds s o.head = true)
    (hlev : o.level s.here.tl = none) (hwf : o.wf = true) (hstall : o.stall s = false) (hord : o.order s = false) (hfifo : o.fifo s = false)
    (hrec : ∀ a ∈ o.record s, recordReady s s.focus a = true) (hchk : o.check s = none)
    (hbusy : unitBusy s.here s.now o.unit = false) (hreads : latched s o.reads = true) (hlate : o.late s = none)
    (hclash : ∀ w ∈ o.outs s (headMask s.here o.head) ++ o.spans s, clearAt s (s.now + w.1) = true)
    (heff : ∀ t, OnlyHere s t → OnlyHere s (o.effect s.nextId t) ∧ (o.effect s.nextId t).core s.focus = f (t.core s.focus))
    (hfin : ∀ t, OnlyHere s t → OnlyHere s (o.final t) ∧ (o.final t).core s.focus = g (t.core s.focus))
    (hta : o.head.ta = 0) :
    ∃ t, runOne o s = .next t ∧ OnlyHere s t ∧ t.core s.focus =
      (g (advCore s o (f ((s.here.unwait0.sendAll ((o.outs s (headMask s.here o.head)).map fun w => sent s o.slot w.1 w.2.1 w.2.2) 0
        s.nextId).setBusy (o.busies s.now s.here.busy))))).pushHist s.here.tl (latchOne s o) := by
  obtain ⟨h1, h2⟩ := heff _ (sentState_only s o)
  have h3 := h1.modCore (advCore s o)
  obtain ⟨h4, h5⟩ := hfin _ h3
  refine ⟨_, runOne_one o s hb hr hact hlev hwf hstall hord hfifo hrec hchk hbusy hreads hlate hclash, ?_, ?_⟩ <;>
    rw [advance_core _ _ _ _ (ready_iff hr).2.2.2.2.1]
  · exact h4.modCore _
  · rw [State.core_modCore, h5, State.core_modCore, h2, sentState_here s o hta]

/-- The core after one op alone, in the words of `issuedCore`. -/
theorem issued_eq (s : State) (rs : List Result) (lt : BundleRec) (b : Tab Nat) (pc nx : Nat) (h : ∀ r ∈ rs, r.tag = 0) :
    (((s.here.unwait0.sendAll rs 0 s.nextId).setBusy b).goto pc nx).pushHist s.here.tl lt = issuedCore s rs lt b pc nx := by
  rw [sendAll_untagged _ _ _ _ h]
  rfl

/-- A core that goes on has found no trap. -/
theorem ready_trap {s : State} {h : Head} (hr : ready s h = true) : s.here.trap = none := by
  have := (ready_iff hr).1
  simp only [running, Bool.and_eq_true, Option.isNone_iff_eq_none] at this
  exact this.1.1.1.2

theorem OnlyHere.raiseTrap {s t : State} (h : OnlyHere s t) (r : TrapReq) : OnlyHere s (raiseTrap t s.focus r) := h.modCore _

/-- The core after a class-C trap of one op alone. -/
theorem lateCore_eq (s : State) (nx : Nat) (pc : Nat) (r : TrapReq) (h : s.here.trap = none) :
    (match ((s.here.unwait0.goto pc nx).pushHist s.here.tl []).trap with
      | none => { (s.here.unwait0.goto pc nx).pushHist s.here.tl [] with next := s.now + 1, trap := some r }
      | some _ => s.here) = { issuedCore s [] [] s.here.busy pc (s.now + 1) with trap := some r } := by
  have h2 : ((s.here.unwait0.goto pc nx).pushHist s.here.tl []).trap = none := by
    unfold Core.pushHist; split
    · exact h
    · split <;> exact h
  simp only [h2]
  unfold issuedCore Core.pushHist
  split
  · simp [Core.goto, Core.unwait0]
  · split <;> simp [Core.goto, Core.unwait0]

/-- A class-C trap of one op alone that changes nothing else (R389). -/
theorem runOne_trapC (o : OpSem) (s : State) (cause : Nat) (v : Dword) (hr : ready s o.head = true)
    (hact : o.vec = true ∨ holds s o.head = true)
    (hlev : o.level s.here.tl = none) (hwf : o.wf = true) (hstall : o.stall s = false) (hord : o.order s = false) (hfifo : o.fifo s = false)
    (hrec : ∀ a ∈ o.record s, recordReady s s.focus a = true) (hchk : o.check s = none)
    (hbusy : unitBusy s.here s.now o.unit = false) (hreads : latched s o.reads = true) (hlate : o.late s = some (cause, v))
    (hctl : o.ctl s = none) (hfin : ∀ t, o.final t = t) :
    ∃ t, runOne o s = .next t ∧ OnlyHere s t ∧ t.core s.focus =
      { issuedCore s [] [] s.here.busy ((s.here.pc + 1) % 2048) (s.now + 1) with
        trap := some ⟨.C, cause, s.here.pc, v, o.slot.num, s.clk⟩ } := by
  refine ⟨_, runOne_late o s cause v hr hact hlev hwf hstall hord hfifo hrec hchk hbusy hreads hlate, ?_, ?_⟩ <;>
    rw [hfin, hctl, advance_next _ _ _ _ (ready_iff hr).2.2.2.2.1]
  · exact ((((((OnlyHere.refl s).takeIds 2).modCore _).modCore _).modCore _).modCore _).raiseTrap _
  · rw [← lateCore_eq s (s.now + 1) ((s.here.pc + 1) % 2048) _ (ready_trap hr)]
    have h2 : ((s.here.unwait0.goto ((s.here.pc + 1) % 2048) (s.now + 1)).pushHist s.here.tl []).trap = none := by
      unfold Core.pushHist; split
      · exact ready_trap hr
      · split <;> exact ready_trap hr
    simp only [raiseTrap, State.core_modCore]
    rw [show (s.takeIds 2).core s.focus = s.here from rfl]
    simp only [h2]

/-- An op that only sends results issues (R173, R174). -/
theorem runOne_value (o : OpSem) (s : State) (hb : o.binds = false) (hr : ready s o.head = true) (hact : o.vec = true ∨ holds s o.head = true)
    (hlev : o.level s.here.tl = none) (hwf : o.wf = true) (hstall : o.stall s = false) (hord : o.order s = false) (hfifo : o.fifo s = false)
    (hrec : ∀ a ∈ o.record s, recordReady s s.focus a = true) (hchk : o.check s = none)
    (hbusy : unitBusy s.here s.now o.unit = false) (hreads : latched s o.reads = true) (hlate : o.late s = none)
    (hspan : o.spans s = [])
    (hclash : ∀ w ∈ o.outs s (headMask s.here o.head), clearAt s (s.now + w.1) = true)
    (hctl : o.ctl s = none) (heff : ∀ n t, o.effect n t = t) (hfin : ∀ t, o.final t = t) (hta : o.head.ta = 0) :
    ∃ t, runOne o s = .next t ∧ Issued s t ((o.outs s (headMask s.here o.head)).map fun w => sent s o.slot w.1 w.2.1 w.2.2)
      (latchOne s o) (o.busies s.now s.here.busy) ((s.here.pc + 1) % 2048) (s.now + 1) := by
  have hi := runOne_issues o s hr hact hlev hwf hstall hord hfifo hrec hchk hbusy hreads (by simpa [hlate, hspan] using hclash)
  have hac : acts s.here true o = true := by
    simp only [acts, Bool.true_and, Bool.or_eq_true]; exact hact
  rw [issueAll_one o s hb hac hlate, hctl, heff, hfin, advance_next _ _ _ _ (ready_iff hr).2.2.2.2.1] at hi
  refine ⟨_, hi, ?_, ?_⟩
  · exact ((sentState_only s o).modCore _).modCore _
  · rw [State.core_modCore, State.core_modCore, sentState_here s o hta, sendAll_untagged]
    · rfl
    · intro r hr
      simp only [List.mem_map] at hr
      obtain ⟨w, _, rfl⟩ := hr
      rfl

/-- An op with one computed 64-bit value issues (R191). -/
theorem runOne_valOp (sl : Slot) (h : Head) (w : Nat) (rd : List Operand) (lat : Nat) (d : Dest) (f : Core → Dword) (s : State)
    (hr : ready s h = true) (hh : holds s h = true) (hl : latched s rd = true) (hc : clearAt s (s.now + lat) = true) (hta : h.ta = 0) :
    ∃ t, runOne (valOp sl h w true rd lat d f) s = .next t ∧ IssuedValue s t sl lat d (f s.here) := by
  obtain ⟨t, ht, hi⟩ := runOne_value (valOp sl h w true rd lat d f) s rfl hr (.inr hh) rfl rfl rfl rfl rfl (by simp [valOp]) rfl rfl hl rfl rfl
    (by simpa [valOp] using hc) rfl (fun _ _ => rfl) (fun _ => rfl) hta
  exact ⟨t, ht, hi⟩

/-- An S or V op names no tag (R399). -/
theorem noTag_ta {h : Head} (hn : noTag h = true) : h.ta = 0 := by
  simp only [noTag, Bool.and_eq_true, decide_eq_true_eq] at hn
  exact hn.2

end Sys2Proof.Machine
end

