-- ==== Sys2Proof/Laws/PerInstr.lean ====
section
/-!
SUPPORT. Laws/PerInstr.lean: the per-instruction family Encode: an instruction's op word, where it has one, fits the 80 bits of its slot and
its OPC field is not the unassigned 0x00 (R163, R166, R401); one lemma per format, then one per constructor.
-/
namespace Sys2Proof

/-- A word fits an op slot and holds an OPC above 0. -/
def FitsSlot (w : Nat) : Prop := w < 2 ^ 80 ∧ 1 ≤ opcOf w

theorem operandWord_lt (o : Operand) : operandWord o < 2 ^ 14 := by
  have := o.level.isLt; have := o.index.isLt
  unfold operandWord; omega

theorem headWord_bounds (opc : Nat) (h : Head) : opc * 2 ^ 73 ≤ headWord opc h ∧ headWord opc h + 2 ^ 56 ≤ (opc + 1) * 2 ^ 73 := by
  have := h.p.isLt; have := h.ta.isLt; have := h.tc0.isLt; have := h.tc1.isLt
  have hn : b2n h.n ≤ 1 := by unfold b2n; split <;> omega
  unfold headWord; constructor <;> omega

/-- A head and 56 bits of fields below it make a word whose OPC is the head's. -/
theorem fits_of_bounds {opc w : Nat} (lo : opc * 2 ^ 73 ≤ w) (hi : w < (opc + 1) * 2 ^ 73) (h1 : 1 ≤ opc) (h2 : opc < 128) : FitsSlot w := by
  unfold FitsSlot opcOf
  have : w / 2 ^ 73 = opc := by omega
  constructor
  · omega
  · rw [this, Nat.mod_eq_of_lt h2]; exact h1

theorem q4Word_fits (opc : Nat) (o : Q4) (h1 : 1 ≤ opc) (h2 : opc < 128) : FitsSlot (q4Word opc o) := by
  have := headWord_bounds opc o.h; have := operandWord_lt o.d; have := operandWord_lt o.a; have := operandWord_lt o.b; have := operandWord_lt o.c
  apply fits_of_bounds (opc := opc) _ _ h1 h2 <;> (unfold q4Word; omega)

theorem i28Word_fits (opc : Nat) (o : I28) (h1 : 1 ≤ opc) (h2 : opc < 128) : FitsSlot (i28Word opc o) := by
  have := headWord_bounds opc o.h; have := operandWord_lt o.d; have := operandWord_lt o.a; have := o.imm.isLt
  apply fits_of_bounds (opc := opc) _ _ h1 h2 <;> (unfold i28Word; omega)

theorem i42Word_fits (opc : Nat) (o : I42) (h1 : 1 ≤ opc) (h2 : opc < 128) : FitsSlot (i42Word opc o) := by
  have := headWord_bounds opc o.h; have := operandWord_lt o.d; have := o.imm.isLt
  apply fits_of_bounds (opc := opc) _ _ h1 h2 <;> (unfold i42Word; omega)

theorem strWord_fits (opc : Nat) (o : Str) (h1 : 1 ≤ opc) (h2 : opc < 128) : FitsSlot (strWord opc o) := by
  have := headWord_bounds opc o.h; have := operandWord_lt o.d; have := operandWord_lt o.a; have := operandWord_lt o.b
  have := o.beats.isLt; have := o.mod.isLt
  apply fits_of_bounds (opc := opc) _ _ h1 h2 <;> (unfold strWord; omega)

theorem sysWord_fits (opc : Nat) (o : Sys) (h1 : 1 ≤ opc) (h2 : opc < 128) : FitsSlot (sysWord opc o) := by
  have := headWord_bounds opc o.h; have := operandWord_lt o.d; have := operandWord_lt o.a; have := o.sys.isLt
  apply fits_of_bounds (opc := opc) _ _ h1 h2 <;> (unfold sysWord; omega)

namespace Laws.Encode

/-- The family's statement about one instruction: the word its encoding gives fits a slot. -/
def Statement (i : Instr) : Prop := ∀ sl w, encode i = some (sl, w) → FitsSlot w

theorem of_word {i : Instr} {sl : Slot} {w : Nat} (h : encode i = some (sl, w)) (hw : FitsSlot w) : Statement i := by
  intro sl' w' h'
  rw [h] at h'
  cases h'
  exact hw

theorem of_none {i : Instr} (h : encode i = none) : Statement i := by
  intro sl w h'
  rw [h] at h'
  cases h'

theorem add (o : Q4) : Statement (.add o) := of_word rfl (q4Word_fits 0x01 o (by decide) (by decide))
theorem sub (o : Q4) : Statement (.sub o) := of_word rfl (q4Word_fits 0x02 o (by decide) (by decide))
theorem addi (o : I28) : Statement (.addi o) := of_word rfl (i28Word_fits 0x03 o (by decide) (by decide))
theorem mul (o : Q4) : Statement (.mul o) := of_word rfl (q4Word_fits 0x04 o (by decide) (by decide))
theorem mulhS (o : Q4) : Statement (.mulhS o) := of_word rfl (q4Word_fits 0x05 o (by decide) (by decide))
theorem mulhZ (o : Q4) : Statement (.mulhZ o) := of_word rfl (q4Word_fits 0x06 o (by decide) (by decide))
theorem divS (o : Q4) : Statement (.divS o) := of_word rfl (q4Word_fits 0x07 o (by decide) (by decide))
theorem divZ (o : Q4) : Statement (.divZ o) := of_word rfl (q4Word_fits 0x08 o (by decide) (by decide))
theorem remS (o : Q4) : Statement (.remS o) := of_word rfl (q4Word_fits 0x09 o (by decide) (by decide))
theorem remZ (o : Q4) : Statement (.remZ o) := of_word rfl (q4Word_fits 0x0A o (by decide) (by decide))
theorem and (o : Q4) : Statement (.and o) := of_word rfl (q4Word_fits 0x10 o (by decide) (by decide))
theorem or (o : Q4) : Statement (.or o) := of_word rfl (q4Word_fits 0x11 o (by decide) (by decide))
theorem xor (o : Q4) : Statement (.xor o) := of_word rfl (q4Word_fits 0x12 o (by decide) (by decide))
theorem andn (o : Q4) : Statement (.andn o) := of_word rfl (q4Word_fits 0x13 o (by decide) (by decide))
theorem shl (o : Q4) : Statement (.shl o) := of_word rfl (q4Word_fits 0x14 o (by decide) (by decide))
theorem shr (o : Q4) : Statement (.shr o) := of_word rfl (q4Word_fits 0x15 o (by decide) (by decide))
theorem sar (o : Q4) : Statement (.sar o) := of_word rfl (q4Word_fits 0x16 o (by decide) (by decide))
theorem rotr (o : Q4) : Statement (.rotr o) := of_word rfl (q4Word_fits 0x17 o (by decide) (by decide))
theorem minS (o : Q4) : Statement (.minS o) := of_word rfl (q4Word_fits 0x18 o (by decide) (by decide))
theorem minZ (o : Q4) : Statement (.minZ o) := of_word rfl (q4Word_fits 0x19 o (by decide) (by decide))
theorem maxS (o : Q4) : Statement (.maxS o) := of_word rfl (q4Word_fits 0x1A o (by decide) (by decide))
theorem maxZ (o : Q4) : Statement (.maxZ o) := of_word rfl (q4Word_fits 0x1B o (by decide) (by decide))
theorem clz (o : Q4) : Statement (.clz o) := of_word rfl (q4Word_fits 0x1C o (by decide) (by decide))
theorem popc (o : Q4) : Statement (.popc o) := of_word rfl (q4Word_fits 0x1D o (by decide) (by decide))
theorem sext (o : Q4) : Statement (.sext o) := of_word rfl (q4Word_fits 0x20 o (by decide) (by decide))
theorem zext (o : Q4) : Statement (.zext o) := of_word rfl (q4Word_fits 0x21 o (by decide) (by decide))
theorem li (o : I42) : Statement (.li o) := of_word rfl (i42Word_fits 0x22 o (by decide) (by decide))
theorem lea (o : Q4) : Statement (.lea o) := of_word rfl (q4Word_fits 0x23 o (by decide) (by decide))
theorem sel (o : Q4) : Statement (.sel o) := of_word rfl (q4Word_fits 0x24 o (by decide) (by decide))
theorem pcmp (o : Q4) : Statement (.pcmp o) := of_word rfl (q4Word_fits 0x28 o (by decide) (by decide))
theorem pcmpi (o : I28) : Statement (.pcmpi o) := of_word rfl (i28Word_fits 0x29 o (by decide) (by decide))
theorem pand (o : Q4) : Statement (.pand o) := of_word rfl (q4Word_fits 0x2A o (by decide) (by decide))
theorem por (o : Q4) : Statement (.por o) := of_word rfl (q4Word_fits 0x2B o (by decide) (by decide))
theorem pxor (o : Q4) : Statement (.pxor o) := of_word rfl (q4Word_fits 0x2C o (by decide) (by decide))
theorem pnot (o : Q4) : Statement (.pnot o) := of_word rfl (q4Word_fits 0x2D o (by decide) (by decide))
theorem pmovToPred (o : Q4) : Statement (.pmovToPred o) := of_word rfl (q4Word_fits 0x2E o (by decide) (by decide))
theorem pmovFromPred (o : Q4) : Statement (.pmovFromPred o) := of_word rfl (q4Word_fits 0x2E o (by decide) (by decide))
theorem br (o : I42) : Statement (.br o) := of_word rfl (i42Word_fits 0x30 o (by decide) (by decide))
theorem jmp (o : I42) : Statement (.jmp o) := of_word rfl (i42Word_fits 0x31 o (by decide) (by decide))
theorem jr (o : Q4) : Statement (.jr o) := of_word rfl (q4Word_fits 0x32 o (by decide) (by decide))
theorem call (o : I42) : Statement (.call o) := of_word rfl (i42Word_fits 0x33 o (by decide) (by decide))
theorem ret (o : Q4) : Statement (.ret o) := of_word rfl (q4Word_fits 0x34 o (by decide) (by decide))
theorem lnest (o : Q4) : Statement (.lnest o) := of_word rfl (q4Word_fits 0x38 o (by decide) (by decide))
theorem lbrk (o : Sys) : Statement (.lbrk o) := of_word rfl (sysWord_fits 0x39 o (by decide) (by decide))
theorem trap (o : Sys) : Statement (.trap o) := of_word rfl (sysWord_fits 0x40 o (by decide) (by decide))
theorem tret (o : Sys) : Statement (.tret o) := of_word rfl (sysWord_fits 0x41 o (by decide) (by decide))
theorem tretSkip (o : Sys) : Statement (.tretSkip o) := of_word rfl (sysWord_fits 0x41 o (by decide) (by decide))
theorem rstart (o : Sys) : Statement (.rstart o) := of_word rfl (sysWord_fits 0x42 o (by decide) (by decide))
theorem crr (o : Sys) : Statement (.crr o) := of_word rfl (sysWord_fits 0x44 o (by decide) (by decide))
theorem crw (o : Sys) : Statement (.crw o) := of_word rfl (sysWord_fits 0x45 o (by decide) (by decide))
theorem svcMap (o : Sys) : Statement (.svcMap o) := of_word rfl (sysWord_fits 0x46 o (by decide) (by decide))
theorem svcUnmap (o : Sys) : Statement (.svcUnmap o) := of_word rfl (sysWord_fits 0x46 o (by decide) (by decide))
theorem svcProtect (o : Sys) : Statement (.svcProtect o) := of_word rfl (sysWord_fits 0x46 o (by decide) (by decide))
theorem svcReport (o : Sys) : Statement (.svcReport o) := of_word rfl (sysWord_fits 0x46 o (by decide) (by decide))
theorem yield (o : Sys) : Statement (.yield o) := of_word rfl (sysWord_fits 0x48 o (by decide) (by decide))
theorem await (o : Sys) : Statement (.await o) := of_word rfl (sysWord_fits 0x49 o (by decide) (by decide))
theorem done (o : Sys) : Statement (.done o) := of_word rfl (sysWord_fits 0x4A o (by decide) (by decide))
theorem park (o : Sys) : Statement (.park o) := of_word rfl (sysWord_fits 0x4B o (by decide) (by decide))
theorem spawn (o : Sys) : Statement (.spawn o) := of_word rfl (sysWord_fits 0x4C o (by decide) (by decide))
theorem halt (o : Sys) : Statement (.halt o) := of_word rfl (sysWord_fits 0x4D o (by decide) (by decide))
theorem nswOn (o : Sys) : Statement (.nswOn o) := of_word rfl (sysWord_fits 0x50 o (by decide) (by decide))
theorem nswOff (o : Sys) : Statement (.nswOff o) := of_word rfl (sysWord_fits 0x51 o (by decide) (by decide))
theorem dim (o : Sys) : Statement (.dim o) := of_word rfl (sysWord_fits 0x52 o (by decide) (by decide))
theorem vadd (u : VUnit) (o : Q4) : Statement (.vadd u o) := of_word rfl (q4Word_fits 0x01 o (by decide) (by decide))
theorem vsub (u : VUnit) (o : Q4) : Statement (.vsub u o) := of_word rfl (q4Word_fits 0x02 o (by decide) (by decide))
theorem vmul (u : VUnit) (o : Q4) : Statement (.vmul u o) := of_word rfl (q4Word_fits 0x03 o (by decide) (by decide))
theorem vmin (u : VUnit) (o : Q4) : Statement (.vmin u o) := of_word rfl (q4Word_fits 0x04 o (by decide) (by decide))
theorem vmax (u : VUnit) (o : Q4) : Statement (.vmax u o) := of_word rfl (q4Word_fits 0x05 o (by decide) (by decide))
theorem vabs (u : VUnit) (o : Q4) : Statement (.vabs u o) := of_word rfl (q4Word_fits 0x06 o (by decide) (by decide))
theorem vneg (u : VUnit) (o : Q4) : Statement (.vneg u o) := of_word rfl (q4Word_fits 0x07 o (by decide) (by decide))
theorem vmulh (u : VUnit) (o : Q4) : Statement (.vmulh u o) := of_word rfl (q4Word_fits 0x30 o (by decide) (by decide))
theorem vadds (u : VUnit) (o : Q4) : Statement (.vadds u o) := of_word rfl (q4Word_fits 0x31 o (by decide) (by decide))
theorem vsubs (u : VUnit) (o : Q4) : Statement (.vsubs u o) := of_word rfl (q4Word_fits 0x32 o (by decide) (by decide))
theorem vfmaF32 (u : VUnit) (o : Q4) : Statement (.vfmaF32 u o) := of_word rfl (q4Word_fits 0x08 o (by decide) (by decide))
theorem vfmaF16 (u : VUnit) (o : Q4) : Statement (.vfmaF16 u o) := of_word rfl (q4Word_fits 0x09 o (by decide) (by decide))
theorem vfmaBf16 (u : VUnit) (o : Q4) : Statement (.vfmaBf16 u o) := of_word rfl (q4Word_fits 0x0A o (by decide) (by decide))
theorem vfmsF32 (u : VUnit) (o : Q4) : Statement (.vfmsF32 u o) := of_word rfl (q4Word_fits 0x0B o (by decide) (by decide))
theorem vfmsF16 (u : VUnit) (o : Q4) : Statement (.vfmsF16 u o) := of_word rfl (q4Word_fits 0x0C o (by decide) (by decide))
theorem vfmsBf16 (u : VUnit) (o : Q4) : Statement (.vfmsBf16 u o) := of_word rfl (q4Word_fits 0x0D o (by decide) (by decide))
theorem vfnmaF32 (u : VUnit) (o : Q4) : Statement (.vfnmaF32 u o) := of_word rfl (q4Word_fits 0x0E o (by decide) (by decide))
theorem vfnmaF16 (u : VUnit) (o : Q4) : Statement (.vfnmaF16 u o) := of_word rfl (q4Word_fits 0x0F o (by decide) (by decide))
theorem vfnmaBf16 (u : VUnit) (o : Q4) : Statement (.vfnmaBf16 u o) := of_word rfl (q4Word_fits 0x10 o (by decide) (by decide))
theorem vclampF32 (u : VUnit) (o : Q4) : Statement (.vclampF32 u o) := of_word rfl (q4Word_fits 0x11 o (by decide) (by decide))
theorem vclampS32 (u : VUnit) (o : Q4) : Statement (.vclampS32 u o) := of_word rfl (q4Word_fits 0x12 o (by decide) (by decide))
theorem vclampZ32 (u : VUnit) (o : Q4) : Statement (.vclampZ32 u o) := of_word rfl (q4Word_fits 0x13 o (by decide) (by decide))
theorem vrcp (u : VUnit) (o : Q4) : Statement (.vrcp u o) := of_word rfl (q4Word_fits 0x18 o (by decide) (by decide))
theorem vrsqrt (u : VUnit) (o : Q4) : Statement (.vrsqrt u o) := of_word rfl (q4Word_fits 0x19 o (by decide) (by decide))
theorem vsqrt (u : VUnit) (o : Q4) : Statement (.vsqrt u o) := of_word rfl (q4Word_fits 0x1A o (by decide) (by decide))
theorem vexp2 (u : VUnit) (o : Q4) : Statement (.vexp2 u o) := of_word rfl (q4Word_fits 0x1B o (by decide) (by decide))
theorem vlog2 (u : VUnit) (o : Q4) : Statement (.vlog2 u o) := of_word rfl (q4Word_fits 0x1C o (by decide) (by decide))
theorem vcmp (u : VUnit) (o : Q4) : Statement (.vcmp u o) := of_word rfl (q4Word_fits 0x20 o (by decide) (by decide))
theorem vsel (u : VUnit) (o : Q4) : Statement (.vsel u o) := of_word rfl (q4Word_fits 0x21 o (by decide) (by decide))
theorem vmovpAny (u : VUnit) (o : Q4) : Statement (.vmovpAny u o) := of_word rfl (q4Word_fits 0x23 o (by decide) (by decide))
theorem vmovpAll (u : VUnit) (o : Q4) : Statement (.vmovpAll u o) := of_word rfl (q4Word_fits 0x23 o (by decide) (by decide))
theorem vmovpV (u : VUnit) (o : Q4) : Statement (.vmovpV u o) := of_word rfl (q4Word_fits 0x23 o (by decide) (by decide))
theorem vtst (u : VUnit) (o : Q4) : Statement (.vtst u o) := of_word rfl (q4Word_fits 0x22 o (by decide) (by decide))
theorem vtstSum (u : VUnit) (o : Q4) : Statement (.vtstSum u o) := of_word rfl (q4Word_fits 0x22 o (by decide) (by decide))
theorem vand (u : VUnit) (o : Q4) : Statement (.vand u o) := of_word rfl (q4Word_fits 0x28 o (by decide) (by decide))
theorem vor (u : VUnit) (o : Q4) : Statement (.vor u o) := of_word rfl (q4Word_fits 0x29 o (by decide) (by decide))
theorem vxor (u : VUnit) (o : Q4) : Statement (.vxor u o) := of_word rfl (q4Word_fits 0x2A o (by decide) (by decide))
theorem vnot (u : VUnit) (o : Q4) : Statement (.vnot u o) := of_word rfl (q4Word_fits 0x2B o (by decide) (by decide))
theorem vshl (u : VUnit) (o : Q4) : Statement (.vshl u o) := of_word rfl (q4Word_fits 0x2C o (by decide) (by decide))
theorem vshr (u : VUnit) (o : Q4) : Statement (.vshr u o) := of_word rfl (q4Word_fits 0x2D o (by decide) (by decide))
theorem vsar (u : VUnit) (o : Q4) : Statement (.vsar u o) := of_word rfl (q4Word_fits 0x2E o (by decide) (by decide))
theorem vcvt (u : VUnit) (o : Q4) : Statement (.vcvt u o) := of_word rfl (q4Word_fits 0x38 o (by decide) (by decide))
theorem vquant (u : VUnit) (o : Q4) : Statement (.vquant u o) := of_word rfl (q4Word_fits 0x39 o (by decide) (by decide))
theorem vpack (u : VUnit) (o : Q4) : Statement (.vpack u o) := of_word rfl (q4Word_fits 0x3A o (by decide) (by decide))
theorem vunpack (u : VUnit) (o : Q4) : Statement (.vunpack u o) := of_word rfl (q4Word_fits 0x3B o (by decide) (by decide))
theorem vbcast (u : VUnit) (o : Q4) : Statement (.vbcast u o) := of_word rfl (q4Word_fits 0x40 o (by decide) (by decide))
theorem vshuf (u : VUnit) (o : Q4) : Statement (.vshuf u o) := of_word rfl (q4Word_fits 0x41 o (by decide) (by decide))
theorem vrot (u : VUnit) (o : Q4) : Statement (.vrot u o) := of_word rfl (q4Word_fits 0x42 o (by decide) (by decide))
theorem vidx (u : VUnit) (o : Q4) : Statement (.vidx u o) := of_word rfl (q4Word_fits 0x43 o (by decide) (by decide))
theorem vredadd (u : VUnit) (o : Str) : Statement (.vredadd u o) := of_word rfl (strWord_fits 0x48 o (by decide) (by decide))
theorem vredmax (u : VUnit) (o : Str) : Statement (.vredmax u o) := of_word rfl (strWord_fits 0x49 o (by decide) (by decide))
theorem vredmin (u : VUnit) (o : Str) : Statement (.vredmin u o) := of_word rfl (strWord_fits 0x4A o (by decide) (by decide))
theorem vscan (u : VUnit) (o : Str) : Statement (.vscan u o) := of_word rfl (strWord_fits 0x4B o (by decide) (by decide))
theorem vcpush (u : VUnit) (o : Q4) : Statement (.vcpush u o) := of_word rfl (q4Word_fits 0x50 o (by decide) (by decide))
theorem vcpop (u : VUnit) (o : Q4) : Statement (.vcpop u o) := of_word rfl (q4Word_fits 0x51 o (by decide) (by decide))
theorem vcbal (u : VUnit) (o : Str) : Statement (.vcbal u o) := of_word rfl (strWord_fits 0x52 o (by decide) (by decide))
theorem mm (o : Str) : Statement (.mm o) := of_word rfl (strWord_fits 0x01 o (by decide) (by decide))
theorem mmz (o : Str) : Statement (.mmz o) := of_word rfl (strWord_fits 0x02 o (by decide) (by decide))
theorem mzero (o : Str) : Statement (.mzero o) := of_word rfl (strWord_fits 0x03 o (by decide) (by decide))
theorem mldt (o : Str) : Statement (.mldt o) := of_word rfl (strWord_fits 0x04 o (by decide) (by decide))
theorem msdt (o : Str) : Statement (.msdt o) := of_word rfl (strWord_fits 0x05 o (by decide) (by decide))
theorem mtr (o : Str) : Statement (.mtr o) := of_word rfl (strWord_fits 0x06 o (by decide) (by decide))
theorem macc (o : Str) : Statement (.macc o) := of_word rfl (strWord_fits 0x07 o (by decide) (by decide))
theorem mcvt (o : Str) : Statement (.mcvt o) := of_word rfl (strWord_fits 0x08 o (by decide) (by decide))
theorem mscal (o : Str) : Statement (.mscal o) := of_word rfl (strWord_fits 0x09 o (by decide) (by decide))
theorem ldS8I (o : Q4) : Statement (.ldS8I o) := of_word rfl (q4Word_fits 0x01 o (by decide) (by decide))
theorem ldS8W (o : I28) : Statement (.ldS8W o) := of_word rfl (i28Word_fits 0x41 o (by decide) (by decide))
theorem ldZ8I (o : Q4) : Statement (.ldZ8I o) := of_word rfl (q4Word_fits 0x02 o (by decide) (by decide))
theorem ldZ8W (o : I28) : Statement (.ldZ8W o) := of_word rfl (i28Word_fits 0x42 o (by decide) (by decide))
theorem ldS16I (o : Q4) : Statement (.ldS16I o) := of_word rfl (q4Word_fits 0x03 o (by decide) (by decide))
theorem ldS16W (o : I28) : Statement (.ldS16W o) := of_word rfl (i28Word_fits 0x43 o (by decide) (by decide))
theorem ldZ16I (o : Q4) : Statement (.ldZ16I o) := of_word rfl (q4Word_fits 0x04 o (by decide) (by decide))
theorem ldZ16W (o : I28) : Statement (.ldZ16W o) := of_word rfl (i28Word_fits 0x44 o (by decide) (by decide))
theorem ldS32I (o : Q4) : Statement (.ldS32I o) := of_word rfl (q4Word_fits 0x05 o (by decide) (by decide))
theorem ldS32W (o : I28) : Statement (.ldS32W o) := of_word rfl (i28Word_fits 0x45 o (by decide) (by decide))
theorem ldZ32I (o : Q4) : Statement (.ldZ32I o) := of_word rfl (q4Word_fits 0x06 o (by decide) (by decide))
theorem ldZ32W (o : I28) : Statement (.ldZ32W o) := of_word rfl (i28Word_fits 0x46 o (by decide) (by decide))
theorem ld64I (o : Q4) : Statement (.ld64I o) := of_word rfl (q4Word_fits 0x07 o (by decide) (by decide))
theorem ld64W (o : I28) : Statement (.ld64W o) := of_word rfl (i28Word_fits 0x47 o (by decide) (by decide))
theorem st8I (o : Q4) : Statement (.st8I o) := of_word rfl (q4Word_fits 0x08 o (by decide) (by decide))
theorem st8W (o : I28) : Statement (.st8W o) := of_word rfl (i28Word_fits 0x48 o (by decide) (by decide))
theorem st16I (o : Q4) : Statement (.st16I o) := of_word rfl (q4Word_fits 0x09 o (by decide) (by decide))
theorem st16W (o : I28) : Statement (.st16W o) := of_word rfl (i28Word_fits 0x49 o (by decide) (by decide))
theorem st32I (o : Q4) : Statement (.st32I o) := of_word rfl (q4Word_fits 0x0A o (by decide) (by decide))
theorem st32W (o : I28) : Statement (.st32W o) := of_word rfl (i28Word_fits 0x4A o (by decide) (by decide))
theorem st64I (o : Q4) : Statement (.st64I o) := of_word rfl (q4Word_fits 0x0B o (by decide) (by decide))
theorem st64W (o : I28) : Statement (.st64W o) := of_word rfl (i28Word_fits 0x4B o (by decide) (by decide))
theorem vldI (o : Q4) : Statement (.vldI o) := of_word rfl (q4Word_fits 0x0C o (by decide) (by decide))
theorem vldW (o : I28) : Statement (.vldW o) := of_word rfl (i28Word_fits 0x4C o (by decide) (by decide))
theorem vstI (o : Q4) : Statement (.vstI o) := of_word rfl (q4Word_fits 0x0D o (by decide) (by decide))
theorem vstW (o : I28) : Statement (.vstW o) := of_word rfl (i28Word_fits 0x4D o (by decide) (by decide))
theorem vstSumI (o : Q4) : Statement (.vstSumI o) := of_word rfl (q4Word_fits 0x0E o (by decide) (by decide))
theorem vstSumW (o : I28) : Statement (.vstSumW o) := of_word rfl (i28Word_fits 0x4E o (by decide) (by decide))
theorem ldAcq32 (o : Q4) : Statement (.ldAcq32 o) := of_word rfl (q4Word_fits 0x10 o (by decide) (by decide))
theorem ldAcq64 (o : Q4) : Statement (.ldAcq64 o) := of_word rfl (q4Word_fits 0x11 o (by decide) (by decide))
theorem stRel32 (o : Q4) : Statement (.stRel32 o) := of_word rfl (q4Word_fits 0x12 o (by decide) (by decide))
theorem stRel64 (o : Q4) : Statement (.stRel64 o) := of_word rfl (q4Word_fits 0x13 o (by decide) (by decide))
theorem ldfeKeep (o : Q4) : Statement (.ldfeKeep o) := of_word rfl (q4Word_fits 0x14 o (by decide) (by decide))
theorem ldfeTake (o : Q4) : Statement (.ldfeTake o) := of_word rfl (q4Word_fits 0x15 o (by decide) (by decide))
theorem stfeFill (o : Q4) : Statement (.stfeFill o) := of_word rfl (q4Word_fits 0x16 o (by decide) (by decide))
theorem fechk (o : Q4) : Statement (.fechk o) := of_word rfl (q4Word_fits 0x17 o (by decide) (by decide))
theorem feset (o : Q4) : Statement (.feset o) := of_word rfl (q4Word_fits 0x18 o (by decide) (by decide))
theorem feclr (o : Q4) : Statement (.feclr o) := of_word rfl (q4Word_fits 0x19 o (by decide) (by decide))
theorem fenceC (o : Sys) : Statement (.fenceC o) := of_word rfl (sysWord_fits 0x1A o (by decide) (by decide))
theorem fenceD (o : Sys) : Statement (.fenceD o) := of_word rfl (sysWord_fits 0x1B o (by decide) (by decide))
theorem fenceG (o : Sys) : Statement (.fenceG o) := of_word rfl (sysWord_fits 0x1C o (by decide) (by decide))
theorem amoAdd32 (o : Q4) : Statement (.amoAdd32 o) := of_word rfl (q4Word_fits 0x20 o (by decide) (by decide))
theorem amoAnd32 (o : Q4) : Statement (.amoAnd32 o) := of_word rfl (q4Word_fits 0x21 o (by decide) (by decide))
theorem amoOr32 (o : Q4) : Statement (.amoOr32 o) := of_word rfl (q4Word_fits 0x22 o (by decide) (by decide))
theorem amoXor32 (o : Q4) : Statement (.amoXor32 o) := of_word rfl (q4Word_fits 0x23 o (by decide) (by decide))
theorem amoMaxS32 (o : Q4) : Statement (.amoMaxS32 o) := of_word rfl (q4Word_fits 0x24 o (by decide) (by decide))
theorem amoMaxZ32 (o : Q4) : Statement (.amoMaxZ32 o) := of_word rfl (q4Word_fits 0x25 o (by decide) (by decide))
theorem amoMinS32 (o : Q4) : Statement (.amoMinS32 o) := of_word rfl (q4Word_fits 0x26 o (by decide) (by decide))
theorem amoMinZ32 (o : Q4) : Statement (.amoMinZ32 o) := of_word rfl (q4Word_fits 0x27 o (by decide) (by decide))
theorem amoSwap32 (o : Q4) : Statement (.amoSwap32 o) := of_word rfl (q4Word_fits 0x28 o (by decide) (by decide))
theorem cas32 (o : Q4) : Statement (.cas32 o) := of_word rfl (q4Word_fits 0x29 o (by decide) (by decide))
theorem amoFaddF32 (o : Q4) : Statement (.amoFaddF32 o) := of_word rfl (q4Word_fits 0x2A o (by decide) (by decide))
theorem amoFaddBf16 (o : Q4) : Statement (.amoFaddBf16 o) := of_word rfl (q4Word_fits 0x2B o (by decide) (by decide))
theorem amoFmaxF32 (o : Q4) : Statement (.amoFmaxF32 o) := of_word rfl (q4Word_fits 0x2C o (by decide) (by decide))
theorem amoAdd64 (o : Q4) : Statement (.amoAdd64 o) := of_word rfl (q4Word_fits 0x30 o (by decide) (by decide))
theorem amoAnd64 (o : Q4) : Statement (.amoAnd64 o) := of_word rfl (q4Word_fits 0x31 o (by decide) (by decide))
theorem amoOr64 (o : Q4) : Statement (.amoOr64 o) := of_word rfl (q4Word_fits 0x32 o (by decide) (by decide))
theorem amoXor64 (o : Q4) : Statement (.amoXor64 o) := of_word rfl (q4Word_fits 0x33 o (by decide) (by decide))
theorem amoMaxS64 (o : Q4) : Statement (.amoMaxS64 o) := of_word rfl (q4Word_fits 0x34 o (by decide) (by decide))
theorem amoMaxZ64 (o : Q4) : Statement (.amoMaxZ64 o) := of_word rfl (q4Word_fits 0x35 o (by decide) (by decide))
theorem amoMinS64 (o : Q4) : Statement (.amoMinS64 o) := of_word rfl (q4Word_fits 0x36 o (by decide) (by decide))
theorem amoMinZ64 (o : Q4) : Statement (.amoMinZ64 o) := of_word rfl (q4Word_fits 0x37 o (by decide) (by decide))
theorem amoSwap64 (o : Q4) : Statement (.amoSwap64 o) := of_word rfl (q4Word_fits 0x38 o (by decide) (by decide))
theorem cas64 (o : Q4) : Statement (.cas64 o) := of_word rfl (q4Word_fits 0x39 o (by decide) (by decide))
theorem ldt (o : Str) : Statement (.ldt o) := of_word rfl (strWord_fits 0x50 o (by decide) (by decide))
theorem vldt (o : Str) : Statement (.vldt o) := of_word rfl (strWord_fits 0x51 o (by decide) (by decide))
theorem sdef (o : Str) : Statement (.sdef o) := of_word rfl (strWord_fits 0x52 o (by decide) (by decide))
theorem ssetBase (o : Str) : Statement (.ssetBase o) := of_word rfl (strWord_fits 0x53 o (by decide) (by decide))
theorem ssetSpace (o : Str) : Statement (.ssetSpace o) := of_word rfl (strWord_fits 0x53 o (by decide) (by decide))
theorem ssetRstride (o : Str) : Statement (.ssetRstride o) := of_word rfl (strWord_fits 0x53 o (by decide) (by decide))
theorem ssetCtl (o : Str) : Statement (.ssetCtl o) := of_word rfl (strWord_fits 0x53 o (by decide) (by decide))
theorem ssetSbase (o : Str) : Statement (.ssetSbase o) := of_word rfl (strWord_fits 0x53 o (by decide) (by decide))
theorem ssetSstride (o : Str) : Statement (.ssetSstride o) := of_word rfl (strWord_fits 0x53 o (by decide) (by decide))
theorem sadv (o : Str) : Statement (.sadv o) := of_word rfl (strWord_fits 0x54 o (by decide) (by decide))
theorem fbind (o : Q4) : Statement (.fbind o) := of_word rfl (q4Word_fits 0x58 o (by decide) (by decide))
theorem fpush (o : Q4) : Statement (.fpush o) := of_word rfl (q4Word_fits 0x59 o (by decide) (by decide))
theorem fpop (o : Q4) : Statement (.fpop o) := of_word rfl (q4Word_fits 0x5A o (by decide) (by decide))
theorem stm64 (o : Q4) : Statement (.stm64 o) := of_word rfl (q4Word_fits 0x5B o (by decide) (by decide))
theorem stmV (o : Q4) : Statement (.stmV o) := of_word rfl (q4Word_fits 0x5C o (by decide) (by decide))
theorem cpy (o : Q4) : Statement (.cpy o) := of_word rfl (q4Word_fits 0x01 o (by decide) (by decide))
theorem cpyr (o : Q4) : Statement (.cpyr o) := of_word rfl (q4Word_fits 0x02 o (by decide) (by decide))
theorem coll (o : Q4) : Statement (.coll o) := of_word rfl (q4Word_fits 0x03 o (by decide) (by decide))
theorem binit (o : Q4) : Statement (.binit o) := of_word rfl (q4Word_fits 0x04 o (by decide) (by decide))
theorem bexp (o : Q4) : Statement (.bexp o) := of_word rfl (q4Word_fits 0x05 o (by decide) (by decide))
theorem barr (o : Q4) : Statement (.barr o) := of_word rfl (q4Word_fits 0x06 o (by decide) (by decide))
theorem bwait (o : Q4) : Statement (.bwait o) := of_word rfl (q4Word_fits 0x07 o (by decide) (by decide))
theorem sred (o : Q4) : Statement (.sred o) := of_word rfl (q4Word_fits 0x08 o (by decide) (by decide))
theorem ifill (o : Q4) : Statement (.ifill o) := of_word rfl (q4Word_fits 0x09 o (by decide) (by decide))
theorem pref (o : Q4) : Statement (.pref o) := of_word rfl (q4Word_fits 0x0A o (by decide) (by decide))
theorem trig (o : Q4) : Statement (.trig o) := of_word rfl (q4Word_fits 0x0B o (by decide) (by decide))
theorem sig (o : Q4) : Statement (.sig o) := of_word rfl (q4Word_fits 0x0C o (by decide) (by decide))
theorem wdraw (o : Q4) : Statement (.wdraw o) := of_word rfl (q4Word_fits 0x0D o (by decide) (by decide))
theorem jobq (o : Q4) : Statement (.jobq o) := of_word rfl (q4Word_fits 0x0E o (by decide) (by decide))
theorem heat (o : Q4) : Statement (.heat o) := of_word rfl (q4Word_fits 0x0F o (by decide) (by decide))
theorem mig (o : Q4) : Statement (.mig o) := of_word rfl (q4Word_fits 0x10 o (by decide) (by decide))
theorem bundleIssue : Statement .bundleIssue := of_none rfl
theorem resultWriteback : Statement .resultWriteback := of_none rfl
theorem taggedResultLand : Statement .taggedResultLand := of_none rfl
theorem timingTrap : Statement .timingTrap := of_none rfl
theorem deferredFaultFound : Statement .deferredFaultFound := of_none rfl
theorem trapEntry : Statement .trapEntry := of_none rfl
theorem abortedWrite : Statement .abortedWrite := of_none rfl
theorem nswWindowExceeded : Statement .nswWindowExceeded := of_none rfl
theorem nswWindowKill : Statement .nswWindowKill := of_none rfl
theorem clockGate : Statement .clockGate := of_none rfl
theorem powerGate : Statement .powerGate := of_none rfl
theorem hangtExpiry : Statement .hangtExpiry := of_none rfl
theorem panePlacement : Statement .panePlacement := of_none rfl
theorem taskDispatch : Statement .taskDispatch := of_none rfl
theorem granuleSequenceEnd : Statement .granuleSequenceEnd := of_none rfl
theorem translationWalkEnd : Statement .translationWalkEnd := of_none rfl
theorem reductionDrain : Statement .reductionDrain := of_none rfl
theorem heatDecay : Statement .heatDecay := of_none rfl
theorem migrationRequest : Statement .migrationRequest := of_none rfl
theorem migrationHoldTimeout : Statement .migrationHoldTimeout := of_none rfl
theorem eccError : Statement .eccError := of_none rfl
theorem hbmScrub : Statement .hbmScrub := of_none rfl
theorem vaultScrub : Statement .vaultScrub := of_none rfl
theorem retirementRecordRetry : Statement .retirementRecordRetry := of_none rfl
theorem translationInvalidate : Statement .translationInvalidate := of_none rfl
theorem inval : Statement .inval := of_none rfl
theorem slotQuantumEnd : Statement .slotQuantumEnd := of_none rfl
theorem snuff : Statement .snuff := of_none rfl
theorem countLatch : Statement .countLatch := of_none rfl
theorem refuse : Statement .refuse := of_none rfl
theorem count : Statement .count := of_none rfl
theorem sumreq : Statement .sumreq := of_none rfl
theorem drainDeadline : Statement .drainDeadline := of_none rfl
theorem hold : Statement .hold := of_none rfl
theorem held : Statement .held := of_none rfl
theorem abort : Statement .abort := of_none rfl
theorem backoffEnd : Statement .backoffEnd := of_none rfl
theorem relight : Statement .relight := of_none rfl
theorem lit : Statement .lit := of_none rfl
theorem votePartyTimeout : Statement .votePartyTimeout := of_none rfl
theorem collapseRequest : Statement .collapseRequest := of_none rfl
theorem idleTimeout : Statement .idleTimeout := of_none rfl
theorem collapseWork : Statement .collapseWork := of_none rfl
theorem strike : Statement .strike := of_none rfl
theorem wakeLate : Statement .wakeLate := of_none rfl
theorem beaconTimer : Statement .beaconTimer := of_none rfl
theorem beacon : Statement .beacon := of_none rfl
theorem stampWaitApply : Statement .stampWaitApply := of_none rfl
theorem stampWaitTimeout : Statement .stampWaitTimeout := of_none rfl
theorem switchPacketForward : Statement .switchPacketForward := of_none rfl
theorem writePacket : Statement .writePacket := of_none rfl
theorem readPacket : Statement .readPacket := of_none rfl
theorem rdresp : Statement .rdresp := of_none rfl
theorem atomicPacket : Statement .atomicPacket := of_none rfl
theorem atresp : Statement .atresp := of_none rfl
theorem ackPacket : Statement .ackPacket := of_none rfl
theorem feop : Statement .feop := of_none rfl
theorem fifoPacket : Statement .fifoPacket := of_none rfl
theorem cdata : Statement .cdata := of_none rfl
theorem demand : Statement .demand := of_none rfl
theorem sredPacket : Statement .sredPacket := of_none rfl
theorem sres : Statement .sres := of_none rfl
theorem cflush : Statement .cflush := of_none rfl
theorem tkreq : Statement .tkreq := of_none rfl
theorem tkcall : Statement .tkcall := of_none rfl
theorem bartok : Statement .bartok := of_none rfl
theorem rateLimitRise : Statement .rateLimitRise := of_none rfl
theorem ticketWindowEnd : Statement .ticketWindowEnd := of_none rfl
theorem ticketCall : Statement .ticketCall := of_none rfl
theorem retransmitTimeout : Statement .retransmitTimeout := of_none rfl
theorem linkTraining : Statement .linkTraining := of_none rfl
theorem laneDetectTimeout : Statement .laneDetectTimeout := of_none rfl
theorem laneFailure : Statement .laneFailure := of_none rfl
theorem bufferBankError : Statement .bufferBankError := of_none rfl
theorem switchHeartbeatLoss : Statement .switchHeartbeatLoss := of_none rfl
theorem switchTakeover : Statement .switchTakeover := of_none rfl
theorem jobActivate : Statement .jobActivate := of_none rfl
theorem chunkIssue : Statement .chunkIssue := of_none rfl
theorem chunkBoundary : Statement .chunkBoundary := of_none rfl
theorem jobOutFill : Statement .jobOutFill := of_none rfl
theorem jobBarrierArrival : Statement .jobBarrierArrival := of_none rfl
theorem jobSignalWrite : Statement .jobSignalWrite := of_none rfl
theorem triggerFire : Statement .triggerFire := of_none rfl
theorem fifoOutTransfer : Statement .fifoOutTransfer := of_none rfl
theorem fifoLoadFetch : Statement .fifoLoadFetch := of_none rfl
theorem stepEnd : Statement .stepEnd := of_none rfl
theorem stepSend : Statement .stepSend := of_none rfl
theorem stepRecv : Statement .stepRecv := of_none rfl
theorem stepRrs : Statement .stepRrs := of_none rfl
theorem stepRrd : Statement .stepRrd := of_none rfl
theorem stepCopy : Statement .stepCopy := of_none rfl
theorem stepWait : Statement .stepWait := of_none rfl
theorem stepSignal : Statement .stepSignal := of_none rfl
theorem stepLoop : Statement .stepLoop := of_none rfl
theorem stepEndl : Statement .stepEndl := of_none rfl
theorem stepPeer : Statement .stepPeer := of_none rfl
theorem stepBar : Statement .stepBar := of_none rfl
theorem collectiveAbortNotice : Statement .collectiveAbortNotice := of_none rfl
theorem reductionSlotDeadline : Statement .reductionSlotDeadline := of_none rfl
theorem slotLingerEnd : Statement .slotLingerEnd := of_none rfl
theorem launchPacket : Statement .launchPacket := of_none rfl
theorem tasksPacket : Statement .tasksPacket := of_none rfl
theorem copyPacket : Statement .copyPacket := of_none rfl
theorem fencePacket : Statement .fencePacket := of_none rfl
theorem fenceCounterPoll : Statement .fenceCounterPoll := of_none rfl
theorem signalPacket : Statement .signalPacket := of_none rfl
theorem strikePacket : Statement .strikePacket := of_none rfl
theorem dimPacket : Statement .dimPacket := of_none rfl
theorem barrierPacket : Statement .barrierPacket := of_none rfl
theorem nopPacket : Statement .nopPacket := of_none rfl
theorem packetCompletion : Statement .packetCompletion := of_none rfl
theorem queueDoorbell : Statement .queueDoorbell := of_none rfl
theorem queuePoll : Statement .queuePoll := of_none rfl
theorem vdCreate : Statement .vdCreate := of_none rfl
theorem vdReset : Statement .vdReset := of_none rfl
theorem vdDestroy : Statement .vdDestroy := of_none rfl
theorem vaultload : Statement .vaultload := of_none rfl
theorem scheduleChange : Statement .scheduleChange := of_none rfl
theorem liveMigration : Statement .liveMigration := of_none rfl
theorem stubForward : Statement .stubForward := of_none rfl
theorem stubExpiry : Statement .stubExpiry := of_none rfl
theorem endpointCreate : Statement .endpointCreate := of_none rfl
theorem endpointSetupTimeout : Statement .endpointSetupTimeout := of_none rfl
theorem ethPortSplit : Statement .ethPortSplit := of_none rfl
theorem ethWrite : Statement .ethWrite := of_none rfl
theorem ethRead : Statement .ethRead := of_none rfl
theorem ethRddata : Statement .ethRddata := of_none rfl
theorem ethAck : Statement .ethAck := of_none rfl
theorem ethNote : Statement .ethNote := of_none rfl
theorem ethEcho : Statement .ethEcho := of_none rfl
theorem ethSetup : Statement .ethSetup := of_none rfl
theorem ethKeep : Statement .ethKeep := of_none rfl
theorem ethBusy : Statement .ethBusy := of_none rfl
theorem ethKeepaliveTimer : Statement .ethKeepaliveTimer := of_none rfl
theorem ethAckTimer : Statement .ethAckTimer := of_none rfl
theorem ethRetransmitTimeout : Statement .ethRetransmitTimeout := of_none rfl
theorem ethRateRise : Statement .ethRateRise := of_none rfl
theorem powerOnReset : Statement .powerOnReset := of_none rfl
theorem recoveryImage : Statement .recoveryImage := of_none rfl
theorem wickUpdate : Statement .wickUpdate := of_none rfl
theorem wickUpdateTimeout : Statement .wickUpdateTimeout := of_none rfl
theorem managementDieTakeover : Statement .managementDieTakeover := of_none rfl
theorem coreColumnRepair : Statement .coreColumnRepair := of_none rfl
theorem dieReplacement : Statement .dieReplacement := of_none rfl
theorem powerSample : Statement .powerSample := of_none rfl
theorem dutyRaise : Statement .dutyRaise := of_none rfl
theorem junctionOvertemp : Statement .junctionOvertemp := of_none rfl
theorem coolantAlarm : Statement .coolantAlarm := of_none rfl
theorem thermalStop : Statement .thermalStop := of_none rfl
theorem telemetrySample : Statement .telemetrySample := of_none rfl
theorem outsidePortTimeout : Statement .outsidePortTimeout := of_none rfl
theorem outsidePortLost : Statement .outsidePortLost := of_none rfl
theorem securityViolation : Statement .securityViolation := of_none rfl
theorem unfreezeRequest : Statement .unfreezeRequest := of_none rfl
theorem attestation : Statement .attestation := of_none rfl
theorem svcReply : Statement .svcReply := of_none rfl
theorem migrationComplete : Statement .migrationComplete := of_none rfl
theorem hostPortAccess : Statement .hostPortAccess := of_none rfl
theorem powerLoss : Statement .powerLoss := of_none rfl
theorem junctionCooled : Statement .junctionCooled := of_none rfl
theorem pairRekey : Statement .pairRekey := of_none rfl

end Laws.Encode

end Sys2Proof
end

