-- ==== Sys2Proof/Laws/Vector.lean ====
section
/-!
SUPPORT. Laws/Vector.lean: the elements of vectors (R220), what the element-wise forms give, and what a V op alone does at issue.
-/
namespace Sys2Proof.Machine

/-! ### Bytes and elements -/

theorem drop_toBytes (i : Nat) : ∀ (n x : Nat), (toBytes n x).drop i = toBytes (n - i) (x / 256 ^ i) := by
  induction i with
  | zero => intro n x; simp
  | succ i ih =>
    intro n x
    cases n with
    | zero => simp [toBytes]
    | succ n =>
      simp only [toBytes, List.drop_succ_cons, ih]
      rw [Nat.div_div_eq_div_mul, Nat.pow_succ, Nat.mul_comm, Nat.succ_sub_succ]

theorem take_toBytes (k : Nat) : ∀ (n x : Nat), k ≤ n → (toBytes n x).take k = toBytes k x := by
  induction k with
  | zero => intro n x _; simp [toBytes]
  | succ k ih =>
    intro n x h
    cases n with
    | zero => omega
    | succ n => simp only [toBytes, List.take_succ_cons, ih n _ (by omega)]

/-- A field of whole bytes of a number's bytes. -/
theorem ofBytes_slice (n x i k : Nat) (h : i + k ≤ n) : ofBytes (((toBytes n x).drop i).take k) = x / 256 ^ i % 256 ^ k := by
  rw [drop_toBytes, take_toBytes _ _ _ (by omega), ofBytes_toBytes]

theorem ofBytes_append (a b : List Byte) : ofBytes (a ++ b) = ofBytes a + 256 ^ a.length * ofBytes b := by
  induction a with
  | nil => simp [ofBytes]
  | cons x a ih => simp only [List.cons_append, ofBytes, ih, List.length_cons, Nat.pow_succ]; ring

theorem ofBytes_lt (a : List Byte) : ofBytes a < 256 ^ a.length := by
  induction a with
  | nil => simp [ofBytes]
  | cons x a ih =>
    simp only [ofBytes, List.length_cons, Nat.pow_succ]
    have := x.isLt
    omega

/-- Element e of elements of k bytes each, joined. -/
theorem ofBytes_flatMap (k : Nat) : ∀ (l : List Nat) (e : Nat), e < l.length →
    ofBytes (l.flatMap (toBytes k)) / 256 ^ (k * e) % 256 ^ k = l.getD e 0 % 256 ^ k := by
  intro l
  induction l with
  | nil => intro e h; simp at h
  | cons a l ih =>
    intro e h
    rw [List.flatMap_cons, ofBytes_append, toBytes_length, ofBytes_toBytes]
    cases e with
    | zero => simp [Nat.add_mul_mod_self_left]
    | succ e =>
      have h256 : 0 < 256 ^ k := Nat.pos_of_ne_zero (by positivity)
      rw [Nat.mul_add, Nat.mul_one, Nat.add_comm (k * e) k, Nat.pow_add, ← Nat.div_div_eq_div_mul, Nat.add_mul_div_left _ _ h256,
        Nat.div_eq_of_lt (Nat.mod_lt _ h256), Nat.zero_add, ih e (by simpa using h)]
      simp

/-- Element e of packed 4-bit elements. -/
theorem ofBytes_packNibbles : ∀ (l : List Nat) (e : Nat), e < l.length →
    ofBytes (packElems.packNibbles l) / 16 ^ e % 16 = l.getD e 0 % 16
  | [], e, h => by simp at h
  | [a], e, h => by
    have : e = 0 := by simpa using h
    subst this
    simp [packElems.packNibbles, ofBytes]
  | a :: b :: t, e, h => by
    have hb : (BitVec.ofNat 8 (a % 16 + b % 16 * 16)).toNat = a % 16 + b % 16 * 16 := by
      rw [BitVec.toNat_ofNat]; omega
    simp only [packElems.packNibbles, ofBytes, hb]
    match e, h with
    | 0, _ => simp; omega
    | 1, _ => simp; omega
    | e + 2, h =>
      have ih := ofBytes_packNibbles t e (by simpa using h)
      have h16 : 16 ^ (e + 2) = 256 * 16 ^ e := by rw [Nat.pow_add]; omega
      rw [h16, ← Nat.div_div_eq_div_mul]
      have : (a % 16 + b % 16 * 16 + 256 * ofBytes (packElems.packNibbles t)) / 256 = ofBytes (packElems.packNibbles t) := by omega
      rw [this, ih]
      simp

theorem packNibbles_length : ∀ l : List Nat, (packElems.packNibbles l).length = (l.length + 1) / 2
  | [] => rfl
  | [a] => by simp [packElems.packNibbles]
  | a :: b :: t => by simp only [packElems.packNibbles, List.length_cons, packNibbles_length t]; omega

theorem unpackNib_getD : ∀ (l : List Byte) (e : Nat), (unpackElems.unpackNib l).getD e 0 = ofBytes l / 16 ^ e % 16
  | [], e => by simp [unpackElems.unpackNib, ofBytes]
  | b :: t, e => by
    have := b.isLt
    match e with
    | 0 => simp [unpackElems.unpackNib, ofBytes]; omega
    | 1 => simp [unpackElems.unpackNib, ofBytes]; omega
    | e + 2 =>
      have ih := unpackNib_getD t e
      have h16 : 16 ^ (e + 2) = 256 * 16 ^ e := by rw [Nat.pow_add]; omega
      simp only [unpackElems.unpackNib, ofBytes, List.getD_cons_succ]
      rw [ih, h16, ← Nat.div_div_eq_div_mul]
      congr 2
      omega

theorem unpackNib_length : ∀ l : List Byte, (unpackElems.unpackNib l).length = 2 * l.length
  | [] => rfl
  | b :: t => by simp only [unpackElems.unpackNib, List.length_cons, unpackNib_length t]; omega

theorem tyW_size2 (t : Nat) : tyW t = 4 * size2 t := by
  by_cases h : t < 12
  · interval_cases t <;> rfl
  · obtain ⟨k, rfl⟩ : ∃ k, t = k + 12 := ⟨t - 12, by omega⟩
    rfl

theorem size2_cases (t : Nat) : size2 t = 8 ∨ size2 t = 4 ∨ size2 t = 2 ∨ size2 t = 1 := by
  unfold size2; split <;> simp

theorem unpackWide_length (k : Nat) (l : List Byte) : (unpackElems.unpackWide k l).length = l.length / k := by
  simp [unpackElems.unpackWide]

/-- Element e of a list of whole-byte elements. -/
theorem unpackWide_getD (k n x e : Nat) (h : k * e + k ≤ n) :
    (unpackElems.unpackWide k (toBytes n x)).getD e 0 = x / 256 ^ (k * e) % 256 ^ k := by
  rcases Nat.eq_zero_or_pos k with rfl | hk
  · simp [unpackElems.unpackWide, Nat.mod_one]
  have he : e < n / k := by
    rw [Nat.lt_div_iff_mul_lt hk]
    have : e * k + k ≤ n := by rw [Nat.mul_comm]; exact h
    omega
  simp only [unpackElems.unpackWide, toBytes_length, List.getD_eq_getElem?_getD, List.getElem?_map, List.getElem?_range he,
    Option.map_some, Option.getD_some]
  exact ofBytes_slice n x (k * e) k h

theorem vecElems_unfold (t : Nat) (v : Vec) : vecElems t v =
    (match size2 t with
    | 8 => unpackElems.unpackWide 4 (vecBytes v)
    | 4 => unpackElems.unpackWide 2 (vecBytes v)
    | 2 => unpackElems.unpackWide 1 (vecBytes v)
    | _ => unpackElems.unpackNib (vecBytes v)) := by
  have hl : vecBytes v = BitVec.ofNat 8 v.toNat :: toBytes 255 (v.toNat / 256) := rfl
  rw [vecElems, hl]
  rcases size2_cases t with hs | hs | hs | hs <;> simp only [unpackElems, hs, unpackElems.unpackNib]

/-- The raw elements of a vector are its elements (R220). -/
theorem vecElems_getD (t : Nat) (v : Vec) (e : Nat) (h : e * tyW t < 2048) : (vecElems t v).getD e 0 = vElem (tyW t) e v := by
  rw [tyW_size2] at h
  rw [vecElems_unfold, vElem, tyW_size2]
  have hv : ∀ x : Nat, (2 : Nat) ^ (8 * x) = 256 ^ x := fun x => by rw [Nat.pow_mul]
  rcases size2_cases t with hs | hs | hs | hs <;> rw [hs] at h ⊢
  · rw [show 4 * 8 * e = 8 * (4 * e) by ring, show 4 * 8 = 8 * 4 by rfl, hv, hv]
    exact unpackWide_getD 4 256 v.toNat e (by omega)
  · rw [show 4 * 4 * e = 8 * (2 * e) by ring, show 4 * 4 = 8 * 2 by rfl, hv, hv]
    exact unpackWide_getD 2 256 v.toNat e (by omega)
  · rw [show 4 * 2 * e = 8 * (1 * e) by ring, show 4 * 2 = 8 * 1 by rfl, hv, hv]
    exact unpackWide_getD 1 256 v.toNat e (by omega)
  · rw [Nat.pow_mul]
    have := unpackNib_getD (vecBytes v) e
    have hb : ofBytes (vecBytes v) = v.toNat := by
      rw [vecBytes, ofBytes_toBytes]
      exact Nat.mod_eq_of_lt (by have := v.isLt; calc v.toNat < 2 ^ 2048 := this
                                                    _ = 256 ^ 256 := by rw [show (256 : Nat) ^ 256 = (2 ^ 8) ^ 256 from rfl, ← Nat.pow_mul])
    rw [hb] at this
    exact this

theorem vecElems_length (t : Nat) (v : Vec) : (vecElems t v).length = 2048 / tyW t := by
  have hl : (vecBytes v).length = 256 := toBytes_length 256 _
  rw [vecElems_unfold, tyW_size2]
  rcases size2_cases t with hs | hs | hs | hs <;> rw [hs]
  · exact (unpackWide_length 4 _).trans (by rw [hl])
  · exact (unpackWide_length 2 _).trans (by rw [hl])
  · exact (unpackWide_length 1 _).trans (by rw [hl])
  · exact (unpackNib_length _).trans (by rw [hl])

/-- The elements of a vector made from raw elements (R220). -/
theorem vElem_vecOfElems (t : Nat) (l : List Nat) (e : Nat) (he : e < l.length) (hl : l.length * tyW t ≤ 2048) :
    vElem (tyW t) e (vecOfElems t l) = l.getD e 0 % 2 ^ tyW t := by
  have hv : ∀ x : Nat, (2 : Nat) ^ (8 * x) = 256 ^ x := fun x => by rw [Nat.pow_mul]
  have hsmall : ofBytes (packElems t l) < 2 ^ 2048 := by
    have h1 := ofBytes_lt (packElems t l)
    have h2 : (packElems t l).length ≤ 256 := by
      rw [tyW_size2] at hl
      unfold packElems
      rcases size2_cases t with hs | hs | hs | hs <;> rw [hs] at hl ⊢
      · have : (l.flatMap (toBytes 4)).length = 4 * l.length := by simp [List.length_flatMap, toBytes_length, Nat.mul_comm]
        simp only [this]; omega
      · have : (l.flatMap (toBytes 2)).length = 2 * l.length := by simp [List.length_flatMap, toBytes_length, Nat.mul_comm]
        simp only [this]; omega
      · have : (l.flatMap (toBytes 1)).length = 1 * l.length := by simp [List.length_flatMap, toBytes_length, Nat.mul_comm]
        simp only [this]; omega
      · simp only [packNibbles_length]; omega
    calc ofBytes (packElems t l) < 256 ^ (packElems t l).length := h1
      _ ≤ 256 ^ 256 := Nat.pow_le_pow_right (by norm_num) h2
      _ = 2 ^ 2048 := by rw [← hv]
  rw [vElem, vecOfElems, vecOf, BitVec.toNat_ofNat, Nat.mod_eq_of_lt hsmall, tyW_size2]
  unfold packElems
  rcases size2_cases t with hs | hs | hs | hs <;> rw [hs]
  · rw [show 4 * 8 * e = 8 * (4 * e) by ring, show 4 * 8 = 8 * 4 by rfl, hv, hv]
    exact ofBytes_flatMap 4 l e he
  · rw [show 4 * 4 * e = 8 * (2 * e) by ring, show 4 * 4 = 8 * 2 by rfl, hv, hv]
    exact ofBytes_flatMap 2 l e he
  · rw [show 4 * 2 * e = 8 * (1 * e) by ring, show 4 * 2 = 8 * 1 by rfl, hv, hv]
    exact ofBytes_flatMap 1 l e he
  · rw [Nat.pow_mul]
    exact ofBytes_packNibbles l e he

/-! ### The element-wise forms -/

theorem tyW_pos (t : Nat) : 0 < tyW t := by rw [tyW_size2]; rcases size2_cases t with h | h | h | h <;> omega

theorem tyW_dvd (t : Nat) : 2048 / tyW t * tyW t = 2048 := by rw [tyW_size2]; rcases size2_cases t with h | h | h | h <;> rw [h]

theorem elem_lt {t e : Nat} (h : e * tyW t < 2048) : e < 2048 / tyW t := by
  rw [Nat.lt_div_iff_mul_lt (tyW_pos t)]
  have := tyW_dvd t
  have h2 : e * tyW t < 2048 / tyW t * tyW t := by omega
  have h3 : e < 2048 / tyW t := Nat.lt_of_mul_lt_mul_right h2
  have h4 : (e + 1) * tyW t ≤ 2048 / tyW t * tyW t := Nat.mul_le_mul_right _ h3
  have h5 : (e + 1) * tyW t = e * tyW t + tyW t := by ring
  omega

theorem vElem_map1 (t : Nat) (f : Nat → Nat) (a : Vec) (e : Nat) (h : e * tyW t < 2048) :
    vElem (tyW t) e (map1 t f a) = f (vElem (tyW t) e a) % 2 ^ tyW t := by
  have he := elem_lt h
  have hl := vecElems_length t a
  rw [map1, vElem_vecOfElems t _ e (by simpa [hl] using he) (by simp [hl, tyW_dvd]), ← vecElems_getD t a e h]
  simp [List.getD_eq_getElem?_getD, List.getElem?_eq_getElem (hl ▸ he : e < (vecElems t a).length)]

theorem vElem_map2 (t : Nat) (f : Nat → Nat → Nat) (a b : Vec) (e : Nat) (h : e * tyW t < 2048) :
    vElem (tyW t) e (map2 t f a b) = f (vElem (tyW t) e a) (vElem (tyW t) e b) % 2 ^ tyW t := by
  have he := elem_lt h
  have hl := vecElems_length t a
  have hl' := vecElems_length t b
  rw [map2, vElem_vecOfElems t _ e (by simpa [hl, hl'] using he) (by simp [hl, hl', tyW_dvd]), ← vecElems_getD t a e h, ← vecElems_getD t b e h]
  simp [List.getD_eq_getElem?_getD, List.getElem?_zipWith, List.getElem?_eq_getElem (hl ▸ he : e < (vecElems t a).length),
    List.getElem?_eq_getElem (hl' ▸ he : e < (vecElems t b).length)]

theorem vElem_map3 (t : Nat) (f : Nat → Nat → Nat → Nat) (a b c : Vec) (e : Nat) (h : e * tyW t < 2048) :
    vElem (tyW t) e (map3 t f a b c) = f (vElem (tyW t) e a) (vElem (tyW t) e b) (vElem (tyW t) e c) % 2 ^ tyW t := by
  have he := elem_lt h
  have hl := vecElems_length t a
  have hl' := vecElems_length t b
  have hl'' := vecElems_length t c
  rw [map3, vElem_vecOfElems t _ e (by simpa [hl, hl', hl''] using he) (by simp [hl, hl', hl'', tyW_dvd]), ← vecElems_getD t a e h,
    ← vecElems_getD t b e h, ← vecElems_getD t c e h]
  simp [List.getD_eq_getElem?_getD, List.getElem?_zipWith, List.getElem?_eq_getElem (hl ▸ he : e < (vecElems t a).length),
    List.getElem?_eq_getElem (hl' ▸ he : e < (vecElems t b).length), List.getElem?_eq_getElem (hl'' ▸ he : e < (vecElems t c).length)]

/-! ### A V op alone -/

theorem headMask_take (s : State) (h : Head) : headMask (s.core s.focus) h = headMask s.here h := rfl

/-- A V op of one destination vector issues (R222). -/
theorem runOne_vec (t : VTop) (srcs : List (Operand × Nat)) (d : Operand) (g lat : Nat) (all : Bool) (f : Core → Dword → List Vec)
    (extra : Core → Bool) (s : State) (hr : ready s t.h = true) (hwf : t.wf = true)
    (hops : (srcs ++ [(d, g)]).all (fun e => vopOk s.here e.1 e.2) = true) (hext : extra s.here = true)
    (hpo : srcs.all (fun x => (vPoison s.here x.1 x.2).isNone) = true) (hl : latched s (srcs.map (·.1)) = true)
    (hb : unitBusy s.here s.now (some t.u.slot.num) = false) (hc : clearAt s (s.now + lat) = true) (hta : t.h.ta = 0) :
    ∃ s', runOne (vecOp t srcs d g lat all f extra) s = .next s' ∧
      Issued s s' ((List.range g).map fun j => sent s t.u.slot lat (vDest s.here t.u.slot.num d j)
          (.v (if all then allOnes else headMask s.here t.h) ((f s.here (headMask s.here t.h)).getD j 0)))
        (latchOf s t.u.slot lat (.v (laneMerge (headMask s.here t.h) ((f s.here (headMask s.here t.h)).getD 0 0) 0)))
        (Tab.put 0 s.here.busy t.u.slot.num (s.now + t.busy)) ((s.here.pc + 1) % 2048) (s.now + 1) := by
  have hvec : (vecOp t srcs d g lat all f extra).vec = true := by
    cases hu : t.u <;> simp [vecOp, OpSem.vec, hu, VUnit.slot]
  have hchk : (vecOp t srcs d g lat all f extra).check s = none := by
    have h1 : ((srcs ++ [(d, g)]).all fun e => vopOk (s.core s.focus) e.1 e.2) = true := hops
    have h2 : extra (s.core s.focus) = true := hext
    simp only [vecOp, vCheck, h1, h2, Bool.not_true, Bool.or_self, Bool.false_eq_true, if_false, Option.map_eq_none_iff, List.findSome?_eq_none_iff]
    intro x hx
    have := List.all_eq_true.mp hpo x hx
    simpa using this
  have hbz : (vecOp t srcs d g lat all f extra).busies s.now s.here.busy = Tab.put 0 s.here.busy t.u.slot.num (s.now + t.busy) := by
    cases hu : t.u <;> simp [vecOp, OpSem.busies, hu, VUnit.slot, Slot.num]
  obtain ⟨s', h1, h2⟩ := runOne_value (vecOp t srcs d g lat all f extra) s rfl hr (.inl hvec) rfl hwf rfl rfl rfl (by simp [vecOp]) hchk hb hl rfl rfl
    (by
      intro w hw
      simp only [vecOp, List.mem_map] at hw
      obtain ⟨j, _, rfl⟩ := hw
      exact hc) rfl (fun _ _ => rfl) (fun _ => rfl) hta
  refine ⟨s', h1, ?_⟩
  rw [hbz] at h2
  have houts : ((vecOp t srcs d g lat all f extra).outs s (headMask s.here (vecOp t srcs d g lat all f extra).head)).map
      (fun w => sent s (vecOp t srcs d g lat all f extra).slot w.1 w.2.1 w.2.2)
      = (List.range g).map fun j => sent s t.u.slot lat (vDest s.here t.u.slot.num d j)
          (.v (if all then allOnes else headMask s.here t.h) ((f s.here (headMask s.here t.h)).getD j 0)) := by
    simp only [vecOp, List.map_map]
    rfl
  rw [houts] at h2
  exact h2

end Sys2Proof.Machine
end

