-- ==== Sys2Proof/Tests/Slice0.lean ====
section
/-!
SUPPORT. Tests/Slice0.lean: a witness for the hypotheses of every statement of Obligations.lean, an ill-formed term for each check of
WellFormed.lean, the opcode maps of R185 to R189 word by word, and the worked examples of the spec.  Expected results are the spec's.
-/
set_option Elab.async false
open Sys2Proof Sys2Proof.Machine
namespace Sys2Proof.Tests

/-! ### A small machine: two member contexts of VD 1 on dies 0 and 1, core 0 of die 0 running -/

/-- A view register (R80): kind, type, base, count, rows, columns. -/
def view (kind ty base count rows cols : Nat) : Dword :=
  BitVec.ofNat 64 (kind * 2 ^ 62 + ty * 2 ^ 58 + base * 2 ^ 48 + count * 2 ^ 39 + rows * 2 ^ 28 + cols * 2 ^ 17)

/-- A running core: x5 = −7, x6 = 2, x7 = 0x100, p1 all ones; VIEW0 vectors, VIEW1 .s8 tiles, VIEW2 .s32 and VIEW3 .f32 accumulators, s1 a .s8 and s2 a .f32 stream in vault 0, s3 and s4 the same in vault 1. -/
def core0 : Core :=
  { Core.reset with
    run := .running, pc := 10, tsave1 := 0x2000, tsave2 := 0x2200, tvec := 0x0000020000000100,
    x := [(5, BitVec.ofInt 64 (-7)), (6, 2), (7, 0x100)], p := [(1, allOnes)],
    views := [(0, view 1 0 0 8 0 0), (1, view 2 7 64 2 32 32), (2, view 3 5 128 4 0 0), (3, view 3 0 256 2 0 0)],
    streams := [(1, ⟨0x1000, 0x0000004070000000, 0, 0⟩), (2, ⟨0x2000, 0x0000008000000000, 0, 0⟩),
                (3, ⟨0x401000, 0x0000004070000000, 0, 0⟩), (4, ⟨0x402000, 0x0000008000000000, 0, 0⟩)] }

/-- VD 1: two members, the whole vault as window, one writable page mapped at 0x60_0000_0000 to
the HBM of member 0, and its strike page at 0x60_0000_2000 (R92). -/
def vd1 : VD :=
  { VD.blank with live := true, dies := [0, 1], queueVa := 0x7000000000, strikeVa := 0x7100000000,
                  pt := [(ptKey 1 0x6000000000, 2), (ptKey 2 0x6000000000, 2), (ptKey 3 0x6000000000, 2), (ptKey 4 0x6000000000, 0x1065),
                         (ptKey 4 0x6000002000, 0x1365)],
                  params := { VD.blank.params with n := 2, memory := 0x10000000, winLo := 0, winHi := 0x300000 } }

/-- The small machine at clk 100: granules 0 and 1 of both dies resident and clean, nothing under way. -/
def s0 : State :=
  { State.reset with
    clk := 100, agenda := [], cores := [(0, core0)], vds := [(1, vd1)],
    dies := [(0, { Die.reset with ctx := some ⟨1, 0⟩, gran := [(0, ⟨0, 1⟩), (1, ⟨0, 1⟩)] }),
             (1, { Die.reset with ctx := some ⟨1, 1⟩, gran := [(0, ⟨0, 1⟩)] })],
    members := [(256, { Member.blank with live := true, die := 0 }), (257, { Member.blank with live := true, die := 1 })] }

/-- s0 with its core changed. -/
def on (f : Core → Core) : State := s0.modCore ⟨0, 0⟩ f

/-- A head without predicate and tags, and with a tag. -/
def h0 : Head := ⟨false, 0, 0, 0, 0⟩
@[inherit_doc h0] def hT (t : BitVec 4) : Head := ⟨false, 0, t, 0, 0⟩
/-- A register, an immediate and an item of a view. -/
def r (n : BitVec 12) : Operand := ⟨0, n⟩
@[inherit_doc r] def im (n : BitVec 12) : Operand := ⟨3, n⟩

/-- It answers a next state of which a test holds. -/
def nextIs (o : Outcome) (f : State → Bool) : Bool := match o with
  | .next t => f t
  | _ => false


/-! ### Hypotheses of the statements that meet: op statements -/

/-- Fields of an op word, without predicate and tags unless a head is given. -/
def q (d a b c : Operand) (h : Head := h0) : Q4 := ⟨h, d, a, b, c⟩
@[inherit_doc q] def sy (d a : Operand) (f : BitVec 28) : Sys := ⟨h0, d, a, f⟩

/-- One op of every row of ScalarOpsSendTheirResult: x5 = −7 and x6 = 2 as sources, D = x5 or p2. -/
def scalarOps : List Instr :=
  let o := q (r 5) (r 5) (r 6) (im 3)
  let p := q (r 2) (r 1) (r 1) (r 0)
  [.add o, .sub o, .addi ⟨h0, r 5, r 5, 0xFFFFFFF⟩, .mul o, .mulhS o, .mulhZ o, .and o, .or o, .xor o, .andn o, .shl o, .shr o, .sar o, .rotr o, .minS o,
   .minZ o, .maxS o, .maxZ o, .clz o, .popc o, .sext o, .zext o, .li ⟨h0, r 5, 7⟩, .lea o, .sel (q (r 5) (r 5) (r 6) (r 1)), .pcmp o,
   .pcmpi ⟨h0, r 2, r 5, 0x7000000⟩, .pand p, .por p, .pxor p, .pnot p, .pmovToPred (q (r 2) (r 5) (r 0) (im 0)), .pmovFromPred (q (r 0) (r 1) (r 0) (im 1))]

theorem witness_ScalarOpsSendTheirResult : scalarOps.all (fun i => match scalarForm s0.here i with
    | some (h, rd, lat, _, _) => wellFormed i && ready s0 h && holds s0 h && latched s0 rd && clearAt s0 (s0.now + lat) && nextIs (exec i s0) fun _ => true
    | none => false) = true := by decide +kernel

/-- The divide ops, and a core whose divider's second source is zero. -/
def divideOps : List Instr := let o := q (r 5) (r 5) (r 6) (im 0); [.divS o, .divZ o, .remS o, .remZ o]

theorem witness_DivideOps : divideOps.all (fun i => match divideForm i with
    | some (o, _, _) => wellFormed i && ready s0 o.h && holds s0 o.h && latched s0 [o.a, o.b] && !unitBusy s0.here s0.now (some 6) && clearAt s0 (s0.now + 20)
        && decide (readS s0.here 0 o.b ≠ 0) && nextIs (exec i s0) fun _ => true
    | none => false) = true := by decide +kernel

theorem witness_DivideOps_zero : divideOps.all (fun i => let s := on fun c => { c with x := [(5, 7)] }
    match divideForm i with
    | some (o, _, _) => wellFormed i && ready s o.h && holds s o.h && latched s [o.a, o.b] && !unitBusy s.here s.now (some 6) && decide (readS s.here 0 o.b = 0)
        && s.here.trapen.getLsbD 0 && nextIs (exec i s) fun t => decide (((t.core ⟨0, 0⟩).trap.map (·.cause)) = some 0x06)
    | none => false) = true := by decide +kernel

/-- The transfers: br to bundle 8, jmp, jr, call, ret; jr and ret through x7 = 0x100. -/
def transfers : List Instr := [.br ⟨h0, r 0, BitVec.ofInt 42 (-2)⟩, .jmp ⟨h0, r 0, 2047⟩, .jr (q (r 0) (r 7) (r 0) (r 0)), .call ⟨h0, r 1, 3⟩, .ret (q (r 0) (r 7) (r 0) (r 0))]

theorem witness_TransfersGoToTheirTarget : transfers.all (fun i => match transferForm s0.here i with
    | some (h, rd, _, target, _) => wellFormed i && ready s0 h && holds s0 h && latched s0 rd && clearAt s0 (s0.now + 1) && decide (0 ≤ target ∧ target ≤ 2047)
        && nextIs (exec i s0) fun t => decide (((t.core ⟨0, 0⟩).pc : Int) = target)
    | none => false) = true := by decide +kernel

/-- The same, each with a target outside 0 to 2,047. -/
def transfersOut : List Instr := [.br ⟨h0, r 0, BitVec.ofInt 42 (-11)⟩, .jmp ⟨h0, r 0, 2048⟩, .jr (q (r 0) (r 5) (r 0) (r 0)), .call ⟨h0, r 1, 2038⟩, .ret (q (r 0) (r 5) (r 0) (r 0))]

theorem witness_TransfersOutsideAreIllegal : transfersOut.all (fun i => match transferForm s0.here i with
    | some (h, rd, _, target, _) => wellFormed i && ready s0 h && holds s0 h && latched s0 rd && decide (target < 0 ∨ 2047 < target)
        && nextIs (exec i s0) fun t => decide (((t.core ⟨0, 0⟩).trap.map (·.cause)) = some 0x03)
    | none => false) = true := by decide +kernel

/-- s0 with bytes in the vault of die 0. -/
def withBytes (a : Nat) (l : List Byte) : State := { s0 with mem := memPut s0.mem (vaultKey 0 a) l }

/-- A nest record at V-address 0x400 (R178): START 20, END 24, one level of 3. -/
def nestS : State := withBytes 0x400 (toBytes 8 (20 + 24 * 2 ^ 16 + 1 * 2 ^ 32) ++ toBytes 8 3)


theorem witness_LoopNestOps_lnest : let o := q (r 0) (im 0x400) (r 0) (r 0)
    (wellFormed (.lnest o) && ready nestS h0 && holds nestS h0 && latched nestS [o.a, o.b, o.c] && decide (nestS.here.tl = 0 ∧ (memAddr nestS.here 0 o).toNat % 256 = 0)
      && ownVaultOk nestS 0x400 256 && recordReady nestS ⟨0, 0⟩ 0x400 && nestValid (nestRecord nestS 0x400)
      && nextIs (exec (.lnest o) nestS) fun t => decide ((t.core ⟨0, 0⟩).pc = 20 ∧ (t.core ⟨0, 0⟩).next = 108 ∧ (t.core ⟨0, 0⟩).nest.counts = [3])) = true := by
  decide +kernel

theorem witness_LoopNestOps_lbrk : (wellFormed (.lbrk (sy (r 0) (r 0) 0)) && ready s0 h0 && holds s0 h0 && decide (s0.here.tl = 0)
    && nextIs (exec (.lbrk (sy (r 0) (r 0) 0)) s0) fun _ => true) = true := by decide +kernel

theorem witness_TrapOp : (wellFormed (.trap (sy (r 0) (r 0) 0xABCDEF1)) && ready s0 h0 && holds s0 h0
    && nextIs (exec (.trap (sy (r 0) (r 0) 0xABCDEF1)) s0) fun t => decide ((t.core ⟨0, 0⟩).trap.map (·.val) = some 0xABCDEF1)) = true := by decide +kernel

/-- s0 at trap level 1, its bank and checkpoint set. -/
def tl1 : State := on fun c => { c with tl := 1, bank1 := ⟨0x12, 2047, 0, 0⟩, rpa := 40, ckpt := ⟨[(3, 9)], Nest.none⟩ }

theorem witness_Returns : ([(.tret (sy (r 0) (r 0) 0), 2047), (.tretSkip (sy (r 0) (r 0) 1), 0), (.rstart (sy (r 0) (r 0) 0), 40)] : List (Instr × Nat)).all
    (fun e => wellFormed e.1 && ready tl1 h0 && holds tl1 h0 && decide (tl1.here.tl ≠ 0) && nextIs (exec e.1 tl1) fun t => decide ((t.core ⟨0, 0⟩).pc = e.2
      ∧ (t.core ⟨0, 0⟩).tl = 0)) = true := by decide +kernel

/-- Ops their level forbids: at TL0 and at TL1. -/
theorem witness_LevelChecks : ([(s0, .tret (sy (r 0) (r 0) 0), 0x10), (s0, .crw (sy (r 0) (r 5) 0x10), 0x10), (tl1, .yield (sy (r 0) (r 0) 0), 0x03),
      (tl1, .halt (sy (r 0) (r 0) 0), 0x03)] : List (State × Instr × Nat)).all (fun e => match semOf e.2.1 with
    | some o => ready e.1 o.head && decide (o.level e.1.here.tl = some e.2.2) && nextIs (exec e.2.1 e.1) fun t => decide ((t.core ⟨0, 0⟩).trap.map (·.cause) = some e.2.2)
    | none => false) = true := by decide +kernel

theorem witness_LevelCauses : (semOf (.tret (sy (r 0) (r 0) 0))).isSome = true := by decide +kernel

theorem witness_ControlRegisterOps_crr : (wellFormed (.crr (sy (r 5) (r 0) 0x187)) && ready s0 h0 && holds s0 h0 && clearAt s0 (s0.now + 1)
    && nextIs (exec (.crr (sy (r 5) (r 0) 0x187)) s0) fun _ => true) = true := by decide +kernel

theorem witness_ControlRegisterOps_crw : ([(s0, 0x187), (tl1, 0x31), (tl1, 0x40)] : List (State × BitVec 28)).all (fun e =>
    wellFormed (.crw (sy (r 0) (r 5) e.2)) && ready e.1 h0 && holds e.1 h0 && latched e.1 [r 5] && clearAt e.1 (e.1.now + 1)
      && decide (e.1.here.tl = 0 → crRw 0 e.2.toNat = true) && nextIs (exec (.crw (sy (r 0) (r 5) e.2)) e.1) fun _ => true) = true := by decide +kernel

theorem witness_FirmwareCalls : ([.svcMap (sy (r 5) (r 0) 0x2000001), .svcUnmap (sy (r 5) (r 0) 0x2000002), .svcProtect (sy (r 5) (r 0) 0x2000003),
      .svcReport (sy (r 5) (r 0) 0x3000001)] : List Instr).all (fun i => match svcForm i with
    | some o => wellFormed i && ready s0 o.h && holds s0 o.h && decide (svcWick o.sys.toNat < 8 ∧ (s0.box (svcWick o.sys.toNat)).length < 32)
        && nextIs (exec i s0) fun t => decide ((t.box (svcWick o.sys.toNat)).length = 1)
    | none => false) = true := by decide +kernel

/-- The wick's mailbox is full: svc waits for room. -/
theorem witness_FirmwareCalls_full : (let s := s0.setBox 2 (List.replicate 32 []); let o := sy (r 5) (r 0) 0x2000001
    wellFormed (.svcMap o) && ready s h0 && holds s h0 && decide (svcWick o.sys.toNat = 2 ∧ 32 ≤ (s.box 2).length)
      && nextIs (exec (.svcMap o) s) fun t => decide (t.agenda.map (·.at_) = [101])) = true := by decide +kernel

/-- s0 with its core on a task. -/
def taskS : State := on fun c => { c with task := some 3, pane := 0x80000000 }

theorem witness_SuspensionOps : ([(taskS, .yield (sy (r 0) (r 0) 0)), (taskS, .done (sy (r 0) (r 5) 0)), (s0, .park (sy (r 0) (r 0) 0)), (s0, .halt (sy (r 0) (r 0) 0))]
      : List (State × Instr)).all (fun e => match endForm e.1.here e.2 with
    | some (o, rd, task, k) => wellFormed e.2 && ready e.1 o.h && holds e.1 o.h && latched e.1 rd && decide (e.1.here.tl = 0 ∧ e.1.here.onTask = task)
        && nextIs (exec e.2 e.1) fun t => decide ((t.core ⟨0, 0⟩).ending = some k)
    | none => false) = true := by decide +kernel

theorem witness_SuspensionOps_await : (let s := taskS; let o := sy (r 0) (r 7) 0
    wellFormed (.await o) && ready s h0 && holds s h0 && latched s [o.a] && decide (s.here.tl = 0) && s.here.onTask && decide ((readS s.here 0 o.a).toNat % 8 = 0)
      && vaultOk s (s.ctxD s.focus) 0x100 8 && nextIs (exec (.await o) s) fun t => decide ((t.core ⟨0, 0⟩).ending = some (.await 10 0x100))) = true := by decide +kernel

/-- The record at V-address 0x100 is all zeros: a task at bundle 0 without footprint, inputs or output (R212). -/

theorem witness_SpawnOp : (let s := s0; let o := sy (r 5) (r 7) 0; let p := spawnRecord s 0x100
    wellFormed (.spawn o) && ready s h0 && holds s h0 && latched s [o.a] && clearAt s (s.now + 4) && decide (readS s.here 0 o.a = 0x100) && vaultOk s ⟨1, 0⟩ 0x100 64
      && (listFault s p.1).isNone && !recordBad s (s.ctxD s.focus) p.1 p.2 && recordReady s s.focus 0x100 && decide (recFp (p.1.getD 3 0) = none)
      && nextIs (exec (.spawn o) s) fun t => decide (t.agenda.map (·.at_) = [103])) = true := by decide +kernel

theorem witness_WindowsAndDim : ([.nswOn (sy (r 0) (r 0) 0), .nswOff (sy (r 0) (r 0) 0), .dim (sy (r 0) (r 0) 0)] : List Instr).all (fun i =>
    wellFormed i && ready s0 h0 && holds s0 h0 && !(s0.die 0).snuffing && nextIs (exec i s0) fun _ => true) = true := by decide +kernel


/-! V ops -/

/-- A qualifier field of a V op (R171): TYPE, RM, SUM and SUB. -/
def qual (t rm sum sub : Nat) : Operand := im (BitVec.ofNat 12 (t * 256 + rm * 64 + sum * 16 + sub))
/-- v2 := op(v0, v1) with a qualifier field. -/
def vq (t rm sum sub : Nat) : Q4 := q (r 2) (r 0) (r 1) (qual t rm sum sub)

/-- One op of every row of VectorArithmetic, integer and floating. -/
def arithOps : List Instr :=
  let u := VUnit.v1
  let c := q (r 2) (r 0) (r 1) (r 3)
  [.vadd u (vq 0 3 0 0), .vadd u (vq 7 0 0 0), .vsub u (vq 2 1 0 0), .vmul u (vq 10 0 0 0), .vmin u (vq 1 0 0 0), .vmax u (vq 11 0 0 0), .vabs u (vq 0 0 0 0),
   .vneg u (vq 6 0 0 0), .vmulh u (vq 5 0 0 0), .vadds u (vq 7 0 0 0), .vsubs u (vq 9 0 0 0), .vfmaF32 u c, .vfmaF16 u c, .vfmaBf16 u c, .vfmsF32 u c,
   .vfmsF16 u c, .vfmsBf16 u c, .vfnmaF32 u c, .vfnmaF16 u c, .vfnmaBf16 u c, .vclampF32 u c, .vclampS32 u c, .vclampZ32 u c, .vrcp u (vq 0 2 0 0),
   .vrsqrt u (vq 0 0 0 0), .vsqrt u (vq 0 0 0 0), .vexp2 u (vq 0 0 0 0), .vlog2 u (vq 0 0 0 0)]

theorem witness_VectorArithmetic : arithOps.all (fun i => match arithForm s0.here i with
    | some F => wellFormed i && F.mayIssue s0 && nextIs (exec i s0) fun _ => true
    | none => false) = true := by decide +kernel

/-- One op of every row of VectorMoves. -/
def moveOps : List Instr :=
  let u := VUnit.v0
  [.vcmp u (vq 0 0 0 7), .vcmp u (vq 11 0 0 5), .vsel u (vq 0 0 0 11), .vmovpV u ⟨h0, r 2, r 1, r 0, qual 0 0 0 2⟩, .vtstSum u (vq 12 0 1 0), .vand u (vq 0 0 0 0),
   .vor u (vq 0 0 0 0), .vxor u (vq 0 0 0 0), .vnot u (vq 0 0 0 0), .vshl u (vq 5 0 0 0), .vshr u (vq 6 0 0 0), .vsar u (vq 7 0 0 0), .vpack u (vq 12 0 0 1),
   .vunpack u (vq 0 0 0 0), .vbcast u (vq 7 0 0 0), .vshuf u (vq 7 0 0 0), .vrot u (vq 1 0 0 0), .vidx u (vq 9 0 0 0)]

theorem witness_VectorMoves : moveOps.all (fun i => match moveForm s0.here i with
    | some F => wellFormed i && F.mayIssue s0 && nextIs (exec i s0) fun _ => true
    | none => false) = true := by decide +kernel

/-- s0 with a valid compand table 0: knots (x, x) rising from 1 (R146). -/
def ctabS : State := on fun c => { c with ctab := (List.range 17).map fun k => (k, BitVec.ofNat 64 ((0x3F800000 + k * 2 ^ 16) * (2 ^ 32 + 1))) }

/-- One op of every row of VectorGroups: widening, narrowing, equal types; quantisation; scans of 1 and 6 vectors. -/
def groupOps : List Instr :=
  let u := VUnit.v0
  [.vcvt u (vq 0 0 0 3), .vcvt u (vq 3 0 0 0), .vcvt u (vq 0 0 0 0), .vcvt u (vq 12 0 0 7), .vquant u (vq 7 0 0 0), .vquant u (vq 12 0 0 0),
   .vscan u ⟨h0, r 1, r 2, r 0, 5, 0⟩, .vscan u ⟨h0, r 1, r 2, r 0, 0, 22⟩]
theorem witness_VectorGroups : groupOps.all (fun i => match groupForm ctabS.here i with
    | some F => wellFormed i && ready ctabS F.h && latched ctabS (F.srcs.map (·.1)) && ((F.d, F.g) :: F.srcs).all (fun x => vopOk ctabS.here x.1 x.2)
        && F.srcs.all (fun x => (vPoison ctabS.here x.1 x.2).isNone) && !unitBusy ctabS.here ctabS.now (some F.u.slot.num) && clearAt ctabS (ctabS.now + F.lat)
        && ctabValid (ctabOf ctabS.here 0) && nextIs (exec i ctabS) fun _ => true
    | none => false) = true := by decide +kernel

/-- One op of every row of VectorReductions: sums with and without a carry-in, extremes. -/
def reduceOps : List Instr :=
  let u := VUnit.v0
  [.vredadd u ⟨h0, r 1, r 2, r 0, 0, 2⟩, .vredadd u ⟨h0, r 1, r 2, r 0, 5, 36⟩, .vredmax u ⟨h0, r 1, r 2, r 0, 0, 3⟩, .vredmin u ⟨h0, r 1, r 2, r 0, 1, 20⟩]

theorem witness_VectorReductions : reduceOps.all (fun i => match i with
    | .vredadd _ o | .vredmax _ o | .vredmin _ o => match reduceWord s0.here (headMask s0.here o.h) i with
      | some (u, o, srcs, _) => wellFormed i && ready s0 o.h && latched s0 (srcs.map (·.1)) && ((o.d, 1) :: srcs).all (fun x => vopOk s0.here x.1 x.2)
          && srcs.all (fun x => (vPoison s0.here x.1 x.2).isNone) && !unitBusy s0.here s0.now (some u.slot.num) && clearAt s0 (s0.now + (o.n + 8))
          && nextIs (exec i s0) fun _ => true
      | none => false
    | _ => false) = true := by decide +kernel

/-- A core with a vector of NaNs and 1.0 in v0, for ReductionExtremes: both antecedents are met, by lanes that are and are not NaN. -/
def nanCore : Core := { core0 with rs := memPut [] 0 ((List.range 64).flatMap fun i => toBytes 4 (if i = 5 then 0x7FC00001 else 0x3F800000)) }

theorem witness_ReductionExtremes_nan : (let o : Str := ⟨h0, r 1, r 0, r 0, 0, 0⟩
    decide ((o.ty = 0 ∨ o.ty = 5 ∨ o.ty = 9) ∧ (o.ty = 0 ∨ o.m % 4 = 0)) && (fdec 0 (vElem 32 5 (readV nanCore 1 o.a 0))).isNan
      && decide (redExtreme o true nanCore 1 allOnes = 0x7FC00000)) = true := by decide +kernel

theorem witness_ReductionExtremes_numbers : (let o : Str := ⟨h0, r 1, r 0, r 0, 0, 1⟩
    decide ((o.ty = 0 ∨ o.ty = 5 ∨ o.ty = 9) ∧ (o.ty = 0 ∨ o.m % 4 = 0))
      && decide (redExtreme o true nanCore 1 allOnes = 0x3F800000)) = true := by decide +kernel

theorem witness_VectorMasks : ([.vmovpAny .v0 (vq 0 0 0 0), .vmovpAll .v0 (vq 0 0 0 1), .vtst .v0 (vq 12 0 0 5)] : List Instr).all (fun i => match maskForm s0.here i with
    | some (u, h, a, _, _) => wellFormed i && ready s0 h && latched s0 [a] && vopOk s0.here a && (vPoison s0.here a 1).isNone && !unitBusy s0.here s0.now (some u.slot.num)
        && clearAt s0 (s0.now + 2) && nextIs (exec i s0) fun _ => true
    | none => false) = true := by decide +kernel

/-- s0 with a full queue in lane 63 and one record in lane 0 of conditional queue 1. -/
def cqS : State := on fun c => { c with cq := [(64, [7]), (127, List.replicate 16 9)] }

theorem witness_QueuePushPop : (let o := q (r 2) (r 1) (r 0) (qual 0 0 0 1); let p := q (r 2) (r 0) (r 0) (qual 0 0 0 1)
    wellFormed (.vcpush .v0 o) && ready cqS h0 && latched cqS [o.a] && vopOk cqS.here o.a && (vPoison cqS.here o.a 1).isNone && !unitBusy cqS.here cqS.now (some 1)
      && clearAt cqS (cqS.now + 4) && (nextIs (exec (.vcpush .v0 o) cqS) fun t => decide (((t.core ⟨0, 0⟩).cqGet 1 0).length = 2 ∧ ((t.core ⟨0, 0⟩).cqGet 1 63).length = 16))
      && wellFormed (.vcpop .v0 p) && vopOk cqS.here p.d && nextIs (exec (.vcpop .v0 p) cqS) fun t => decide (((t.core ⟨0, 0⟩).cqGet 1 0).length = 0)) = true := by
  decide +kernel

theorem witness_QueueBalance : (let o : Str := ⟨h0, r 2, r 0, r 0, 3, 1⟩
    wellFormed (.vcbal .v0 o) && ready cqS h0 && !unitBusy cqS.here cqS.now (some 1) && clearAt cqS (cqS.now + (o.n + 4))
      && (List.range 2).all (fun j => (List.range 64).all fun k => decide ((cqS.here.cqGet j k).length ≤ 16))
      && nextIs (exec (.vcbal .v0 o) cqS) fun t => decide ((t.core ⟨0, 0⟩).cqGet 1 0 = [7] ∧ (t.core ⟨0, 0⟩).cqGet 1 1 = [9])) = true := by decide +kernel


/-! M ops -/

/-- An item of a view as an operand. -/
def item (v n : Nat) : Operand := r (BitVec.ofNat 12 (512 * v + n))
/-- Fields of an M op with BEATS and MOD. -/
def st (d a b : Operand) (beats m : Nat) : Str := ⟨h0, d, a, b, BitVec.ofNat 8 (beats - 1), BitVec.ofNat 6 m⟩

/-- One op of every row of MatrixOpsStart: items only, and msdt to a stream. -/
def matOps : List Instr :=
  [.mm (st (item 2 0) (item 1 0) (item 1 1) 16 1), .mmz (st (item 2 0) (item 1 0) (item 1 1) 16 0), .mzero (st (item 2 0) (r 0) (r 0) 4 0),
   .msdt (st (r 1) (item 2 0) (r 0) 32 0), .mtr (st (item 1 0) (item 1 1) (r 0) 1 0), .macc (st (item 2 0) (item 2 1) (item 2 2) 4 0),
   .mcvt (st (item 1 0) (item 2 0) (r 0) 4 0), .mscal (st (item 3 0) (item 3 1) (im 2) 4 0)]
theorem witness_MatrixOpsStart : matOps.all (fun i => match matForm i, semOf i with
    | some (o, kind, rd, _), some m => wellFormed i && ready s0 o.h && holds s0 o.h && latched s0 rd && !unitBusy s0.here s0.now (some 3) && (m.check s0).isNone && !m.stall s0
        && clearAt s0 (s0.now + (o.n + 6)) && (!o.a.streamOk || !decide (kind ∈ [1, 2, 4])) && (!o.b.streamOk || !decide (kind ∈ [1, 2])) && decide (o.h.ta = 0)
        && nextIs (exec i s0) fun t => decide ((t.core ⟨0, 0⟩).mops.length = 1)
    | _, _ => false) = true := by decide +kernel

/-- mm, mmz and mldt: tagged, with streams in the vault of core 1, and untagged, with streams in the own vault. -/
def streamMatOps : List Instr :=
  let g (o : Str) : Str := { o with h := hT 3 }
  [.mm (g (st (item 2 0) (r 3) (r 3) 4 0)), .mmz (g (st (item 2 0) (item 1 0) (r 3) 16 0)), .mldt (g (st (item 3 1) (r 4) (r 0) 32 0)),
   .mm (st (item 2 0) (r 1) (r 1) 4 0), .mmz (st (item 3 0) (r 2) (r 2) 4 0), .mldt (st (item 3 1) (r 2) (r 0) 32 0)]

theorem witness_StreamMatrixOpsStart : streamMatOps.all (fun i => match matForm i, semOf i with
    | some (o, kind, rd, true), some m => wellFormed i && ready s0 o.h && holds s0 o.h && latched s0 rd && !unitBusy s0.here s0.now (some 3) && (m.check s0).isNone && !m.stall s0
        && (o.a.streamOk || (decide (kind ≠ 4) && o.b.streamOk)) && clearAt s0 (s0.now + (o.n + 6))
        && nextIs (exec i s0) fun t => decide ((t.core ⟨0, 0⟩).mops.length = 1)
    | _, _ => false) = true := by decide +kernel

/-- An mm of K = 2 over ones and minus twos onto an addend of 10: 10 − 2 − 2 = 6. -/
def intMm : MOp :=
  { rid := 1, kind := 1, pc := 0, issue := 0, beats := 1, m := 0, d := ⟨0, 5, 32, 32⟩, add := ⟨0, 5, 32, 32⟩, a := .elems 7 (List.replicate 64 1),
    b := .elems 11 (List.replicate 64 0xFE), aRef := ItemRef.none, bRef := ItemRef.none, scal := 0, out := StreamReg.zero, word := 0, tag := 0, bindAt := 6, arrive := 0,
    fetched := true, dead := false }

theorem witness_MatrixIntegerResult : (decide (intMm.kind = 1 ∧ intMm.d.ty = 5 ∧ (List.replicate 64 1).length = 32 * (2 * intMm.beats)) &&
    decide ((mmElems intMm (List.replicate 1024 10)).getD 1023 0 = 10 + 2 * 254)) = true := by decide +kernel


/-! L ops -/

/-- D = x5 (or a vector), base x7 = 0x100 or another displacement from it, tag 1. -/
def mi (d : Operand) (disp : BitVec 12) (t : BitVec 4) : Q4 := ⟨hT t, d, r 7, r 0, im disp⟩
@[inherit_doc mi] def mw (d : Operand) (disp : BitVec 28) (t : BitVec 4) : I28 := ⟨hT t, d, r 7, disp⟩

/-- One op of every row of memoryForm: loads untagged in the own vault and tagged, stores, full/empty ops, atomics. -/
def memOps : List Instr :=
  let a := mi (r 5) 8 0; let w := mw (r 5) 8 0; let t := mi (r 5) 8 1; let v := mi (r 2) 0 0; let vw := mw (r 2) 0 0
  [.ldS8I a, .ldS8W w, .ldZ8I a, .ldZ8W w, .ldS16I a, .ldS16W w, .ldZ16I a, .ldZ16W w, .ldS32I a, .ldS32W w, .ldZ32I a, .ldZ32W w, .ld64I a, .ld64W w,
   .ldAcq32 t, .ldAcq64 t, .vldI v, .vldW vw, .st8I a, .st8W w, .st16I a, .st16W w, .st32I a, .st32W w, .st64I a, .st64W w, .stRel32 a, .stRel64 a, .vstI v,
   .vstW vw, .ldfeKeep t, .ldfeTake t, .stfeFill a, .fechk a, .feset a, .feclr a, .amoAdd32 t, .amoAdd64 t, .amoAnd32 t, .amoAnd64 t, .amoOr32 t, .amoOr64 t,
   .amoXor32 t, .amoXor64 t, .amoMaxS32 t, .amoMaxS64 t, .amoMaxZ32 t, .amoMaxZ64 t, .amoMinS32 t, .amoMinS64 t, .amoMinZ32 t, .amoMinZ64 t, .amoSwap32 t,
   .amoSwap64 t, .cas32 t, .cas64 t, .amoFaddF32 t, .amoFaddBf16 t, .amoFmaxF32 (mi (r 0) 8 0)]

theorem witness_MemoryOpsStartTheirAccess : memOps.all (fun i => match memoryForm s0 i with
    | some F => wellFormed i && ready s0 F.h && holds s0 F.h && latched s0 F.rd && F.addressed s0 && vregOfMem s0 i && !openAccess s0 && !F.stalls s0
        && clearAt s0 (s0.now + 6) && nextIs (exec i s0) fun t => decide (t.accesses.length = 1)
    | none => false) = true := by decide +kernel

/-- Global space, and a vault of another core: tagged forms (R264). -/
theorem witness_MemoryOpsStartTheirAccess_far : ([.ld64I (mi (r 5) 8 1), .st32I (mi (r 5) 8 0), .amoAdd64 (mi (r 0) 8 0), .vldI (mi (r 2) 0 2)] : List Instr).all (fun i =>
    ([0x4000007000000000, 0x0000000000400100] : List Dword).all fun base => let s := on fun c => { c with x := Tab.put 0 c.x 7 base }
      match memoryForm s i with
      | some F => wellFormed i && ready s F.h && holds s F.h && latched s F.rd && F.addressed s && vregOfMem s i && decide (F.rel = false) && !F.stalls s
          && decide (F.fixed = false) && nextIs (exec i s) fun t => decide (t.accesses.length = 1)
      | none => false) = true := by decide +kernel

/-- Addresses that are found at issue, with their cause: reserved space, past register space, register space for an atomic, an untagged load from another vault, a
misaligned word, a vault-only op in global space, and the end of the window. -/
def badAddresses : List (Instr × Dword × Nat) :=
  [(.ld64I (mi (r 5) 0 0), 0xC000000000000000, 0x03), (.ld64I (mi (r 5) 0 0), 0x800000000002FFF9, 0x03), (.amoAdd64 (mi (r 5) 0 1), 0x8000000000000000, 0x03),
   (.ld64I (mi (r 5) 0 0), 0x400000, 0x03), (.ld64I (mi (r 5) 0 0), 0x2FFFFC, 0x07), (.st16W (mw (r 5) 1 0), 0x4000000000000000, 0x07),
   (.ldfeTake (mi (r 5) 0 1), 0x4000007000000000, 0x0A), (.ld64I (mi (r 5) 0 0), 0x300000, 0x0A), (.st8I (mi (r 5) 0 0), 0x40000000, 0x0A)]

theorem witness_BadAddressesTrap : badAddresses.all (fun e => let s := on fun c => { c with x := Tab.put 0 c.x 7 e.2.1 }
    match memoryForm s e.1 with
    | some F => wellFormed e.1 && ready s F.h && holds s F.h && vregOfMem s e.1 && decide (F.rel = false) && !F.stalls s && !F.addressed s
        && !decide (eaSpace F.ea = 2 ∧ F.regs = true ∧ eaAddr F.ea + F.size ≤ 0x30000 ∧ F.ea.toNat % F.size = 0)
        && nextIs (exec e.1 s) fun t => decide ((t.core ⟨0, 0⟩).trap.map (·.cause) = some e.2.2)
    | none => false) = true := by decide +kernel

/-- The last word of register space: an untagged and a tagged load, a store. -/
theorem witness_RegisterSpaceAccesses : (let s := on fun c => { c with x := Tab.put 0 c.x 7 0x800000000002FFF8 }
    ([.ld64I (mi (r 5) 0 0), .ld64W (mw (r 5) 0 3), .st64I (mi (r 5) 0 4)] : List Instr).all fun i => match memoryForm s i with
      | some F => wellFormed i && ready s F.h && holds s F.h && latched s F.rd && vregOfMem s i && decide (F.rel = false)
          && decide (eaSpace F.ea = 2 ∧ F.ea.toNat % F.size = 0 ∧ eaAddr F.ea + F.size ≤ 0x30000) && clearAt s (s.now + 6) && (rsBad s.here (eaAddr F.ea) F.size).isNone
          && nextIs (exec i s) fun t => decide (t.mem = s.mem)
      | none => false) = true := by decide +kernel

/-! A ops and fences -/

/-- A card (R291) of KIND k copying 16 bytes from V-address 0x1000 to 0x1100, as bytes. -/
def cardBytes (k : Nat) : List Byte := [0x1000, 0x1100, k * 2 ^ 62 + 5 * 2 ^ 52 + 16, 0, 0, 0, 0, 0].flatMap (toBytes 8)

/-- s0 with cards of KIND 0, 1 and 2 at 0x400, 0x440 and 0x480, named by x8 to x10; x11 a barrier object, x12 a length of 4 with collective id 5, x13 the mapped page. -/
def aS : State := (withBytes 0x400 (cardBytes 0 ++ cardBytes 1 ++ cardBytes 2)).modCore ⟨0, 0⟩ fun c =>
  { c with x := c.x ++ [(8, 0x400), (9, 0x440), (10, 0x480), (11, 0x2FE000), (12, 0x40005), (13, 0x4000006000000000)] }

/-- One op of every row of asyncForm, tagged where it returns a value. -/
def asyncOps : List Instr :=
  let o (d a b c : Operand) : Q4 := ⟨hT 2, d, a, b, c⟩
  let s : Sys := sy (r 0) (r 0) 0
  [.cpy (o (r 5) (r 8) (r 0) (r 0)), .cpyr (o (r 5) (r 9) (r 0) (r 0)), .coll (o (r 5) (r 10) (r 0) (r 0)), .trig (o (r 5) (r 8) (r 7) (r 6)), .binit (o (r 0) (r 11) (r 6) (r 0)),
   .bexp (o (r 0) (r 11) (r 6) (r 0)), .barr (o (r 0) (r 11) (r 6) (r 0)), .bwait (o (r 5) (r 11) (r 6) (r 0)), .sred (o (r 5) (r 7) (r 12) (im 0x540)),
   .pref (o (r 6) (r 7) (r 0) (r 0)), .sig (o (r 0) (r 13) (r 5) (r 0)), .wdraw (o (r 5) (r 7) (r 0) (r 0)), .jobq (o (r 5) (r 6) (r 0) (r 0)),
   .heat (o (r 5) (r 13) (r 0) (r 0)), .mig (o (r 5) (r 13) (im 1) (r 0)), .fenceC s, .fenceD s, .fenceG s]

theorem witness_AsyncOpsStartTheirRequest : asyncOps.all (fun i => match asyncForm aS i, semOf i with
    | some F, some m => wellFormed i && ready aS F.h && holds aS F.h && latched aS F.rd && (m.check aS).isNone && nextIs (exec i aS) fun t => decide (t.accesses.length = 1)
    | _, _ => false) = true := by decide +kernel
theorem witness_CardChecks : (([(0x2FFC0, none), (0x100, some 0x11)] : List (Nat × Option Nat)).all fun e =>
    (rsBad aS.here (eaAddr (BitVec.ofNat 64 (2 ^ 63 + e.1))) 64).isNone) = true
    ∧ ((cardCheck aS 0 0x400 [0]).map (·.1), (cardCheck aS 0 0x440 [0]).map (·.1), (cardCheck aS 0 0x404 [0]).map (·.1), (cardCheck aS 0 0x2FFFC0 [0]).map (·.1),
        (cardCheck aS 0 0x300000 [0]).map (·.1), (cardCheck aS 0 0x8000000000030000 [0]).map (·.1)) = (none, some 0x11, some 0x07, some 0x11, some 0x0A, some 0x03) := by
  decide +kernel

/-! Stream registers, wide accesses, FIFOs, multicast, fills -/

/-- Fields with D a stream register and BEATS 1. -/
def sr (d a b : Operand) (m : Nat) : Str := ⟨h0, d, a, b, 0, BitVec.ofNat 6 m⟩

theorem witness_StreamRegisterOps : ([.sdef (sr (r 15) (r 7) (r 0) 0), .ssetBase (sr (r 1) (r 7) (r 0) 0), .ssetSpace (sr (r 1) (im 1) (r 0) 1), .ssetRstride (sr (r 1) (r 5) (r 0) 2),
      .ssetCtl (sr (r 1) (r 5) (r 0) 3), .ssetSbase (sr (r 1) (r 5) (r 0) 4), .ssetSstride (sr (r 1) (r 5) (r 0) 5), .sadv (sr (r 1) (r 5) (r 7) 0)] : List Instr).all (fun i =>
    match streamForm s0 i with
    | some (o, rd, lat, _) => wellFormed i && ready s0 o.h && holds s0 o.h && latched s0 rd && clearAt s0 (s0.now + lat) && (recordCheck s0 0x100 true).isNone
        && (recordGranule s0 0x100).all (fun a => recordReady s0 s0.focus a) && nextIs (exec i s0) fun t => decide ((t.core ⟨0, 0⟩).results.length = 1)
    | none => false) = true := by decide +kernel

theorem witness_SetBitsReplacesOneField : (setBits 0xFFFFFFFFFFFFFFFF 0 63 62 = 0x3FFFFFFFFFFFFFFF) ∧ (setBits 0 0xFF 0 0 = 1) := by decide +kernel

theorem witness_WideOpsStart : ([.ldt ⟨hT 1, item 1 0, r 3, r 0, 0, 0⟩, .vldt ⟨hT 1, r 1, r 2, r 0, 6, 0⟩, .ifill ⟨hT 2, r 0, r 7, r 0, im 0⟩] : List Instr).all (fun i =>
    match wideForm i, semOf i with
    | some (h, rd), some m => wellFormed i && ready s0 h && holds s0 h && latched s0 rd && !m.stall s0 && (m.check s0).isNone && nextIs (exec i s0) fun t => decide (t.accesses.length > 1)
    | _, _ => false) = true := by decide +kernel
/-- A core on a task, x7 naming cores 0 and 1 of member 0 at offset 0x10000, x8 the same of every member. -/
def castS : State := on fun c => { c with task := some 3, pane := 0x80000000, x := [(7, 0x0000220008010000)] }

theorem witness_MulticastStarts : stmUsable castS (memAddr castS.here 4 (mi (r 7) 0 0)).toNat 8 ∧ stmUsable castS (memAddr castS.here 4 (mi (r 2) 0 1)).toNat 256 ∧
    vaultOk castS ⟨1, 0⟩ (stmOff 0x220008010000) 256 = true ∧ (∀ m ∈ stmMembers castS 0x220008010000, m ∉ (castS.member ⟨1, 0⟩).unreachable) ∧
    ([.stm64 (mi (r 7) 0 0), .stmV (mi (r 2) 0 1)] : List Instr).all (fun i => match i with
      | .stm64 o | .stmV o => wellFormed i && ready castS o.h && holds castS o.h && latched castS [o.a, o.b, o.c] && (vopOk castS.here (r 2)) && (rsBad castS.here (vregAddr castS.here 2) 256).isNone
          && nextIs (exec i castS) fun t => decide (t.accesses.length = 2)
      | _ => false) = true := by unfold stmUsable; decide +kernel

theorem witness_FifoBindOp : (let o := mi (r 3) 0x500 0
    match semOf (.fbind o) with
    | some m => wellFormed (.fbind o) && ready s0 o.h && holds s0 o.h && latched s0 [o.a, o.b, o.c] && (recordGranule s0 (memAddr s0.here 4 o)).all (fun a => recordReady s0 s0.focus a)
        && (m.check s0).isNone && clearAt s0 (s0.now + 6) && nextIs (exec (.fbind o) s0) fun t => decide ((t.core ⟨0, 0⟩).binds.length = 1)
    | none => false) = true := by decide +kernel

/-- A core whose FIFO 0 is a store stream of 8-byte elements at 0x1000, and FIFO 1 a load stream with one element come. -/
def fifoS : State := on fun c => { c with fifos := [(0, { Fifo.zero with d0 := 0x8000000000000000, d1 := 0x1000, d2 := 8 }),
  (1, { Fifo.zero with d0 := 0xC000000000000000, d1 := 0x1000, d2 := 8, inn := [77] })] }

theorem witness_FifoPushPop : (let o := q (r 0) (r 5) (r 0) (r 0); let p := q (r 5) (r 1) (r 0) (r 0)
    match semOf (.fpush o), semOf (.fpop p) with
    | some m, some n => wellFormed (.fpush o) && ready fifoS h0 && holds fifoS h0 && latched fifoS [o.a] && !noInject fifoS && decide ((fifoS.here.fifo o.d.ix).out.length < 16)
        && (m.check fifoS).isNone && (nextIs (exec (.fpush o) fifoS) fun t => decide (((t.core ⟨0, 0⟩).fifo 0).out.length = 1))
        && wellFormed (.fpop p) && decide ((fifoS.here.fifo p.a.ix).inn = [77]) && (n.check fifoS).isNone && clearAt fifoS (fifoS.now + 2)
        && nextIs (exec (.fpop p) fifoS) fun t => decide ((t.core ⟨0, 0⟩).results.map (·.val) = [.s 77])
    | _, _ => false) = true := by decide +kernel

theorem witness_VectorStoreSum : ([(.vstSumI (mi (r 2) 0x10 0), h0), (.vstSumW (mw (r 2) 0x0C 0), h0)] : List (Instr × Head)).all (fun e =>
    wellFormed e.1 && ready s0 e.2 && holds s0 e.2 && latched s0 [r 7, r 0, im 0x10] && vopOk s0.here (r 2) && (rsBad s0.here (vregAddr s0.here 2) 256).isNone
      && vaultOk s0 ⟨1, 0⟩ 0x100 256 && !noInject s0 && !toStrike s0 0x100 && clearAt s0 (s0.now + 2) && nextIs (exec e.1 s0) fun t => decide (t.accesses.length = 1)) = true := by decide +kernel

/-- The last 256 bytes of register space. -/
theorem witness_VectorStoreSum_registers : (let s := on fun c => { c with x := [(7, 0x800000000002FF00)] }; let i := Instr.vstSumI (mi (r 2) 0x1C 1)
    wellFormed i && ready s (hT 1) && holds s (hT 1) && vopOk s.here (r 2) && decide (eaSpace 0x800000000002FF00 = 2 ∧ eaAddr 0x800000000002FF00 + 256 ≤ 0x30000)
      && clearAt s (s.now + 2) && clearAt s (s.now + 6) && nextIs (exec i s) fun t => decide ((t.core ⟨0, 0⟩).results.length = 2)) = true := by decide +kernel

/-! ### Hypotheses of the statements that meet: every op, decoding, steps, accesses, traps -/

/-- A core whose p1 is 0, and an op under it. -/
theorem witness_SuppressedOps : (let s := on fun c => { c with p := [] }; let o : Q4 := ⟨⟨false, 2, 0, 0, 0⟩, r 5, r 5, r 6, r 0⟩
    match semOf (.add o) with
    | some m => !m.vec && wellFormed (.add o) && ready s m.head && !holds s m.head && (m.level 0).isNone && nextIs (exec (.add o) s) fun t => decide ((t.core ⟨0, 0⟩).results = [])
    | none => false) = true := by decide +kernel

theorem witness_IllFormedOpsTrap : (let i := Instr.add (q (r 64) (r 5) (r 6) (r 0))
    match semOf i with
    | some m => !wellFormed i && ready s0 m.head && (m.level 0).isNone && !m.stall s0 && !m.order s0 && nextIs (exec i s0) fun t => decide ((t.core ⟨0, 0⟩).trap.map (·.cause) = some 0x03)
    | none => false) = true := by decide +kernel

theorem witness_OpsWriteNoMemoryAtIssue : ((semOf (.st64I (mi (r 5) 8 0))).isSome && nextIs (exec (.st64I (mi (r 5) 8 0)) s0) fun t => decide (t.mem = s0.mem)) = true := by
  decide +kernel

/-- The op word with OPC 0x0B in slot S, alone in its bundle at PC 10. -/
def oddS : State := on fun c => { c with imem := [(10, BitVec.ofNat 512 (singleBundle .S (0x0B * 2 ^ 73)))] }

theorem witness_UnassignedOpcodes : (unassigned .S (opcOf (0x0B * 2 ^ 73)) && decide (oddS.focus = oddS.subject.k) && ready oddS (Sys2Proof.Machine.headOf (0x0B * 2 ^ 73))
    && decide ((fetchBundle oddS.here).toNat = singleBundle .S (0x0B * 2 ^ 73)) && nextIs (exec .bundleIssue oddS) fun t => decide ((t.core ⟨0, 0⟩).trap.map (·.cause) = some 0x02)) = true := by
  decide +kernel

theorem witness_DecodeOfEncode : (wellFormed (.li ⟨h0, r 63, 0x3FFFFFFFFFF⟩) && (encode (.li ⟨h0, r 63, 0x3FFFFFFFFFF⟩)).isSome) = true := by decide +kernel

/-- s0 with the bundle of `add x5, x5, #-3` at PC. -/
def addS : State := on fun c => { c with imem := [(10, BitVec.ofNat 512 (singleBundle .S 0x0200000014005FFF4000))], next := 100 }

theorem addS_core (j : CoreId) (h : coreKey j ≠ 0) : addS.core j = Core.reset := by
  have hc : addS.cores = [(0, addS.core ⟨0, 0⟩)] := by decide +kernel
  rw [State.core, hc]
  simp [Tab.get, h]

theorem addS_die (d : Nat) : (addS.die d).stopped = false ∧ (addS.die d).duty = 16 ∧ (addS.die d).dutyCap = 16 := by
  have hd : addS.dies = [(0, addS.die 0), (1, addS.die 1)] := by decide +kernel
  by_cases h0 : d = 0
  · subst h0; decide +kernel
  · by_cases h1 : d = 1
    · subst h1; decide +kernel
    · have : addS.die d = Die.reset := by
        rw [State.die, hd]
        simp [Tab.get, h0, h1]
      rw [this]; decide +kernel

/-- Nothing is due for any core but the issue of the small machine's core 0. -/
theorem addS_quiet (j : CoreId) : heldDue addS j = false ∧ landingDue addS j = false ∧ freezeDue addS j = false ∧ (entryDue addS j && !stopped addS j) = false ∧
    (endingDue addS j && !stopped addS j) = false := by
  by_cases h : coreKey j = 0
  · have : j = ⟨0, 0⟩ := by
      cases j with | mk d c => simp only [coreKey] at h; congr 1 <;> omega
    subst this; decide +kernel
  · obtain ⟨h1, h2, h3⟩ := addS_die j.die
    have hf : addS.platform.frozen = false := by decide +kernel
    have hk : addS.clk = 100 := by decide +kernel
    refine ⟨?_, ?_, ?_, ?_, ?_⟩ <;> simp [heldDue, landingDue, freezeDue, entryDue, endingDue, stopped, throttled, dutyOf, coreLate, addS_core j h, Core.reset, h1, h2, h3, hf, hk]

theorem witness_StepRunsDecodedOp : (addS.platform.stopped = false ∧ ∀ d ∈ addS.agenda, addS.clk < d.at_) ∧ firstCore addS (issueDue addS) = some ⟨0, 0⟩ ∧
    (fetchBundle (addS.core ⟨0, 0⟩)).toNat = singleBundle .S 0x0200000014005FFF4000 ∧
    decodeOp .S 0x0200000014005FFF4000 = .ok (.add ⟨h0, r 5, r 5, im 0xFFD, r 0⟩) ∧ (semOf (.add ⟨h0, r 5, r 5, im 0xFFD, r 0⟩)).isSome = true ∧
    nextIs (step addS) (fun t => decide ((t.core ⟨0, 0⟩).pc = 11)) = true := by decide +kernel

theorem witness_PlacedBundleRuns : 0x0200000014005FFF4000 < 2 ^ 80 ∧ decodeOp .S 0x0200000014005FFF4000 = .ok (.add ⟨h0, r 5, r 5, im 0xFFD, r 0⟩) ∧
    nextIs (step (State.reset.withFetchWord 512 (singleBundle .S 0x0200000014005FFF4000))) (fun _ => true) = true := by decide +kernel

theorem witness_MemoryStaysCanonical : Memory.wf aS.mem = true ∧ nextIs (step aS) (fun _ => true) = true := by decide +kernel

/-! An access of core 0 at its port -/

/-- An access of core 0 to V-address 0x100 with the number 5. -/
def acc (kind : AccKind) (n : Nat) : Access :=
  { id := 5, k := ⟨0, 0⟩, vd := 1, member := 0, slot := 4, pc := 9, issue := 90, ea := 0x100, size := n, kind := kind, dest := .x 5, tag := 3, rid := 0, st := .travel, rel := false }
/-- s0 with that access under way, 8 bytes in memory there. -/
def accS (kind : AccKind) (n : Nat) : State := { withBytes 0x100 [1, 2, 3, 4, 5, 6, 7, 0xFF] with accesses := [acc kind n], nextId := 6 }

theorem atPort_of {s : State} {a : Access} (h : (decide (s.access a.id = some a ∧ (a.performed = false ∧ a.inParts = false ∧ a.st ≠ .queued) ∧ a.k.core ≠ 256 ∧ a.k.die < 2 ^ 16 ∧
    a.kind.bytes ≤ max a.size 1 ∧ eaSpace a.ea = 0) && vaultOk s a.ctx (eaAddr a.ea) (max a.size 1)
    && resident s a.k.die a.ctx (granOf (eaAddr a.ea)) && decide ((heldRelease s a = false ∧ heldBehind s a = false ∧ heldWork s a = false ∧ heldFence s a = false) ∧
      (s.die a.k.die).merges = [])) = true) : AtPort s a := by
  simp only [Bool.and_eq_true, decide_eq_true_eq] at h
  obtain ⟨⟨⟨⟨h1, h2, h3, h4, h5, h6⟩, h7⟩, h8⟩, h9, h10⟩ := h
  exact ⟨h1, h2, h3, h4, h5, h6, h7, h8, h9, h10⟩

theorem witness_AccessesActAtTheirPort_store : AtPort (accS (.store [9]) 1) (acc (.store [9]) 1) ∧ memNat (performId (accS (.store [9]) 1) 5).mem (vaultKey 0 0x100) 2 = 0x209 :=
  ⟨atPort_of (by decide +kernel), by decide +kernel⟩

/-- A store of 32 bytes to the vault of core 1: each of its two parts acts or not, and the last time it comes back all has. -/
theorem witness_AccessesActAtTheirPort_parts : (let a := { acc (.store (List.replicate 32 9)) 32 with ea := 0x400100 }; let s := (accS a.kind 32).modDie 0 fun d => { d with gran := d.gran ++ [(48, ⟨0, 1⟩)] }
    AtPort { s with accesses := [a] } a) := atPort_of (by decide +kernel)

theorem witness_AccessesActAtTheirPort_load : AtPort (accS (.load 8 true) 8) (acc (.load 8 true) 8) ∧ poisoned (accS (.load 8 true) 8) (vaultKey 0 0x100) 8 = false ∧
    (performId (accS (.load 8 true) 8) 5).accesses.map (·.st) = [.done (.s 0xFF07060504030201)] := ⟨atPort_of (by decide +kernel), by decide +kernel⟩

theorem witness_AccessesActAtTheirPort_amo : AtPort (accS (.amo .maxS 8 3 0 false) 8) (acc (.amo .maxS 8 3 0 false) 8) ∧
    memNat (performId (accS (.amo .maxS 8 3 0 false) 8) 5).mem (vaultKey 0 0x100) 8 = 3 := ⟨atPort_of (by decide +kernel), by decide +kernel⟩

/-- ldfe.take on an empty and on a full word. -/
theorem witness_AccessesActAtTheirPort_take : AtPort (accS (.fe .take 0) 8) (acc (.fe .take 0) 8) ∧ (performId (accS (.fe .take 0) 8) 5).accesses.map (·.st) = [.queued] ∧
    (let s := { accS (.fe .take 0) 8 with fe := [(vaultKey 0 0x100, true)] }
     AtPort s (acc (.fe .take 0) 8) ∧ Tab.get [] (s.die 0).queues 0x100 = [] ∧ (performId s 5).fe = []) :=
  ⟨atPort_of (by decide +kernel), by decide +kernel, atPort_of (by decide +kernel), by decide +kernel⟩

/-- A drained core with a found trap, at TL0 and at TL2. -/
def trapS (tl : Nat) : State := on fun c => { c with tl := tl, trap := some ⟨.I, 0x03, 10, 0, 0, 100⟩ }

theorem witness_TrapEntry : entryDue (trapS 0) ⟨0, 0⟩ = true ∧ vaultOk (trapS 0) ((trapS 0).ctxD ⟨0, 0⟩) ((trapS 0).core ⟨0, 0⟩ |>.tsave 1) 64 = true ∧
    nextIs (exec .trapEntry (trapS 0)) (fun t => decide ((t.core ⟨0, 0⟩).pc = 0x100 ∧ (t.core ⟨0, 0⟩).tl = 1 ∧ (t.core ⟨0, 0⟩).bank1.cause = 3)) = true := by decide +kernel

theorem witness_TrapEntry_write : AtPort (accS (.entry (List.replicate 64 1)) 64) (acc (.entry (List.replicate 64 1)) 64) := atPort_of (by decide +kernel)

theorem witness_TrapEntry_kill : entryDue (trapS 2) ⟨0, 0⟩ = true ∧ ((trapS 2).vd ((trapS 2).ctxD ⟨0, 0⟩).vd).state ≠ .killed ∧
    nextIs (exec .trapEntry (trapS 2)) (fun t => decide ((t.vd 1).state = .killed)) = true := by decide +kernel


/-! ### Hypotheses of the statements that meet: events -/

/-- s0 with a subject. -/
def sub (s : State) (o : Subject) : State := { s with subject := o }

theorem witness_CoreEvents_bundleIssue : s0.subject.k = s0.focus ∧ ready s0 h0 = true ∧ s0.here.nestOn = false ∧ fetchBundle s0.here = 0 ∧
    nextIs (exec .bundleIssue s0) (fun t => decide ((t.core ⟨0, 0⟩).pc = 11)) = true := by decide +kernel

/-- A result due for x5, and another later. -/
def resS : State := on fun c => { c with results := [⟨3, 0, 100, .x 5, .s 9, 0, 0, 0⟩, ⟨4, 0, 101, .x 6, .s 8, 0, 0, 0⟩] }

theorem witness_CoreEvents_resultWriteback : (let c := resS.core ⟨0, 0⟩
    c.binds = [] ∧ c.mops = [] ∧ c.results.head?.map (·.due) = some (schedOf resS c) ∧ (∀ x ∈ c.results.tail, schedOf resS c < x.due) ∧
    (landedIn c (.x 5) (.s 9)).isSome = true ∧ nextIs (exec .resultWriteback resS) (fun t => decide ((t.core ⟨0, 0⟩).readX 5 = 9)) = true) := by decide +kernel

/-- A tagged load whose value has come, alone and while a result lands on its register. -/
def landS : State := { sub s0 { a := 5 } with accesses := [{ acc (.load 8 false) 8 with st := .done (.s 7) }] }

theorem witness_CoreEvents_taggedResultLand : landS.access landS.subject.a = some { acc (.load 8 false) 8 with st := .done (.s 7) } ∧
    (landedIn (landS.core ⟨0, 0⟩) (.x 5) (.s 7)).isSome = true ∧ landClash landS { acc (.load 8 false) 8 with st := .done (.s 7) } (.s 7) = false ∧
    nextIs (exec .taggedResultLand landS) (fun t => decide ((t.core ⟨0, 0⟩).readX 5 = 7)) = true := by decide +kernel

theorem witness_CoreEvents_clash : (let s := landS.modCore ⟨0, 0⟩ fun c => { c with results := [⟨3, 0, 100, .x 5, .s 9, 0, 0, 0⟩] }
    landClash s { acc (.load 8 false) 8 with st := .done (.s 7) } (.s 7) = true ∧ nextIs (exec .taggedResultLand s) (fun t => decide (t.agenda.map (·.at_) = [101])) = true) := by
  decide +kernel

theorem witness_CoreEvents_timingTrap : (let s := on fun c => { c with late := 64, results := [⟨3, 4, 90, .x 5, .unbound, 0, 0, 0⟩] }
    ((s.core ⟨0, 0⟩).results.find? (resultLate s (s.core ⟨0, 0⟩))).isSome = true ∧ 64 ≤ (s.core ⟨0, 0⟩).late ∧ (s.core ⟨0, 0⟩).trap = none ∧
    nextIs (exec .timingTrap s) (fun t => decide ((t.core ⟨0, 0⟩).trap.map (·.cause) = some 0x05)) = true) := by decide +kernel

theorem witness_CoreEvents_deferredFaultFound : (let s : State := { sub s0 { a := 5, b := 0x0F, v := 0x100 } with accesses := [acc (.load 8 false) 8] }
    s.access s.subject.a = some (acc (.load 8 false) 8) ∧ s.subject.b ≠ 0x0C ∧ s.ctxD ⟨0, 0⟩ = (acc (.load 8 false) 8).ctx ∧ (s.core ⟨0, 0⟩).trap = none ∧
    nextIs (exec .deferredFaultFound s) (fun t => decide ((t.core ⟨0, 0⟩).trap.map (·.ret) = some 9)) = true) := by decide +kernel

/-- A no-switch window of this age at clk 200,000. -/
def nswS (age : Nat) : State := { on (fun c => { c with nsw := some (200000 - age) }) with clk := 200000, subject := { a := 200000 - age } }

theorem witness_CoreEvents_nswWindowExceeded : (let s := nswS 42500
    running s ⟨0, 0⟩ = true ∧ (s.core ⟨0, 0⟩).nsw = some 157500 ∧ (s.vd (s.ctxD ⟨0, 0⟩).vd).params.nswmax ≤ s.clk - 157500 ∧ (s.core ⟨0, 0⟩).nswRaised = false ∧
    (s.core ⟨0, 0⟩).nswAt = none ∧ nextIs (exec .nswWindowExceeded s) (fun t => decide ((t.core ⟨0, 0⟩).trap.map (·.cause) = some 0x14)) = true) := by decide +kernel

theorem witness_CoreEvents_nswWindowKill : (let s := nswS 170000
    (s.core ⟨0, 0⟩).nsw = some s.subject.a ∧ s.subject.a + 4 * (s.vd (s.ctxD ⟨0, 0⟩).vd).params.nswmax ≤ s.clk ∧ (s.vd 1).state ≠ .killed ∧
    nextIs (exec .nswWindowKill s) (fun t => decide ((t.vd 1).state = .killed)) = true) := by decide +kernel

theorem witness_CoreEvents_gates : (let s := on fun c => { c with waited := 1048576 }
    4096 ≤ (s.core ⟨0, 0⟩).waited ∧ (s.core ⟨0, 0⟩).gate = .none ∧ nextIs (exec .clockGate s) (fun t => decide ((t.core ⟨0, 0⟩).gate = .clock)) = true ∧
    nextIs (exec .powerGate s) (fun t => decide ((t.core ⟨0, 0⟩).gate = .power)) = true) := by decide +kernel

/-! Memory -/

/-- Granule 2 of die 0 waits for its sequence, which has ended; the granule is free, or dirty with the data of member ⟨2, 0⟩. -/
def seqS (e : Granule) : State :=
  { sub s0 { a := 0, b := 2 } with
    dies := [(0, { s0.die 0 with gran := (s0.die 0).gran ++ (if e.res = 0 then [] else [(2, e)]), seqs := [⟨2, 1, 0, 100, true, [.access 5]⟩] }), (1, s0.die 1)],
    accesses := [{ acc (.store [1]) 1 with ea := 0x20000 }], nextId := 6, mem := [(vaultKey 0 0x20000, 0xAA)], members := s0.members ++ [(512, { Member.blank with live := true, localNo := 7 })] }

theorem witness_MemoryEvents_granule : (let s := seqS Granule.none
    ((s.die 0).seqs.find? (fun x => decide (x.g = 2) && x.started && decide (x.endAt ≤ s.clk))).isSome = true ∧ (s.gran 0 2).res ≠ 2 ∧
    Tab.get false (s.member ⟨1, 0⟩).lost 2 = false ∧ (s.die 0).merges = [] ∧ (s.access 5).isSome = true ∧
    nextIs (exec .granuleSequenceEnd s) (fun t => decide (t.gran 0 2 = ⟨0, 1⟩ ∧ t.mem = [] ∧ t.agenda.map (·.at_) = [101])) = true) := by decide +kernel

theorem witness_MemoryEvents_spill : (let s := seqS ⟨7, 2⟩
    (s.gran 0 2).res = 2 ∧ memberAt s 0 (s.gran 0 2).owner = some ⟨2, 0⟩ ∧ memberKey ⟨2, 0⟩ ≠ memberKey ⟨1, 0⟩ ∧
    nextIs (exec .granuleSequenceEnd s) (fun t => decide (t.mem = [(saveKey ⟨2, 0⟩ 0x20000, 0xAA)])) = true) := by decide +kernel

theorem witness_MemoryEvents_lost : (let s := (seqS Granule.none).modMember ⟨1, 0⟩ fun m => { m with lost := [(2, true)] }
    ((s.die 0).seqs.find? (fun x => decide (x.g = 2) && x.started && decide (x.endAt ≤ s.clk))).isSome = true ∧ (s.die 0).merges = [] ∧
    Tab.get false (s.member ⟨1, 0⟩).lost 2 = true ∧ (s.gran 0 2).res ≠ 2) := by decide +kernel

/-- A walk for the mapped page, with access 5 waiting, and one for a page with no leaf. -/
def walkS (page : Nat) (write : Bool) : State :=
  { sub s0 { a := 0, b := 1, c := page } with
    dies := [(0, { s0.die 0 with walks := [⟨1, page, [5], true, write⟩] }), (1, s0.die 1)], accesses := [acc (.load 8 false) 8], nextId := 6 }

theorem witness_MemoryEvents_walk : (let s := walkS 0x6000000 true
    ((s.die 0).walks.find? (fun x => x.active && decide (x.vd = 1 ∧ x.page = 0x6000000))).isSome = true ∧ walkPoison (s.vd 1) 0x6000000000 = none ∧
    (findLeaf (cachedPt (s.die 0).wcache 1 (s.vd 1) 0x6000000000) 0x6000000000) = some (4, 0x1065) ∧ ptTgt 0x1065 < 4 ∧ (s.access 5).isSome = true ∧
    nextIs (exec .translationWalkEnd s) (fun t => decide ((t.die 0).tlb.length = 1)) = true) := by decide +kernel

theorem witness_MemoryEvents_walkFails : (let s := walkS 0x6000001 false
    ((s.die 0).walks.find? (fun x => x.active && decide (x.vd = 1 ∧ x.page = 0x6000001))).isSome = true ∧
    findLeaf (cachedPt (s.die 0).wcache 1 (s.vd 1) 0x6000001000) 0x6000001000 = none ∧
    nextIs (exec .translationWalkEnd s) (fun t => decide (t.agenda.length = 1)) = true) := by decide +kernel

theorem witness_MemoryEvents_reductionDrain : (let e : Merge := ⟨vaultKey 0 0x100 / 64, .add, 4, [(0, 5)], 36, [0]⟩
    let s : State := { sub s0 { a := 0, b := vaultKey 0 0x100 / 64 } with dies := [(0, { s0.die 0 with merges := [e] }), (1, s0.die 1)], mem := memPut [] (vaultKey 0 0x100) [7] }
    (s.die 0).merges.find? (fun x => decide (x.line = s.subject.b ∧ x.last + 64 ≤ s.clk)) = some e ∧ e.line * 64 / 2 ^ 80 = 1 ∧ e.line * 64 = vaultKey 0 0x100 ∧ (s.vd 0).tables = [] ∧
    nextIs (exec .reductionDrain s) (fun t => decide (memNat t.mem (vaultKey 0 0x100) 4 = 12)) = true) := by decide +kernel

theorem witness_MemoryEvents_heatDecay : nextIs (exec .heatDecay { sub s0 { a := 0 } with dies := [(0, { s0.die 0 with heat := [(3, 64 * 9 + 5)] })] })
    (fun t => decide ((t.die 0).heat = [(3, 64 * 4 + 5)])) = true := by decide +kernel


/-- A mig of the mapped page by access 5 of member 0. -/
def migAcc : Access := { acc (.mig true) 1 with ea := 0x4000006000000000 }

theorem witness_MemoryEvents_migRefused : (let s : State := { sub s0 { m := ⟨1, 0⟩, a := 0x6000001000, b := 1, c := 5 } with accesses := [migAcc] }
    s.migrations.find? (fun g => decide (g.vd = 1 ∧ g.va ≤ s.subject.a ∧ s.subject.a < g.va + g.size)) = none ∧ s.access s.subject.c = some migAcc ∧
    findLeaf (s.vd 1) s.subject.a = none ∧ nextIs (exec .migrationRequest s) (fun t => decide (t.accesses.map (·.st) = [.done (.s 3)])) = true) := by decide +kernel

theorem witness_MemoryEvents_migAlreadyThere : (let s : State := { sub s0 { m := ⟨1, 0⟩, a := 0x6000000000, b := 0, c := 5 } with accesses := [migAcc] }
    findLeaf (s.vd 1) s.subject.a = some (4, 0x1065) ∧ ¬(2 ≤ ptTgt 0x1065) ∧ (ptTgt 0x1065 = 1 ↔ s.subject.b = 1) ∧
    nextIs (exec .migrationRequest s) (fun t => decide (t.accesses.map (·.st) = [.done (.s 1)])) = true) := by decide +kernel

theorem witness_MemoryEvents_migAccepted : (let s : State := { sub s0 { m := ⟨1, 0⟩, a := 0x6000000010, b := 1, c := 5 } with accesses := [migAcc] }
    findLeaf (s.vd 1) s.subject.a = some (4, 0x1065) ∧ ptTgt 0x1065 = 0 ∧ s.subject.b = 1 ∧ s.subject.a < (s.vd 1).queueVa ∧ s.migrations = [] ∧
    (tierFor s (pageOf 4 s.subject.a 0x1065).2).isSome = true ∧ portLost s (.phys (hbmKey 0 0x1000)) = false ∧ s.dies.all (fun e => e.2.merges.isEmpty) = true ∧
    nextIs (exec .migrationRequest s) (fun t => decide (t.migrations.map (·.step) = [1])) = true) := by decide +kernel

/-- No port of the tier is up: there is no room where the page is to go. -/
theorem witness_MemoryEvents_migNoRoom : (let s : State := { sub s0 { m := ⟨1, 0⟩, a := 0x6000000010, b := 1, c := 5 } with accesses := [migAcc], switches := (List.range 16).map fun w => (w, { Switch.reset with tierUp := false }) }
    findLeaf (s.vd 1) s.subject.a = some (4, 0x1065) ∧ tierFor s (pageOf 4 s.subject.a 0x1065).2 = none ∧
    nextIs (exec .migrationRequest s) (fun t => decide (t.accesses.map (·.st) = [.done (.s 3)])) = true) := by decide +kernel

/-- A page of member 0 on its way to the tier, in a step, its second sector written since. -/
def moveM (step : Nat) : Migration := ⟨1, 0, 0x6000000000, 4096, true, 0x1000, 0x8000, [5], step, 60, false, [1], []⟩
@[inherit_doc moveM] def moveS (step : Nat) : State :=
  { sub s0 { m := ⟨1, 0⟩, a := 0x6000000000, b := step } with migrations := [moveM step], mem := [(hbmKey 0 0x1110, 0x55), (tierKey 0x8010, 0x44)], accesses := [migAcc] }

theorem witness_MemoryEvents_migrationSteps : ([1, 2, 3] : List Nat).all (fun n => let s := moveS n; let g := moveM n
    decide (migrationOf s = some g ∧ g.srcKey s = hbmKey 0 0x1000 ∧ g.dstKey s = tierKey 0x8000 ∧ findLeaf (s.vd 1) g.va = some (4, 0x1065)) && stillThere s g &&
      !portLost s (.phys (g.srcKey s)) && !portLost s (.phys (g.dstKey s)) && s.dies.all (fun e => e.2.merges.isEmpty) && !placementHeld s 1 && !busyBut s 1 g.va (g.va + 4096) [] &&
      nextIs (exec .migrationComplete s) fun t => decide (t.migrations.map (·.step) = (if n = 3 then [] else [n + 1]) ∧
        t.mem = (if n = 1 then [(hbmKey 0 0x1110, 0x55), (tierKey 0x8010, 0x44), (tierKey 0x8110, 0x55)] else if n = 2 then s.mem else [(tierKey 0x8010, 0x44), (tierKey 0x8110, 0x55)]))) = true := by
  decide +kernel

/-- Held by R38, and by an access that translated through the page. -/
theorem witness_MemoryEvents_migrationWaits : (let s := (moveS 2).modMember ⟨1, 1⟩ fun m => { m with parsed := [(15, 1)] }; let b := { moveS 3 with accesses := [{ migAcc with st := .remote 1 0 }] }
    stillThere s (moveM 2) = true ∧ placementHeld s 1 = true ∧ nextIs (exec .migrationComplete s) (fun t => decide (t.migrations = [moveM 2])) = true ∧
    busyBut b 1 0x6000000000 0x6000001000 [] = true ∧ nextIs (exec .migrationComplete b) (fun t => decide (t.migrations = [moveM 3])) = true) := by decide +kernel

theorem witness_MemoryEvents_migrationHoldTimeout : (let s := { moveS 3 with clk := 1760 }; migrationOf s = some (moveM 3) ∧ 60 + 1700 ≤ s.clk ∧
    nextIs (exec .migrationHoldTimeout s) (fun t => decide (t.migrations = [] ∧ t.accesses.map (·.st) = [.done (.s 2)])) = true) := by decide +kernel

theorem witness_MemoryEvents_eccError : ([(({ a := vaultKey 0 0x103, b := 1 } : Subject), 1), ({ a := hbmKey 0 0x1234, b := 1 }, 2)] : List (Subject × Nat)).all
    (fun e => decide (e.1.c = 0 ∧ e.1.a / 2 ^ 80 = e.2 ∧ e.1.b ≠ 0 ∧ s0.platform.sparesUsed = [])) = true ∧
    nextIs (exec .eccError (sub s0 { a := vaultKey 0 0x103, b := 1 })) (fun t => decide (t.poison = [(vaultKey 0 0x100, true)])) = true ∧
    nextIs (exec .eccError (sub s0 { a := 0x2FFFF, b := 1, c := 1 })) (fun t => decide ((t.core ⟨0, 0⟩).rsPoison = [(0x2FFF8, true)])) = true ∧
    nextIs (exec .eccError (sub s0 { a := 2047, b := 1, c := 2 })) (fun t => decide ((t.core ⟨0, 0⟩).imemPoison = [(2047, true)])) = true := by decide +kernel

/-- The second and the third corrected error of a row within the hour. -/
theorem witness_MemoryEvents_eccCorrected : (let s (l : List Nat) : State := (sub s0 { a := hbmKey 0 0x1234 }).modDie 0 fun d => { d with rowErrors := [(rowKey 0x1200, l)] }
    ∀ l, Tab.get [] ((s l).die 0).rowErrors (rowKey 0x1200) = l) ∧ (([60], [50, 60]) : List Nat × List Nat).1.length < 2 ∧
    ([50, 60].filter fun t => decide (s0.clk ≤ t + 3600 * 850000000)).length = 2 ∧ s0.platform.sparesUsed = [] :=
  ⟨fun l => by simp [Tab.get], by decide, by decide +kernel, by decide +kernel⟩

theorem witness_MemoryEvents_retirementRecordRetry : (let s := { s0 with platform := { s0.platform with pendingRecords := [(3, [1, 2], 2)] } }
    s.platform.pendingRecords = (3, [1, 2], 2) :: []) := by decide +kernel

theorem witness_MemoryEvents_translationInvalidate : (s0.vd 1).live = true := by decide +kernel

/-- Invalidation 4 at die 1: behind an earlier one, on its own, and while an access through the page is under way; it is the last to answer. -/
theorem witness_MemoryEvents_inval : (let i : Inval := ⟨4, 1, 0x6000000000, 0x6000001000, [1], [1]⟩; let s (l : List Inval) (a : List Access) : State := { sub s0 { a := 4, l := [1] } with invals := l, accesses := a }
    let a : Access := { acc (.load 8 false) 8 with k := ⟨1, 0⟩, member := 1, ea := 0x4000006000000000, st := .remote 0 0 }
    (s [i] []).invals.find? (fun x => decide (x.no = 4) && x.left.contains 1) = some i ∧
    (invalAhead (s [{ i with no := 3 }, i] []) 4 1 = true ∧ nextIs (exec .inval (s [{ i with no := 3 }, i] [])) (fun t => decide (t.agenda.map (·.at_) = [101])) = true) ∧
    (invalAhead (s [i] []) 4 1 = false ∧ dieBusy (s [i] [a]) 1 1 0x6000000000 0x6000001000 = true ∧ nextIs (exec .inval (s [i] [a])) (fun t => decide (t.agenda.map (·.at_) = [101])) = true) ∧
    (dieBusy (s [i] []) 1 1 0x6000000000 0x6000001000 = false ∧ nextIs (exec .inval (s [i] [])) (fun t => decide (t.invals = [] ∧ t.reports.map (·.code) = [0x100])) = true)) := by decide +kernel

theorem witness_MemoryEvents_outsidePortTimeout : (let a : Access := { acc (.load 8 false) 8 with ea := 0x4000006000000000 }
    let s : State := { sub (s0.modVd 1 fun v => { v with pt := Tab.put 0 v.pt (ptKey 4 0x6000000000) 0x1165 }) { a := 5 } with accesses := [a], clk := 42500090 }
    s.access 5 = some a ∧ outsideBound s a = true ∧ a.performed = false ∧ a.issue + 42500000 ≤ s.clk ∧
    nextIs (exec .outsidePortTimeout s) (fun t => decide (t.agenda.length = 1)) = true) := by decide +kernel

theorem witness_MemoryEvents_always : ([.hbmScrub, .vaultScrub, .outsidePortLost, .translationInvalidate] : List Instr).all (fun i => nextIs (exec i (sub s0 { a := 1, b := 0, c := 4096, l := [0] }))
    fun _ => true) = true := by decide +kernel

/-! Votes -/

/-- VD 1 in slot 0 on dies 0 and 1, VD 2 in slot 1 on die 2; vote 3 about VD 1. -/
def voteS (st : VoteState) (o : Subject) : State :=
  { sub s0 o with
    clk := 1000000,
    vds := [(1, { vd1 with params := { vd1.params with homeSlot := some 0 } }),
            (2, { vd1 with gang := 1, dies := [2], params := { vd1.params with n := 1, homeSlot := some 1 } })],
    members := s0.members ++ [(512, { Member.blank with live := true, die := 2 })],
    gc := { GC.reset with slots := 2, cells := [(0, .home 1), (1, .home 1), (258, .home 2)], running := true, quantumEnd := 1000000, voteNo := 3,
                          vote := if st = .idle then Vote.none else { Vote.none with st := st, v := 3, leaving := [1], coming := [2], slot := 1, dies := [0, 1, 2] } } }

theorem witness_VoteEvents_quantumBusy : (let s := voteS .snuffing {}
    s.gc.running = true ∧ s.gc.quantumEnd ≤ s.clk ∧ s.gc.vote.st ≠ .idle ∧ nextIs (exec .slotQuantumEnd s) (fun t => decide (t.agenda.length = 1)) = true) := by decide +kernel

theorem witness_VoteEvents_quantumEnd : (let s := voteS .idle {}; let c := resetCells s s.gc.cur
    s.gc.running = true ∧ s.gc.quantumEnd ≤ s.clk ∧ s.gc.vote.st = .idle ∧ s.gc.pending = none ∧
    (match findSlot c c.gc.slots ((c.gc.cur + 1) % max c.gc.slots 1) with
      | some (i, s') => i == 1 && !(votersOf s' (((s'.vds.map (·.1)).filter fun n => onDies s' n).filter fun n => !(slotVds s' i).contains n)).isEmpty
      | none => false) = true ∧
    nextIs (exec .slotQuantumEnd s) (fun t => decide (t.gc.vote.leaving = [1] ∧ t.gc.vote.coming = [2] ∧ t.gc.voteNo = 4)) = true) := by decide +kernel

theorem witness_VoteEvents_snuff : (let s0 := voteS .snuffing { m := ⟨1, 0⟩, a := 3 }; let s := voteS .snuffing { m := ⟨1, 0⟩, a := 3, b := 1 }; let s' := s.modCore ⟨0, 0⟩ fun c => { c with nsw := some 5 }
    (votes s0 ⟨1, 0⟩ = true ∧ s0.gc.vote.st = .snuffing ∧ nextIs (exec .snuff s0) (fun t => decide (t.agenda.map (·.at_) = [1000001])) = true) ∧
    votes s ⟨1, 0⟩ = true ∧ openWindow s ⟨1, 0⟩ = none ∧ nextIs (exec .snuff s) (fun t => (t.member ⟨1, 0⟩).snuffed) = true ∧
    votes s' ⟨1, 0⟩ = true ∧ openWindow s' ⟨1, 0⟩ = some 0 ∧ (s'.vd 1).state ≠ .killed ∧ nextIs (exec .snuff s') (fun t => !(t.member ⟨1, 0⟩).snuffed) = true) := by decide +kernel

theorem witness_VoteEvents_countLatch : (let s := voteS .snuffing { a := 3, b := 0 }
    s.gc.vote.v = 3 ∧ s.gc.vote.round = 0 ∧ s.gc.vote.sentAt + 1700 ≤ s.clk ∧ (votersOf s s.gc.vote.leaving).length = 2 ∧ nextIs (exec .countLatch s) (fun _ => true) = true) := by
  decide +kernel

theorem witness_VoteEvents_refuse : (let s := (voteS .snuffing { m := ⟨1, 0⟩, a := 3, b := 0 }).modVd 1 fun v => { v with refusals := 3 }
    votes s ⟨1, 0⟩ = true ∧ nextIs (exec .refuse s) (fun t => decide (t.gc.vote.st = .backoff ∧ t.reports.map (·.code) = [2])) = true) := by decide +kernel

theorem witness_VoteEvents_count : (let s := voteS .summing { a := 3, b := 0, c := 0, l := [0, 5, 6] }
    s.gc.vote.counts = [] ∧ nextIs (exec .count s) (fun t => decide (t.gc.vote.counts = [(0, 0, 5, 6)] ∧ t.gc.vote.st = .summing)) = true) := by decide +kernel

/-- The last count, with every sum equal. -/
theorem witness_VoteEvents_countLast : (let s := voteS .summing { a := 3, b := 0, c := 1, l := [0, 4, 7] }
    let s := { s with gc := { s.gc with vote := { s.gc.vote with counts := (0, 0, 8, 5) :: (List.range Config.switches).map fun w => (1000 + w, 0, 0, 0) } } }
    (∀ r ∈ s.gc.vote.counts, r.1 ≠ 1) ∧ nextIs (exec .count s) (fun t => decide (t.gc.vote.st = .relighting)) = true) := by decide +kernel

theorem witness_VoteEvents_sumreq : nextIs (exec .sumreq (voteS .snuffing { a := 3, b := 1 })) (fun t => decide (t.gc.vote.st = .summing ∧ t.gc.vote.round = 1)) = true := by decide +kernel

theorem witness_VoteEvents_drainDeadline : (let s := voteS .summing { a := 3 }
    s.gc.vote.sentAt + s.gc.vote.deadline ≤ s.clk ∧ nextIs (exec .drainDeadline s) (fun t => decide (t.gc.vote.st = .holding ∧ t.gc.vote.hold = [1])) = true) := by decide +kernel


/-- A packet of this type between members 0 and 1 of the gang of VD 1. -/
def pk (type smem dmem : Nat) (addr : Dword) (data : List Byte) : Pkt :=
  { vc := 0, type := type, mark := false, echo := false, ddie := dmem, sdie := smem, gang := 0, dmem := dmem, smem := smem, addr := addr, seq := 1, nent := 0,
    pl := !data.isEmpty, lenm1 := data.length - 1, rtag := 9, cid := 7, opx := 0, rsvd := 0, stamp := [], data := data, counted := false, rel := false, poison := false, mlen := 0, inj := 0 }

/-- Vote 3 holds, about VD 1. -/
def holdS (o : Subject) (hold : List Nat) : State := let s := voteS .holding o; { s with gc := { s.gc with vote := { s.gc.vote with hold := hold } } }

theorem witness_VoteEvents_hold : (let p := pk 0 1 0 0 [1]
    let s := (holdS { a := 3, b := 0 } [1]).modMember ⟨1, 0⟩ fun m => { m with landing := [p] }
    (parties s).contains 0 = true ∧ (s.die 0).failed = false ∧ (s.die 0).ctx = some ⟨1, 0⟩ ∧ 1 ∈ s.gc.vote.hold ∧ (s.member ⟨1, 0⟩).landing = [p] ∧
    servedPkts s ⟨1, 0⟩ = [] ∧ s.agenda = [] ∧ captureFits s ⟨1, 0⟩ p = true ∧
    nextIs (exec .hold s) (fun t => decide ((t.member ⟨1, 0⟩).netSave.length = 1 ∧ (t.member ⟨1, 0⟩).received = 1)) = true) := by decide +kernel

theorem witness_VoteEvents_holdNothing : (let s := holdS { a := 3, b := 1 } []
    (parties s).contains 1 = true ∧ (s.die 1).ctx = some ⟨1, 1⟩ ∧ 1 ∉ s.gc.vote.hold ∧ nextIs (exec .hold s) (fun t => decide (t.members = s.members)) = true) := by decide +kernel

theorem witness_VoteEvents_held : (let s := holdS { a := 3, b := 1 } [1]
    let s' := { s with gc := { s.gc with vote := { s.gc.vote with reported := (parties s).filter fun p => p != 1 } } }
    s.gc.vote.overflow = false ∧ nextIs (exec .held s) (fun t => decide (t.gc.vote.reported = [1])) = true ∧
    1 ∉ s'.gc.vote.reported ∧ nextIs (exec .held s') (fun t => decide (t.gc.vote.st = .relighting)) = true) := by decide +kernel

theorem witness_VoteEvents_abort : (let s := voteS .backoff { m := ⟨1, 0⟩, a := 3 }
    votes s ⟨1, 0⟩ = true ∧ nextIs (exec .abort s) (fun t => !(t.member ⟨1, 0⟩).snuffed) = true) := by decide +kernel

theorem witness_VoteEvents_backoffEnd : (let s := voteS .backoff { a := 3 }
    (votersOf s s.gc.vote.leaving).isEmpty = false ∧ nextIs (exec .backoffEnd s) (fun t => decide (t.gc.vote.st = .snuffing ∧ t.gc.vote.v = 4)) = true) := by decide +kernel

theorem witness_VoteEvents_relightStop : (let s := voteS .relighting { a := 0, b := 0, c := 3 }
    0 ∈ s.gc.vote.dies ∧ (s.die 0).failed = false ∧ nextIs (exec .relight s) (fun t => (t.die 0).stopped) = true) := by decide +kernel

theorem witness_VoteEvents_relightWait : (let s := (voteS .relighting { a := 0, b := 1, c := 3 }).modCore ⟨0, 0⟩ fun c => { c with entry := true }
    (s.die 0).ctx = some ⟨1, 0⟩ ∧ stopBusy s 0 ⟨1, 0⟩ = true ∧ nextIs (exec .relight s) (fun t => decide (t.agenda.map (·.at_) = [1000001])) = true) := by decide +kernel

theorem witness_VoteEvents_relightSave : (let s := voteS .relighting { a := 0, b := 1, c := 3 }
    stopBusy s 0 ⟨1, 0⟩ = false ∧ nextIs (exec .relight s) (fun t => decide ((t.die 0).ctx = none ∧ (t.member ⟨1, 0⟩).cores = [(0, core0)] ∧ t.cores = [])) = true) := by decide +kernel

theorem witness_VoteEvents_relightLoad : (let s := (voteS .relighting { a := 2, b := 2, c := 3 }).modMember ⟨2, 0⟩ fun m => { m with cores := [(7, core0)], offAt := 999000 }
    (s.die 2).newPosition = none ∧ incoming s 2 = some ⟨2, 0⟩ ∧ (s.member ⟨2, 0⟩).die = 2 ∧
    nextIs (exec .relight s) (fun t => decide ((t.die 2).ctx = some ⟨2, 0⟩ ∧ (t.core ⟨2, 7⟩).frozen = 1000)) = true) := by decide +kernel

theorem witness_VoteEvents_lit : (let s := voteS .relighting { a := 2, b := 3 }; let s' := { s with gc := { s.gc with vote := { s.gc.vote with reported := [0, 1] } } }
    nextIs (exec .lit s) (fun t => decide (t.gc.vote.reported = [2])) = true ∧
    nextIs (exec .lit s') (fun t => decide (t.gc.vote.st = .idle ∧ t.gc.cur = 1 ∧ t.gc.quantumEnd = 2700000)) = true) := by decide +kernel

theorem witness_VoteEvents_votePartyTimeout : (let s := voteS .relighting { a := 3, b := 915000 }
    let s := { s with gc := { s.gc with vote := { s.gc.vote with reported := [0, 1], askedAt := 915000 } } }
    s.gc.vote.askedAt = s.subject.b ∧ s.subject.b + 85000 ≤ s.clk ∧ (s.gc.vote.dies.filter fun x => !s.gc.vote.reported.contains x) = [2]) := by decide +kernel

/-! Wake, kill, reductions -/

theorem witness_WakeAndReductionEvents_hangt : (let s := (on fun c => { c with waited := 1 })
    (s.ctx ⟨0, 0⟩).isSome = true ∧ (s.vd 1).params.hangt ≤ (s.core ⟨0, 0⟩).waited ∧ (s.core ⟨0, 0⟩).hung = false ∧
    nextIs (exec .hangtExpiry s) (fun t => decide (t.reports.map (·.code) = [1])) = true) := by decide +kernel

/-- VD 1 of the vote state without a vote, in a state of its own. -/
def vdS (st : VdState) (o : Subject) (f : VD → VD := id) : State := (voteS .idle o).modVd 1 fun v => f { v with state := st }
/-- The same, off its dies. -/
def offS (st : VdState) (o : Subject) (f : VD → VD := id) : State := { vdS st o f with dies := [], cores := [] }

theorem witness_WakeAndReductionEvents_collapseRequest : (let s := vdS .running { a := 1, b := 0 }
    onDies s 1 = true ∧ s.gc.vote.st = .idle ∧ (votersOf s [1]).isEmpty = false ∧ (s.vd 1).live = true ∧
    nextIs (exec .collapseRequest s) (fun t => decide ((t.vd 1).state = .collapsing ∧ t.gc.vote.leaving = [1])) = true) := by decide +kernel

/-- A collapse request for a gang off its dies; the idle timeout of one that stands on them. -/
theorem witness_WakeAndReductionEvents_collapseOff : (let s := offS .running { a := 1, b := 0 }
    (s.vd 1).live = true ∧ bound s 1 = false ∧ nextIs (exec .collapseRequest s) (fun t => decide ((t.vd 1).state = .collapsing ∧ cellOf t 0 1 = .idle 1)) = true) := by decide +kernel

theorem witness_WakeAndReductionEvents_idleTimeout : (let s := { vdS .running { a := 1, b := 10 } (fun v => { v with idleSince := some 10, params := { v.params with idleTimeout := some 20 } }) with cores := [] }
    (s.vd 1).idleSince = some 10 ∧ (s.vd 1).params.idleTimeout = some 20 ∧ 10 + 20 ≤ s.clk ∧ (List.range 2).all (fun j => memberIdle s ⟨1, j⟩) = true ∧ onDies s 1 = true ∧
    s.gc.vote.st = .idle ∧ (votersOf s [1]).isEmpty = false ∧ nextIs (exec .idleTimeout s) (fun t => decide ((t.vd 1).state = .collapsing)) = true) := by decide +kernel

theorem witness_WakeAndReductionEvents_collapseWork : (let s := offS .collapsing { a := 1 } fun v => { v with params := { v.params with wakeClass := 2 } }
    bound s 1 = false ∧ (s.vd 1).struck = false ∧ nextIs (exec .collapseWork s) (fun t => decide ((t.vd 1).state = .pilot)) = true) := by decide +kernel

theorem witness_WakeAndReductionEvents_strike : (let s := offS .pilot { a := 1 }
    (s.vd 1).live = true ∧ (s.vd 1).movedTo = none ∧ nextIs (exec .strike s) (fun t => decide ((t.vd 1).state = .waking)) = true) ∧
    nextIs (exec .strike (offS .collapsing { a := 1 })) (fun t => (t.vd 1).struck) = true ∧ nextIs (exec .strike (vdS .running { a := 1 })) (fun t => decide (t.clk = 1000000)) = true := by
  decide +kernel

theorem witness_WakeAndReductionEvents_wakeLate : (let s := offS .waking { a := 1, b := 150000 } fun v => { v with started := false, struckAt := 150000 }
    (s.vd 1).started = false ∧ (s.vd 1).struckAt = s.subject.b ∧ (s.vd 1).late = false ∧ nextIs (exec .wakeLate s) (fun t => (t.vd 1).late) = true) := by decide +kernel

/-- VD 1 of one member, killed and off its dies, a packet with a signal at the mapped page open. -/
def killedS : State := { (offS .killed { a := 1 } fun v => { v with params := { v.params with n := 1 }, pt := vd1.pt }) with
  members := [(256, { Member.blank with live := true, packets := [⟨0, 0, [0x100, 0, 0, 0, 0, 0, 0x6000000008, 0], 1, false, [], [], false⟩] })] }

theorem witness_WakeAndReductionEvents_abortedWrite : (let s := killedS
    bound s 1 = false ∧ (s.vd 1).tables = [] ∧ (s.die 0).merges = [] ∧ (s.vd 1).params.n = 1 ∧ openSignals (s.member ⟨1, 0⟩) = [0x6000000008] ∧ strikeAt s 1 0x6000000008 = none ∧
    (match vaLoc s 1 0x6000000008 true with | .ok l => l.key == hbmKey 0 0x1008 | .error _ => false) = true ∧
    nextIs (exec .abortedWrite s) (fun t => decide (memNat t.mem (hbmKey 0 0x1008) 8 = 0xFFFFFFFFFFFFFFFE)) = true) := by decide +kernel

/-- s0 with a reduction packet of member 1 at switch 12, and a slot of it there with the contribution of member 0. -/
def redS (o : Subject) (sl : Option RedSlot) : State := ((sub s0 { o with a := 12 }).modVd 1 fun v => { v with gang := 0x25 }).modSwitch 12 fun w => { w with slots := match sl with | some x => [(51, some x)] | none => [] }
@[inherit_doc redS] def redPkt : Pkt := { pk 0x0B 1 0 0x300 [3, 0, 0, 0] with opx := 5 * 4, cid := 0x11, gang := 0x25 }
@[inherit_doc redS] def redSlot : RedSlot :=
  { gang := 0x25, cid := 0x11, ty := 5, op := 0, len := 4, partials := [4, 0, 0, 0], mask := [0], stamp := [(0, 2)], nan := none, nanElems := [], waiting := [(0, 1, 0x100)], deadline := 90, done := none }

theorem witness_WakeAndReductionEvents_sredFirst : (let s := redS { pkt := some redPkt } none
    redPkt.type = 0x0B ∧ redPkt.opx / 4 ≠ 0 ∧ slotOf s 12 0x25 0x11 = none ∧ (freeSlot s 12 0x25 0x11).isSome = true ∧ (s.vd (vdOfGang s 0x25)).params.n ≠ 1 ∧
    nextIs (exec .sredPacket s) (fun t => decide (Tab.get 0 (t.switch 12).received 0x25 = 1)) = true) := by decide +kernel

theorem witness_WakeAndReductionEvents_sredLast : (let s := redS { pkt := some redPkt } (some redSlot)
    slotOf s 12 0x25 0x11 = some 51 ∧ s.slot 12 51 = some redSlot ∧ redSlot.len = redPkt.data.length ∧ redSlot.ty = redPkt.opx / 4 ∧ redSlot.op = redPkt.opx % 4 ∧
    (s.vd (vdOfGang s 0x25)).params.n = 2 ∧
    nextIs (exec .sredPacket s) (fun t => decide ((t.slot 12 51).map (·.partials) = some [7, 0, 0, 0] ∧ (t.slot 12 51).map (·.waiting) = some [])) = true) := by decide +kernel

/-- The same in a gang of three: the slot goes on waiting. -/
theorem witness_WakeAndReductionEvents_sredNext : (let s := (redS { pkt := some redPkt } (some redSlot)).modVd 1 fun v => { v with params := { v.params with n := 3 } }
    slotOf s 12 0x25 0x11 = some 51 ∧ (s.vd (vdOfGang s 0x25)).params.n = 3 ∧ nextIs (exec .sredPacket s) (fun t => decide ((t.slot 12 51).map (·.mask) = some [0, 1])) = true) := by decide +kernel

theorem witness_WakeAndReductionEvents_sres : (let a := { acc (.sred 5 0 7 []) 4 with st := .remote 0 1 }
    let s (d : List Byte) : State := { sub s0 { m := ⟨1, 0⟩, pkt := some { pk 0x0C 0 0 0xAB d with rtag := 5 } } with accesses := [a] }
    sredAccess (s []) ⟨1, 0⟩ 5 = some a ∧ (s0.member ⟨1, 0⟩).live = true ∧ (s0.die 0).ctx = some ⟨1, 0⟩ ∧
    nextIs (exec .sres { s [] with dies := [] }) (fun t => decide (t.agenda.map (·.at_) = [108])) = true ∧ nextIs (exec .sres (s [])) (fun t => decide (t.accesses.map (·.st) = [.done (.s 0xAB)])) = true ∧
    resident (s [1]) 0 ⟨1, 0⟩ 0 = true ∧ nextIs (exec .sres (s [1, 2, 3, 4])) (fun t => decide (memNat t.mem (vaultKey 0 0x100) 4 = 0x04030201)) = true) := by decide +kernel

theorem witness_WakeAndReductionEvents_deadline : (let s := redS { b := 51, c := 90 } (some redSlot)
    s.slot 12 51 = some redSlot ∧ redSlot.done = none ∧ redSlot.deadline = s.subject.c ∧ s.subject.c ≤ s.clk ∧
    nextIs (exec .reductionSlotDeadline s) (fun t => decide ((t.slot 12 51).map (fun x => x.done.map (·.1)) = some (some 0x8000080000000001))) = true) := by decide +kernel

theorem witness_WakeAndReductionEvents_linger : (let s := redS { b := 51 } (some { redSlot with done := some (1, 90) })
    (s.slot 12 51).map (·.done) = some (some (1, 90)) ∧ nextIs (exec .slotLingerEnd s) (fun t => decide (t.slot 12 51 = none)) = true) := by decide +kernel


/-! The front end -/

/-- The small machine with queue q of member 0: its ring of 16 packets on the mapped page, one packet written, and more bytes after the ring. -/
def feS (q : Nat) (dw : List Nat) (more : List Byte) (log : Nat := 4) : State :=
  { sub s0 { m := ⟨1, 0⟩, a := q, b := 0 } with
    vds := [(1, { vd1 with tables := [hbmKey 0 0x4000, hbmKey 0 0x5000] })],
    mem := memPut (memPut (memPut [] (hbmKey 0 0x1000) (dw.flatMap (toBytes 8))) (hbmKey 0 0x1800) more) (hbmKey 0 (0x4000 + 64 * q))
      (toBytes 8 (2 ^ 63 + log * 2 ^ 52 + 0x6000000000) ++ toBytes 8 1) }

/-- A packet of eight dwords from dwords 0 and 1, SADR and SVAL. -/
def dw8 (d0 d1 sadr sval : Nat) : List Nat := [d0, d1, 0, 0, 0, 0, sadr, sval]

/-- The packet is the next of its queue, of that type, with no field out of order. -/
def isNext (s : State) (ty allow : Nat) (va : Bool) : Bool := match nextPacket s ty with
  | some (dw, s1) => decide (s1.subject = s.subject ∧ dw.length = 8) && (commonBad ty allow va dw s.subject.a).isNone && (heldPacket s ty).isNone
  | none => false

theorem witness_FrontEndEvents_doorbell : (let s := feS 14 (dw8 9 0 0 0) []
    initFirst s 1 = false ∧ canParse s ⟨1, 0⟩ 14 = true ∧ (match vaRead s ⟨1, 0⟩ (packetVa s ⟨1, 0⟩ 14 0) 64 with | .ok (b, _) => packetEvent (b.headD 0).toNat == some .nopPacket | .error _ => false) = true ∧
    nextIs (exec .queueDoorbell s) (fun t => decide (t.agenda.length = 1)) = true) := by decide +kernel

theorem witness_FrontEndEvents_badDescriptor : (let s := feS 0 (dw8 9 0 0 0) [] 17
    initFirst s 1 = false ∧ parses s ⟨1, 0⟩ = true ∧ descEn s ⟨1, 0⟩ 0 = true ∧ descBad s ⟨1, 0⟩ 0 = some 7 ∧
    nextIs (exec .queueDoorbell s) (fun t => decide (descEn t ⟨1, 0⟩ 0 = false ∧ t.reports.map (·.code) = [7])) = true) := by decide +kernel

theorem witness_FrontEndEvents_poll : parses (feS 0 (dw8 9 0 0 0) []) ⟨1, 0⟩ = true ∧ nextIs (exec .queuePoll (feS 0 (dw8 9 0 0 0) [])) (fun _ => true) = true := by decide +kernel

/-- A LAUNCH of two bundles on the 2 × 4 rectangle at (2, 4), its arguments after the image. -/
def launchS : State := feS 0 [1 + 1 * 2 ^ 18 + 2 * 2 ^ 21 + 2 * 2 ^ 24 + 4 * 2 ^ 28 + 1 * 2 ^ 32, 0x6000000800, 0x6000000880, 0, 0, 0, 0, 0] (toBytes 128 7 ++ toBytes 8 99)

theorem witness_FrontEndEvents_launch : (match nextPacket launchS 1 with
      | some (dw, s1) => (match readLaunch s1 ⟨1, 0⟩ 0 0 dw with | .ok (l, s2) => decide (s2.subject = launchS.subject ∧ dw.length = 8 ∧ l.image = [7, 0]) | .error _ => false)
      | none => false) = true ∧
    nextIs (exec .launchPacket launchS) (fun t => decide ((t.member ⟨1, 0⟩).launches.map (fun l => (l.x0, l.y0, l.lw, l.lh)) = [(2, 4, 2, 4)])) = true := by decide +kernel

theorem witness_FrontEndEvents_badLaunch : (let s := feS 0 [1 + 5 * 2 ^ 18, 0x6000000800, 0x6000000880, 0, 0, 0, 0, 0] []
    (match nextPacket s 1 with | some (dw, s1) => (match readLaunch s1 ⟨1, 0⟩ 0 0 dw with | .ok _ => false | .error r => r == 3 && decide (s1.subject = s.subject)) | none => false) = true ∧
    nextIs (exec .launchPacket s) (fun t => decide (t.reports.map (·.code) = [3])) = true) := by decide +kernel

theorem witness_FrontEndEvents_tasks : (let s := feS 0 (dw8 (2 + 1 * 2 ^ 48) 0x6000000800 0 0) []
    isNext s 2 (0xFFFF * 2 ^ 48 + 3 * 2 ^ 16) true = true ∧ (s.member ⟨1, 0⟩).packets = [] ∧ lowestFree (s.member ⟨1, 0⟩).pool 4096 = some 0 ∧
    (match vaDwords s ⟨1, 0⟩ 0x6000000800 8 with | .ok (l, s2) => l.length == 8 && !recordBad s2 ⟨1, 0⟩ l [] && decide (s2.subject = s.subject) | .error _ => false) = true ∧
    nextIs (exec .tasksPacket s) (fun t => ((t.member ⟨1, 0⟩).task 0).isSome) = true) := by decide +kernel

theorem witness_FrontEndEvents_noTasks : (let s := feS 0 (dw8 2 0x6000000800 0 0) []
    isNext s 2 (0xFFFF * 2 ^ 48 + 3 * 2 ^ 16) true = true ∧ nextIs (exec .tasksPacket s) (fun t => decide (t.reports.map (·.code) = [4])) = true) := by decide +kernel

/-- A COPY packet, with room in the job queue and with none. -/
def copyS : State := feS 0 (dw8 3 0x6000000800 0 0) (cardBytes 0)
@[inherit_doc copyS] def copyFullS : State :=
  let j : Job := { card := [], st := .pending, demand := 0, issued := 0, done := 0, inflight := [], withdrawn := false, aborted := false, summary := none, coll := Coll.start,
                   packet := none, registered := false, unacked := [], prev := [], core := 256, born := 0, stamp := [], steps := 0 }
  copyS.modMember ⟨1, 0⟩ fun m => { m with jobs := (List.range 256).map fun i => (i, some j) }

theorem witness_FrontEndEvents_copy : isNext copyS 3 0 true = true ∧
    (match vaDwords copyS ⟨1, 0⟩ 0x6000000800 8 with
      | .ok (c, s2) => decide (cardKind c ≠ 3 ∧ s2.subject = copyS.subject ∧ cardMember (s2.vd 1).params.n c = none) && !cardBad (cardKind c) c [] && !cardEpBad (s2.vd 1) c
      | .error _ => false) = true ∧ lowestFree (copyS.member ⟨1, 0⟩).jobs 256 = some 0 ∧ nextIs (exec .copyPacket copyS) (fun t => ((t.member ⟨1, 0⟩).job 0).isSome) = true := by
  decide +kernel

theorem witness_FrontEndEvents_copyFull : isNext copyFullS 3 0 true = true ∧ lowestFree (copyFullS.member ⟨1, 0⟩).jobs 256 = none ∧
    nextIs (exec .copyPacket copyFullS) (fun t => decide (t.agenda.map (·.at_) = [108])) = true := by decide +kernel

/-- A FENCE on the mapped word 0x6000000840 being at least a number. -/
def fenceS (n : Nat) : State := feS 15 (dw8 (4 + 1 * 2 ^ 48) 0x6000000800 0 0) (toBytes 8 (2 * 2 ^ 60 + 0x6000000840) ++ toBytes 8 n ++ List.replicate 48 0 ++ toBytes 8 5)

theorem witness_FrontEndEvents_fence : ([5, 6] : List Nat).all (fun n => isNext (fenceS n) 4 (0xFFFF * 2 ^ 48) true &&
    (match vaDwords (fenceS n) ⟨1, 0⟩ 0x6000000800 2 with
      | .ok (l, s2) => (pairs l).all (fun e => decide (bitsN e.1.toNat 63 60 < 6 ∧ bitsN e.1.toNat 58 52 = 0 ∧ bitsN e.1.toNat 51 0 % 8 = 0))
          && !(fenceRead ⟨1, 0⟩ (pairs l) s2 []).2.1 && decide ((fenceRead ⟨1, 0⟩ (pairs l) s2 []).1.length = 6 - n)
      | .error _ => false) && nextIs (exec .fencePacket (fenceS n)) fun t => decide ((t.member ⟨1, 0⟩).packets.length = 1)) = true := by decide +kernel

/-- The parsed FENCE, polled once the counter is, or is not, high enough. -/
def pollS (n : Nat) : State := (fenceS n).modMember ⟨1, 0⟩ fun m => { m with packets := [⟨15, 0, (dw8 (4 + 1 * 2 ^ 48) 0x6000000800 0 0).map (BitVec.ofNat 64) ++
  [BitVec.ofNat 64 (2 * 2 ^ 60 + 0x6000000840), BitVec.ofNat 64 n], 1, false, [], [], false⟩] }

theorem witness_FrontEndEvents_fencePoll : ([5, 6] : List Nat).all (fun n => let s := { pollS n with subject := { m := ⟨1, 0⟩, a := 15 * 2 ^ 64 } }
    ((s.member ⟨1, 0⟩).packets.find? (fun p => decide (p.key = s.subject.a ∧ p.type = 4))).isSome && parses s ⟨1, 0⟩ && nextIs (exec .fenceCounterPoll s) fun t =>
      decide ((t.member ⟨1, 0⟩).packets.map (·.sat.length) = [6 - n])) = true := by decide +kernel

theorem witness_FrontEndEvents_signal : (let s := feS 0 (dw8 5 0 0x6000000840 77) []
    isNext s 5 (3 * 2 ^ 16) false = true ∧ strikeAt s 1 0x6000000840 = none ∧ (match vaLoc s 1 0x6000000840 true with | .ok l => l.key == hbmKey 0 0x1840 | .error _ => false) = true ∧
    (s.vd 1).tables.all (fun p => decide (hbmKey 0 0x1840 + 8 ≤ p ∨ p + 1024 ≤ hbmKey 0 0x1840)) = true ∧ nextIs (exec .signalPacket s) (fun t => decide (memDword t.mem (hbmKey 0 0x1840) = 77)) = true) := by decide +kernel

theorem witness_FrontEndEvents_strike : (let s := feS 0 (dw8 6 0x6000002000 0 0) []
    isNext s 6 (2 * 2 ^ 16) true = true ∧ (strikeTarget (s.vd 1) 0x6000002000).toOption = some 1 ∧ nextIs (exec .strikePacket s) (fun t => decide ((t.member ⟨1, 0⟩).packets.length = 1)) = true) := by
  decide +kernel

theorem witness_FrontEndEvents_dim : (let s := feS 0 (dw8 7 0 0 0) []
    isNext s 7 0 false = true ∧ openPackets s ⟨1, 0⟩ none = [] ∧ nextIs (exec .dimPacket s) (fun t => (t.member ⟨1, 0⟩).dimmed) = true) := by decide +kernel

/-- A BARRIER with nothing to wait for, and one with an open packet of another queue. -/
theorem witness_FrontEndEvents_barrier : (let s := feS 15 (dw8 (8 + 2 ^ 16) 0 0 0) []
    let s' := s.modMember ⟨1, 0⟩ fun m => { m with packets := [⟨3, 0, [9, 0, 0, 0, 0, 0, 0, 0], 1, false, [], [], false⟩] }
    isNext s 8 (2 ^ 16) false = true ∧ openPackets s ⟨1, 0⟩ none = [] ∧ nextIs (exec .barrierPacket s) (fun t => decide (t.agenda.length = 2)) = true ∧
    isNext s' 8 (2 ^ 16) false = true ∧ openPackets s' ⟨1, 0⟩ none ≠ [] ∧ nextIs (exec .barrierPacket s') (fun t => decide (t.agenda.length = 1)) = true) := by decide +kernel

theorem witness_FrontEndEvents_nop : isNext (feS 15 (dw8 9 0 0 0) []) 9 0 false = true ∧ nextIs (exec .nopPacket (feS 15 (dw8 9 0 0 0) [])) (fun t => decide (t.agenda.length = 2)) = true := by
  decide +kernel

theorem witness_FrontEndEvents_completion : (let p : Packet := ⟨3, 2, (dw8 0x109 0 0x6000000840 77).map (BitVec.ofNat 64), 0, false, [], [], false⟩
    let s := { (feS 0 (dw8 9 0 0 0) []).modMember ⟨1, 0⟩ fun m => { m with packets := [p] } with subject := { m := ⟨1, 0⟩, a := p.key } }
    (s.member ⟨1, 0⟩).packets.find? (fun p => decide (p.key = s.subject.a)) = some p ∧ p.type ≠ 1 ∧ bitN (p.dwn 0) 8 = true ∧ p.dwn 6 % 8 = 0 ∧ strikeAt s 1 (p.dwn 6) = none ∧
    (vaLoc s 1 (p.dwn 6) true).toOption.isSome = true ∧ nextIs (exec .packetCompletion s) (fun t => decide (memNat t.mem (hbmKey 0 0x1840) 8 = 77)) = true) := by decide +kernel

theorem witness_FrontEndEvents_panePlacement : (let l : Launch := ⟨4, [7, 8], [1, 2, 3], [], 2, 4, 2, 4⟩
    let s := (sub s0 { m := ⟨1, 0⟩ }).modMember ⟨1, 0⟩ fun m => { m with launches := [l] }
    parses s ⟨1, 0⟩ = true ∧ placeable s 0 [] (s.member ⟨1, 0⟩).launches = some l ∧ 115 ∈ rectCores 2 4 2 4 ∧
    nextIs (exec .panePlacement s) (fun t => decide ((t.core ⟨0, 115⟩).run = .running ∧ (t.core ⟨0, 115⟩).readX 3 = 3 ∧ (t.core ⟨0, 0⟩) = core0)) = true) := by decide +kernel

theorem witness_FrontEndEvents_taskDispatch : (let x : Task := ⟨0x1234, 0, 0, 0, 11, 12, 13, 14, .ready, none, false, none, none, 0, 0, 0, []⟩
    let s := { (sub s0 { m := ⟨1, 0⟩ }).modMember ⟨1, 0⟩ fun m => { m with pool := [(5, some x)], banks := [(3, [5])] } with cores := [(0, core0), (9, { Core.reset with pane := 1 })] }
    (s.die 0).stopped = false ∧ (s.die 0).ctx = some ⟨1, 0⟩ ∧ rejoins s ⟨1, 0⟩ = false ∧ (s.member ⟨1, 0⟩).lastPop ≠ s.clk + 1 ∧ bankHeads s ⟨1, 0⟩ = [(3, 5)] ∧ (s.member ⟨1, 0⟩).task 5 = some x ∧
    (longestFree s 0 (heldByLaunch (s.member ⟨1, 0⟩))).isSome = true ∧ nextIs (exec .taskDispatch s) (fun t => decide ((t.member ⟨1, 0⟩).banks = [])) = true) := by decide +kernel


/-! Packets -/

theorem inOrder_of {s : State} {p : Pkt} {ty : Nat} (h : (decide (s.subject.pkt = some p ∧ p.type = ty ∧ p.dmem = s.subject.m.member ∧ p.stamp = [] ∧ (s.die (s.member s.subject.m).die).ctx = some s.subject.m) && (s.member s.subject.m).live
    && !p.echo && !p.counted && decide (p.seq = ((chainAt s s.subject.m p).seq + 1) % 2 ^ 32) && !seenBefore (chainAt s s.subject.m p) p.seq
    && decide ((s.member s.subject.m).stampWait = [] ∧ (s.member s.subject.m).unbuilt = [])
    && dominated (s.member s.subject.m).clock (chainAt s s.subject.m p).stamp p.smem) = true) : InOrder s p ty := by
  simp only [Bool.and_eq_true, decide_eq_true_eq, Bool.not_eq_true'] at h
  obtain ⟨⟨⟨⟨⟨⟨⟨⟨h1, h2, h3, h4, hc⟩, h5⟩, h6⟩, h7⟩, h8⟩, h9⟩, h10⟩, h11⟩ := h
  exact ⟨h1, h2, h3, h5, hc, h4, h6, h7, h8, h9, h10, h11⟩

/-- s0 with a packet come for member 0. -/
def pkS (p : Pkt) : State := sub s0 { m := ⟨1, 0⟩, pkt := some p }

theorem witness_FabricEvents_forward : (let p := { pk 0x01 1 0 0x100 [1] with vc := 1 }; let s (w : Nat) (p : Pkt) : State := (sub s0 { a := w, pkt := some p }); let off (s : State) : State := s.modSwitch 3 fun w => { w with down := true }
    ((off (s 3 p)).switch 3).down = true ∧ nextIs (exec .switchPacketForward (off (s 3 p))) (fun t => decide (t = off (s 3 p))) = true ∧
    nextIs (exec .switchPacketForward (off (s 3 redPkt))) (fun t => decide (t.agenda.map (·.at_) = [42600])) = true ∧
    ((s 3 p).switch 3).down = false ∧ pktBad { p with rsvd := 1 } = true ∧ nextIs (exec .switchPacketForward (s 3 { p with rsvd := 1 })) (fun t => decide (Tab.get 0 (t.switch 3).drops 0 = 1)) = true ∧
    pktBad p = false ∧ pkgOf p.ddie = switchPkg 3 ∧ nextIs (exec .switchPacketForward (s 3 p)) (fun t => decide (t.agenda.map (·.at_) = [130])) = true) := by decide +kernel

/-- A packet for die 64 of package 1 at switch 3, with the reach link trained and not; a contribution at home; a vote packet. -/
theorem witness_FabricEvents_forwardOn : (let p := { pk 0x01 1 0 0x100 [1] with vc := 1, ddie := 64 }; let s : State := sub s0 { a := 3, pkt := some p }; let v := pk 0x22 1 0 0 []
    let up : State := { s with platform := { s.platform with links := [(9, Link.reset)] } }
    pktBad p = false ∧ pkgOf 64 = 1 ∧ switchPkg 3 = 0 ∧ reachUp up 0 1 3 = true ∧ nextIs (exec .switchPacketForward up) (fun t => decide (t.agenda.map (·.at_) = [360])) = true ∧
    reachUp s 0 1 3 = false ∧ nextIs (exec .switchPacketForward s) (fun t => decide (t = s)) = true ∧
    (let p := { redPkt with vc := 1 }; let c : State := { redS {} none with subject := { a := 12, pkt := some p } }; pktBad p = false ∧ pkgOf (c.member ⟨vdOfGang c p.gang, 0⟩).die = 0 ∧ nextIs (exec .switchPacketForward c) (fun t => decide (t.agenda.map (·.at_) = [100])) = true) ∧
    (let c : State := { s with subject := { a := 3, pkt := some v } }; pktBad v = false ∧ nextIs (exec .switchPacketForward c) (fun t => decide (t = c)) = true)) := by decide +kernel

/-- Requests at a V-address: a write, a read, an atomic, a full/empty operation. -/
theorem witness_FabricEvents_served : (InOrder (pkS (pk 0x01 1 0 0x100 [1])) (pk 0x01 1 0 0x100 [1]) 0x01 ∧ InOrder (pkS (pk 0x02 1 0 0x100 [])) (pk 0x02 1 0 0x100 []) 0x02 ∧
    InOrder (pkS (pk 0x04 1 0 0x100 [1])) (pk 0x04 1 0 0x100 [1]) 0x04 ∧ InOrder (pkS (pk 0x07 1 0 0x100 [])) (pk 0x07 1 0 0x100 []) 0x07) ∧
    ([(.writePacket, pk 0x01 1 0 0x100 [1]), (.readPacket, pk 0x02 1 0 0x100 []), (.atomicPacket, pk 0x04 1 0 0x100 (List.replicate 16 1)), (.feop, pk 0x07 1 0 0x100 (List.replicate 8 1))]
      : List (Instr × Pkt)).all (fun e => nextIs (exec e.1 (pkS e.2)) fun t => decide (t.accesses.length = 1)) = true :=
  ⟨⟨inOrder_of (by decide +kernel), inOrder_of (by decide +kernel), inOrder_of (by decide +kernel), inOrder_of (by decide +kernel)⟩, by decide +kernel⟩

/-- The same in HBM. -/
theorem witness_FabricEvents_hbm : (InOrder (pkS (pk 0x01 1 0 0x4000000000000100 [1])) (pk 0x01 1 0 0x4000000000000100 [1]) 0x01 ∧
    InOrder (pkS { pk 0x02 1 0 0x4000000000000100 [] with lenm1 := 15 }) { pk 0x02 1 0 0x4000000000000100 [] with lenm1 := 15 } 0x02 ∧
    InOrder (pkS (pk 0x04 1 0 0x4000000000000100 (List.replicate 16 1))) (pk 0x04 1 0 0x4000000000000100 (List.replicate 16 1)) 0x04) ∧
    (amoSizeOf 0 ≤ 8 ∧ (s0.member ⟨1, 0⟩).die < 64 ∧ (s0.die 0).merges = [] ∧ (partsOf (hbmKey 0 0x100) 16).length ≤ 1 ∧ s0.migrations = [] ∧ (holder s0 true (hbmKey 0 0x100) 8).isNone = true ∧ (s0.vd 1).tables = [] ∧
      nextIs (exec .writePacket (pkS (pk 0x01 1 0 0x4000000000000100 [1]))) (fun t => decide (t.mem = [(hbmKey 0 0x100, 1)])) = true) :=
  ⟨⟨inOrder_of (by decide +kernel), inOrder_of (by decide +kernel), inOrder_of (by decide +kernel)⟩, by decide +kernel⟩

/-- A write of 32 bytes to HBM, of two parts; an atomic to a page in the third step of its migration. -/
theorem witness_FabricEvents_wideOrHeld : (let p := pk 0x01 1 0 0x4000000000000100 (List.replicate 32 1); let q := pk 0x04 1 0 0x4000000000001100 (List.replicate 16 1); let h : State := { pkS q with migrations := [moveM 3] }
    (InOrder (pkS p) p 0x01 ∧ 1 < (partsOf (hbmKey 0 0x100) (servedSize p)).length) ∧ (InOrder h q 0x04 ∧ (holder h true (hbmKey 0 0x1100) (servedSize q)).isSome = true) ∧
    nextIs (exec .writePacket (pkS p)) (fun t => decide (t.accesses.length = 1 ∧ t.mem = [])) = true ∧ nextIs (exec .atomicPacket h) (fun t => decide (t.accesses.length = 1)) = true) :=
  ⟨⟨inOrder_of (by decide +kernel), by decide +kernel⟩, ⟨inOrder_of (by decide +kernel), by decide +kernel⟩, by decide +kernel, by decide +kernel⟩

/-- Responses for access 9 of member 0, sent to another die. -/
def respS (p : Pkt) (kind : AccKind) : State := { pkS p with accesses := [{ acc kind 8 with id := 9, st := .remote 1 1 }] }

theorem witness_FabricEvents_responses : (let p := pk 0x03 1 0 0 [5, 0, 0, 0, 0, 0, 0, 0]; let q := { p with type := 0x05 }
    InOrder (respS p (.load 8 false)) p 0x03 ∧ InOrder (respS q (.amo .add 8 1 0 false)) q 0x05 ∧ p.poison = false ∧
    nextIs (exec .rdresp (respS p (.load 8 false))) (fun t => decide (t.accesses.map (·.st) = [.done (.s 5)])) = true ∧
    nextIs (exec .atresp (respS q (.amo .add 8 1 0 false))) (fun t => decide (t.accesses.map (·.st) = [.done (.s 5)])) = true) :=
  ⟨inOrder_of (by decide +kernel), inOrder_of (by decide +kernel), by decide +kernel, by decide +kernel, by decide +kernel⟩

theorem witness_FabricEvents_fifo : (let p := { pk 0x08 1 0 0 [5] with opx := 2 }; let q := { p with smem := 0, seq := 0 }; let s : State := { pkS q with accesses := [{ acc (.fpush 0) 8 with id := 9 }] }
    InOrder (pkS p) p 0x08 ∧ p.seq ≠ 0 ∧ nextIs (exec .fifoPacket (pkS p)) (fun t => decide (((t.core ⟨0, 0⟩).fifo 2).inn = [vecOf [5]])) = true ∧
    (q.type = 0x08 ∧ q.seq = 0 ∧ q.smem = q.dmem) ∧ nextIs (exec .fifoPacket (pkS q)) (fun t => decide (((t.core ⟨0, 0⟩).fifo 2).inn = [vecOf [5]])) = true ∧
    (s.accesses.find? (fun a => decide (a.vd = 1 ∧ a.member = 0 ∧ a.id % 65536 = 9) && (match a.kind with | .fpush _ => true | _ => false))).isSome = true ∧
    nextIs (exec .fifoPacket s) (fun t => decide (t.accesses = [])) = true) :=
  ⟨inOrder_of (by decide +kernel), by decide, by decide +kernel, by decide, by decide +kernel, by decide +kernel, by decide +kernel⟩

theorem witness_FabricEvents_landing : (let p := pk 0x09 1 0 0 [5]; let q := pk 0x10 1 0 0 []
    InOrder (pkS p) p 0x09 ∧ landingFull ((pkS p).member ⟨1, 0⟩) p = false ∧ InOrder (pkS q) q 0x10 ∧
    nextIs (exec .cdata (pkS p)) (fun t => decide ((t.member ⟨1, 0⟩).landing.length = 1)) = true ∧ nextIs (exec .bartok (pkS q)) (fun t => decide ((t.member ⟨1, 0⟩).landing.length = 1)) = true) :=
  ⟨inOrder_of (by decide +kernel), by decide +kernel, inOrder_of (by decide +kernel), by decide +kernel, by decide +kernel⟩

theorem witness_FabricEvents_demand : (let p := { pk 0x0A 0 0 0x100 [] with seq := 0, opx := 1 }
    let x : Task := ⟨0, 0, 0, 0, 0, 0, 0, 0, .waiting, none, false, none, none, 254, 0, 0, []⟩
    let s := (pkS p).modMember ⟨1, 0⟩ fun m => { m with producers := [⟨0x100, 0, .task 5⟩], pool := [(5, some x)] }
    (s.member ⟨1, 0⟩).producers.find? (fun q => decide (q.word = 0x100 ∧ q.member = 0)) = some ⟨0x100, 0, .task 5⟩ ∧ (s.member ⟨1, 0⟩).task 5 = some x ∧
    nextIs (exec .demand s) (fun t => decide (((t.member ⟨1, 0⟩).task 5).map (·.demand) = some 255)) = true) := by decide +kernel

theorem witness_FabricEvents_demandFar : (let p := { pk 0x0A 1 0 0x100 [] with seq := 0, opx := 1 }
    p.type = 0x0A ∧ p.seq = 0 ∧ p.dmem = 0 ∧ p.smem ≠ p.dmem ∧ nextIs (exec .demand (pkS p)) (fun t => decide (t.mem = [])) = true) := by decide +kernel

theorem witness_FabricEvents_chainPackets : (InOrder (pkS (pk 0x0D 1 0 0 (List.replicate 256 1))) (pk 0x0D 1 0 0 (List.replicate 256 1)) 0x0D ∧
    InOrder (pkS (pk 0x0E 1 0 0 [])) (pk 0x0E 1 0 0 []) 0x0E ∧ InOrder (pkS (pk 0x0F 1 0 0 [])) (pk 0x0F 1 0 0 []) 0x0F) ∧
    ([(.cflush, pk 0x0D 1 0 0 (List.replicate 256 1)), (.tkreq, pk 0x0E 1 0 0 []), (.tkcall, pk 0x0F 1 0 0 [])] : List (Instr × Pkt)).all
      (fun e => nextIs (exec e.1 (pkS e.2)) fun t => decide ((t.member ⟨1, 0⟩).received = 1)) = true :=
  ⟨⟨inOrder_of (by decide +kernel), inOrder_of (by decide +kernel), inOrder_of (by decide +kernel)⟩, by decide +kernel⟩

/-- An ACK of SEQ 1 for a write of member 0 that waits in its retransmit buffer. -/
def ackS : State :=
  { (pkS (pk 0x06 1 0 1 [])).modMember ⟨1, 0⟩ fun m => { m with retransmit := [⟨pk 0x01 0 1 0x100 [1], 1, 10⟩] } with accesses := [{ acc (.store [1]) 1 with st := .remote 1 1 }] }

theorem witness_FabricEvents_ack : (ackS.member ⟨1, 0⟩).outWait = [] ∧ clockGe 1 1 = true ∧ (ackS.accesses.map (·.ctx)) = [⟨1, 0⟩] ∧
    (ackS.die 0).ctx = some ⟨1, 0⟩ ∧ nextIs (exec .ackPacket ackS) (fun t => decide ((t.member ⟨1, 0⟩).retransmit = [])) = true ∧
    nextIs (exec .ackPacket { ackS with dies := [] }) (fun t => decide (t.agenda.map (·.at_) = [108])) = true := by decide +kernel

/-- A packet sent n times, 50 µs ago. -/
def againS (n : Nat) : State :=
  { (sub s0 { m := ⟨1, 0⟩, a := 1, b := 0, c := 1 }).modMember ⟨1, 0⟩ fun m => { m with retransmit := [⟨pk 0x01 0 1 0x100 [1], n, 100⟩] } with clk := 42600 }

theorem witness_FabricEvents_retransmit : ([7, 8] : List Nat).all (fun n =>
    ((againS n).member ⟨1, 0⟩).retransmit.find? (fun x => decide (x.pkt.dmem = 1 ∧ chainOf x.pkt.vc = 0 ∧ x.pkt.seq = 1 ∧ x.at_ + 42500 ≤ (againS n).clk)) == some ⟨pk 0x01 0 1 0x100 [1], n, 100⟩
      && nextIs (exec .retransmitTimeout (againS n)) fun t => decide ((t.member ⟨1, 0⟩).unreachable = if n = 8 then [1] else [])) = true := by decide +kernel

theorem witness_FabricEvents_stampWait : (let p := { pk 0x09 1 0 0 [5] with stamp := [(1, 0)] }
    let s := { (sub s0 { m := ⟨1, 0⟩, a := 1, b := 1, c := 0 }).modMember ⟨1, 0⟩ fun m => { m with stampWait := [(p, 10)] } with clk := 10 + 2 * 850 }
    (s.member ⟨1, 0⟩).stampWait.find? (fun e => mayApply (s.member ⟨1, 0⟩) e.1) = some (p, 10) ∧ nextIs (exec .stampWaitApply s) (fun t => decide ((t.member ⟨1, 0⟩).stampWait = [])) = true ∧
    chainOf p.vc = 0 ∧ nextIs (exec .stampWaitTimeout s) (fun t => decide (t.reports.map (·.args) = [[1, 1, 2]])) = true) := by decide +kernel

theorem witness_FabricEvents_beacons : (s0.die (s0.member ⟨1, 0⟩).die).ctx = some ⟨1, 0⟩ ∧ nextIs (exec .beaconTimer (sub s0 { m := ⟨1, 0⟩ })) (fun t => decide (t.agenda.length = 2)) = true ∧
    nextIs (exec .beacon (pkS (pk 0x21 1 0 7 []))) (fun t => decide (Tab.get 0 (t.member ⟨1, 0⟩).clock 1 = 7)) = true := by decide +kernel

theorem witness_FabricEvents_rate : (let s := { (sub s0 { m := ⟨1, 0⟩, a := 1 }).modMember ⟨1, 0⟩ fun m => { m with rate := [(1, (196, 256)), (2, (250, 256))] } with clk := 3400 }
    Tab.get 0 (s.member ⟨1, 0⟩).echoAt 1 + 3400 ≤ s.clk ∧ Tab.get lineRate (s.member ⟨1, 0⟩).rate 1 ≠ lineRate ∧ nextIs (exec .rateLimitRise s) (fun t => decide (Tab.get lineRate (t.member ⟨1, 0⟩).rate 1 = (204, 256))) = true ∧
    nextIs (exec .rateLimitRise { s with subject := { m := ⟨1, 0⟩, a := 2 } }) (fun t => decide (Tab.get lineRate (t.member ⟨1, 0⟩).rate 2 = lineRate)) = true) := by
  decide +kernel

theorem witness_FabricEvents_tickets : (let s (c : Nat) : State := { (sub s0 { a := 0 }).modDie 0 fun d => { d with tickets := [(4, 258)], ticketCall := 4, ticketNext := 5 } with clk := c }
    ((s 849).die 0).ctx = some ⟨1, 0⟩ ∧ 849 < ((s 849).die 0).lastCall + 850 ∧ nextIs (exec .ticketCall (s 849)) (fun t => decide (t.agenda.map (·.at_) = [1699])) = true ∧
    ((s 850).die 0).ingress < 16384 ∧ nextIs (exec .ticketCall (s 850)) (fun t => decide ((t.die 0).tickets = [])) = true ∧ nextIs (exec .ticketWindowEnd (s 850)) (fun _ => true) = true) := by
  decide +kernel


/-! Copy jobs and collectives -/

/-- A card: source, destination, dword 2, OUT, dword 4, SADR, SVAL, PADDR. -/
def crd (src dst d2 out d4 sadr sval paddr : Nat) : List Dword := [src, dst, d2, out, d4, sadr, sval, paddr].map (BitVec.ofNat 64)

/-- A job of a card. -/
def job (c : List Dword) (st : JobState) (k : Coll := Coll.start) : Job :=
  { card := c, st := st, demand := 0, issued := 0, done := 0, inflight := [], withdrawn := false, aborted := false, summary := none, coll := k, packet := none,
    registered := false, unacked := [], prev := [], core := 256, born := 0, stamp := [], steps := 0 }

/-- s0 with job 0 of member 0; an active one is on engine 0. -/
def jobS (j : Job) (b : Nat := 0) : State :=
  { (({ sub s0 { m := ⟨1, 0⟩, b := b } with mem := s0.mem }).modMember ⟨1, 0⟩ fun m => { m with jobs := [(0, some j)], jobOrder := match j.st with | .pending => [0] | _ => [] }).modDie 0
      fun d => { d with engines := match j.st with | .active _ => [(0, [0])] | _ => [] } with agenda := [] }

/-- A plain card of n bytes from 0x1000 to 0x2000 of member d. -/
def cpC (n : Nat) (d : Nat := 0) : List Dword := crd 0x1000 (d * 2 ^ 52 + 0x2000) n 0 0 0 0 0

/-- A collective of 32 bytes, CID 7, program at 0x500. -/
def clC : List Dword := crd 0x1000 0x1100 (2 * 2 ^ 62 + 32) 0 (7 * 2 ^ 32) 0 0 0x500

/-- The first step word of the program. -/
def prog (lo hi : Nat) (s : State) : State := { s with mem := memPut s.mem (vaultKey 0 0x500) (toBytes 8 lo ++ toBytes 8 hi) }

theorem witness_JobEvents_activate : (let a := jobS (job (cpC 32) .pending); let b := jobS (job clC .pending); let c := prog 0 (0xF * 2 ^ 60) b
    ([(a, 1), (b, 1), (c, 2)] : List (State × Nat)).all fun e => let s := e.1
      decide ((s.member ⟨1, 0⟩).jobOrder = [0] ∧ (Tab.get [] (s.die 0).engines 0).length = 0 ∧ (s.die 0).ctx = some ⟨1, 0⟩ ∧ (s.member ⟨1, 0⟩).notices = []) &&
      progOk 2 clC (stepWord s ⟨1, 0⟩ clC) 4097 0 [] [] == decide (e.2 = 1) &&
      nextIs (exec .jobActivate s) fun t => decide (((t.member ⟨1, 0⟩).job 0).map (·.st) = some (if e.2 = 1 then .active 0 else .finishing 0))) = true := by decide +kernel

/-- A collective behind a store of its core that is still open, and one on engine 0 asked again. -/
theorem witness_JobEvents_activateHeld : (let j := { job clC .pending with prev := [5] }; let s := { jobS j with accesses := [acc (.store [1]) 1] }
    ((s.member ⟨1, 0⟩).jobOrder = [0] ∧ (s.die 0).ctx = some ⟨1, 0⟩ ∧ cardKind clC = 2 ∧ prevDone s j = false ∧
      nextIs (exec .jobActivate s) (fun t => decide (t.agenda.map (·.at_) = [108])) = true) ∧
    (let a := jobS (job clC (.active 0)) 1; let b := prog 0 (0xF * 2 ^ 60) a
     ([(a, true), (b, false)] : List (State × Bool)).all fun e => decide ((e.1.member ⟨1, 0⟩).job 0 = some (job clC (.active 0)) ∧ (e.1.die 0).ctx = some ⟨1, 0⟩ ∧
       (e.1.member ⟨1, 0⟩).notices = [] ∧ progOk 2 clC (stepWord e.1 ⟨1, 0⟩ clC) 4097 0 [] [] = e.2) && prevDone e.1 (job clC (.active 0)) &&
       nextIs (exec .jobActivate e.1) fun t => decide (((t.member ⟨1, 0⟩).job 0).map (·.aborted) = some !e.2)) = true) := by decide +kernel

/-- An endpoint of VD 1. -/
def ep0 : Endpoint := { params := ⟨1, 0, 1, 9, 0x1234, 1, 0, 0x6000000000, 0x1000, 0x6000000840, 0⟩, pair := 5, up := true, unreachable := false, psn := 0, seen := [], expect := 0, unacked := [], owed := [], rate := (256, 256),
                        lastEcho := 0, peerLen := 0x10000, keyNo := 1 }

/-- Chunks from the own vault, from an endpoint, and toward a die in ticket mode without a ticket, with one asked for and with one called. -/
def chunkS (k : Nat) : State := match k with
  | 0 => jobS (job (cpC 32) (.active 0))
  | 1 => (jobS (job (crd (2 * 2 ^ 62) 0x2000 32 0 0 0 0 0) (.active 0))).setEndpoint 1 0 ep0
  | n => ((jobS (job (cpC 0x20000 1) (.active 0))).modDie 1 fun d => { d with ticketMode := true }).modMember ⟨1, 0⟩ fun m => { m with tickets := if n = 3 then [(1, 1)] else if n = 4 then [(1, 65537)] else [] }

theorem witness_JobEvents_chunkIssue : ([0, 1, 2, 3, 4] : List Nat).all (fun k => let s := chunkS k
    decide ((s.die 0).ctx = some ⟨1, 0⟩ ∧ Tab.get [] (s.die 0).engines 0 = [0]) && (match (s.member ⟨1, 0⟩).job 0 with
      | some j => chunkReady s ⟨1, 0⟩ j && ticketWait s ⟨1, 0⟩ j == decide (k = 3) && decide (j.packet = none ∧
          ticketNeed s ⟨1, 0⟩ j = (if k = 2 then some (1, 0) else if k = 3 then some (1, 1) else if k = 4 then some (1, 65537) else none) ∧ (cardSrc 0 j.card 0).isSome = decide (k ≠ 1))
      | none => false) && nextIs (exec .chunkIssue s) fun t => decide (((t.member ⟨1, 0⟩).job 0).map (·.issued) = some (if k = 2 ∨ k = 3 then 0 else 1))) = true := by decide +kernel

theorem witness_JobEvents_chunkBoundary : ([[0, 1], [0]] : List (List Nat)).all (fun fl => let j := { job (cpC 4128) (.active 0) with issued := 2, inflight := fl }; let s := jobS j
    decide ((s.member ⟨1, 0⟩).job 0 = some j ∧ j.issued = cardChunks j.card ∧ 0 ∈ j.inflight ∧ cardDsp j.card ≠ 2 ∧ (j.inflight.filter fun x => decide (x ≠ 0)) = fl.drop 1) &&
      chunkQuiet s ⟨1, 0⟩ 0 0 && nextIs (exec .chunkBoundary s) fun t => decide (((t.member ⟨1, 0⟩).job 0).map (·.done) = some (if fl = [0] then 2 else 1))) = true := by decide +kernel

/-- A finishing job at a stage, without completion actions (k = 0) and with all of them: OUT at 0x300, a barrier at 0x600, SVAL 9 for the mapped page. -/
def finS (n k : Nat) : State := jobS (job (if k = 0 then cpC 32 else crd 0x1000 0x2000 32 (2 ^ 27 + 0x60) (3 * 2 ^ 54 + 0x600) 0x6000000840 9 0) (.finishing n))

theorem witness_JobEvents_completion : ([0, 1] : List Nat).all (fun k =>
    (match (finS 0 k).member ⟨1, 0⟩ |>.job 0 with | some j => cardBv j.card == decide (k = 1) && cardSv j.card == decide (k = 1) && (cardOut j.card).isSome == decide (k = 1) | none => false) &&
    nextIs (exec .jobOutFill (finS 0 k)) (fun t => decide (t.agenda.length = 1 ∧ t.accesses.length = k)) && nextIs (exec .jobBarrierArrival (finS 1 k)) (fun t => decide (t.agenda.length = 1 ∧ t.accesses.length = k)) &&
    (strikeAt s0 1 0x6000000840).isNone && (match vaLoc (finS 2 k) 1 0x6000000840 true with | .ok l => l.key == hbmKey 0 0x1840 | .error _ => false) &&
    nextIs (exec .jobSignalWrite (finS 2 k)) fun t => decide ((t.member ⟨1, 0⟩).job 0 = none ∧ memDword t.mem (hbmKey 0 0x1840) = BitVec.ofNat 64 (9 * k))) = true := by decide +kernel

/-- The end of a job whose signal has been written, a signal for another member, and the fill of OUT at its word. -/
theorem witness_JobEvents_completionFar : nextIs (exec .jobSignalWrite (finS 3 1)) (fun t => decide ((t.member ⟨1, 0⟩).job 0 = none)) = true ∧
    (let s := (finS 2 1).modVd 1 fun v => { v with pt := [(ptKey 1 0x6000000000, 2), (ptKey 2 0x6000000000, 2), (ptKey 3 0x6000000000, 2), (ptKey 4 0x6000000000, BitVec.ofNat 64 (2 ^ 56 + 0x1065))] }
     awayEa s ⟨1, 0⟩ (2 ^ 62 + 0x6000000840) = true ∧ nextIs (exec .jobSignalWrite s) (fun t => decide (((t.member ⟨1, 0⟩).job 0).map (·.st) = some (.finishing 3) ∧ t.accesses.length = 1)) = true) ∧
    (let a := { acc (.fill 0x100 2) 8 with k := ⟨0, 256⟩, ea := 0x300 }
     let s := { (finS 1 1).modMember ⟨1, 0⟩ (fun m => { m with producers := [⟨0x300, 0, .job 0⟩] }) with accesses := [a] }
     s.access a.id = some a ∧ eaSpace a.ea = 0 ∧ vaultOk s a.ctx 0x300 8 = true ∧ waitFirst s a 0x300 = none ∧ (s.die 0).merges = [] ∧ Tab.get false s.fe (vaultKey 0 0x300) = false ∧
       Tab.get [] (s.die 0).queues 0x300 = [] ∧ memDword (performId s 5).mem (vaultKey 0 0x300) = 0x100 ∧ ((performId s 5).member ⟨1, 0⟩).producers = []) := by decide +kernel

theorem witness_JobEvents_trigger : ([false, true] : List Bool).all (fun full =>
    let s := (jobS (job (cpC 32) .pending)).modMember ⟨1, 0⟩ fun m =>
      { m with triggers := [(0, some ⟨0x300, 0, cpC 32, false, []⟩)], jobs := if full then (List.range 256).map fun i => (i, some (job (cpC 32) .pending)) else [] }
    decide (Tab.get none (s.member ⟨1, 0⟩).triggers 0 = some ⟨0x300, 0, cpC 32, false, []⟩ ∧ (0 : Dword).toNat ≤ (wordOf s ⟨1, 0⟩ 0x300).toNat ∧ (lowestFree (s.member ⟨1, 0⟩).jobs 256).isSome = !full) &&
    nextIs (exec .triggerFire s) fun t => decide ((Tab.get none (t.member ⟨1, 0⟩).triggers 0).isSome = full)) = true := by decide +kernel

/-- FIFO 0 of core 0 with an element to leave, bound as d0 says; core 1 has a FIFO 0 to match. -/
def outS (d0 : Nat) : State :=
  ((sub s0 { a := 0 }).modCore ⟨0, 0⟩ fun c => { c with fifos := [(0, { Fifo.zero with d0 := BitVec.ofNat 64 d0, d1 := 0x1000, out := [⟨vecOf [5], 9, 90, 7⟩] })] }).modCore ⟨0, 1⟩ fun c =>
    { c with run := .running, fifos := [(0, { Fifo.zero with d0 := 2 ^ 62 })] }

theorem witness_JobEvents_fifoOut : (outS (2 ^ 62 + 2 ^ 48)).ctx ⟨0, 0⟩ = some ⟨1, 0⟩ ∧
    nextIs (exec .fifoOutTransfer (outS (2 ^ 62 + 2 ^ 48))) (fun t => decide (((t.core ⟨0, 0⟩).fifo 0).out = [] ∧ ((t.core ⟨0, 1⟩).fifo 0).asked = 1)) = true ∧
    nextIs (exec .fifoOutTransfer (outS (2 ^ 62 + 2 * 2 ^ 48))) (fun t => decide (t.agenda.map (·.at_) = [101])) = true ∧
    nextIs (exec .fifoOutTransfer (outS (2 ^ 63))) (fun t => decide (t.accesses.map (·.ea) = [0x1000])) = true ∧
    (let s := { outS (2 ^ 63) with accesses := [{ acc (.fpush 0) 8 with id := 7, st := .release }] }
     (s.access 7).all (fun a => decide (a.k = ⟨0, 0⟩ ∧ a.size = 8)) = true ∧ nextIs (exec .fifoOutTransfer s) (fun t => decide (t.accesses.map (·.ea) = [0x1000])) = true) := by decide +kernel

theorem witness_JobEvents_fifoFetch : (let s := (sub s0 { a := 0 }).modCore ⟨0, 0⟩ fun c => { c with fifos := [(0, { Fifo.zero with d0 := 3 * 2 ^ 62, d1 := 0x1000 })] }
    s.ctx ⟨0, 0⟩ = some ⟨1, 0⟩ ∧ ((s.core ⟨0, 0⟩).fifo 0).kind = 3 ∧ ((s.core ⟨0, 0⟩).fifo 0).count = 0 ∧ nextIs (exec .fifoLoadFetch s) (fun t => decide (((t.core ⟨0, 0⟩).fifo 0).asked = 1)) = true) ∧
    (let s := ((sub s0 { a := 0 }).modCore ⟨0, 0⟩ fun c => { c with fifos := [(0, { Fifo.zero with d0 := 3 * 2 ^ 62 + 1, d1 := 0x1000 })] }).modMember ⟨1, 0⟩ fun m => { m with snuffed := true }
     ((s.member ⟨1, 0⟩).snuffed && decide (fifoEa s ⟨1, 0⟩ ((s.core ⟨0, 0⟩).fifo 0) 0 / 2 ^ 62 = 3)) = true ∧ nextIs (exec .fifoLoadFetch s) (fun t => decide (t.agenda.map (·.at_) = [101])) = true) := by
  decide +kernel

/-- The collective of member 0 at a step of a code, its peers 1 and 1. -/
def stS (code lo hi : Nat) (k : Coll := { Coll.start with peers := [1, 1, 0, 0] }) (more : Member → Member := id) : State :=
  (prog lo (code * 2 ^ 60 + hi) (jobS (job clC (.active 0) k))).modMember ⟨1, 0⟩ more

theorem witness_JobEvents_end : (stepOf (stS 0 0 0) 0).isSome = true ∧ chunkQuiet (stS 0 0 0) ⟨1, 0⟩ 0 0 = true ∧
    nextIs (exec .stepEnd (stS 0 0 0)) (fun t => decide (((t.member ⟨1, 0⟩).job 0).map (·.st) = some (.finishing 0))) = true ∧
    (let s := { stS 0 0 0 with accesses := [{ acc (.chunk 0 0) 16 with st := .remote 1 1 }] }
     (stepOf s 0).isSome = true ∧ chunkQuiet s ⟨1, 0⟩ 0 0 = false ∧ nextIs (exec .stepEnd s) (fun t => decide (t = s)) = true) := by decide +kernel

/-- The bytes lie in the own vault, and reaching them changes nothing. -/
def ownB (s : State) (ea n : Nat) (w : Bool) : Bool := match vaultReach s ⟨1, 0⟩ ea n w with | .ok k t => decide (k = vaultKey 0 ea ∧ t = s) | _ => false

theorem witness_JobEvents_send : (stepOf (stS 1 0 0) 1).isSome = true ∧ ((stS 1 0 0).member ⟨1, 0⟩).snuffed = false ∧ ownB (stS 1 0 0) 0x1000 32 false = true ∧
    poisoned (stS 1 0 0) (vaultKey 0 0x1000) 32 = false ∧ chunkQuiet (stS 1 0 0) ⟨1, 0⟩ 0 0 = true ∧ dataHeld (stS 1 0 0) ⟨1, 0⟩ 7 = false ∧ nextIs (exec .stepSend (stS 1 0 0)) (fun t => decide (((t.member ⟨1, 0⟩).job 0).map (·.coll.step) = some 1)) = true ∧
    (let s := stS 1 0 0 { Coll.start with peers := [1, 1, 0, 0], bytes := 32 }
     (stepOf s 1).isSome = true ∧ nextIs (exec .stepSend s) (fun t => decide (((t.member ⟨1, 0⟩).job 0).map (·.coll.step) = some 1)) = true) ∧
    (stepOf (stS 1 0 0 Coll.start) 1).isSome = true ∧ nextIs (exec .stepSend (stS 1 0 0 Coll.start)) (fun t => decide (((t.member ⟨1, 0⟩).job 0).map (·.aborted) = some true)) = true := by
  decide +kernel

/-- A receiving step, with a packet of 16 bytes, the whole message, come from member 1. -/
def rcS (code : Nat) : State := stS code 0 0 (more := fun m => { m with landing := [{ pk 0x09 1 0 (BitVec.ofNat 64 (2 ^ 63)) (List.replicate 16 1) with opx := 16 }] })

theorem witness_JobEvents_receive : ([(2, .stepRecv), (3, .stepRrs), (4, .stepRrd)] : List (Nat × Instr)).all (fun e => let s := rcS e.1
    (stepOf s e.1).isSome && (nextCdata (s.member ⟨1, 0⟩) 7 1 0).isSome && ownB s 0x1100 16 true && !poisoned s (vaultKey 0 0x1100) 16 && chunkQuiet s ⟨1, 0⟩ 0 0 &&
    nextIs (exec e.2 s) fun t => decide ((t.member ⟨1, 0⟩).landing = [] ∧ ((t.member ⟨1, 0⟩).job 0).map (·.coll.step) = some 1 ∧ memNat t.mem (vaultKey 0 0x1100) 1 = 1)) = true := by
  decide +kernel

theorem witness_JobEvents_copy : ([0, 2] : List Nat).all (fun mode => let s := stS 5 0 (mode * 2 ^ 57 + 2 ^ 55); let w := stepWord s ⟨1, 0⟩ clC 0
    (stepOf s 5).isSome && ownB s 0x1000 32 false && !poisoned s (vaultKey 0 0x1000) 32 && chunkQuiet s ⟨1, 0⟩ 0 0 && (match copyPiece s ⟨1, 0⟩ 0 clC w 0 32 with
      | .ok p s1 => decide (s1.members = s.members ∧ p.1 = (if mode = 0 then 0 else 32)) && ownB s1 (bufEa ⟨1, 0⟩ clC true p.1) p.2.length true
      | _ => false) && nextIs (exec .stepCopy s) fun t => decide (((t.member ⟨1, 0⟩).job 0).map (·.coll.step) = some 1)) = true := by decide +kernel

theorem witness_JobEvents_wait : (let s := stS 6 0 0; let s' := stS 6 0 0 (more := fun m => { m with retransmit := [⟨pk 0x09 0 1 0 [1], 1, 10⟩] })
    (stepOf s 6).isSome = true ∧ collUnacked s ⟨1, 0⟩ 0 (job clC (.active 0)) = false ∧ nextIs (exec .stepWait s) (fun t => decide (((t.member ⟨1, 0⟩).job 0).map (·.coll.step) = some 1)) = true ∧
    (stepOf s' 6).isSome = true ∧ collUnacked s' ⟨1, 0⟩ 0 (job clC (.active 0)) = true ∧ nextIs (exec .stepWait s') (fun t => decide (t = s')) = true) := by decide +kernel

theorem witness_JobEvents_signal : (let s := stS 7 (0x700 * 2 ^ 32 + 5) 0
    (stepOf s 7).isSome = true ∧ collUnacked s ⟨1, 0⟩ 0 (job clC (.active 0)) = false ∧ ownB s 0x700 8 true = true ∧ nextIs (exec .stepSignal s) (fun t => decide (memDword t.mem (vaultKey 0 0x700) = 5)) = true) := by decide +kernel

/-- ENDL goes back while its counter is below the limit; PEER with A = −1, C = 0 of rank 0 and k0 = 1 is member 1. -/
theorem witness_JobEvents_control : (stepOf (stS 8 3 0) 8).isSome = true ∧ nextIs (exec .stepLoop (stS 8 3 0)) (fun t => decide (((t.member ⟨1, 0⟩).job 0).map (·.coll.lim) = some [3, 0, 0, 0])) = true ∧
    ([(0, 1, 0), (2, 3, 6)] : List (Nat × Nat × Nat)).all (fun e => let s := stS 9 0 0 { Coll.start with step := 0, k := [e.1, 0, 0, 0], lim := [3, 0, 0, 0] }
      (stepOf s 9).isSome && nextIs (exec .stepEndl s) fun t => decide (((t.member ⟨1, 0⟩).job 0).map (fun j => (j.coll.step, j.coll.k)) = some (if e.1 = 0 then 0 else 1, [e.2.1, 0, 0, 0]))) = true ∧
    (let s := stS 10 0 (0xFF * 2 ^ 40) { Coll.start with k := [1, 0, 0, 0] }
     (stepOf s 10).isSome = true ∧ nextIs (exec .stepPeer s) (fun t => decide (((t.member ⟨1, 0⟩).job 0).map (·.coll.peers) = some [1, 0, 0, 0])) = true) := by decide +kernel

theorem witness_JobEvents_bar : (let a := stS 11 0 0; let b := stS 11 0 0 { Coll.start with bytes := 1 } fun m => { m with landing := [pk 0x10 1 0 0 []] }; let c := stS 11 0 0 { Coll.start with round := 1 }
    barRounds 2 = 1 ∧ (stepOf a 11).isSome = true ∧ nextIs (exec .stepBar a) (fun t => decide (((t.member ⟨1, 0⟩).job 0).map (·.coll.bytes) = some 1)) = true ∧
    (stepOf b 11).isSome = true ∧ nextIs (exec .stepBar b) (fun t => decide ((t.member ⟨1, 0⟩).landing = [] ∧ ((t.member ⟨1, 0⟩).job 0).map (·.coll.round) = some 1)) = true ∧
    (stepOf c 11).isSome = true ∧ nextIs (exec .stepBar c) (fun t => decide (((t.member ⟨1, 0⟩).job 0).map (·.coll.step) = some 1)) = true) := by decide +kernel

theorem witness_JobEvents_abortNotice : (let s (a c : Nat) : State := { stS 0 0 0 with subject := { m := ⟨1, 0⟩, a := a, b := 1, c := c } }
    ((s 7 0).member ⟨1, 0⟩).live = true ∧ ([0, 2] : List Nat).all (fun c => nextIs (exec .collectiveAbortNotice (s 7 c)) fun t => decide (t.reports.length = c / 2)) = true ∧
    nextIs (exec .collectiveAbortNotice (s 8 0)) (fun t => decide ((t.member ⟨1, 0⟩).notices = [(8, 1)])) = true) := by decide +kernel

/-! Requests to the firmware and from the host -/

/-- The small machine booted, with a subject, and VD 1 changed. -/
def fwS (o : Subject) (f : VD → VD := id) : State := { (sub s0 o).modVd 1 f with platform := { s0.platform with boot := 7 } }

/-- Parameters of a VD of one member. -/
def prm : VdParams := { VD.blank.params with n := 1, memory := 2 ^ 21, winHi := 65536, hangt := 850000 }

theorem witness_FirmwareEvents_create : paramsBad (fwS {}) { prm with n := 0 } = true ∧ nextIs (exec .vdCreate (fwS { vd := some { prm with n := 0 } })) (fun t => decide (t.reports.map (·.code) = [1])) = true ∧
    (paramsBad (fwS {}) prm = false ∧ chooseDies (fwS {}) prm = some [0] ∧ (fwS {}).platform.erased = false ∧ lowestNot (fun i => ((fwS {}).vd i).live) 1 65535 = some 2 ∧
      lowestNot (fun i => (fwS {}).vds.any fun e => e.2.live && decide (e.2.gang = i)) 0 65536 = some 1 ∧
      lowestNot (fun i => (fwS {}).vds.any fun e => e.2.live && decide (e.2.vf = i)) 1 255 = some 1) ∧
    nextIs (exec .vdCreate (fwS { vd := some prm })) (fun t => decide (t.clk = 100)) = true := by decide +kernel

theorem witness_FirmwareEvents_end : (let run := sub s0 { a := 1 }; let on := vdS .killed { a := 1 }; let off := offS .killed { a := 1 }
    (run.vd 1).live = true ∧ (run.vd 1).state ≠ .killed ∧ ([.vdReset, .vdDestroy] : List Instr).all (fun i => nextIs (exec i run) fun t => decide ((t.vd 1).state = .killed)) = true ∧
    onDies on 1 = true ∧ ([.vdReset, .vdDestroy] : List Instr).all (fun i => nextIs (exec i on) fun t => t.agenda.any fun d => d.at_ == 1000850) = true ∧
    onDies off 1 = false ∧ (off.vd 1).live = true ∧ nextIs (exec .vdReset off) (fun t => decide ((t.vd 1).state = .running)) = true) := by decide +kernel

/-- VD 1 of one member, killed and off its dies, its page the only thing mapped. -/
def goneS : State := { killedS with gc := { killedS.gc with backfill := [1] } }

theorem witness_FirmwareEvents_destroy : (goneS.vd 1).live = true ∧ (goneS.vd 1).state = .killed ∧ onDies goneS 1 = false ∧ nextIs (exec .vdDestroy goneS) (fun t => !(t.vd 1).live) = true := by
  decide +kernel

/-- A VAULTLOAD of 8 bytes from the mapped page to 0x100 of vault 0, and one of 4 bytes. -/
def vlS (c : Nat) (on : Bool) : State :=
  let s := fwS { m := ⟨1, 0⟩, a := 0, b := 0x100, c := c, v := 0x6000000800 }
  { s with mem := memPut s.mem (hbmKey 0 0x1800) [5, 6], dies := if on then s.dies else [] }

theorem witness_FirmwareEvents_vaultload : ([(4, true), (8, true), (8, false)] : List (Nat × Bool)).all (fun e => let s := vlS e.1 e.2
    (s.member ⟨1, 0⟩).live && vaultOk s ⟨1, 0⟩ 0x100 8 && (match vaRead s ⟨1, 0⟩ 0x6000000800 8 with
      | .ok (l, s1) => decide (l = [5, 6, 0, 0, 0, 0, 0, 0] ∧ (s1.die 0).ctx = (if e.2 then some ⟨1, 0⟩ else none) ∧ (s1.die 0).merges = []) && (!e.2 || resident s1 0 ⟨1, 0⟩ 0)
      | .error _ => false) &&
    nextIs (exec .vaultload s) fun t => decide (memBytes t.mem (if e.2 then vaultKey 0 0x100 else saveKey ⟨1, 0⟩ (granSave 0 + 0x100)) 2 = (if e.1 = 8 then [5, 6] else [0, 0]))) = true := by
  decide +kernel

theorem witness_FirmwareEvents_schedule : nextIs (exec .scheduleChange (sub s0 { a := 1, l := [84999] })) (fun t => decide (t.gc.pending = none)) = true ∧
    (s0.vds.all fun e => e.2.params.homeSlot.isNone) = true ∧ nextIs (exec .scheduleChange (sub s0 { a := 1, l := [85000] })) (fun t => t.gc.pending.isSome) = true := by decide +kernel

theorem witness_FirmwareEvents_migration : (let a := fwS { a := 1, b := 0, c := 5 }; let b := { fwS { a := 1, b := 1, c := 5 } with gc := { s0.gc with vote := { Vote.none with st := .snuffing } } }
    let b' := b.modVd 1 fun v => { v with movedTo := some (5, 0) }; let off := (offS .running { a := 1, b := 1, c := 5 } fun v => { v with movedTo := some (5, 0) }); let c := { off with subject := { a := 1, b := 2, c := 5 } }
    ((a.vd 1).live = true ∧ (a.vd 1).movedTo = none ∧ nextIs (exec .liveMigration a) (fun t => decide (t.agenda.length = 1)) = true) ∧ ((b.vd 1).live = true ∧ (b.vd 1).movedTo = none) ∧
    ((b'.vd 1).movedTo ≠ none ∧ onDies b' 1 = true ∧ b'.gc.vote.st ≠ .idle ∧ nextIs (exec .liveMigration b') (fun t => decide (t.agenda.map (·.at_) = [950])) = true) ∧
    ((off.vd 1).live = true ∧ (off.vd 1).movedTo ≠ none ∧ onDies off 1 = false ∧ nextIs (exec .liveMigration off) (fun t => decide (t.agenda.length = 1)) = true) ∧
    ((c.vd 1).live = true ∧ (c.vd 1).movedTo ≠ none ∧ (c.vd 1).stubs = [])) := by decide +kernel

/-- VD 1 has moved to VD 3 of package 5; a stub of its strike page stands until clk 1000. -/
def stubS (o : Subject) (dead : Bool) : State := fwS o fun v => { v with movedTo := some (5, 3), bar2 := 0x7100000000, stubs := [(0x7100000000, if dead then 90 else 1000, false)] }

theorem witness_FirmwareEvents_stubs : ((stubS { a := 1, b := 0x7100000000 } false).vd 1).movedTo = some (5, 3) ∧ stubLive ((stubS {} false).vd 1) 0x7100000000 = true ∧
    nextIs (exec .stubForward (stubS { a := 1, b := 0x7100000000 } false)) (fun t => decide (t.reports.map (·.kind) = [11])) = true ∧
    nextIs (exec .stubExpiry (stubS { a := 1 } true)) (fun t => decide ((t.vd 1).stubs = [(0x7100000000, 90, true)])) = true := by decide +kernel

/-- A core waits for the reply to a call of a number with x1, x2, at TL 1. -/
def svcS (num a n : Nat) (tl : Nat := 1) (f : VD → VD := id) : State :=
  ((fwS { m := ⟨1, 0⟩, k := ⟨0, 0⟩ } f).modCore ⟨0, 0⟩ fun c => { c with svc := some ⟨num, BitVec.ofNat 64 a, BitVec.ofNat 64 n, 1, tl, 9, .x 5⟩ }).setBox 0 [[0], [1]]

/-- All of the HBM of die 0 is mapped by another VD. -/
def fullS : State :=
  (svcS 0x2000001 0x6100000000 4096).modVd 7 fun v => { v with live := true, pt := (List.range 96).map fun i => (ptKey 2 (i * 2 ^ 30), BitVec.ofNat 64 (i * 2 ^ 30 + 1)) }

theorem witness_FirmwareEvents_refusals : ([(1, svcS 0x5 0 0), (2, svcS 0x3000001 0 0 0), (3, svcS 0x2000001 8 4096), (4, svcS 0x2000001 0x6100000000 4096 1 fun v => { v with memUsed := 2 ^ 29 }),
      (5, svcS 0x2000001 0x6000000000 4096), (5, svcS 0x2000002 0x6100000000 4096)] : List (Nat × State)).all (fun e =>
    decide (e.2.ctx ⟨0, 0⟩ = some ⟨1, 0⟩ ∧ AtWick e.2 ∧ (findLeaf (e.2.vd 1) 0x6000000000).isSome = true ∧ findLeaf (e.2.vd 1) 0x6100000000 = none) &&
    nextIs (exec .svcReply e.2) fun t => decide ((t.core ⟨0, 0⟩).trap.map (fun r => (r.cause, r.val.toNat / 2 ^ 32)) = some (0x13, e.1) ∧ t.box 0 = [[1]])) = true := by decide +kernel

theorem witness_FirmwareEvents_noFrame : fullS.ctx ⟨0, 0⟩ = some ⟨1, 0⟩ ∧ AtWick fullS ∧ (backPages ⟨1, 0⟩ 1 0x6100000000 fullS).isNone = true ∧ (fullS.vd 1).memUsed + 4096 ≤ (fullS.vd 1).params.memory * (fullS.vd 1).params.n ∧
    nextIs (exec .svcReply fullS) (fun t => decide ((t.core ⟨0, 0⟩).trap.map (fun r => r.val.toNat / 2 ^ 32) = some 4)) = true := by decide +kernel

/-- A call behind another one in its mailbox; messages of the host to wick 4, and to wick 2 for granule entry 1 of die 0. -/
theorem witness_FirmwareEvents_mailbox : (let s := { svcS 5 0 0 with subject := { m := ⟨1, 0⟩, k := ⟨0, 0⟩, c := 1 } }
    inBox s 0 1 = true ∧ atHead s 0 1 = false ∧ nextIs (exec .svcReply s) (fun t => decide (t.agenda.map (·.at_) = [101])) = true) ∧
    ([(4, [4]), (2, [2, 1])] : List (Nat × List Nat)).all (fun e => let s := (fwS { a := e.1, b := 2, c := 6 }).setBox e.1 [[6, 1, 0]]
      atHead s e.1 6 && nextIs (exec .svcReply s) fun t => decide (t.reports.map (fun r => (r.code, r.args)) = [(0x202, e.2)] ∧ t.box e.1 = [])) = true := by decide +kernel

theorem witness_FirmwareEvents_services : (let busy (s : State) : State := { s with accesses := [{ acc (.store [1]) 1 with ea := 0x4000006000000000, st := .remote 1 1 }] }
    let un := svcS 0x2000002 0x6000000000 4096; (AtWick un ∧ notInvalid un 1 0x6000000000 4096 = false ∧ notInvalid (busy un) 1 0x6000000000 4096 = true) ∧
    (match findLeaf (un.vd 1) 0x6000000000 with | some (lv, e) => decide (lv = 4) && !bitN e.toNat 3 | none => false) = true ∧
    (backPages ⟨1, 0⟩ 1 0x6100000000 (svcS 0x2000001 0x6100000000 4096)).isSome = true ∧ ([svcS 0x2000001 0x6100000000 4096, un, svcS 0x2000003 0x6000000000 4096, svcS 0x3000001 5 0] : List State).all (fun s =>
      nextIs (exec .svcReply s) fun t => decide ((t.core ⟨0, 0⟩).svc = none ∧ (t.core ⟨0, 0⟩).readX 5 = 0)) = true ∧
    nextIs (exec .svcReply (busy un)) (fun t => decide (t.agenda.map (·.at_) = [101])) = true) := by decide +kernel

/-- A host access through BAR2 (b = 2) or BAR0 to an offset: bytes written, or 8 read. -/
def hpS (b c : Nat) (l : List Nat) (f : VD → VD := fun v => { v with bar2 := 0x6000000000 }) : State := fwS { a := 1, b := b, c := c, v := 8, l := l } f

theorem witness_FirmwareEvents_host : (let s := hpS 2 0x100 [1, 2]; let strike := hpS 2 0x2000 [1]
    ((s.vd 1).live = true ∧ (s.platform.boot, s.platform.stopped, s.platform.frozen) = (7, false, false) ∧ Tab.get false s.platform.hostPorts 0 = false ∧ (s.vd 1).stubs = []) ∧
    (match findLeaf (s.vd 1) 0x6000000100, findLeaf (s.vd 1) 0x6000002000 with | some (_, e), some (_, e') => decide (ptTgt e ≠ 3 ∧ ptTgt e' = 3 ∧ findLeaf (s.vd 1) 0x6000005000 = none) | _, _ => false) = true ∧
    (match vaLoc s 1 0x6000000100 true, vaRead (hpS 2 0x100 []) ⟨1, 0⟩ 0x6000000100 8 with | .ok l, .ok _ => l.key == hbmKey 0 0x1100 | _, _ => false) = true ∧
    nextIs (exec .hostPortAccess s) (fun t => decide (memBytes t.mem (hbmKey 0 0x1100) 2 = [1, 2])) = true ∧
    nextIs (exec .hostPortAccess (hpS 2 0x100 [])) (fun t => decide (t.reports.map (·.code) = [0x200])) = true ∧
    nextIs (exec .hostPortAccess strike) (fun t => decide (t.agenda.length = 1)) = true ∧ nextIs (exec .hostPortAccess (hpS 2 0x2000 [])) (fun t => decide (t.reports.map (·.code) = [0x200])) = true ∧
    nextIs (exec .hostPortAccess (hpS 2 0x5000 [])) (fun t => decide (t.reports.map (·.code) = [0x201])) = true ∧ nextIs (exec .hostPortAccess (hpS 2 0x5000 [1])) (fun t => decide (t.reports.map (·.kind) = [6])) = true ∧
    4096 * (s.vd 1).params.n ≤ 0x3000 ∧ nextIs (exec .hostPortAccess (hpS 0 0x3000 [])) (fun t => decide (t.reports.map (·.code) = [0x200])) = true) := by decide +kernel

theorem witness_FirmwareEvents_hostStub : (let s := stubS { a := 1, b := 2, c := 8, v := 8, l := [1] } false
    stubDead (s.vd 1) 0x7100000008 = false ∧ stubLive (s.vd 1) 0x7100000008 = true ∧ nextIs (exec .hostPortAccess s) (fun t => decide (t.agenda.length = 1)) = true) := by decide +kernel

/-- The PF: entry 0 of the capability list, of length 32 and ID 1, a write to it, and messages to wick 3 with room and without. -/
theorem witness_FirmwareEvents_hostPf : nextIs (exec .hostPortAccess (fwS { a := 0, b := 0, c := 0x1000, v := 32 })) (fun t => decide (t.reports.map (·.args.take 13) = [[1, 0, 1, 0, 32, 0, 0, 0, 0x20, 0x10, 0, 0, 0]])) = true ∧
    nextIs (exec .hostPortAccess (fwS { a := 0, b := 0, c := 0x1000, v := 32, l := [1] })) (fun t => decide (t = fwS { a := 0, b := 0, c := 0x1000, v := 32, l := [1] })) = true ∧
    (let s := fwS { a := 0, b := 1, c := 3, l := List.replicate 64 7 }; let full := s.setBox 3 (List.replicate 32 [0])
     nextIs (exec .hostPortAccess s) (fun t => decide ((t.box 3).length = 1 ∧ t.agenda.length = 1)) = true ∧ 32 ≤ (full.box 3).length ∧
       nextIs (exec .hostPortAccess full) (fun t => decide (t.agenda.map (·.at_) = [101])) = true) ∧
    (let s (l : List Nat) : State := let s := fwS { a := 1, b := 2, v := 8, l := l }; { s with platform := { s.platform with frozen := true } }
     nextIs (exec .hostPortAccess (s [])) (fun t => decide (t.reports.map (·.code) = [0x201])) = true ∧ nextIs (exec .hostPortAccess (s [1])) (fun t => decide (t.reports.map (·.kind) = [6])) = true) := by decide +kernel

/-! The scale-out transport -/

theorem arrives_of {s : State} {kind vd i : Nat} {e : Endpoint} {d : Dgram} (h : decide (s.subject.dgram = some d ∧ d.kind = kind ∧ endpointOfPair s d.epair = some (vd, i, e) ∧
    s.endpoint vd i = some e ∧ d.bad = false ∧ d.ecn = false ∧ s.subject.l = []) = true) : Arrives s kind vd i e d := by
  obtain ⟨h1, h2, h3, h4, h5, h6, h7⟩ := of_decide_eq_true h
  exact ⟨h1, h2, h3, h4, h5, h6, h7⟩

/-- A datagram of a kind for pair 5. -/
def dg (kind off job len : Nat) (data : List Byte := []) : Dgram := { kind := kind, epair := 5, psn := 1, off := off, job := job, len := len, apsn := 0, ecn := false, bad := false, data := data }

/-- The booted machine whose VD 1 has endpoint 0. -/
def etS (o : Subject) (e : Endpoint := ep0) (f : VD → VD := id) : State := (fwS { o with a := 1, b := 0 } f).setEndpoint 1 0 e
/-- The endpoint with a datagram come, and with one sent n times at clk `at_`. -/
def dgS (d : Dgram) (f : VD → VD := id) : State := etS { dgram := some d } ep0 f
@[inherit_doc dgS] def sentE (d : Dgram) (n at_ : Nat) : Endpoint := { ep0 with unacked := [(d, n, at_)], psn := 1 }

/-- The endpoint's one answer has this number of code. -/
def answers (t : State) (code : Nat) : Bool := t.reports.any fun r => decide (r.kind = 9 ∧ r.code = code)

theorem witness_EthernetEvents_create : (let q (p : EndpointParams) : State := fwS { ep := some p }
    (endpointBad (q ep0.params) { ep0.params with ports := 0 } = true ∧ nextIs (exec .endpointCreate (q { ep0.params with ports := 0 })) (fun t => decide (t.reports.map (·.code) = [1])) = true) ∧
    (endpointBad (q ep0.params) ep0.params = false ∧ (q ep0.params).endpoint 1 0 = none ∧ nextIs (exec .endpointCreate (q ep0.params)) (fun t => answers t 7) = true) ∧
    (let s := { etS {} { ep0 with up := false } with clk := 850000000 }
     s.endpoint 1 0 = some { ep0 with up := false } ∧ nextIs (exec .endpointSetupTimeout s) (fun t => decide (t.endpoint 1 0 = none)) = true)) := by decide +kernel

theorem witness_EthernetEvents_split : ([(3, 1, 0, 0), (16, 0, 0, 1), (3, 3, 0, 1), (3, 2, 0x81, 0), (3, 2, 7, 1)] : List (Nat × Nat × Nat × Nat)).all (fun e =>
    nextIs (exec .ethPortSplit (fwS { a := e.1, b := e.2.1, c := e.2.2.1 })) fun t => decide (t.reports.map (·.code) = [e.2.2.2] ∧ Tab.get 0 t.platform.ethPfc 3 = (if e.2.2.1 = 0x81 then 0x81 else 0))) = true := by decide +kernel

theorem witness_EthernetEvents_setup : ([(true, false), (true, true), (false, false), (false, true)] : List (Bool × Bool)).all (fun c =>
    let e := { ep0 with up := c.2, unacked := [(dg 1 0 0 8, 1, 50)] }; let d := { dg 7 0 0 24 (setupData 0x8000 1 0 1 0 2) with bad := c.1 }; let s := etS { dgram := some d } e
    decide (s.endpoint 1 0 = some e ∧ e.up = c.2) && nextIs (exec .ethSetup s) fun t => decide ((t.endpoint 1 0).map (·.keyNo) = match c with
      | (true, false) => none | (true, true) => some 1 | (false, false) => some 1 | (false, true) => some 2)) = true := by decide +kernel

/-- A setup message that names another VD, and one under the key in use. -/
theorem witness_EthernetEvents_setupOld : ([(2, 2, 1), (1, 1, 0)] : List (Nat × Nat × Nat)).all (fun c => let s := etS { dgram := some (dg 7 0 0 24 (setupData 0x8000 c.1 0 1 0 c.2.1)) }
    nextIs (exec .ethSetup s) fun t => decide (t.reports.length = c.2.2 ∧ (t.endpoint 1 0).map (·.peerLen) = some (if c.2.2 = 1 then 0x10000 else 0x8000))) = true := by decide +kernel

theorem witness_EthernetEvents_rekeyAndKeepalive : (etS {}).endpoint 1 0 = some ep0 ∧ ep0.up = true ∧ nextIs (exec .pairRekey (etS {})) (fun t => answers t 7) = true ∧
    nextIs (exec .ethKeepaliveTimer (etS {})) (fun t => answers t 8) = true ∧ endpointOfPair (dgS (dg 8 0 0 0)) 5 = some (1, 0, ep0) ∧
    psnSeen ep0 1 = false ∧ nextIs (exec .ethKeep (dgS (dg 8 0 0 0))) (fun t => decide ((t.endpoint 1 0).map (·.expect) = some 1)) = true ∧
    (let e := { ep0 with expect := 1 }; let s := etS { dgram := some (dg 8 0 0 0) } e; psnSeen e 1 = true ∧ nextIs (exec .ethKeep s) (fun t => decide (t = s)) = true) ∧ nextIs (exec .ethKeep (dgS { dg 8 0 0 0 with ecn := true })) (fun t => answers t 6) = true := by decide +kernel

theorem witness_EthernetEvents_dropped : ([(Instr.ethWrite, 1), (.ethRead, 2), (.ethRddata, 3), (.ethAck, 4), (.ethNote, 5), (.ethEcho, 6), (.ethKeep, 8), (.ethBusy, 9)] : List (Instr × Nat)).all (fun e =>
    (endpointOfPair (dgS { dg e.2 0 0 0 with epair := 6 }) 6).isNone && ([{ dg e.2 0 0 0 with bad := true }, { dg e.2 0 0 0 with epair := 6 }, dg 0 0 0 0, dg 10 0 0 0] : List Dgram).all fun d =>
      nextIs (exec e.1 (dgS d)) fun t => decide (t.reports.map (·.code) = [0x30])) = true := by decide +kernel

theorem witness_EthernetEvents_notNew : Arrives (dgS (dg 1 0 0 8) fun v => { v with state := .pilot }) 1 1 0 ep0 (dg 1 0 0 8) ∧
    Arrives (etS { dgram := some (dg 1 0 0 8) } { ep0 with expect := 1 }) 1 1 0 { ep0 with expect := 1 } (dg 1 0 0 8) ∧ clockGe 1 1 = true ∧
    nextIs (exec .ethWrite (dgS (dg 1 0 0 8) fun v => { v with state := .pilot })) (fun t => answers t 9) = true ∧
    nextIs (exec .ethWrite (etS { dgram := some (dg 1 0 0 8) } { ep0 with expect := 1 })) (fun t => decide ((t.endpoint 1 0).map (·.owed.length) = some 1)) = true :=
  ⟨arrives_of (by decide +kernel), arrives_of (by decide +kernel), by decide, by decide +kernel, by decide +kernel⟩

theorem unseen_of {s : State} {vd : Nat} {e : Endpoint} {d : Dgram} (h : decide ((s.vd vd).state ≠ .pilot ∧ d.psn ∉ e.seen ∧ clockGe e.expect d.psn = false) = true) : Unseen s vd e d :=
  ⟨(of_decide_eq_true h).1, (of_decide_eq_true h).2.1, (of_decide_eq_true h).2.2⟩

theorem witness_EthernetEvents_requests : (let w := dg 1 0x100 0 2 [7, 8]; let r := dg 2 0x100 0 2; let n := dg 5 0 0 3
    (Arrives (dgS w) 1 1 0 ep0 w ∧ Unseen (dgS w) 1 ep0 w ∧ Arrives (dgS r) 2 1 0 ep0 r ∧ Unseen (dgS r) 1 ep0 r ∧ Arrives (dgS n) 5 1 0 ep0 n ∧ Unseen (dgS n) 1 ep0 n)) :=
  ⟨arrives_of (by decide +kernel), unseen_of (by decide +kernel), arrives_of (by decide +kernel), unseen_of (by decide +kernel), arrives_of (by decide +kernel), unseen_of (by decide +kernel)⟩

theorem witness_EthernetEvents_window : (let w := dg 1 0x100 0 2 [7, 8]; let r := dg 2 0x100 0 2; let n := dg 5 0 0 3
    (match vaLoc (dgS w) 1 0x6000000100 true, vaLoc (dgS n) 1 0x6000000840 true, vaRead (dgS r) ⟨1, 0⟩ 0x6000000100 2, vaRead (dgS n) ⟨1, 0⟩ 0x6000000840 8 with
      | .ok l, .ok l', .ok (_, s1), .ok (_, s2) => decide (l.key = hbmKey 0 0x1100 ∧ l'.key = hbmKey 0 0x1840 ∧ s1.vds = (dgS r).vds ∧ s2.vds = (dgS n).vds ∧ s2.members = (dgS n).members)
      | _, _, _, _ => false) = true ∧ (findLeaf ((dgS w).vd 1) 0x6000000100).map (fun e => ptTgt e.2) = some 0 ∧
    nextIs (exec .ethWrite (dgS w)) (fun t => decide (memBytes t.mem (hbmKey 0 0x1100) 2 = [7, 8])) = true ∧ nextIs (exec .ethRead (dgS r)) (fun t => answers t 3) = true ∧
    nextIs (exec .ethNote (dgS n)) (fun t => decide (memNat t.mem (hbmKey 0 0x1840) 8 = 3)) = true ∧
    ([(.ethWrite, dg 1 0xFFF 0 2 [7, 8]), (.ethRead, dg 2 0xFFF 0 2)] : List (Instr × Dgram)).all (fun e => nextIs (exec e.1 (dgS e.2)) fun t => decide (t.reports.map (·.code) = [0x31])) = true) := by
  decide +kernel

/-- A fetching job of 16 bytes whose READ is out, on the die or (`away`) off it. -/
def rdS (l : List Nat) (away : Bool) : State :=
  let s := etS { m := ⟨1, 0⟩, l := l, dgram := some (dg 3 0 0 16 (List.replicate 16 1)) }
  let j := { job (crd (2 * 2 ^ 62) 0x2000 16 0 0 0 0 0) (.active 0) with unacked := [2 ^ 32], inflight := [0], issued := 1 }
  { (s.modMember ⟨1, 0⟩ fun m => { m with jobs := [(0, some j)] }) with dies := if away then [] else s.dies }

theorem witness_EthernetEvents_rddata : (let d := dg 3 0 0 16 (List.replicate 16 1)
    Arrives (rdS [] false) 3 1 0 ep0 d ∧ Unseen (rdS [] false) 1 ep0 d ∧ Arrives (rdS [] true) 3 1 0 ep0 d ∧ Unseen (rdS [] true) 1 ep0 d ∧
    (match ((rdS [] true).member ⟨1, 0⟩).job 0 with | some j => decide (cardSsp j.card = 2 ∧ 2 ^ 32 ∈ j.unacked ∧ d.data.length = chunkLen j.card 0 ∧ cardDst 0 j.card 0 = some 0x2000) | none => false) = true ∧
    ((rdS [] false).die 0).ctx = some ⟨1, 0⟩ ∧ ((rdS [] true).die 0).ctx ≠ some ⟨1, 0⟩ ∧
    ([rdS [] false, rdS [0, 0] false] : List State).all (fun s => nextIs (exec .ethRddata s) fun t => decide (((t.member ⟨1, 0⟩).job 0).map (·.unacked) = some [])) = true ∧
    nextIs (exec .ethRddata (rdS [] true)) (fun t => decide ((Tab.get [] t.paused 256).length = 1)) = true) :=
  ⟨arrives_of (by decide +kernel), unseen_of (by decide +kernel), arrives_of (by decide +kernel), unseen_of (by decide +kernel), by decide +kernel⟩

theorem witness_EthernetEvents_ack : (let d := { dg 4 0 0 0 with apsn := 1 }; let s := etS { dgram := some d } (sentE (dg 3 0 0 16) 1 50)
    Arrives s 4 1 0 (sentE (dg 3 0 0 16) 1 50) d ∧ nextIs (exec .ethAck s) (fun t => decide ((t.endpoint 1 0).map (·.unacked) = some [])) = true) ∧
    (let e := { ep0 with seen := [1] }; let s := etS { dgram := some (dg 4 0 0 0) } e; Arrives s 4 1 0 e (dg 4 0 0 0) ∧ psnSeen e 1 = true ∧ nextIs (exec .ethAck s) (fun t => decide (t = s)) = true) :=
  ⟨⟨arrives_of (by decide +kernel), by decide +kernel⟩, arrives_of (by decide +kernel), by decide +kernel, by decide +kernel⟩

theorem witness_EthernetEvents_jobAck : ([(5, [0]), (1, [1])] : List (Nat × List Nat)).all (fun e =>
    let s := (etS { m := ⟨1, 0⟩, l := [0], dgram := some (dg e.1 0 0 0) }).modMember ⟨1, 0⟩ fun m => { m with jobs := [(0, some { job (crd 0x2000 (2 * 2 ^ 62) 16 0 0 0 0 0) (.active 0) with unacked := e.2 })] }
    decide ((s.die 0).ctx = some ⟨1, 0⟩) && nextIs (exec .ethAck s) fun t => decide (((t.member ⟨1, 0⟩).job 0).map (·.unacked) = some (if e.1 = 5 then [0] else []))) = true := by decide +kernel

theorem witness_EthernetEvents_rate : (let d := dg 6 0 0 0; let e := { ep0 with rate := (196, 256) }; let s := { etS {} e with clk := 13600 }
    Arrives (dgS d) 6 1 0 ep0 d ∧ nextIs (exec .ethEcho (dgS d)) (fun t => decide ((t.endpoint 1 0).map (·.rate) = some (1792, 2048))) = true ∧
    s.endpoint 1 0 = some e ∧ nextIs (exec .ethRateRise s) (fun t => decide ((t.endpoint 1 0).map (·.rate) = some (204, 256))) = true) :=
  ⟨arrives_of (by decide +kernel), by decide +kernel, by decide +kernel, by decide +kernel⟩

theorem witness_EthernetEvents_busy : (let e := sentE (dg 1 0 0 8) 3 50; let s := etS { dgram := some (dg 9 0 0 0) } e
    Arrives s 9 1 0 e (dg 9 0 0 0) ∧ nextIs (exec .ethBusy s) (fun t => decide ((t.endpoint 1 0).map (fun e => e.unacked.map (·.2.1)) = some [2])) = true) := ⟨arrives_of (by decide +kernel), by decide +kernel⟩

theorem witness_EthernetEvents_timers : (let e := { ep0 with owed := [3] }; (etS {} e).endpoint 1 0 = some e ∧ nextIs (exec .ethAckTimer (etS {} e)) (fun t => answers t 4) = true) ∧
    ([7, 8] : List Nat).all (fun n => let e : Endpoint := sentE (dg 1 0 0 8) n 15000; let s : State := { etS { c := 1 } e with clk := 100000 }
      decide (s.endpoint 1 0 = some e ∧ (e.unacked.find? fun (x : Dgram × Nat × Nat) => decide (x.1.psn = 1)) = some (dg 1 0 0 8, n, 15000)) &&
      nextIs (exec .ethRetransmitTimeout s) fun t => decide ((t.endpoint 1 0).map (·.unreachable) = some (n == 8))) = true ∧
    (let e : Endpoint := sentE (dg 1 0 0 8) 0 0; let s := (etS { c := 1 } e).modMember ⟨1, 0⟩ fun m => { m with snuffed := true }
     s.endpoint 1 0 = some e ∧ dgramHeld s 1 (dg 1 0 0 8) = true ∧ nextIs (exec .ethRetransmitTimeout s) (fun t => decide (t.agenda.map (·.at_) = [950])) = true) ∧
    (let s := (etS { m := ⟨1, 0⟩, l := [0] }).modMember ⟨1, 0⟩ fun m => { m with jobs := [(0, some (job (cpC 32) (.active 0)))] }
     (s.die 0).ctx = some ⟨1, 0⟩ ∧ nextIs (exec .ethRetransmitTimeout s) (fun t => decide (((t.member ⟨1, 0⟩).job 0).map (·.aborted) = some true)) = true) := by decide +kernel

/-! The platform -/

/-- The small machine with its platform changed. -/
def plS (o : Subject) (f : Platform → Platform := id) : State := { sub s0 o with platform := f { s0.platform with boot := 7 } }
/-- Link 70 (a fabric port of die 0) as l says. -/
def lkS (l : Link) (b : Nat := 3) : State := plS { a := 70, b := b } fun p => { p with links := [(70, l)] }

theorem witness_PlatformEvents_links : isLink 70 = true ∧ isLink 5 = true ∧ linkOf (lkS ⟨false, 16, 2, 4, 3⟩) 70 = ⟨false, 16, 2, 4, 3⟩ ∧
    nextIs (exec .linkTraining (lkS ⟨false, 16, 2, 4, 3⟩)) (fun t => (linkOf t 70).up) = true ∧ nextIs (exec .linkTraining (lkS ⟨false, 16, 2, 4, 1⟩)) (fun t => decide ((linkOf t 70).stage = 2)) = true ∧
    nextIs (exec .laneDetectTimeout (lkS ⟨false, 16, 2, 4, 0⟩)) (fun t => decide (t.reports.map (·.code) = [3])) = true ∧ linkOf (lkS ⟨true, 16, 2, 4, 4⟩) 70 = ⟨true, 16, 2, 4, 4⟩ ∧
    ([(16, true), (9, true), (8, false)] : List (Nat × Bool)).all (fun e => nextIs (exec .laneFailure (lkS ⟨true, e.1, 0, 4, 4⟩)) fun t => decide (linkOf t 70 = ⟨e.2, e.1 - 1, 0, 4, if e.2 then 0 else 4⟩)) = true ∧
    ([(3, true), (2, false)] : List (Nat × Bool)).all (fun e => nextIs (exec .bufferBankError (lkS ⟨true, 16, 2, e.1, 4⟩)) fun t => decide (linkOf t 70 = ⟨e.2, 16, 2, e.1 - 1, 4⟩)) = true := by decide +kernel

theorem witness_PlatformEvents_heartbeat : (let s (n used : Nat) : State := (plS { a := 4, b := 1 } fun p => { p with spareSwitches := used }).modSwitch 4 fun w => { w with heartbeats := n }
    ((s 1 0).switch 4).down = false ∧ nextIs (exec .switchHeartbeatLoss (s 1 0)) (fun t => decide ((t.switch 4).heartbeats = 2 ∧ (t.switch 4).down = false)) = true ∧
    ([0, 2] : List Nat).all (fun used => nextIs (exec .switchHeartbeatLoss (s 2 used)) fun t => (t.switch 4).down) = true ∧ ((s 0 1).modSwitch 4 fun w => { w with down := true }).platform.spareSwitches < 2) := by
  decide +kernel

theorem witness_PlatformEvents_boot : (([1, 5, 6, 7] : List Nat).all fun a => let s := plS { a := a } fun p => { p with boot := a - 1 }
    decide (s.platform.stopped = false ∧ a = s.platform.boot + 1) && nextIs (exec .powerOnReset s) fun t => decide (t.platform.boot = a)) = true ∧
    (([2, 3, 4] : List Nat).all fun a => decide ((plS { a := a } fun p => { p with boot := a - 1 }).platform.imageA = true)) = true ∧
    nextIs (exec .powerOnReset (plS { a := 2 } fun p => { p with boot := 1, imageA := false, imageB := false })) (fun t => decide (t.reports.map (·.code) = [0x40])) = true := by decide +kernel

/-- The fourth step with one record of each kind: column 5 of place 3 unused, die 20 on the spare of row 1, position 4 on switch die 16, link 70 on 16
lanes, row 9 of bank 0 on its first spare, row 9 of stack 1 of die 2 offline. -/
theorem witness_PlatformEvents_replay : (let s (r : Nat × List Nat) : State := plS { a := 4 } fun p => { p with boot := 3, records := [(0, [r])] }
    ([((0x101, [3, 5]), fun t => decide (Tab.get 16 t.platform.columns 3 = 5)), ((0x102, [20, 33]), fun t => decide ((t.die 20).position = some 33 ∧ Tab.get false t.platform.spareDies 1 = true)),
      ((0x104, [4, 16]), fun t => decide ((t.switch 4).physical = some 16)), ((0x105, [70, 16, 1]), fun t => decide ((linkOf t 70).spares = 1)),
      ((3, [0, 9, 0, 2, 0]), fun t => decide (Tab.get 0 t.platform.remaps 9 = 1)), ((3, [5, 9, 0, 2, 1]), fun t => Tab.get false (t.die 2).offline (2 ^ 64 + 9))] : List ((Nat × List Nat) × (State → Bool))).all
        fun e => decide (Tab.get [] (s e.1).platform.records (s e.1).platform.mgmtDie = [e.1]) && nextIs (exec .powerOnReset (s e.1)) e.2) = true := by decide +kernel

theorem witness_PlatformEvents_recovery : ([(1, 0), (0, 1), (0, 2)] : List (Nat × Nat)).all (fun e => let s := plS { b := e.1 } fun p => { p with boot := 1, imageA := false, imageB := false, badImages := e.2 }
    decide (s.platform.boot = 1) && (e.2 == 2 || nextIs (exec .recoveryImage s) fun t => decide (t.platform.badImages = if e.1 = 1 then 0 else e.2 + 1))) = true := by decide +kernel

theorem witness_PlatformEvents_wick : (let up (a b v : Nat) (fails : Nat := 0) (w : Wick := Wick.reset) : State := { plS { a := a, b := b, c := 3, v := BitVec.ofNat 64 v } fun p => { p with updateFailures := fails } with wicks := if w = Wick.reset then [] else [(1, w)] }
    nextIs (exec .wickUpdate (up 8 0 1)) (fun t => decide (t.reports.map (·.code) = [1])) = true ∧ nextIs (exec .wickUpdate (up 1 0 0)) (fun t => decide (t.platform.updateFailures = 1)) = true ∧ (up 1 0 0 2).platform.updateFailures = 2 ∧
    (up 1 0 1).wicks = [] ∧ (let s := up 1 0 1 0 ⟨[], 0, 0, some (3, 50)⟩; s.wicks.any (fun e => e.2.pendingUpdate.isSome) = true ∧ nextIs (exec .wickUpdate s) (fun t => decide (t.reports.map (·.code) = [1])) = true) ∧
    (Tab.get Wick.reset (up 1 1 1 0 ⟨[], 0, 0, some (3, 50)⟩).wicks 1).pendingUpdate = some (3, 50) ∧ nextIs (exec .wickUpdate (up 1 1 1 0 ⟨[], 0, 0, some (3, 50)⟩)) (fun t => decide ((Tab.get Wick.reset t.wicks 1).bank = 1)) = true ∧
    (let s := { up 1 0 0 0 ⟨[], 0, 0, some (3, 50)⟩ with clk := 85000050 }
     (Tab.get Wick.reset s.wicks 1).pendingUpdate = some (3, 50) ∧ nextIs (exec .wickUpdateTimeout s) (fun t => decide ((Tab.get Wick.reset t.wicks 1).pendingUpdate = none)) = true)) := by decide +kernel

theorem witness_PlatformEvents_repairs : s0.platform.standby = true ∧ nextIs (exec .managementDieTakeover (plS {})) (fun t => decide (t.platform.mgmtDie = 1)) = true ∧
    ((s0.die 0).ctx ≠ none ∧ (s0.die 9).ctx = none ∧ positionOf s0 0 = 0 ∧ positionOf s0 9 = 9 ∧ Tab.get 16 s0.platform.columns 0 = 16 ∧ Tab.get 16 s0.platform.columns 9 = 16 ∧
      nextIs (exec .coreColumnRepair (plS { a := 0, b := 3 })) (fun t => decide (t.agenda.map (·.at_) = [950])) = true) ∧
    ((s0.die 0).newPosition = none ∧ Tab.get false s0.platform.spareDies 0 = false) ∧
    ([0, 1] : List Nat).all (fun b => let s := plS { a := 0, b := b } fun p => { p with spareDies := [(0, true)] }
      Tab.get false s.platform.spareDies 0 && nextIs (exec .dieReplacement s) fun t => decide ((t.die 0).newPosition = if b = 0 then none else some 16)) = true := by decide +kernel

theorem witness_PlatformEvents_power : (let s := { plS {} fun p => { p with power := 16000, powerCap := 16500 } with clk := 850000 }
    s.platform.lastRaise + 850000 ≤ s.clk ∧ 100 * s.platform.power < 97 * s.platform.powerCap ∧ nextIs (exec .dutyRaise s) (fun t => decide ((t.die 0).duty = 16)) = true) := by decide +kernel

theorem witness_PlatformEvents_temperature : (let s := (plS { a := 0, b := 401, c := 240 }).modDie 0 fun d => { d with dutyCap := 8 }
    nextIs (exec .junctionOvertemp (plS { a := 0 })) (fun t => decide ((t.die 0).dutyCap = 8)) = true ∧ (s.die 0).dutyCap ≠ 16 ∧ nextIs (exec .junctionCooled s) (fun t => decide ((t.die 0).dutyCap = 16)) = true ∧
    10 * s.platform.inletLimit < 401 ∧ nextIs (exec .coolantAlarm s) (fun t => decide ((t.die 1).dutyCap = 8)) = true) := by decide +kernel

theorem witness_PlatformEvents_security : (plS { a := 1 }).subject.a = 1 ∧ ([1, 2, 3].map (alarmLevel (plS {}))) = [3, 2, 1] ∧
    ([(true, 1, 0), (false, 1, 1), (true, 0, 1)] : List (Bool × Nat × Nat)).all (fun e => nextIs (exec .unfreezeRequest (plS { b := e.2.1 } fun p => { p with frozen := e.1 })) fun t => decide (t.reports.map (·.code) = [e.2.2])) = true ∧
    nextIs (exec .attestation (plS {} fun p => { p with erased := true })) (fun t => decide (t.reports.map (·.code) = [1])) = true ∧ (plS {}).platform.erased = false ∧ (plS {}).platform.xmss < 2 ^ 20 := by decide +kernel

/-! ### Ill-formed op words are refused, one for each check (R402 to R411) -/

/-- A latch operand. -/
def la (n : BitVec 12) : Operand := ⟨2, n⟩
/-- An operand-file entry. -/
def of_ (n : BitVec 12) : Operand := ⟨1, n⟩
/-- None of them is well formed. -/
def allBad (l : List Instr) : Bool := l.all fun i => !wellFormed i
@[inherit_doc allBad] def allGood (l : List Instr) : Bool := l.all wellFormed

/-- The same terms with the fault of each mended: P 12, x63, o15, a latch of slot A, and so on. -/
theorem test_wf_good : allGood [.add (q (r 63) (of_ 15) (la 0xA07) (im 0) ⟨true, 12, 0, 1, 2⟩), .pand (q (r 11) (r 0) (r 1) (r 0)), .pcmp (q (r 0) (r 1) (r 2) (im 9)), .br ⟨h0, r 0, 5⟩,
    .svcMap ⟨h0, r 1, r 0, 0x2000001⟩, .crr ⟨h0, r 1, r 0, 0x187⟩, .vadd .v0 (q (r 383) (r 0) (im 3) (im 0x080)), .vadds .v1 (q (r 0) (r 1) (r 2) (im 0x500)), .vcvt .v0 (q (r 380) (r 8) (r 0) (im 0x003)),
    .vtstSum .v0 (q (r 0) (r 1) (r 0) (im 0x010)), .vredmax .v0 ⟨h0, r 2, r 1, r 0, 0, 3⟩, .vscan .v1 ⟨h0, r 0, r 4, r 0, 0, 2⟩, .mm ⟨hT 1, r 512, r 1, r 2, 63, 1⟩, .msdt ⟨h0, r 3, r 512, la 1, 31, 8⟩,
    .mscal ⟨h0, r 512, r 513, im 5, 3, 0⟩, .ld64I (q (of_ 15) (r 1) (r 0) (im 8)), .amoAdd64 (q (r 62) (r 6) (r 0) (im 0) (hT 2)), .sdef ⟨h0, r 15, r 1, r 0, 0, 0⟩, .fbind (q (r 3) (r 6) (r 0) (im 0)),
    .cpy (q (r 9) (r 6) (r 0) (im 0) (hT 3)), .sred (q (r 9) (r 6) (r 0) (im 0x540) (hT 3)), .fenceC ⟨h0, r 0, r 0, 0⟩] = true := by decide +kernel

/-- Head: P above 12; N without P; a tag to allocate on an S or V op; a valued A op without one (R402, R399, R289). -/
theorem test_wf_head : allBad [.add (q (r 1) (r 1) (r 1) (r 0) ⟨false, 13, 0, 0, 0⟩), .add (q (r 1) (r 1) (r 1) (r 0) ⟨true, 0, 0, 0, 0⟩), .add (q (r 1) (r 1) (r 1) (r 0) (hT 1)),
    .vadd .v0 (q (r 0) (r 1) (r 2) (im 0) (hT 1)), .cpy (q (r 9) (r 6) (r 0) (im 0)), .amoAdd64 (q (r 9) (r 6) (r 0) (im 0)), .ldAcq64 (q (r 9) (r 6) (r 0) (im 0)),
    .mm ⟨hT 1, r 512, r 513, r 514, 63, 0⟩] = true := by decide +kernel

/-- Operands: x64, o16, an immediate destination, latches of slots 3 and 6, a reserved latch bit, distance 0; predicate 12, a predicate at another level. -/
theorem test_wf_scalarOperands : allBad [.add (q (r 64) (r 1) (r 1) (r 0)), .add (q (of_ 16) (r 1) (r 1) (r 0)), .add (q (im 1) (r 1) (r 1) (r 0)), .add (q (r 1) (r 64) (r 1) (r 0)), .add (q (r 1) (la 0x601) (r 1) (r 0)),
    .add (q (r 1) (la 0xC01) (r 1) (r 0)), .add (q (r 1) (la 0x009) (r 1) (r 0)), .add (q (r 1) (la 0x000) (r 1) (r 0)), .pand (q (r 12) (r 0) (r 1) (r 0)), .pand (q (of_ 1) (r 0) (r 1) (r 0)), .sel (q (r 1) (r 1) (r 1) (im 0))] = true := by
  decide +kernel

/-- Codes: cc 0xA, a qualifier C at another level, D of br, a reserved system field, an unassigned control register. -/
theorem test_wf_scalarFields : allBad [.pcmp (q (r 0) (r 1) (r 2) (im 10)), .pcmp (q (r 0) (r 1) (r 2) (r 0)), .pcmpi ⟨h0, r 0, r 1, 0xA000000⟩, .pmovToPred (q (r 0) (r 1) (r 0) (im 2)), .br ⟨h0, r 1, 5⟩,
    .tret ⟨h0, r 0, r 0, 2⟩, .tretSkip ⟨h0, r 0, r 0, 3⟩, .lbrk ⟨h0, r 0, r 0, 1⟩, .svcMap ⟨h0, r 1, r 0, 0x2000002⟩, .crr ⟨h0, r 1, r 0, 3⟩, .crr ⟨h0, r 1, r 0, 0x188⟩, .crw ⟨h0, r 1, r 0, 0x1000⟩,
    .fenceC ⟨h0, r 1, r 0, 0⟩, .fenceG ⟨h0, r 0, r 0, 1⟩] = true := by decide +kernel

/-- Vectors: v384, a group past v383 or of latches, C at another level, a type the op does not take, RM, OVF, SUM or SUB where unused. -/
theorem test_wf_vector : allBad [.vadd .v0 (q (r 384) (r 0) (r 1) (im 0)), .vadd .v0 (q (im 0) (r 0) (r 1) (im 0)), .vadd .v0 (q (r 0) (r 0) (r 1) (r 0)), .vadd .v0 (q (r 0) (r 0) (r 1) (im 0x300)), .vadd .v0 (q (r 0) (r 0) (r 1) (im 0x540)),
    .vadd .v0 (q (r 0) (r 0) (r 1) (im 0x020)), .vadd .v0 (q (r 0) (r 0) (r 1) (im 0x010)), .vadd .v0 (q (r 0) (r 0) (r 1) (im 1)), .vabs .v0 (q (r 0) (r 1) (r 0) (im 0x900)), .vadds .v0 (q (r 0) (r 1) (r 1) (im 0)),
    .vrcp .v0 (q (r 0) (r 1) (r 0) (im 0x100)), .vcmp .v0 (q (r 0) (r 1) (r 2) (im 0x506)), .vsel .v0 (q (r 0) (r 1) (r 2) (im 12)), .vtst .v0 (q (r 0) (r 1) (r 0) (im 6)), .vcvt .v0 (q (r 381) (r 8) (r 0) (im 0x003)),
    .vcvt .v0 (q (r 0) (la 1) (r 0) (im 0x300)), .vcvt .v0 (q (r 0) (r 8) (r 0) (im 0x30D)), .vquant .v0 (q (r 0) (r 8) (r 0) (im 0x000)), .vshuf .v0 (q (r 0) (r 1) (r 2) (im 0x800)), .vcpush .v0 (q (r 0) (r 1) (r 0) (im 2))] = true := by
  decide +kernel

/-- Reductions and STR fields: a reserved MOD, a group past v383, a type; the matrix ops' items, streams, BEATS and scalar operands. -/
theorem test_wf_streams : allBad [.vredadd .v0 ⟨h0, r 2, r 1, r 0, 0, 1⟩, .vredadd .v0 ⟨h0, r 2, r 383, r 0, 1, 0⟩, .vredmax .v0 ⟨h0, r 2, r 1, r 0, 0, 5⟩, .vredmin .v0 ⟨h0, r 2, r 1, r 0, 0, 0x15⟩, .vscan .v0 ⟨h0, r 0, r 4, r 0, 0, 3⟩,
    .vcbal .v0 ⟨h0, r 0, r 0, r 0, 0, 2⟩, .mm ⟨h0, r 511, r 1, r 2, 63, 0⟩, .mm ⟨h0, r 512, r 16, r 2, 63, 0⟩, .mm ⟨h0, r 512, r 1, r 2, 63, 2⟩, .mmz ⟨h0, r 512, r 1, r 2, 63, 1⟩, .mzero ⟨h0, r 512, r 0, r 0, 16, 0⟩,
    .mldt ⟨h0, r 512, r 1, r 0, 32, 0⟩, .msdt ⟨h0, r 3, r 512, r 1, 31, 8⟩, .msdt ⟨h0, r 3, r 512, r 0, 31, 16⟩, .msdt ⟨hT 1, r 3, r 512, r 0, 31, 0⟩, .mtr ⟨h0, r 512, r 1, r 0, 0, 0⟩, .macc ⟨h0, r 512, r 513, r 514, 4, 0⟩,
    .mcvt ⟨h0, r 512, r 513, r 0, 3, 8⟩, .mscal ⟨h0, r 512, r 513, r 1, 3, 0⟩] = true := by decide +kernel

/-- Memory and engine ops: data at an immediate, an operand register past x63, a FIFO 4, a stream 16, BEATS of a record op, sset's MOD, a vector at level 1, sred's qualifiers. -/
theorem test_wf_memory : allBad [.st64I (q (im 1) (r 1) (r 0) (im 0)), .ld64W ⟨h0, r 64, r 1, 0⟩, .vldI (q (of_ 0) (r 1) (r 0) (im 0)), .amoAdd64 (q (r 63) (r 6) (r 0) (im 0) (hT 2)), .cas64 (q (r 62) (r 6) (r 0) (im 0) (hT 2)),
    .cas64 (q (of_ 14) (r 6) (r 0) (im 0) (hT 2)), .fbind (q (r 4) (r 6) (r 0) (im 0)), .fpush (q (r 4) (r 6) (r 0) (r 0)), .fpop (q (r 0) (r 4) (r 0) (r 0)), .sdef ⟨h0, r 16, r 1, r 0, 0, 0⟩, .sdef ⟨h0, r 15, r 1, r 0, 1, 0⟩,
    .ssetBase ⟨h0, r 1, r 1, r 0, 0, 1⟩, .ldt ⟨hT 1, r 512, r 1, r 0, 1, 0⟩, .vldt ⟨hT 1, of_ 0, r 1, r 0, 0, 0⟩, .stmV (q (im 0) (r 1) (r 0) (im 0)), .sred (q (r 9) (r 6) (r 0) (im 0x0C0) (hT 3)),
    .sred (q (r 9) (r 6) (r 0) (im 0x140) (hT 3)), .sred (q (r 9) (r 6) (r 0) (im 0x041) (hT 3)), .bwait (q (r 9) (r 6) (r 0) (r 0)), .ifill (q (im 1) (r 6) (r 0) (im 0))] = true := by decide +kernel

/-! ### The opcode maps (R185 to R189), row by row -/

/-- A Q4, a STR and a SYS of zeros. -/
def z4 : Q4 := q (r 0) (r 0) (r 0) (r 0)
@[inherit_doc z4] def zW : I28 := ⟨h0, r 0, r 0, 0⟩
@[inherit_doc z4] def zB : I42 := ⟨h0, r 0, 0⟩
@[inherit_doc z4] def zT : Str := ⟨h0, r 0, r 0, r 0, 0, 0⟩
@[inherit_doc z4] def zS : Sys := ⟨h0, r 0, r 0, 0⟩

/-- In a slot's map, the row from an OPC on holds these ops, with all other fields zero; the rest of the row holds none. -/
def row (sl : Slot) (base : Nat) (l : List (Option Instr)) : Bool :=
  (List.range 8).all fun i => (decodeOp sl ((base + i) * 2 ^ 73)).toOption == (l.getD i none)
/-- An op of the row. -/
def o1 (i : Instr) : Option Instr := some i

/-- pmov and svc have no form with all other fields zero. -/
theorem test_map_S : (row .S 0x00 [none, o1 (.add z4), o1 (.sub z4), o1 (.addi zW), o1 (.mul z4), o1 (.mulhS z4), o1 (.mulhZ z4), o1 (.divS z4)] &&
    row .S 0x08 [o1 (.divZ z4), o1 (.remS z4), o1 (.remZ z4)] && row .S 0x10 [o1 (.and z4), o1 (.or z4), o1 (.xor z4), o1 (.andn z4), o1 (.shl z4), o1 (.shr z4), o1 (.sar z4), o1 (.rotr z4)] &&
    row .S 0x18 [o1 (.minS z4), o1 (.minZ z4), o1 (.maxS z4), o1 (.maxZ z4), o1 (.clz z4), o1 (.popc z4)] && row .S 0x20 [o1 (.sext z4), o1 (.zext z4), o1 (.li zB), o1 (.lea z4), o1 (.sel z4)] &&
    row .S 0x28 [o1 (.pcmp z4), o1 (.pcmpi zW), o1 (.pand z4), o1 (.por z4), o1 (.pxor z4), o1 (.pnot z4)] && row .S 0x30 [o1 (.br zB), o1 (.jmp zB), o1 (.jr z4), o1 (.call zB), o1 (.ret z4)] &&
    row .S 0x38 [o1 (.lnest z4), o1 (.lbrk zS)] && row .S 0x40 [o1 (.trap zS), o1 (.tret zS), o1 (.rstart zS), none, o1 (.crr zS), o1 (.crw zS)] &&
    row .S 0x48 [o1 (.yield zS), o1 (.await zS), o1 (.done zS), o1 (.park zS), o1 (.spawn zS), o1 (.halt zS)] && row .S 0x50 [o1 (.nswOn zS), o1 (.nswOff zS), o1 (.dim zS)] &&
    row .S 0x58 [] && row .S 0x60 [] && row .S 0x68 [] && row .S 0x70 [] && row .S 0x78 []) = true := by decide +kernel

theorem test_map_V : ([VUnit.v0, .v1].all fun u =>
    row u.slot 0x00 [none, o1 (.vadd u z4), o1 (.vsub u z4), o1 (.vmul u z4), o1 (.vmin u z4), o1 (.vmax u z4), o1 (.vabs u z4), o1 (.vneg u z4)] &&
    row u.slot 0x08 [o1 (.vfmaF32 u z4), o1 (.vfmaF16 u z4), o1 (.vfmaBf16 u z4), o1 (.vfmsF32 u z4), o1 (.vfmsF16 u z4), o1 (.vfmsBf16 u z4), o1 (.vfnmaF32 u z4), o1 (.vfnmaF16 u z4)] &&
    row u.slot 0x10 [o1 (.vfnmaBf16 u z4), o1 (.vclampF32 u z4), o1 (.vclampS32 u z4), o1 (.vclampZ32 u z4)] && row u.slot 0x18 [o1 (.vrcp u z4), o1 (.vrsqrt u z4), o1 (.vsqrt u z4), o1 (.vexp2 u z4), o1 (.vlog2 u z4)] &&
    row u.slot 0x20 [o1 (.vcmp u z4), o1 (.vsel u z4), o1 (.vtst u z4), o1 (.vmovpAny u z4)] && row u.slot 0x28 [o1 (.vand u z4), o1 (.vor u z4), o1 (.vxor u z4), o1 (.vnot u z4), o1 (.vshl u z4), o1 (.vshr u z4), o1 (.vsar u z4)] &&
    row u.slot 0x30 [o1 (.vmulh u z4), o1 (.vadds u z4), o1 (.vsubs u z4)] && row u.slot 0x38 [o1 (.vcvt u z4), o1 (.vquant u z4), o1 (.vpack u z4), o1 (.vunpack u z4)] &&
    row u.slot 0x40 [o1 (.vbcast u z4), o1 (.vshuf u z4), o1 (.vrot u z4), o1 (.vidx u z4)] && row u.slot 0x48 [o1 (.vredadd u zT), o1 (.vredmax u zT), o1 (.vredmin u zT), o1 (.vscan u zT)] &&
    row u.slot 0x50 [o1 (.vcpush u z4), o1 (.vcpop u z4), o1 (.vcbal u zT)] && row u.slot 0x58 [] && row u.slot 0x60 [] && row u.slot 0x68 [] && row u.slot 0x70 [] && row u.slot 0x78 []) = true := by decide +kernel

theorem test_map_M : (row .M 0x00 [none, o1 (.mm zT), o1 (.mmz zT), o1 (.mzero zT), o1 (.mldt zT), o1 (.msdt zT), o1 (.mtr zT), o1 (.macc zT)] && row .M 0x08 [o1 (.mcvt zT), o1 (.mscal zT)] &&
    (List.range 14).all fun n => row .M (16 + 8 * n) []) = true := by decide +kernel

theorem test_map_L : (row .L 0x00 [none, o1 (.ldS8I z4), o1 (.ldZ8I z4), o1 (.ldS16I z4), o1 (.ldZ16I z4), o1 (.ldS32I z4), o1 (.ldZ32I z4), o1 (.ld64I z4)] &&
    row .L 0x08 [o1 (.st8I z4), o1 (.st16I z4), o1 (.st32I z4), o1 (.st64I z4), o1 (.vldI z4), o1 (.vstI z4), o1 (.vstSumI z4)] &&
    row .L 0x10 [o1 (.ldAcq32 z4), o1 (.ldAcq64 z4), o1 (.stRel32 z4), o1 (.stRel64 z4), o1 (.ldfeKeep z4), o1 (.ldfeTake z4), o1 (.stfeFill z4), o1 (.fechk z4)] &&
    row .L 0x18 [o1 (.feset z4), o1 (.feclr z4), o1 (.fenceC zS), o1 (.fenceD zS), o1 (.fenceG zS)] &&
    row .L 0x20 [o1 (.amoAdd32 z4), o1 (.amoAnd32 z4), o1 (.amoOr32 z4), o1 (.amoXor32 z4), o1 (.amoMaxS32 z4), o1 (.amoMaxZ32 z4), o1 (.amoMinS32 z4), o1 (.amoMinZ32 z4)] &&
    row .L 0x28 [o1 (.amoSwap32 z4), o1 (.cas32 z4), o1 (.amoFaddF32 z4), o1 (.amoFaddBf16 z4), o1 (.amoFmaxF32 z4)] &&
    row .L 0x30 [o1 (.amoAdd64 z4), o1 (.amoAnd64 z4), o1 (.amoOr64 z4), o1 (.amoXor64 z4), o1 (.amoMaxS64 z4), o1 (.amoMaxZ64 z4), o1 (.amoMinS64 z4), o1 (.amoMinZ64 z4)] &&
    row .L 0x38 [o1 (.amoSwap64 z4), o1 (.cas64 z4)] && row .L 0x40 [none, o1 (.ldS8W zW), o1 (.ldZ8W zW), o1 (.ldS16W zW), o1 (.ldZ16W zW), o1 (.ldS32W zW), o1 (.ldZ32W zW), o1 (.ld64W zW)] &&
    row .L 0x48 [o1 (.st8W zW), o1 (.st16W zW), o1 (.st32W zW), o1 (.st64W zW), o1 (.vldW zW), o1 (.vstW zW), o1 (.vstSumW zW)] && row .L 0x50 [o1 (.ldt zT), o1 (.vldt zT), o1 (.sdef zT), o1 (.ssetBase zT), o1 (.sadv zT)] &&
    row .L 0x58 [o1 (.fbind z4), o1 (.fpush z4), o1 (.fpop z4), o1 (.stm64 z4), o1 (.stmV z4)] && row .L 0x60 [] && row .L 0x68 [] && row .L 0x70 [] && row .L 0x78 []) = true := by decide +kernel

theorem test_map_A : (row .A 0x00 [none, o1 (.cpy z4), o1 (.cpyr z4), o1 (.coll z4), o1 (.binit z4), o1 (.bexp z4), o1 (.barr z4), o1 (.bwait z4)] &&
    row .A 0x08 [o1 (.sred z4), o1 (.ifill z4), o1 (.pref z4), o1 (.trig z4), o1 (.sig z4), o1 (.wdraw z4), o1 (.jobq z4), o1 (.heat z4)] && row .A 0x10 [o1 (.mig z4)] &&
    (List.range 13).all fun n => row .A (24 + 8 * n) []) = true := by decide +kernel

/-- The forms a field selects: pmov (R195), tret.skip (R201), svc (R210), vmovp and vtst.sum (R230, R232), sset (R280). -/
theorem test_forms : ([(.S, 0x2E * 2 ^ 73 + 0x3000, .pmovToPred (q (r 0) (r 0) (r 0) (im 0))), (.S, 0x2E * 2 ^ 73 + 0x3001, .pmovFromPred (q (r 0) (r 0) (r 0) (im 1))), (.S, 0x8200_0000_0000_0000_0001, .tretSkip ⟨h0, r 0, r 0, 1⟩),
      (.S, 0x8C00_0000_F000_0200_0001, .svcMap ⟨h0, r 60, r 0, 0x2000001⟩), (.S, 0x46 * 2 ^ 73 + 0x2000002, .svcUnmap ⟨h0, r 0, r 0, 0x2000002⟩), (.S, 0x46 * 2 ^ 73 + 0x2000003, .svcProtect ⟨h0, r 0, r 0, 0x2000003⟩),
      (.S, 0x46 * 2 ^ 73 + 0x3000001, .svcReport ⟨h0, r 0, r 0, 0x3000001⟩), (.V0, 0x23 * 2 ^ 73 + 0x3001, .vmovpAll .v0 (q (r 0) (r 0) (r 0) (im 1))), (.V1, 0x23 * 2 ^ 73 + 0x3002, .vmovpV .v1 (q (r 0) (r 0) (r 0) (im 2))),
      (.V0, 0x22 * 2 ^ 73 + 0x3010, .vtstSum .v0 (q (r 0) (r 0) (r 0) (im 0x10))), (.L, 0x53 * 2 ^ 73 + 1, .ssetSpace ⟨h0, r 0, r 0, r 0, 0, 1⟩), (.L, 0x53 * 2 ^ 73 + 2, .ssetRstride ⟨h0, r 0, r 0, r 0, 0, 2⟩),
      (.L, 0x53 * 2 ^ 73 + 3, .ssetCtl ⟨h0, r 0, r 0, r 0, 0, 3⟩), (.L, 0x53 * 2 ^ 73 + 4, .ssetSbase ⟨h0, r 0, r 0, r 0, 0, 4⟩), (.L, 0x53 * 2 ^ 73 + 5, .ssetSstride ⟨h0, r 0, r 0, r 0, 0, 5⟩)]
    : List (Slot × Nat × Instr)).all (fun e => (decodeOp e.1 e.2.1).toOption == some e.2.2) = true := by decide +kernel

/-- The words of the worked programs (R166 to R172, R287 and the program chapters). -/
theorem test_words : ([(.S, 0x8A00_0000_0000_5000_0000, .crw ⟨h0, r 0, r 5, 0⟩), (.L, 0x1A00_0000_0401_7000_3000, .vstI (q (r 1) (r 0x17) (r 0) (im 0))), (.L, 0xB600_0000_1C00_5000_3000, .stm64 (q (r 7) (r 5) (r 0) (im 0))),
      (.M, 0x0400_0008_0000_1000_87C0, .mmz ⟨h0, r 0x200, r 1, r 2, 0x1F, 0⟩), (.M, 0x0A00_0000_0C20_0000_07C0, .msdt ⟨h0, r 3, r 0x200, r 0, 0x1F, 0⟩), (.L, 0xA800_0000_0720_0C00_0000, .sadv ⟨h0, r 1, im 0x200, im 0, 0, 0⟩),
      (.S, 0x6110_0000_0000_0000_000A, .br ⟨⟨true, 1, 0, 0, 0⟩, r 0, 10⟩), (.S, 0x0E00_0000_3000_A002_C000, .divS (q (r 12) (r 10) (r 11) (r 0))), (.A, 0x1002_0000_5000_B003_3040, .sred (q (r 20) (r 11) (r 12) (im 0x40) (hT 2))),
      (.V0, 0x9200_1000_0800_1000_0003, .vredmax .v0 ⟨⟨false, 0, 0, 1, 0⟩, r 2, r 1, r 0, 0, 3⟩), (.V1, 0x0600_0000_1280_1800_7000, .vmul .v1 (q (r 4) (la 0x801) (la 1) (im 0)))] : List (Slot × Nat × Instr)).all (fun e =>
    (decodeOp e.1 e.2.1).toOption == some e.2.2 && encode e.2.2 == some (e.1, e.2.1)) = true := by decide +kernel

/-! ### The worked examples of the spec -/

/-- What op i issued alone at s sends to its destination: how many clk after issue, and the value. -/
def sends (i : Instr) (s : State) : List (Nat × Val) := match exec i s with
  | .next t => (t.core ⟨0, 0⟩).results.map fun x => (x.due - 100, x.val)
  | _ => []

/-- R193: −7 by 2 is −3, remainder −1. -/
theorem test_divide : sends (.divS (q (r 1) (r 5) (r 6) (r 0))) s0 = [(20, .s 0xFFFFFFFFFFFFFFFD)] ∧ sends (.remS (q (r 1) (r 5) (r 6) (r 0))) s0 = [(20, .s 0xFFFFFFFFFFFFFFFF)] := by decide +kernel

/-- R193: by zero without a trap; −2^63 by −1 wraps. -/
theorem test_divideCorners : (let s (a b : Dword) : State := on fun c => { c with trapen := 0, x := [(5, a), (6, b)] }; let o := q (r 1) (r 5) (r 6) (r 0)
    sends (.divZ o) (s 9 0) = [(20, .s 0xFFFFFFFFFFFFFFFF)] ∧ sends (.remZ o) (s 9 0) = [(20, .s 9)] ∧ sends (.divS o) (s (2 ^ 63) (-1)) = [(20, .s (2 ^ 63))] ∧ sends (.remS o) (s (2 ^ 63) (-1)) = [(20, .s 0)]) := by
  decide +kernel

/-- R192 to R196: wraps, shift counts taken modulo 64, a count of zeros, signed and unsigned compares. -/
theorem test_scalar : (let s (a b : Dword) : State := on fun c => { c with x := [(5, a), (6, b)] }; let o := q (r 1) (r 5) (r 6) (im 0)
    sends (.sub o) (s 0 1) = [(1, .s 0xFFFFFFFFFFFFFFFF)] ∧ sends (.mulhS o) (s (-1) 2) = [(3, .s (-1))] ∧ sends (.mulhZ o) (s (-1) 2) = [(3, .s 1)] ∧ sends (.shl o) (s 1 65) = [(1, .s 2)] ∧
    sends (.sar o) (s (2 ^ 63) 63) = [(1, .s (-1))] ∧ sends (.rotr o) (s 1 1) = [(1, .s (2 ^ 63))] ∧ sends (.clz o) (s 1 0) = [(1, .s 63)] ∧ sends (.sext o) (s 0x80 8) = [(1, .s 0xFFFFFFFFFFFFFF80)] ∧
    sends (.minS o) (s (-1) 1) = [(1, .s (-1))] ∧ sends (.minZ o) (s (-1) 1) = [(1, .s 1)] ∧ sends (.andn o) (s 7 2) = [(1, .s 5)]) := by decide +kernel

/-- 384 vectors in view 0; v8 to v11 hold these lanes, then zeros. -/
def vecS (l : List Nat) (more : Core → Core := id) : State := on fun c => more { c with views := [(0, view 1 0 0 384 0 0)], rs := memPut [] (256 * 8) (l.flatMap (toBytes 4)) }
/-- The first lane sent. -/
def lane0 (l : List (Nat × Val)) : List (Nat × Word) := l.map fun e => (e.1, match e.2 with | .v _ v => lane v 0 | _ => 0)

/-- R234: 300.0, 500.0, 0.001 and −∞ become the bytes 79, 7E, 01, FE of lane 0, 3 clk after issue. -/
theorem test_vcvt : lane0 (sends (.vcvt .v0 (q (r 0x28) (r 8) (r 0) (im 0x300))) (vecS [0x43960000, 0x43FA0000, 0x3A83126F, 0xFF800000])) = [(3, 0xFE017E79)] := by decide +kernel

/-- R239: of 3.0, −7.5 and a NaN in the enabled lanes, .abs.ns gives 7.5, and without .ns the canonical NaN. -/
theorem test_vredmax : (let s := vecS [0x40400000, 0xC0F00000, 0x7FC00001] fun c => { c with p := [(1, 7)] }
    (lane0 (sends (.vredmax .v0 ⟨⟨false, 2, 0, 0, 0⟩, r 50, r 8, r 0, 0, 3⟩) s)).map (·.2) = [0x40F00000] ∧ (lane0 (sends (.vredmax .v0 ⟨⟨false, 2, 0, 0, 0⟩, r 50, r 8, r 0, 0, 2⟩) s)).map (·.2) = [0x7FC00000]) := by
  decide +kernel

/-- R244: six records of lanes 0, 5 and 63 are dealt to lanes 0 to 5; p2 is 0x3F 8 clk after issue. -/
theorem test_vcbal : (let s := on fun c => { c with cq := [(0, [0xA0, 0xA1, 0xA2]), (5, [0xB0, 0xB1]), (63, [0xC0])] }
    sends (.vcbal .v1 ⟨h0, r 2, r 0, r 0, 3, 0⟩) s = [(8, .p allOnes 0x3F)] ∧
    nextIs (exec (.vcbal .v1 ⟨h0, r 2, r 0, r 0, 3, 0⟩) s) (fun t => decide ((t.core ⟨0, 0⟩).cq = [(0, [0xA0]), (1, [0xB0]), (2, [0xC0]), (3, [0xA1]), (4, [0xB1]), (5, [0xA2])])) = true) := by decide +kernel

/-- R135: (3.4, 300.0) is the byte 85, and (3.4, −2.6) is D3; R134: 85 is (0, 256). -/
theorem test_o4 : o4Pair (fdec 0 0x4059999A) (fdec 0 0x43960000) = (0x5, 0x8) ∧ o4Pair (fdec 0 0x4059999A) (fdec 0 0xC0266666) = (0x3, 0xD) ∧ o4Decode 0x5 0x8 = (0, 256) := by decide +kernel

/-- R149: ranks of 1.5, 1.5·2^−21 and −0.75 under E_b = 0 send 0x30_0000, 2 and −0x18_0000, whose sum 0x18_0002 is 0x3F40_0010. -/
theorem test_quant : quant 0 0 0x3FC00000 = 0x300000 ∧ quant 0 0 0x35400000 = 2 ∧ quant 0 0 0xBF400000 = 0xFFE80000 ∧ dequant 0 0x180002 = 0x3F400010 ∧ groupEntry [0x3FC00000, 0xBF400000] = 0 := by decide +kernel

/-- R37: shares of 10 items among 4 members; R87: core 39 to vault 200 is 11 hops; R334: a slot's switch and index. -/
theorem test_formulas : (List.range 5).map (shareFirst 10 4) = [0, 2, 5, 7, 10] ∧ hops 39 200 = 11 ∧ slotHash 0x25 0x11 = 0xF33C ∧ 0xF33C % 16 = 12 ∧ (probes 0x25 0x11).head? = some 51 := by decide +kernel

/-- R336: the completion words of the worked reductions: a partial one, a late one, and one with a NaN first at member 5. -/
theorem test_completionWords : completionWord true false false none [0, 1, 2, 3, 4, 5, 7] = 0x80003800000000BF ∧ completionWord false true false none [0, 1, 2, 3, 4, 5, 7] = 0x20003800000000BF ∧
    completionWord false false false (some 5) (List.range 8) = 0x40504000000000FF := by decide +kernel

end Sys2Proof.Tests
end

section
/-!
PROOFS. Canonical memory (O47) and the reset state (O48).

O47 is an invariant of `step`, so everything a step can run has to keep it. `State.Canonical s` says that the memory of `s` is in its canonical form.
For every function `f` of the model that leads to a new state, the lemma `State.Canonical.f` says that `f` keeps it; the lemmas stand in the order of the
model's definitions, under the names of its parts. Only a few functions touch memory (`State.store`, `State.copyAll`, `State.zeroAll`, `scramble` and the
resets); every other lemma follows the function's body: it chains the lemmas of the functions the body calls (`hs.dropAccess.modCore`) and splits where the
body splits. A function that gives a state inside another value has the same lemma about the state in that value: `CanonicalOpt`, `CanonicalExc`,
`Outcome.Canonical`, `Reach.Canonical` and `SvcAnswer.Canonical` say where it stands.
-/

namespace Sys2Proof.Tab

/-- `sorted` as Mathlib's `Pairwise`, for its lemmas about appended and mapped lists. -/
theorem sorted_iff_pairwise {α : Type} (t : Tab α) : sorted t = true ↔ t.Pairwise (fun e f => e.1 < f.1) := by
  induction t with
  | nil => simp [sorted]
  | cons e t ih =>
    obtain ⟨k, v⟩ := e
    rw [sorted_cons, List.pairwise_cons, ih]
    exact Iff.rfl

end Sys2Proof.Tab

namespace Sys2Proof.Machine

/-! ### Memory that moves -/

/-- Moving a range keeps the canonical form: what stays below, the range moved and what stays above follow one another. -/
theorem moveRange_wf {α : Type} [DecidableEq α] {d : α} {t : Tab α} (src dst n : ℕ) (h : Tab.wf d t = true) :
    Tab.wf d (moveRange t src dst n) = true := by
  simp only [Tab.wf, Bool.and_eq_true, Tab.sorted_iff_pairwise, List.all_eq_true] at h ⊢
  obtain ⟨hsorted, hvals⟩ := h
  constructor
  · have hmoved : ((t.slice src (src + n)).map fun e => (e.1 - src + dst, e.2)).Pairwise (fun e f => e.1 < f.1) := by
      refine List.pairwise_map.mpr ((hsorted.filter _).imp_of_mem fun {e f} he _ hef => ?_)
      obtain ⟨hlo, -⟩ : src ≤ e.1 ∧ e.1 < src + n := by simpa using List.of_mem_filter he
      show e.1 - src + dst < f.1 - src + dst
      omega
    simp only [moveRange, List.pairwise_append, List.mem_append, List.mem_map, List.mem_filter, Tab.slice]
    refine ⟨⟨hsorted.filter _, hmoved, ?_⟩, hsorted.filter _, ?_⟩
    · rintro e ⟨-, he⟩ _ ⟨f, -, rfl⟩
      have : e.1 < dst := of_decide_eq_true he
      show e.1 < f.1 - src + dst
      omega
    · rintro e (⟨-, he⟩ | ⟨f, ⟨-, hf⟩, rfl⟩) g ⟨-, hg⟩ <;> have hg := of_decide_eq_true hg
      · have := of_decide_eq_true he
        omega
      · simp only [Bool.and_eq_true, decide_eq_true_eq] at hf
        show f.1 - src + dst < g.1
        omega
  · intro e he
    simp only [moveRange, List.mem_append, List.mem_map, List.mem_filter, Tab.slice] at he
    obtain (⟨he, -⟩ | ⟨f, ⟨hf, -⟩, rfl⟩) | ⟨he, -⟩ := he
    · exact hvals e he
    · exact hvals f hf
    · exact hvals e he

/-! ### Canonical memory, and where a state stands in a value -/

/-- The memory of a state is in its canonical form. -/
def State.Canonical (s : State) : Prop := Memory.wf s.mem = true

/-- Only memory counts: the other fields of a state may change. -/
theorem State.Canonical.update {s : State} {clk fresh focus subject agenda paused fe poison cores accesses nextId dies switches members vds gc wicks migrations
    invals nextInval platform reports} (hs : s.Canonical) :
    (State.mk clk fresh focus subject agenda paused s.mem fe poison cores accesses nextId dies switches members vds gc wicks migrations invals nextInval platform
      reports).Canonical := hs

theorem State.Canonical.ite {c : Prop} [Decidable c] {a b : State} (ha : a.Canonical) (hb : b.Canonical) :
    (if c then a else b).Canonical := by
  split <;> assumption

theorem State.Canonical.foldl {α : Type} {s : State} {f : State → α → State} {l : List α} (hs : s.Canonical)
    (hf : ∀ t x, t.Canonical → (f t x).Canonical) : (l.foldl f s).Canonical := by
  induction l generalizing s with
  | nil => exact hs
  | cons x l ih => exact ih (hf s x hs)

/-- The same when the step needs to know that the element is of the list. -/
theorem State.Canonical.foldl_mem {α : Type} {s : State} {f : State → α → State} {l : List α} (hs : s.Canonical)
    (hf : ∀ t, ∀ x ∈ l, t.Canonical → (f t x).Canonical) : (l.foldl f s).Canonical := by
  induction l generalizing s with
  | nil => exact hs
  | cons x l ih => exact ih (hf s x List.mem_cons_self hs) fun t y hy => hf t y (List.mem_cons_of_mem _ hy)

/-- A fold over a pair or triple that carries the state along; `g` picks the state out. -/
theorem State.Canonical.foldlWith {α β : Type} {g : β → State} {f : β → α → β} {l : List α} {r : β} (hr : (g r).Canonical)
    (hf : ∀ r x, (g r).Canonical → (g (f r x)).Canonical) : (g (l.foldl f r)).Canonical := by
  induction l generalizing r with
  | nil => exact hr
  | cons x l ih => exact ih (hf r x hr)

theorem State.Canonical.of_pair {α : Type} {p : α × State} {x : α} {s : State} (hp : p.2.Canonical) (e : p = (x, s)) : s.Canonical := by
  subst e
  exact hp

/-- The state a step leads to, if any, has canonical memory. -/
def Outcome.Canonical : Outcome → Prop
  | .next t => t.Canonical
  | _ => True

theorem Outcome.Canonical.next {t : State} (h : t.Canonical) : Outcome.Canonical (.next t) := h

theorem Outcome.Canonical.ite {c : Prop} [Decidable c] {a b : Outcome} (ha : a.Canonical) (hb : b.Canonical) :
    Outcome.Canonical (if c then a else b) := by
  split <;> assumption

theorem Outcome.Canonical.of_eq {a b : Outcome} (e : a = b) (h : a.Canonical) : b.Canonical := e ▸ h

/-- The state in a value that may be missing, if any, has canonical memory; `g` picks the state out of the value. -/
def CanonicalOpt {α : Type} (g : α → State) : Option α → Prop
  | some x => (g x).Canonical
  | none => True

theorem CanonicalOpt.ite {α : Type} {g : α → State} {c : Prop} [Decidable c] {a b : Option α} (ha : CanonicalOpt g a) (hb : CanonicalOpt g b) :
    CanonicalOpt g (if c then a else b) := by
  split <;> assumption

theorem CanonicalOpt.of_eq {α : Type} {g : α → State} {a b : Option α} (e : a = b) (h : CanonicalOpt g a) : CanonicalOpt g b := e ▸ h

theorem CanonicalOpt.getD {o : Option State} {d : State} (ho : CanonicalOpt id o) (hd : d.Canonical) : (o.getD d).Canonical := by
  cases o with
  | none => exact hd
  | some x => exact ho

theorem CanonicalOpt.map {α β : Type} {g : α → State} {g' : β → State} {f : α → β} {o : Option α} (ho : CanonicalOpt g o)
    (hf : ∀ x, (g x).Canonical → (g' (f x)).Canonical) : CanonicalOpt g' (o.map f) := by
  cases o with
  | none => trivial
  | some x => exact hf x ho

theorem CanonicalOpt.foldlM {α : Type} {s : State} {f : State → α → Option State} {l : List α} (hs : s.Canonical)
    (hf : ∀ t x, t.Canonical → CanonicalOpt id (f t x)) : CanonicalOpt id (l.foldlM f s) := by
  induction l generalizing s with
  | nil => exact hs
  | cons x l ih =>
    rw [List.foldlM_cons]
    cases h : f s x with
    | none => trivial
    | some t => exact ih ((hf s x hs).of_eq h)

/-- The same for a value or a fault. -/
def CanonicalExc {ε α : Type} (g : α → State) : Except ε α → Prop
  | .ok x => (g x).Canonical
  | .error _ => True

theorem CanonicalExc.ite {ε α : Type} {g : α → State} {c : Prop} [Decidable c] {a b : Except ε α} (ha : CanonicalExc g a) (hb : CanonicalExc g b) :
    CanonicalExc g (if c then a else b) := by
  split <;> assumption

theorem CanonicalExc.of_eq {ε α : Type} {g : α → State} {a b : Except ε α} (e : a = b) (h : CanonicalExc g a) : CanonicalExc g b := e ▸ h

theorem CanonicalExc.bind {ε α β : Type} {g : β → State} {x : Except ε α} {f : α → Except ε β} (hf : ∀ a, CanonicalExc g (f a)) :
    CanonicalExc g (x >>= f) := by
  cases x with
  | error _ => trivial
  | ok a => exact hf a

theorem CanonicalExc.map {ε α β : Type} {g : α → State} {g' : β → State} {f : α → β} {x : Except ε α} (hx : CanonicalExc g x)
    (hf : ∀ a, (g a).Canonical → (g' (f a)).Canonical) : CanonicalExc g' (x.map f) := by
  cases x with
  | error _ => trivial
  | ok a => exact hf a hx

theorem CanonicalExc.foldlM {ε α β : Type} {g : β → State} {f : β → α → Except ε β} {l : List α} {r : β} (hr : (g r).Canonical)
    (hf : ∀ r x, (g r).Canonical → CanonicalExc g (f r x)) : CanonicalExc g (l.foldlM f r) := by
  induction l generalizing r with
  | nil => exact hr
  | cons x l ih =>
    rw [List.foldlM_cons]
    cases h : f r x with
    | error _ => trivial
    | ok t => exact ih ((hf r x hr).of_eq h)

theorem CanonicalExc.toOption {ε : Type} {x : Except ε State} (hx : CanonicalExc id x) : CanonicalOpt id x.toOption := by
  cases x with
  | error _ => trivial
  | ok s => exact hx

/-- The state that reaching a buffer leaves, if any, has canonical memory. -/
def Reach.Canonical {α : Type} : Reach α → Prop
  | .ok _ s => s.Canonical
  | .wait s => s.Canonical
  | .fault _ _ => True

theorem Reach.Canonical.ite {α : Type} {c : Prop} [Decidable c] {a b : Reach α} (ha : a.Canonical) (hb : b.Canonical) :
    (if c then a else b).Canonical := by
  split <;> assumption

theorem Reach.Canonical.of_eq {α : Type} {a b : Reach α} (e : a = b) (h : a.Canonical) : b.Canonical := e ▸ h

/-- The state a service answers with, if any, has canonical memory. -/
def SvcAnswer.Canonical : SvcAnswer → Prop
  | .refuse _ => True
  | .wait s => s.Canonical
  | .value s => s.Canonical

theorem SvcAnswer.Canonical.ite {c : Prop} [Decidable c] {a b : SvcAnswer} (ha : a.Canonical) (hb : b.Canonical) :
    (if c then a else b).Canonical := by
  split <;> assumption

theorem SvcAnswer.Canonical.of_eq {a b : SvcAnswer} (e : a = b) (h : a.Canonical) : b.Canonical := e ▸ h

/-- What an op starts and what it leaves to the end of its bundle keep memory canonical. -/
structure OpSem.Keeps (o : OpSem) : Prop where
  effect : ∀ {n : ℕ} {s : State}, s.Canonical → (o.effect n s).Canonical
  final : ∀ {s : State}, s.Canonical → (o.final s).Canonical

/-! ### Operations -/

theorem State.Canonical.setCore {s : State} {k : CoreId} {c : Core} (hs : s.Canonical) : (s.setCore k c).Canonical := hs

theorem State.Canonical.modCore {s : State} {k : CoreId} {f : Core → Core} (hs : s.Canonical) : (s.modCore k f).Canonical := hs.setCore

theorem State.Canonical.modDie {s : State} {d : ℕ} {f : Die → Die} (hs : s.Canonical) : (s.modDie d f).Canonical := hs

theorem State.Canonical.modMember {s : State} {m : MemberId} {f : Member → Member} (hs : s.Canonical) : (s.modMember m f).Canonical := hs

theorem State.Canonical.modVd {s : State} {n : ℕ} {f : VD → VD} (hs : s.Canonical) : (s.modVd n f).Canonical := hs

theorem State.Canonical.modSwitch {s : State} {n : ℕ} {f : Switch → Switch} (hs : s.Canonical) : (s.modSwitch n f).Canonical := hs

theorem State.Canonical.modPlatform {s : State} {f : Platform → Platform} (hs : s.Canonical) : (s.modPlatform f).Canonical := hs

theorem State.Canonical.modWick {s : State} {w : ℕ} {f : Wick → Wick} (hs : s.Canonical) : (s.modWick w f).Canonical := hs

theorem State.Canonical.setBox {s : State} {w : ℕ} {l : List (List Dword)} (hs : s.Canonical) : (s.setBox w l).Canonical := hs.modWick

theorem State.Canonical.due {s : State} {at_ : ℕ} {a : Act} (hs : s.Canonical) : (s.due at_ a).Canonical := hs

theorem State.Canonical.after {s : State} {n : ℕ} {i : Instr} {o : Subject} (hs : s.Canonical) : (s.after n i o).Canonical := hs.due

theorem State.Canonical.afterK {s : State} {n : ℕ} {i : Instr} {k : CoreId} (hs : s.Canonical) : (s.afterK n i k).Canonical := hs.after

theorem State.Canonical.afterM {s : State} {n : ℕ} {i : Instr} {m : MemberId} {a : ℕ} (hs : s.Canonical) : (s.afterM n i m a).Canonical := hs.after

theorem State.Canonical.report {s : State} {r : Report} (hs : s.Canonical) : (s.report r).Canonical := hs

theorem State.Canonical.draw {s : State} (hs : s.Canonical) : s.draw.Canonical := hs

theorem State.Canonical.store {s : State} {k : ℕ} {l : List Byte} (hs : s.Canonical) : (s.store k l).Canonical := memPut_wf l s.mem k hs

theorem State.Canonical.writeCr {s : State} {k : CoreId} {n : ℕ} {v0 : Dword} (hs : s.Canonical) : (Machine.writeCr s k n v0).Canonical := by
  unfold Machine.writeCr
  dsimp only
  split
  case h_15 => exact hs.modMember
  case h_16 => exact .ite hs.modCore (.ite hs.modCore hs)
  all_goals exact hs.modCore

theorem State.Canonical.landVal {s : State} {k : CoreId} {d : Dest} {v : Val} (hs : s.Canonical) : (Machine.landVal s k d v).Canonical := by
  unfold Machine.landVal
  split
  case h_10 => exact hs.writeCr
  case h_11 => exact hs
  all_goals exact hs.modCore

theorem State.Canonical.contextKill {s : State} {k : CoreId} {r : TrapReq} (hs : s.Canonical) : (Machine.contextKill s k r).Canonical :=
  .ite hs.report hs.report.update.modVd.after

theorem State.Canonical.raiseTrap {s : State} {k : CoreId} {r : TrapReq} (hs : s.Canonical) : (Machine.raiseTrap s k r).Canonical := hs.modCore

theorem State.Canonical.enterTrap {s : State} {k : CoreId} {r : TrapReq} (hs : s.Canonical) : (Machine.enterTrap s k r).Canonical :=
  .ite hs.modCore.contextKill (.ite hs.setCore.update.due (.ite hs.setCore.contextKill (.ite hs.setCore.setCore.update.due
      hs.setCore.setCore.contextKill)))

/-! ### Vault granules and their ports -/

theorem State.Canonical.copyAll {s : State} {src dst n : ℕ} (hs : s.Canonical) : (s.copyAll src dst n).Canonical := moveRange_wf src dst n hs

theorem State.Canonical.zeroAll {s : State} {k n : ℕ} (hs : s.Canonical) : (s.zeroAll k n).Canonical := Tab.wf_filter _ hs

theorem State.Canonical.setGran {s : State} {d g : ℕ} {e : Granule} (hs : s.Canonical) : (s.setGran d g e).Canonical := hs.modDie

theorem State.Canonical.startSeqs {s : State} {d : ℕ} {l : List GranuleSeq} {n : ℕ} (hs : s.Canonical) : (Machine.startSeqs s d l n).2.Canonical := by
  induction l generalizing s n with
  | nil => exact hs
  | cons q l ih =>
    unfold Machine.startSeqs
    dsimp only
    split
    · exact ih hs
    · split
      · exact ih hs.draw.due
      · exact ih hs

theorem State.Canonical.pumpSeqs {s : State} {d : ℕ} (hs : s.Canonical) : (Machine.pumpSeqs s d).Canonical := hs.startSeqs.modDie

theorem State.Canonical.waitGranule {s : State} {d g : ℕ} {m : MemberId} {w : Waiter} (hs : s.Canonical) :
    (Machine.waitGranule s d g m w).Canonical := by
  unfold Machine.waitGranule
  split
  · exact hs.modDie
  · exact hs.modDie.pumpSeqs

theorem State.Canonical.runSeq {s : State} {d g : ℕ} {m : MemberId} (hs : s.Canonical) : (Machine.runSeq s d g m).Canonical := by
  unfold Machine.runSeq
  dsimp only
  refine .setGran (.ite (.update (.modMember (.zeroAll (.ite ?h hs)))) (.ite (.copyAll (.ite ?h hs)) (.zeroAll (.ite ?h hs))))
  split
  · exact hs.copyAll.modMember
  · exact hs

theorem State.Canonical.dirty {s : State} {d a : ℕ} (hs : s.Canonical) : (s.dirty d a).Canonical := .ite hs.setGran hs

theorem State.Canonical.vput {s : State} {d a : ℕ} {l : List Byte} (hs : s.Canonical) : (s.vput d a l).Canonical := hs.store.dirty.dirty

theorem State.Canonical.setFe {s : State} {d a : ℕ} {b : Bool} (hs : s.Canonical) : (s.setFe d a b).Canonical := hs.update.dirty

/-! ### Tasks and the dispatcher -/

theorem State.Canonical.sendDemand {s : State} {m : MemberId} {word : ℕ} {inc : Bool} (hs : s.Canonical) :
    (Machine.sendDemand s m word inc).Canonical := by
  unfold Machine.sendDemand
  split
  · exact hs.after
  · exact hs

theorem State.Canonical.withdrawInput {s : State} {m : MemberId} {word : ℕ} (hs : s.Canonical) : (Machine.withdrawInput s m word).Canonical := by
  unfold Machine.withdrawInput
  split
  · exact hs.after
  · exact hs

theorem State.Canonical.keepProducer {s : State} {m : MemberId} {word : ℕ} (hs : s.Canonical) : (Machine.keepProducer s m word).Canonical := hs

theorem State.Canonical.notIdle {s : State} {vd : ℕ} (hs : s.Canonical) : (Machine.notIdle s vd).Canonical := hs.modVd

theorem State.Canonical.enqueueTask {s : State} {m : MemberId} {h : ℕ} {t : Task} (hs : s.Canonical) : (Machine.enqueueTask s m h t).Canonical :=
  hs.notIdle.modMember

theorem State.Canonical.settleTask {clear : List Owner} {s : State} {m : MemberId} {h : ℕ} (hs : s.Canonical) :
    (Machine.settleTask clear s m h).Canonical := by
  unfold Machine.settleTask
  split
  · exact hs
  · split
    · split
      · exact .ite hs.enqueueTask hs
      · exact .ite hs.enqueueTask hs
    · refine .ite ?_ (.ite hs.modMember hs)
      split
      · exact .ite (hs.enqueueTask.foldl (fun _ _ h1 => h1.withdrawInput.modMember)) hs.enqueueTask
      · exact hs.modMember
    · refine .ite ?_ (.ite hs.modMember hs)
      split
      · exact .ite (hs.enqueueTask.foldl (fun _ _ h1 => h1.withdrawInput.modMember)) hs.enqueueTask
      · exact hs.modMember
    · exact hs

theorem State.Canonical.settleJob {clear : List Owner} {s : State} {m : MemberId} {h : ℕ} (hs : s.Canonical) :
    (Machine.settleJob clear s m h).Canonical := by
  unfold Machine.settleJob
  split
  · exact hs
  · split
    · exact .ite hs.modMember.afterM (.ite hs.modMember hs)
    · exact .ite hs.modMember.afterM (.ite hs.modMember hs)
    · exact hs

theorem State.Canonical.askDispatch {s : State} {m : MemberId} (hs : s.Canonical) : (Machine.askDispatch s m).Canonical := .ite hs.afterM hs

theorem State.Canonical.packetPart {s : State} {m : MemberId} {key : ℕ} (hs : s.Canonical) : (Machine.packetPart s m key).Canonical := by
  unfold Machine.packetPart
  dsimp only
  split
  · exact .ite hs.modMember.afterM hs.modMember
  · exact hs.modMember

theorem State.Canonical.settle {s : State} {m : MemberId} (hs : s.Canonical) : (Machine.settle s m).Canonical := by
  unfold Machine.settle
  dsimp only
  refine (hs.modMember.foldl ?_).askDispatch
  intro t x h1
  split
  · exact h1.settleTask
  · exact h1.settleJob

theorem State.Canonical.retire {s : State} {m : MemberId} {o : Owner} (hs : s.Canonical) : (Machine.retire s m o).Canonical := hs.modMember.settle

theorem State.Canonical.endProducer {s : State} {m : MemberId} {word pm : ℕ} {o : Owner} (hs : s.Canonical) :
    (Machine.endProducer s m word pm o).Canonical :=
  hs.modMember

theorem State.Canonical.admitTask {s : State} {m : MemberId} {r fp : List Dword} {packet : Option ℕ} {key : ℕ} {prev : List ℕ} (hs : s.Canonical) :
    (Machine.admitTask s m r fp packet key prev).2.Canonical := by
  unfold Machine.admitTask
  dsimp only
  split
  · exact hs
  · refine .settle ?_
    split
    · exact (hs.update.modMember.foldl (fun _ _ h1 => h1.sendDemand)).modMember
    · exact hs.update.modMember.foldl (fun _ _ h1 => h1.sendDemand)

theorem State.Canonical.startTask {s : State} {k : CoreId} {m : MemberId} {h : ℕ} {t : Task} (hs : s.Canonical) :
    (Machine.startTask s k m h t).Canonical :=
  hs.modMember.modCore

theorem State.Canonical.dispatch {s : State} {m : MemberId} (hs : s.Canonical) : CanonicalOpt id (Machine.dispatch s m) := by
  unfold Machine.dispatch
  dsimp only
  refine .ite trivial ?_
  split
  · split
    · exact hs.modMember.startTask.askDispatch
    · trivial
  · trivial

theorem State.Canonical.dispatchTurn {s : State} {m : MemberId} (hs : s.Canonical) : CanonicalOpt id (Machine.dispatchTurn s m) :=
  .ite (CanonicalOpt.getD hs.settle.dispatch hs.settle) hs.dispatch

/-! ### Packets of a gang -/

theorem State.Canonical.turnX {s : State} {p : Pkt} (hs : s.Canonical) : (Machine.turnX s p).Canonical := .ite hs.modDie hs

theorem State.Canonical.sendAt {s : State} {t : ℕ} {p : Pkt} (hs : s.Canonical) : (Machine.sendAt s t p).Canonical := hs.draw.turnX.due

theorem State.Canonical.launchPkt {s : State} {m : MemberId} {p : Pkt} {stamp : List (ℕ × ℕ)} (hs : s.Canonical) :
    (Machine.launchPkt s m p stamp).Canonical :=
  hs.modMember.update.sendAt.after

theorem State.Canonical.flushFirst {s : State} {m : MemberId} {p : Pkt} {l : List ℕ} (hs : s.Canonical) : (Machine.flushFirst s m p l).Canonical := by
  induction l generalizing s with
  | nil => exact hs
  | cons b l ih => exact ih hs.launchPkt

theorem State.Canonical.sendPkt {s : State} {m : MemberId} {p0 : Pkt} (hs : s.Canonical) : (Machine.sendPkt s m p0).Canonical :=
  .ite hs.modMember.sendAt (.ite (.ite hs.modMember hs.modMember.sendAt) (.ite hs.modMember hs.flushFirst.launchPkt))

theorem State.Canonical.pumpOut {s : State} {m : MemberId} (hs : s.Canonical) : (Machine.pumpOut s m).Canonical :=
  hs.modMember.foldl (fun _ _ h1 => h1.sendPkt)

theorem State.Canonical.checkHeld {s : State} {m : MemberId} (hs : s.Canonical) : (Machine.checkHeld s m).Canonical := .ite hs.afterM hs

theorem State.Canonical.raiseClock {s : State} {m : MemberId} {j v : ℕ} (hs : s.Canonical) : (Machine.raiseClock s m j v).Canonical :=
  hs.modMember.checkHeld

theorem State.Canonical.tick {s : State} {m : MemberId} (hs : s.Canonical) : (Machine.tick s m).Canonical := hs.modMember

theorem State.Canonical.sendAck {s : State} {m : MemberId} {smem chain : ℕ} {echo : Bool} (hs : s.Canonical) :
    (Machine.sendAck s m smem chain echo).Canonical :=
  hs.sendPkt

theorem State.Canonical.countPkt {s : State} {m : MemberId} {p : Pkt} (hs : s.Canonical) : (Machine.countPkt s m p).Canonical := by
  unfold Machine.countPkt
  dsimp only
  refine .ite ?_ hs.modMember
  split
  · exact hs.modMember.raiseClock
  · exact hs.modMember

theorem State.Canonical.ackPkt {s : State} {m : MemberId} {p : Pkt} (hs : s.Canonical) : (Machine.ackPkt s m p).Canonical := hs.modMember.sendAck

theorem State.Canonical.appliedPkt {s : State} {m : MemberId} {p : Pkt} (hs : s.Canonical) : (Machine.appliedPkt s m p).Canonical :=
  hs.countPkt.ackPkt

theorem State.Canonical.acceptPkt_drain {m : MemberId} {n : ℕ} {s : State} {key : ℕ} (hs : s.Canonical) :
    (Machine.acceptPkt.drain m n s key).Canonical := by
  induction n generalizing s with
  | zero => exact hs
  | succ n ih =>
    unfold Machine.acceptPkt.drain
    dsimp only
    split
    · exact hs
    · exact ih hs.modMember

theorem State.Canonical.acceptPkt {s : State} {m : MemberId} {p : Pkt} (hs : s.Canonical) : CanonicalOpt id (Machine.acceptPkt s m p) :=
  .ite trivial (.ite trivial hs.modMember.acceptPkt_drain)

theorem State.Canonical.takeDominated {s : State} {m : MemberId} (hs : s.Canonical) : CanonicalOpt Prod.snd (Machine.takeDominated s m) := by
  unfold Machine.takeDominated
  dsimp only
  split
  · trivial
  · exact hs.modMember

theorem State.Canonical.switchOut {s : State} {w : ℕ} {p : Pkt} (hs : s.Canonical) : (Machine.switchOut s w p).Canonical := hs.modSwitch.modDie.after

theorem State.Canonical.echoRate {s : State} {m : MemberId} {d : ℕ} (hs : s.Canonical) : (Machine.echoRate s m d).Canonical := hs.modMember.after

theorem State.Canonical.arriveCommon {s : State} {m : MemberId} {w : ℕ} {p : Pkt} (hs : s.Canonical) : (Machine.arriveCommon s m w p).Canonical :=
  .ite hs.modSwitch.modDie.echoRate hs.modSwitch.modDie

/-! ### Accesses and translation -/

theorem State.Canonical.startAt {s : State} {k : CoreId} {sl : ℕ} {kind : AccKind} {ea : Dword} {size : ℕ} {dest : Dest} {tag rid t : ℕ}
    {rel : Bool} (hs : s.Canonical) :
    (Machine.startAt s k sl kind ea size dest tag rid t rel).Canonical :=
  .due (.ite hs.update hs.update.modCore)

theorem State.Canonical.startAccess {s : State} {k : CoreId} {sl : ℕ} {kind : AccKind} {ea : Dword} {size : ℕ} {dest : Dest} {tag rid : ℕ}
    {rel : Bool} (hs : s.Canonical) :
    (Machine.startAccess s k sl kind ea size dest tag rid rel).Canonical :=
  hs.startAt

theorem State.Canonical.ofBundle {s : State} {pc t : ℕ} (hs : s.Canonical) : (s.ofBundle pc t).Canonical := hs

theorem State.Canonical.setAccess {s : State} {a : Access} (hs : s.Canonical) : (s.setAccess a).Canonical := hs

theorem State.Canonical.dropAccess {s : State} {num : ℕ} (hs : s.Canonical) : (s.dropAccess num).Canonical := hs

theorem State.Canonical.checkTriggers {s : State} {m : MemberId} {a n : ℕ} (hs : s.Canonical) : (Machine.checkTriggers s m a n).Canonical := by
  unfold Machine.checkTriggers
  dsimp only
  refine hs.foldl ?_
  intro t x h1
  split
  · exact .ite h1.modMember.afterM h1
  · exact h1

theorem State.Canonical.checkDoorbell {s : State} {vd k n : ℕ} (hs : s.Canonical) : (Machine.checkDoorbell s vd k n).Canonical :=
  hs.foldl (fun _ _ h1 => .ite (h1.foldl (fun _ _ h2 => h2.foldl (fun _ _ h3 => h3.draw.after))) h1)

theorem State.Canonical.pokeQueues {s : State} {d a n : ℕ} (hs : s.Canonical) : (Machine.pokeQueues s d a n).Canonical := by
  unfold Machine.pokeQueues
  refine hs.foldl ?_
  intro t x h1
  split
  · exact .ite h1.due h1
  · exact h1

theorem State.Canonical.putAt {s : State} {m : MemberId} {l : Loc} {b : List Byte} (hs : s.Canonical) : (Machine.putAt s m l b).Canonical := by
  unfold Machine.putAt
  split
  · exact hs.vput.checkTriggers.pokeQueues
  · exact .ite hs.store.checkDoorbell hs.store.checkDoorbell.update

theorem State.Canonical.countHeat {s : State} {l : Loc} {n : ℕ} (hs : s.Canonical) : (Machine.countHeat s l n).Canonical := by
  unfold Machine.countHeat
  split
  · exact hs
  · exact .ite hs.modDie (.ite hs.modSwitch hs)

theorem State.Canonical.drainMerge {s : State} {m : MemberId} {l : Loc} {e : Merge} (hs : s.Canonical) : (Machine.drainMerge s m l e).Canonical := by
  unfold Machine.drainMerge
  dsimp only
  refine hs.foldl ?_
  intro t x h1
  split
  · exact h1.putAt
  · exact h1.putAt

theorem State.Canonical.drainEntry {s : State} {d : ℕ} {m : MemberId} {e : Merge} (hs : s.Canonical) : (Machine.drainEntry s d m e).Canonical :=
  hs.modDie.drainMerge

theorem State.Canonical.drainRange {s : State} {d : ℕ} {m : MemberId} {key n : ℕ} (hs : s.Canonical) : (Machine.drainRange s d m key n).Canonical :=
  hs.foldl (fun _ _ h1 => h1.drainEntry)

theorem State.Canonical.drainOwn {s : State} {a n : ℕ} (hs : s.Canonical) : (s.drainOwn a n).Canonical := by
  unfold State.drainOwn
  split
  · exact hs.drainRange
  · exact hs

theorem State.Canonical.drainList {s : State} {d3 : Dword} (hs : s.Canonical) : (s.drainList d3).Canonical := by
  unfold State.drainList
  split
  · exact hs.drainOwn
  · exact hs

theorem State.Canonical.drainAgent {s : State} {d : ℕ} {m : MemberId} {agent : ℕ} (hs : s.Canonical) : (Machine.drainAgent s d m agent).Canonical :=
  hs.foldl (fun _ _ h1 => h1.drainEntry)

theorem State.Canonical.mergeReduction_openEntry {m : MemberId} {op : AmoOp} {n : ℕ} {b : Dword} {agent : ℕ} {s : State} {d line off : ℕ}
    (hs : s.Canonical) :
    (Machine.mergeReduction.openEntry m op n b agent s d line off).Canonical := by
  unfold Machine.mergeReduction.openEntry
  dsimp only
  refine .after (.modDie ?_)
  split
  · exact .ite hs.drainEntry hs
  · exact hs

theorem State.Canonical.mergeReduction {s : State} {m : MemberId} {l : Loc} {op : AmoOp} {n : ℕ} {b : Dword} {agent : ℕ} (hs : s.Canonical) :
    (Machine.mergeReduction s m l op n b agent).Canonical := by
  unfold Machine.mergeReduction
  dsimp only
  split
  · exact .ite hs.modDie.after hs.drainEntry.mergeReduction_openEntry
  · exact hs.mergeReduction_openEntry

theorem State.Canonical.walk {s : State} {d vd va : ℕ} {write : Bool} (hs : s.Canonical) : (Machine.walk s d vd va write).2.Canonical := by
  unfold Machine.walk
  split
  · exact hs.modVd.modDie
  · exact hs

theorem State.Canonical.tlbUse {s : State} {k : CoreId} {slot vd va : ℕ} {write : Bool} (hs : s.Canonical) :
    (Machine.tlbUse s k slot vd va write).Canonical := by
  unfold Machine.tlbUse
  dsimp only
  split
  · exact .ite hs hs.modCore
  · split
    · exact .ite hs.modDie hs.modDie.modCore
    · exact hs

theorem State.Canonical.startWalk {s : State} {d vd va : ℕ} {write : Bool} {num : ℕ} (hs : s.Canonical) :
    (Machine.startWalk s d vd va write num).Canonical :=
  .ite hs.modDie (.ite hs.modDie.draw.due (.ite hs.modDie hs.due))

theorem State.Canonical.foundFault {s : State} {a : Access} {cause addr : ℕ} (hs : s.Canonical) : (Machine.foundFault s a cause addr).Canonical :=
  hs.after

theorem State.Canonical.bindResult {s : State} {k : CoreId} {rid : ℕ} {v : Val} {deliver : ℕ} {tval : Dword} (hs : s.Canonical) :
    (Machine.bindResult s k rid v deliver tval).Canonical :=
  hs.modCore

theorem State.Canonical.stmFinish {s : State} {g : ℕ} {e : Dword} (hs : s.Canonical) : (Machine.stmFinish s g e).Canonical := by
  unfold Machine.stmFinish
  dsimp only
  refine .ite hs ?_
  split
  · exact hs
  · exact hs.update.after

theorem State.Canonical.stmFail {s : State} {a : Access} (hs : s.Canonical) : (Machine.stmFail s a).Canonical := by
  unfold Machine.stmFail
  split
  · exact hs.setAccess.stmFinish
  · exact hs

theorem State.Canonical.endFill {s : State} {m : MemberId} {va pm owner : ℕ} (hs : s.Canonical) : (Machine.endFill s m va pm owner).Canonical :=
  .ite hs hs.endProducer

theorem State.Canonical.endFillPkt {s : State} {m : MemberId} {va : ℕ} {p : Pkt} (hs : s.Canonical) : (Machine.endFillPkt s m va p).Canonical := by
  unfold Machine.endFillPkt
  split
  · split
    · exact hs.endFill
    · exact hs
  · exact hs

theorem State.Canonical.jobWrote {s : State} {m : MemberId} {h q : ℕ} {l : List Byte} (hs : s.Canonical) :
    (Machine.jobWrote s m h q l).Canonical := by
  unfold Machine.jobWrote
  dsimp only
  refine .after ?_
  split
  · exact .ite hs hs.modMember
  · exact hs

theorem State.Canonical.engineNext {s : State} {a : Access} (hs : s.Canonical) : (Machine.engineNext s a).Canonical := by
  unfold Machine.engineNext
  refine .ite ?_ hs
  split
  · exact hs.after
  · exact hs.after
  · exact hs

theorem State.Canonical.performedAcc {s : State} {a : Access} {v : Option Val} (hs : s.Canonical) : (Machine.performedAcc s a v).Canonical := by
  unfold Machine.performedAcc
  dsimp only
  split
  · exact hs.dropAccess.jobWrote
  · exact hs.dropAccess.jobWrote
  · split
    · refine .ite ?h (.modCore ?h)
      split
      · exact .stmFinish (.engineNext (.dropAccess (.modCore (.ite hs.tick hs))))
      · exact .engineNext (.dropAccess (.modCore (.ite hs.tick hs)))
    · refine .ite (.bindResult (.dropAccess ?unwaited)) (.due (.draw (.setAccess ?unwaited)))
      exact .modCore (.ite hs.tick hs)

theorem State.Canonical.filled {s : State} {m : MemberId} {va : ℕ} {v : Dword} (hs : s.Canonical) : (Machine.filled s m va v).Canonical :=
  hs.keepProducer.modMember.settle

theorem State.Canonical.feAct {s : State} {m : MemberId} {d va : ℕ} {op : FeOp} {v : Dword} (hs : s.Canonical) :
    (Machine.feAct s m d va op v).1.Canonical := by
  unfold Machine.feAct
  cases op <;> dsimp only
  case keep => exact hs.drainRange
  case take => exact hs.drainRange.setFe
  case fill => exact hs.drainRange.putAt.setFe.filled
  case chk => exact hs.drainRange
  case set => exact .ite hs.drainRange hs.drainRange.setFe.filled
  case clr => exact hs.drainRange.setFe

theorem State.Canonical.fillDone {s : State} {m : MemberId} {owner : ℕ} (hs : s.Canonical) : (Machine.fillDone s m owner).Canonical :=
  .ite hs (.ite hs.retire hs.after)

theorem State.Canonical.serveOne {s : State} {a : Access} {d va : ℕ} (hs : s.Canonical) : (Machine.serveOne s a d va).Canonical := by
  unfold Machine.serveOne
  split
  · exact .ite hs.foundFault hs.feAct.performedAcc
  · exact hs.feAct.endFill.fillDone.performedAcc
  · exact hs.performedAcc
  · exact hs.dropAccess.feAct.endFillPkt.appliedPkt
  · exact hs

theorem State.Canonical.serveQueue {d va n : ℕ} {s : State} (hs : s.Canonical) : (Machine.serveQueue d va n s).Canonical := by
  induction n generalizing s with
  | zero => exact hs
  | succ n ih =>
    unfold Machine.serveQueue
    split
    · split
      · split
        · exact ih hs.modDie.serveOne
        · exact hs
      · exact ih hs.modDie
    · exact hs

theorem State.Canonical.serve {s : State} {d va : ℕ} (hs : s.Canonical) : (Machine.serve s d va).Canonical := hs.serveQueue

theorem State.Canonical.arriveQueued {s : State} {a : Access} {d va : ℕ} (hs : s.Canonical) : (Machine.arriveQueued s a d va).Canonical :=
  .ite hs.drainRange.serve (.ite hs.drainRange.serveOne.serve hs.drainRange.setAccess.modDie)

theorem State.Canonical.barrierAct {s : State} {m : MemberId} {d va : ℕ} {op : BarOp} {v : Dword} (hs : s.Canonical) :
    (Machine.barrierAct s m d va op v).Canonical :=
  hs.drainRange.putAt.serve

theorem State.Canonical.actOn {s : State} {m : MemberId} {agent : ℕ} {l : Loc} {kind : AccKind} (hs : s.Canonical) :
    CanonicalOpt Prod.fst (Machine.actOn s m agent l kind) := by
  unfold Machine.actOn
  cases kind
  case load | loadV | part | fifoLoad => exact .ite trivial hs.drainRange.countHeat
  case store | sig => exact hs.drainRange.putAt.countHeat
  case stm | entry => exact hs.drainRange.putAt
  case copyOut => exact .ite trivial hs.drainRange.putAt.countHeat
  case amo op n b c red =>
    cases red with
    | true => exact .ite hs.mergeReduction.countHeat (.ite trivial hs.putAt.countHeat)
    | false => exact .ite hs.drainRange.mergeReduction.countHeat (.ite trivial hs.drainRange.putAt.countHeat)
  all_goals exact hs.drainRange

/-! ### Issue -/

theorem State.Canonical.residentFreeze {s : State} {k : CoreId} (hs : s.Canonical) : (Machine.residentFreeze s k).Canonical := by
  refine .ite (.afterK ?power) ?power
  refine .ite (.afterK ?clock) ?clock
  exact .ite hs.setCore.afterK hs.setCore

theorem State.Canonical.otherFreeze {s : State} {k : CoreId} (hs : s.Canonical) : (Machine.otherFreeze s k).Canonical := hs.modCore

theorem State.Canonical.holdIssue {s : State} {k : CoreId} (hs : s.Canonical) : (Machine.holdIssue s k).Canonical := hs.modCore

theorem State.Canonical.recordFreeze {s : State} {k : CoreId} {sl a : ℕ} (hs : s.Canonical) : (Machine.recordFreeze s k sl a).Canonical :=
  .ite (.raiseTrap (.startAccess (.modCore (.update (.ite hs hs.waitGranule))))) (.modCore (.ite hs hs.waitGranule))

theorem State.Canonical.nswRaise {s : State} {k : CoreId} (hs : s.Canonical) : (Machine.nswRaise s k).Canonical := hs.setCore.raiseTrap

theorem State.Canonical.takeIds {s : State} {n : ℕ} (hs : s.Canonical) : (s.takeIds n).Canonical := hs

theorem State.Canonical.issueOp {s0 : State} {k : CoreId} {o : OpSem} {rid : ℕ} {s : State} (hs : s.Canonical) (ho : o.Keeps) :
    (Machine.issueOp s0 k o rid s).Canonical :=
  .ite hs (ho.effect hs.modCore)

theorem State.Canonical.advance {s0 : State} {k : CoreId} {hdr : ℕ} {ctl : Option Ctl} {rid : ℕ} {s : State} (hs : s.Canonical) :
    (Machine.advance s0 k hdr ctl rid s).Canonical := by
  unfold Machine.advance
  dsimp only
  split
  · exact hs.modCore
  · exact .ite hs.modCore hs.modCore

theorem mem_of_mem_numbered {n : ℕ} {ops : List OpSem} {e : ℕ × OpSem} (he : e ∈ numbered n ops) : e.2 ∈ ops := by
  induction ops generalizing n with
  | nil => cases he
  | cons o ops ih =>
    rcases List.mem_cons.mp he with rfl | he
    · exact List.mem_cons_self
    · exact List.mem_cons_of_mem _ (ih he)

theorem State.Canonical.issueAll {k : CoreId} {hdr : ℕ} {gate : Bool} {ops : List OpSem} {s : State} (hs : s.Canonical) (hops : ∀ o ∈ ops, o.Keeps) :
    (Machine.issueAll k hdr gate ops s).Canonical := by
  unfold Machine.issueAll
  lift_lets
  intro n rec_ s1 s1' s1'' s2 live s3 s4
  have h1 : s1''.Canonical := State.Canonical.modCore (.ite hs.takeIds.modCore hs.takeIds)
  have h2 : s2.Canonical := h1.foldl_mem fun t e he h => .ite (h.issueOp (hops e.2 (mem_of_mem_numbered he))) h.modCore
  have h3 : s3.Canonical := h2.advance
  have h4 : s4.Canonical :=
    State.Canonical.modCore (h3.foldl_mem fun t o ho h => (hops o (List.mem_of_mem_filter ho)).final h)
  split
  · exact h4.modCore.raiseTrap
  · exact h4

theorem State.Canonical.issueOps {k : CoreId} {hdr : ℕ} {ops : List OpSem} {s : State} (hs : s.Canonical) (hops : ∀ o ∈ ops, o.Keeps) :
    (Machine.issueOps k hdr ops s).Canonical := by
  unfold Machine.issueOps
  split
  · exact hs.nswRaise
  · exact hs.residentFreeze
  · exact hs.otherFreeze
  · exact hs.holdIssue
  · exact hs.modCore
  · exact hs.recordFreeze
  · exact hs.raiseTrap
  · exact hs.issueAll hops

theorem State.Canonical.runOne {o : OpSem} {s : State} (hs : s.Canonical) (ho : o.Keeps) : (Machine.runOne o s).Canonical :=
  .ite (hs.issueOps (by simpa using ho)) trivial

/-! ### Jobs -/

theorem State.Canonical.startJob {s : State} {m : MemberId} {c fp : List Dword} {o : JobOrigin} (hs : s.Canonical) :
    (Machine.startJob s m c fp o).2.Canonical := by
  unfold Machine.startJob
  dsimp only
  split
  · exact hs
  · refine .settle ?_
    split
    · exact hs.notIdle.modMember.modMember.modMember
    · exact hs.notIdle.modMember

theorem State.Canonical.setEndpoint {s : State} {vd i : ℕ} {e : Endpoint} (hs : s.Canonical) : (s.setEndpoint vd i e).Canonical := hs.modVd

theorem State.Canonical.dgramOut {s : State} {vd i : ℕ} {d : Dgram} (hs : s.Canonical) : (Machine.dgramOut s vd i d).Canonical := by
  unfold Machine.dgramOut
  split
  · exact hs
  · split
    · exact hs
    · exact hs.draw.report

theorem State.Canonical.takePsn {s : State} {vd i : ℕ} {e : Endpoint} (hs : s.Canonical) : (Machine.takePsn s vd i e).2.Canonical :=
  .ite hs.setEndpoint.after hs.setEndpoint

theorem State.Canonical.sendOnce {s : State} {vd i : ℕ} {d : Dgram} (hs : s.Canonical) : (Machine.sendOnce s vd i d).Canonical := by
  unfold Machine.sendOnce
  split
  · exact hs
  · exact hs.takePsn.dgramOut

theorem State.Canonical.sendDgram {s : State} {vd i : ℕ} {d : Dgram} (hs : s.Canonical) : (Machine.sendDgram s vd i d).Canonical := by
  unfold Machine.sendDgram
  split
  · exact hs
  · exact .ite hs.takePsn.setEndpoint.after (.ite hs.takePsn.setEndpoint.after hs.takePsn.setEndpoint.dgramOut.after)

theorem State.Canonical.engineAccess {s : State} {m : MemberId} {kind : AccKind} {ea n pc t : ℕ} {rel : Bool} (hs : s.Canonical) :
    (Machine.engineAccess s m kind ea n pc t rel).Canonical :=
  hs.update.due

theorem State.Canonical.chunkOut {s : State} {m : MemberId} {h q ea : ℕ} {l : List Byte} (hs : s.Canonical) :
    (Machine.chunkOut s m h q ea l).Canonical := by
  unfold Machine.chunkOut
  dsimp only
  split
  · exact hs
  · refine .ite hs.modMember.after ?_
    split
    · exact hs.foldl (fun _ _ h1 => h1.engineAccess)
    · exact hs.sendDgram.modMember

theorem State.Canonical.chunkStart {s : State} {m : MemberId} {h q : ℕ} (hs : s.Canonical) : (Machine.chunkStart s m h q).Canonical := by
  unfold Machine.chunkStart
  dsimp only
  split
  · exact hs
  · split
    · exact hs.modMember.engineAccess
    · exact hs.modMember.sendDgram.modMember

theorem State.Canonical.scramble {m : MemberId} {c : List Dword} {n off : ℕ} {s : State} (hs : s.Canonical) :
    (Machine.scramble m c n off s).Canonical := by
  induction n generalizing off s with
  | zero => exact hs
  | succ n ih =>
    unfold Machine.scramble
    refine ih ?_
    split
    · exact memPut_wf _ _ _ hs
    · exact hs

theorem State.Canonical.scrambleTail {s : State} {m : MemberId} {j : Job} (hs : s.Canonical) : (Machine.scrambleTail s m j).Canonical :=
  .ite hs.scramble hs

theorem State.Canonical.finishJob {s : State} {m : MemberId} {h : ℕ} (hs : s.Canonical) : (Machine.finishJob s m h).Canonical := by
  unfold Machine.finishJob
  dsimp only
  split
  · exact hs
  · refine .afterM (.scrambleTail (.ite (.modMember ?h) (.afterM (.modMember ?h))))
    split
    · exact hs.modDie
    · exact hs

theorem State.Canonical.jobCheckEnd {s : State} {m : MemberId} {h : ℕ} (hs : s.Canonical) : (Machine.jobCheckEnd s m h).Canonical := by
  unfold Machine.jobCheckEnd
  split
  · exact hs
  · exact .ite hs (.ite (.ite hs.sendDgram.modMember hs) (.ite hs hs.finishJob))

theorem State.Canonical.abortJob {s : State} {m : MemberId} {h cause : ℕ} {v : Dword} (hs : s.Canonical) :
    (Machine.abortJob s m h cause v).Canonical := by
  unfold Machine.abortJob
  split
  · exact hs
  · exact .ite hs hs.modMember.report

theorem State.Canonical.chunkDone {s : State} {m : MemberId} {h q : ℕ} {ok : Bool} (hs : s.Canonical) : (Machine.chunkDone s m h q ok).Canonical := by
  unfold Machine.chunkDone
  dsimp only
  split
  · exact hs
  · split
    · split
      · exact hs.modMember.jobCheckEnd.afterM
      · exact hs.modMember.jobCheckEnd
    · exact hs.modMember.jobCheckEnd

theorem State.Canonical.failChunk {s : State} {m : MemberId} {h q cause : ℕ} {v : Dword} (hs : s.Canonical) :
    (Machine.failChunk s m h q cause v).Canonical := by
  unfold Machine.failChunk
  dsimp only
  split
  · exact .ite hs.update.report.after hs.update.abortJob.chunkDone
  · exact hs.update

theorem State.Canonical.armTrigger {s : State} {m : MemberId} {counter : ℕ} {threshold : Dword} {card : List Dword} {prev : List ℕ}
    (hs : s.Canonical) :
    (Machine.armTrigger s m counter threshold card prev).2.Canonical := by
  unfold Machine.armTrigger
  split
  · exact hs
  · exact .ite hs.modMember.afterM hs.modMember

/-! ### The point of performance -/

theorem State.Canonical.startGather {s : State} {a : Access} (hs : s.Canonical) : (Machine.startGather s a).Canonical :=
  hs.setAccess.foldl (fun _ _ h1 => h1.update.due)

theorem State.Canonical.finishGather {s : State} {a : Access} {got : List (ℕ × List Byte)} (hs : s.Canonical) :
    (Machine.finishGather s a got).Canonical := by
  unfold Machine.finishGather
  dsimp only
  split
  case h_5 => exact hs.dropAccess.chunkOut
  case h_6 => exact hs
  all_goals exact hs.dropAccess.modCore

theorem State.Canonical.writeArrived {s : State} {a : Access} {old new : List (ℕ × List Byte)} (hs : s.Canonical) :
    (Machine.writeArrived s a old new).Canonical :=
  .ite hs hs.modCore

theorem State.Canonical.depositPart {s : State} {part : Access} {parent i j : ℕ} {l : List Byte} (hs : s.Canonical) :
    (Machine.depositPart s part parent i j l).Canonical := by
  unfold Machine.depositPart
  dsimp only
  split
  · split
    · refine .ite (.finishGather ?h) (.setAccess ?h)
      refine .writeArrived ?_
      split
      · exact hs.dropAccess.modCore.modCore
      · exact hs.dropAccess.modCore
    · exact hs.dropAccess.modCore
  · exact hs.dropAccess.modCore

theorem State.Canonical.wantFetch {s : State} {k : CoreId} {i : ℕ} (hs : s.Canonical) : (Machine.wantFetch s k i).Canonical := .ite hs.after hs

theorem State.Canonical.strikeVd {s : State} {vd : ℕ} (hs : s.Canonical) : (Machine.strikeVd s vd).Canonical := hs.after

theorem State.Canonical.returnAt {s : State} {a : Access} {t : ℕ} {v : Dword} (hs : s.Canonical) : (Machine.returnAt s a t v).Canonical :=
  hs.setAccess.due

theorem State.Canonical.waitFirst {s : State} {a : Access} {va : ℕ} (hs : s.Canonical) : CanonicalOpt id (Machine.waitFirst s a va) :=
  .ite trivial hs.setAccess.waitGranule

theorem State.Canonical.prefetchPages {d vd n page : ℕ} {s : State} (hs : s.Canonical) : (Machine.prefetchPages d vd n page s).Canonical := by
  induction n generalizing page s with
  | zero => exact hs
  | succ n ih => exact ih (.ite hs hs.walk)

theorem State.Canonical.settled {h : Option ℕ} {m : MemberId} {s : State} (hs : s.Canonical) : (Machine.settled h m s).Canonical := .ite hs hs.settle

theorem State.Canonical.performRequest {s : State} {a : Access} (hs : s.Canonical) : (Machine.performRequest s a).Canonical := by
  unfold Machine.performRequest
  dsimp only
  cases a.kind
  case card => exact hs.startJob.returnAt.settled
  case trig => exact hs.armTrigger.returnAt
  case spawn => exact hs.admitTask.dropAccess.bindResult.settled
  case wdraw => exact .ite hs.sendDemand.returnAt hs.returnAt
  case jobq => exact hs.returnAt
  case heat =>
    dsimp only
    split
    · exact hs.foundFault
    · exact hs.setAccess.startWalk
    · exact hs.tlbUse.returnAt
  case mig => exact hs.setAccess.after
  case pref => exact .ite hs.performedAcc hs.prefetchPages.performedAcc
  case sred => exact hs.setAccess.sendPkt
  all_goals exact hs

theorem State.Canonical.foundMember {s : State} {a : Access} {m reason : ℕ} (hs : s.Canonical) : (Machine.foundMember s a m reason).Canonical :=
  hs.after

theorem State.Canonical.sendRemote {s : State} {a : Access} {dm sp pa : ℕ} (hs : s.Canonical) : (Machine.sendRemote s a dm sp pa).Canonical :=
  .ite hs.foundMember (.ite hs.due hs.setAccess.sendPkt)

theorem State.Canonical.respond {s : State} {m : MemberId} {p : Pkt} {ty : ℕ} {l : List Byte} {poison : Bool} (hs : s.Canonical) :
    (Machine.respond s m p ty l poison).Canonical :=
  hs.sendPkt.appliedPkt

theorem State.Canonical.packetWritten {s : State} {m : MemberId} {p : Pkt} {new : List Byte} (hs : s.Canonical) :
    (Machine.packetWritten s m p new).Canonical := by
  unfold Machine.packetWritten
  split
  · split
    · exact hs.jobWrote
    · exact hs
  · exact hs

theorem State.Canonical.packetWrite {s : State} {m : MemberId} {p : Pkt} {l : Loc} (hs : s.Canonical) : (Machine.packetWrite s m p l).Canonical :=
  hs.drainRange.putAt.countHeat.packetWritten

theorem State.Canonical.packetRead {s : State} {m : MemberId} {p : Pkt} {l : Loc} (hs : s.Canonical) : (Machine.packetRead s m p l).Canonical :=
  hs.drainRange.countHeat.respond

theorem State.Canonical.packetAtomic {s : State} {m : MemberId} {p : Pkt} {l : Loc} (hs : s.Canonical) :
    (Machine.packetAtomic s m p l).Canonical := by
  unfold Machine.packetAtomic
  dsimp only
  split
  · rename_i t v heq
    have h1 : t.Canonical := hs.actOn.of_eq heq
    exact h1.respond
  · rename_i t v _ heq
    have h1 : t.Canonical := hs.actOn.of_eq heq
    exact h1.appliedPkt
  · exact hs.respond

theorem State.Canonical.servePlace {s : State} {m : MemberId} {p : Pkt} {l : Loc} (hs : s.Canonical) : (Machine.servePlace s m p l).Canonical := by
  unfold Machine.servePlace
  split
  · exact hs.appliedPkt.packetWrite
  · exact hs.packetRead
  · exact hs.packetAtomic

theorem State.Canonical.actPart {s : State} {m : MemberId} {kind : AccKind} {l : Loc} {x : ℕ × ℕ} (hs : s.Canonical) :
    (Machine.actPart s m kind l x).1.Canonical := by
  unfold Machine.actPart
  dsimp only
  split
  · exact hs.drainRange.putAt
  · exact hs.drainRange.putAt
  · exact hs.drainRange.putAt
  · split
    · exact hs.drainRange.putAt
    · exact hs.drainRange
  · exact hs.drainRange

theorem State.Canonical.wideEnd {s : State} {a : Access} {l : List Byte} {bad : Bool} (hs : s.Canonical) : (Machine.wideEnd s a l bad).Canonical := by
  unfold Machine.wideEnd
  split
  case h_4 => exact .ite hs.dropAccess.appliedPkt.packetWritten hs.dropAccess.respond
  all_goals exact hs.performedAcc

theorem State.Canonical.wideStep {s : State} {a : Access} {key : ℕ} {left : List ℕ} {got : List (ℕ × List Byte)} (hs : s.Canonical) :
    (Machine.wideStep s a key left got).Canonical := by
  unfold Machine.wideStep
  refine .ite hs.foundFault (.ite (.wideEnd ?_) (.due (.draw (.setAccess ?_))))
  · exact .foldlWith (g := Prod.fst) hs.draw fun _ _ h => h.actPart
  · exact .foldlWith (g := Prod.fst) hs.draw fun _ _ h => h.actPart

theorem State.Canonical.holdAccess {s : State} {g : Migration} {a : Access} (hs : s.Canonical) : (Machine.holdAccess s g a).Canonical :=
  hs.setAccess.update

theorem State.Canonical.meetLostPort {s : State} {a : Access} {l : Loc} (hs : s.Canonical) : (Machine.meetLostPort s a l).Canonical :=
  .ite hs.due (.ite hs.foundMember hs.foundFault)

theorem State.Canonical.actAt {s : State} {a : Access} {l : Loc} (hs : s.Canonical) : (Machine.actAt s a l).Canonical := by
  unfold Machine.actAt
  dsimp only
  refine .ite hs.meetLostPort ?_
  split
  · exact hs.holdAccess
  · split
    · exact hs.wideStep
    · refine .ite hs.countHeat.wideStep ?_
      split
      · exact hs.dropAccess.servePlace
      · split
        · rename_i t1 v heq
          have h1 : t1.Canonical := hs.actOn.of_eq heq
          exact h1.performedAcc
        · exact hs.foundFault

theorem State.Canonical.actStrike {s : State} {a : Access} {vd : ℕ} (hs : s.Canonical) : (Machine.actStrike s a vd).Canonical := by
  unfold Machine.actStrike
  dsimp only
  refine .ite hs.foundMember (.ite ?_ ?_)
  · split
    · exact hs.draw.performedAcc
    · exact hs.draw.performedAcc
  · split
    · exact hs.performedAcc
    · exact hs.performedAcc
    · exact hs.strikeVd.performedAcc
    · exact hs.strikeVd.performedAcc
    · exact hs.foundFault

theorem State.Canonical.performGlobal {s : State} {a : Access} (hs : s.Canonical) : (Machine.performGlobal s a).Canonical := by
  unfold Machine.performGlobal
  dsimp only
  refine .ite hs.tlbUse.due ?_
  split
  · exact hs.foundFault
  · exact hs.setAccess.startWalk
  · exact hs.tlbUse.sendRemote
  · exact hs.tlbUse.actStrike
  · exact hs.tlbUse.actAt

theorem State.Canonical.servePkt {s : State} {a : Access} {p : Pkt} {d va : ℕ} (hs : s.Canonical) : (Machine.servePkt s a p d va).Canonical := by
  unfold Machine.servePkt
  dsimp only
  split
  · exact hs.actAt
  · exact hs.actAt
  · exact hs.actAt
  · exact .ite (.ite hs.setAccess.modDie hs.dropAccess.feAct.endFillPkt.appliedPkt.serve) hs.dropAccess.barrierAct.appliedPkt

theorem State.Canonical.performVault {s : State} {a : Access} (hs : s.Canonical) : (Machine.performVault s a).Canonical := by
  unfold Machine.performVault
  dsimp only
  refine .ite hs.foundFault ?_
  split
  · rename_i t1 heq
    have h1 : t1.Canonical := hs.waitFirst.of_eq heq
    exact h1
  · split
    · exact hs.arriveQueued
    · exact hs.arriveQueued
    · exact hs.arriveQueued
    · exact hs.barrierAct.performedAcc
    · exact hs.servePkt
    · exact hs.putAt.performedAcc.modCore
    · exact hs.actAt

theorem State.Canonical.pullFifo {s : State} {a : Access} {parent i n k : ℕ} {got : List Byte} (hs : s.Canonical) :
    (Machine.pullFifo s a parent i n k got).Canonical := by
  unfold Machine.pullFifo
  dsimp only
  refine .ite (.depositPart ?taken) (.due (.setAccess ?taken))
  refine .ite ?put (.wantFetch (.modCore ?put))
  split
  · split
    · refine .modCore ?_
      split
      · exact hs.modCore
      · exact hs
    · split
      · exact hs.modCore
      · exact hs
  · split
    · exact hs.modCore
    · exact hs

theorem State.Canonical.performFence {s : State} {a : Access} {scope : ℕ} (hs : s.Canonical) : (Machine.performFence s a scope).Canonical :=
  .ite hs.setAccess.due (.performedAcc (.foldl (.ite hs.modCore hs) (fun _ _ h1 => h1.drainAgent)))

theorem State.Canonical.performKind {s : State} {a : Access} (hs : s.Canonical) : (Machine.performKind s a).Canonical := by
  unfold Machine.performKind
  cases a.kind
  case mstore | fpush => exact hs
  case mfetch | ldt | vldt | ifill | chunk => exact hs.startGather
  case fifoPart => exact hs.pullFifo
  case fence => exact hs.performFence
  case card | trig =>
    dsimp only
    split
    · rename_i t heq
      have h1 : t.Canonical := CanonicalOpt.of_eq (g := id) heq (.ite hs.waitFirst trivial)
      exact h1
    · split
      · rename_i t heq
        have h1 : t.Canonical := CanonicalOpt.of_eq (g := id) heq (.ite hs.waitFirst trivial)
        exact h1
      · exact hs.performRequest
  case spawn | wdraw | jobq | heat | mig | pref | sred => exact hs.performRequest
  all_goals exact .ite hs.performVault (.ite hs.sendRemote (.ite hs.actAt hs.performGlobal))

theorem State.Canonical.performId {s : State} {num : ℕ} (hs : s.Canonical) : (Machine.performId s num).Canonical := by
  unfold Machine.performId
  split
  · exact hs
  · split
    · exact hs
    · exact hs.performKind
    · exact .ite hs.actAt hs.performKind
    · exact .ite hs.setAccess.due hs.performKind

theorem State.Canonical.taggedLand {s : State} {num : ℕ} (hs : s.Canonical) : CanonicalOpt id (Machine.taggedLand s num) := by
  unfold Machine.taggedLand
  split
  · trivial
  · split
    · split
      · exact .ite hs.due hs.depositPart
      · exact .ite hs.due hs.dropAccess.modCore.wantFetch
      · exact .ite hs.due hs.dropAccess.landVal.modCore
    · trivial

theorem State.Canonical.fillPoisoned {s : State} {a p : Access} {i n j : ℕ} (hs : s.Canonical) : (Machine.fillPoisoned s a p i n j).Canonical := by
  unfold Machine.fillPoisoned
  dsimp only
  refine .depositPart ?_
  split
  · exact hs.setAccess
  · exact hs

theorem State.Canonical.deferredFault_fail {cause : ℕ} {v : Dword} {s : State} {a : Access} {parent : Option Access}
    {kill : State → Access → State} (hs : s.Canonical) (hkill : ∀ t x, t.Canonical → (kill t x).Canonical) :
    (Machine.deferredFault.fail cause v s a parent kill).Canonical := by
  unfold Machine.deferredFault.fail
  dsimp only
  have h1 : (kill s a).Canonical := hkill _ _ hs
  refine .ite (.raiseTrap ?killed) ?killed
  split
  · refine .update ?_
    split
    · exact hkill _ _ h1
    · exact h1
  · exact .ite h1.update h1
  · exact .ite h1.update h1
  · exact h1.update.modCore
  · exact h1

theorem State.Canonical.deferredFault {s : State} {num cause : ℕ} {v : Dword} (hs : s.Canonical) :
    CanonicalOpt id (Machine.deferredFault s num cause v) := by
  unfold Machine.deferredFault
  dsimp only
  split
  · trivial
  · split
    · exact .ite hs.fillPoisoned (hs.deferredFault_fail (fun _ _ h1 => h1.dropAccess.modCore))
    · exact hs.deferredFault_fail (fun _ _ h1 => h1.dropAccess.modCore)

theorem State.Canonical.engineFault {s : State} {a : Access} {cause : ℕ} {v : Dword} (hs : s.Canonical) :
    (Machine.engineFault s a cause v).Canonical := by
  unfold Machine.engineFault
  dsimp only
  split
  · split
    · split
      · exact hs.failChunk
      · exact hs.dropAccess
    · exact hs.dropAccess
  · exact hs.failChunk
  · refine .appliedPkt (.dropAccess ?_)
    split
    · split
      · exact hs.stmFail
      · exact hs.after
    · exact hs
  · exact hs.dropAccess.endFill.fillDone
  · exact hs.dropAccess.report.engineNext
  · exact hs.dropAccess.engineNext

/-! ### Control ops -/

theorem State.Canonical.sendSvc {s : State} {k : CoreId} {m : MemberId} {r : Svc} (hs : s.Canonical) : (Machine.sendSvc s k m r).Canonical :=
  .ite hs.draw.after (.ite hs.after hs.setBox.draw.after)

theorem State.Canonical.dimMember {s : State} {m : MemberId} (hs : s.Canonical) : (Machine.dimMember s m).Canonical :=
  .ite hs.modMember.after hs.modMember

/-! ### Matrix ops -/

theorem State.Canonical.startWide {s : State} {k : CoreId} {sl : ℕ} {kind : AccKind} {ea : Dword} {size : ℕ} {dest : Dest} {tag rid : ℕ}
    (hs : s.Canonical) :
    (Machine.startWide s k sl kind ea size dest tag rid).Canonical :=
  .startGather (.ite hs.update hs.update.modCore)

theorem State.Canonical.startMOp {s : State} {m : MOp} (hs : s.Canonical) : (Machine.startMOp s m).Canonical := .ite hs.modCore.startWide hs.modCore

theorem State.Canonical.openMsdt {s : State} {m : MOp} (hs : s.Canonical) : (Machine.openMsdt s m).Canonical :=
  .ite (hs.foldl (fun _ _ h1 => h1.foldl (fun _ _ h2 => h2.update))).update (hs.foldl (fun _ _ h1 => h1.foldl (fun _ _ h2 => h2.update)))

theorem State.Canonical.msdtWrites {s : State} {k : CoreId} {m : MOp} {l : List ℕ} (hs : s.Canonical) : (Machine.msdtWrites s k m l).Canonical :=
  hs.foldl (fun _ _ h1 => h1.setAccess.update.due)

theorem State.Canonical.finishMOp {s : State} {k : CoreId} {m : MOp} (hs : s.Canonical) : (Machine.finishMOp s k m).Canonical := by
  unfold Machine.finishMOp
  dsimp only
  refine .ite hs.modCore (.ite ?_ (.ite hs.modCore hs.modCore.update.due))
  split
  · exact hs.modCore.msdtWrites
  · exact hs.modCore

/-! ### Loads and stores -/

theorem State.Canonical.startDone {s : State} {ea : Dword} {size : ℕ} {v : Val} {dest : Dest} {tag : ℕ} (hs : s.Canonical) :
    (Machine.startDone s ea size v dest tag).Canonical :=
  hs.update.modCore.due

theorem State.Canonical.waitForLast {s : State} (hs : s.Canonical) : (Machine.waitForLast s).Canonical := hs.modCore

theorem State.Canonical.stmWrite {s : State} {g : ℕ} {e : Dword} {tag n : ℕ} {l : List Byte} {mem core : ℕ} (hs : s.Canonical) :
    (Machine.stmWrite s g e tag n l mem core).Canonical :=
  .ite hs.startAccess (.ite (.ite hs.update hs.update.modCore) (.sendPkt (.ite hs.update hs.update.modCore)))

theorem State.Canonical.stmGo {s : State} {e : Dword} {tag n : ℕ} {l : List Byte} (hs : s.Canonical) : (Machine.stmGo s e tag n l).Canonical :=
  .ite (hs.foldl (fun _ _ h1 => h1.foldl (fun _ _ h2 => h2.stmWrite))).stmFinish (.ite hs hs.startAt.update.after)

/-! ### A ops -/

theorem State.Canonical.drainCard {s : State} {ea : Dword} (hs : s.Canonical) : (Machine.drainCard s ea).Canonical := .drainList (.ite hs hs.drainOwn)

/-! ### A core at work -/

theorem State.Canonical.landResult {k : CoreId} {s : State} {r : Result} (hs : s.Canonical) : (Machine.landResult k s r).Canonical :=
  .ite hs.landVal hs.landVal.modCore

theorem State.Canonical.landBind {k : CoreId} {s : State} {b : FifoBind} (hs : s.Canonical) : (Machine.landBind k s b).Canonical :=
  hs.update.modCore.wantFetch

theorem State.Canonical.writeback {s : State} {k : CoreId} (hs : s.Canonical) : (Machine.writeback s k).Canonical := by
  refine .ite (.modCore ?h) ?h
  exact ((hs.modCore.foldl fun _ _ h => h.landResult).foldl fun _ _ h => h.landBind).foldl fun _ _ h => h.finishMOp

theorem State.Canonical.execResultWriteback {s : State} (hs : s.Canonical) : (Machine.execResultWriteback s).Canonical := .ite hs.writeback trivial

theorem State.Canonical.execTaggedResultLand {s : State} (hs : s.Canonical) : (Machine.execTaggedResultLand s).Canonical := by
  unfold Machine.execTaggedResultLand
  split
  · rename_i t1 heq
    have h1 : t1.Canonical := hs.taggedLand.of_eq heq
    exact h1
  · trivial

theorem State.Canonical.timingTrap {s : State} {k : CoreId} (hs : s.Canonical) : (Machine.timingTrap s k).Canonical := by
  unfold Machine.timingTrap
  dsimp only
  split
  · exact hs.modCore.raiseTrap
  · split
    · exact hs.modCore.raiseTrap
    · exact hs

theorem State.Canonical.execTimingTrap {s : State} (hs : s.Canonical) : (Machine.execTimingTrap s).Canonical := .ite hs.timingTrap trivial

theorem State.Canonical.execDeferredFaultFound {s : State} (hs : s.Canonical) : (Machine.execDeferredFaultFound s).Canonical := by
  unfold Machine.execDeferredFaultFound
  dsimp only
  split
  · rename_i a t _ heq
    have h1 : t.Canonical := hs.deferredFault.of_eq heq
    exact .ite hs.engineFault (State.Canonical.ite h1.report h1)
  · trivial

theorem State.Canonical.execTrapEntry {s : State} (hs : s.Canonical) : (Machine.execTrapEntry s).Canonical := by
  unfold Machine.execTrapEntry
  split
  · exact .ite hs.enterTrap trivial
  · trivial

theorem State.Canonical.execNswWindowExceeded {s : State} (hs : s.Canonical) : (Machine.execNswWindowExceeded s).Canonical := .ite hs.nswRaise trivial

theorem State.Canonical.execNswWindowKill {s : State} (hs : s.Canonical) : (Machine.execNswWindowKill s).Canonical :=
  .ite hs.contextKill.report trivial

theorem State.Canonical.execClockGate {s : State} (hs : s.Canonical) : (Machine.execClockGate s).Canonical := .ite hs.modCore trivial

theorem State.Canonical.execPowerGate {s : State} (hs : s.Canonical) : (Machine.execPowerGate s).Canonical := .ite hs.modCore trivial

theorem State.Canonical.releaseTask {s : State} {m : MemberId} {h : ℕ} {t : Task} {v : Dword} {at_ : ℕ} (hs : s.Canonical) :
    (Machine.releaseTask s m h t v at_).Canonical := by
  unfold Machine.releaseTask
  dsimp only
  split
  · refine .startAt ?_
    split
    · exact hs.modMember.packetPart
    · exact hs.modMember
  · refine .retire ?_
    split
    · exact hs.modMember.packetPart
    · exact hs.modMember

theorem State.Canonical.noteIdle {s : State} {vd : ℕ} (hs : s.Canonical) : (Machine.noteIdle s vd).Canonical := by
  unfold Machine.noteIdle
  dsimp only
  split
  · exact hs
  · exact .ite hs.modVd.after hs

theorem State.Canonical.freeCore {s : State} {k : CoreId} {r : Run} (hs : s.Canonical) : (Machine.freeCore s k r).Canonical :=
  .askDispatch (.ite hs.modCore hs.modCore.afterM)

theorem State.Canonical.leavePane {s : State} {k : CoreId} {halted : Bool} (hs : s.Canonical) : (Machine.leavePane s k halted).Canonical := by
  unfold Machine.leavePane
  dsimp only
  split
  · exact hs
  · exact .ite hs.modMember (hs.modMember.foldl (fun _ _ h1 => h1.freeCore)).packetPart

theorem State.Canonical.endWork {s : State} {k : CoreId} {e : EndKind} (hs : s.Canonical) : (Machine.endWork s k e).Canonical := by
  unfold Machine.endWork
  dsimp only
  split
  · exact hs.drainAgent.freeCore.leavePane
  · exact hs.drainAgent.freeCore.leavePane
  · split
    · exact hs.drainAgent.tick.freeCore.enqueueTask.askDispatch
    · exact hs.drainAgent.tick.freeCore
  · split
    · exact .ite hs.drainAgent.tick.freeCore.modMember.afterM hs.drainAgent.tick.freeCore.modMember
    · exact hs.drainAgent.tick.freeCore
  · split
    · exact hs.drainAgent.tick.freeCore.releaseTask
    · exact hs.drainAgent.tick.freeCore

theorem State.Canonical.finishEnding {s : State} {k : CoreId} {e : EndKind} (hs : s.Canonical) : (Machine.finishEnding s k e).Canonical :=
  hs.endWork.noteIdle

theorem State.Canonical.lateFreeze {s : State} {k : CoreId} (hs : s.Canonical) : (Machine.lateFreeze s k).Canonical := hs.modCore

theorem State.Canonical.endCore {s : State} {k : CoreId} (hs : s.Canonical) : (Machine.endCore s k).Canonical := by
  unfold Machine.endCore
  split
  · exact hs.finishEnding
  · exact hs

/-! ### Global space and pages -/

theorem State.Canonical.vaRead {s : State} {m : MemberId} {va n : ℕ} (hs : s.Canonical) : CanonicalExc Prod.snd (Machine.vaRead s m va n) :=
  .foldlM (g := Prod.snd) hs fun _ _ h => .bind fun _ => .ite trivial h.drainRange.countHeat

theorem State.Canonical.vaWrite {s : State} {m : MemberId} {va : ℕ} {b : List Byte} (hs : s.Canonical) :
    CanonicalExc id (Machine.vaWrite s m va b) := by
  unfold Machine.vaWrite
  refine .bind fun _ => .foldlM (g := id) hs fun t p h => ?_
  split
  · exact State.Canonical.after h
  · exact .bind fun _ => State.Canonical.countHeat (.putAt (.drainRange h))

theorem State.Canonical.vaDwords {s : State} {m : MemberId} {va n : ℕ} (hs : s.Canonical) : CanonicalExc Prod.snd (Machine.vaDwords s m va n) :=
  hs.vaRead.map fun _ h => h

theorem State.Canonical.gangEvent {s : State} {kind vd member core : ℕ} {args : List ℕ} (hs : s.Canonical) :
    (Machine.gangEvent s kind vd member core args).Canonical :=
  hs.report

theorem State.Canonical.setCell {s : State} {slot d : ℕ} {c : Cell} (hs : s.Canonical) : (Machine.setCell s slot d c).Canonical := hs

theorem State.Canonical.homeCells {s : State} {vd : ℕ} {c : Cell} (hs : s.Canonical) : (Machine.homeCells s vd c).Canonical := by
  unfold Machine.homeCells
  split
  · exact hs.foldl (fun _ _ h1 => h1.setCell)
  · exact hs

theorem State.Canonical.wakeDone {s : State} {vd : ℕ} (hs : s.Canonical) : (Machine.wakeDone s vd).Canonical := .ite hs.modVd.homeCells hs

theorem State.Canonical.parseAll {s : State} {vd : ℕ} (hs : s.Canonical) : (Machine.parseAll s vd).Canonical :=
  hs.foldl (fun _ _ h1 => h1.foldl (fun _ _ h2 => h2.after))

theorem State.Canonical.noteStart {s : State} {m : MemberId} (hs : s.Canonical) : (Machine.noteStart s m).Canonical := by
  unfold Machine.noteStart
  dsimp only
  refine .ite hs ?_
  split
  · refine .gangEvent (.ite (.gangEvent ?parsed) ?parsed)
    exact .ite hs.wakeDone.modVd.parseAll hs.wakeDone.modVd
  · refine .ite (.gangEvent ?late) ?late
    exact .ite hs.wakeDone.modVd.parseAll hs.wakeDone.modVd

theorem State.Canonical.fabricEvent {s : State} {kind vd member : ℕ} {args : List ℕ} (hs : s.Canonical) :
    (Machine.fabricEvent s kind vd member args).Canonical :=
  hs.report

theorem State.Canonical.memoryEvent {s : State} {kind vd member unit : ℕ} {args : List ℕ} (hs : s.Canonical) :
    (Machine.memoryEvent s kind vd member unit args).Canonical :=
  hs.report

theorem State.Canonical.telemetry {s : State} {code : ℕ} {args : List ℕ} (hs : s.Canonical) : (Machine.telemetry s code args).Canonical := hs.report

theorem State.Canonical.reply {s : State} {code vd : ℕ} {args : List ℕ} (hs : s.Canonical) : (Machine.reply s code vd args).Canonical := hs.report

theorem State.Canonical.useStack {s : State} {d pa : ℕ} (hs : s.Canonical) : (Machine.useStack s d pa).Canonical := .ite hs.modDie hs

/-- The recursive result that a structural recursion may use at `n`, if any, satisfies `P`. -/
def BelowHas {β : Type} (P : β → Prop) : (n : ℕ) → Nat.below (motive := fun _ => β) n → Prop
  | 0, _ => True
  | _ + 1, rest => P rest.1

theorem brecOn_has {β : Type} {F : (n : ℕ) → Nat.below (motive := fun _ => β) n → β} {P : β → Prop}
    (hF : ∀ n rest, BelowHas P n rest → P (F n rest)) (n : ℕ) : P (Nat.brecOn (motive := fun _ => β) n F) := by
  induction n with
  | zero => exact hF 0 _ trivial
  | succ n ih => exact hF (n + 1) _ ih

theorem backPages_eq (m : MemberId) :
    backPages m = fun n va s => Nat.brecOn (motive := fun _ => ℕ → State → Option State) n (backPages._f m) va s := by
  delta backPages
  exact rfl

theorem State.Canonical.backPages {m : MemberId} {n va : ℕ} {s : State} (hs : s.Canonical) : CanonicalOpt id (Machine.backPages m n va s) := by
  rw [backPages_eq]
  refine brecOn_has (P := fun f : ℕ → State → Option State => ∀ va s, s.Canonical → CanonicalOpt id (f va s)) (fun n rest hrest va s hs => ?_) n va s hs
  unfold backPages._f
  generalize frameFor = find
  as_aux_lemma =>
    cases n with
    | zero => exact hs
    | succ n =>
      dsimp only
      split
      · exact hrest _ _ hs.zeroAll.modVd.useStack
      · trivial

theorem State.Canonical.dropDie {s : State} {d vd lo hi : ℕ} (hs : s.Canonical) : (Machine.dropDie s d vd lo hi).Canonical := hs.modDie.update

theorem State.Canonical.dropTlb {s : State} {vd lo hi : ℕ} (hs : s.Canonical) : (Machine.dropTlb s vd lo hi).Canonical := hs

theorem State.Canonical.modHeat {s : State} {k : ℕ} {f : Tab ℕ → Tab ℕ} (hs : s.Canonical) : (Machine.modHeat s k f).Canonical :=
  .ite hs.modSwitch hs.modDie

theorem State.Canonical.moveHeat {s : State} {src dst n : ℕ} (hs : s.Canonical) : (Machine.moveHeat s src dst n).Canonical := hs.modHeat.modHeat

theorem State.Canonical.dropPlace {s : State} {k n : ℕ} (hs : s.Canonical) : (Machine.dropPlace s k n).Canonical := hs

theorem State.Canonical.drainPlace {s : State} {m : MemberId} {k n : ℕ} (hs : s.Canonical) : (Machine.drainPlace s m k n).Canonical := hs.drainRange

theorem State.Canonical.swapPage {s : State} {src dst n : ℕ} (hs : s.Canonical) : (Machine.swapPage s src dst n).Canonical :=
  hs.zeroAll.dropPlace.update.moveHeat

theorem State.Canonical.movePage {s : State} {m : MemberId} {src dst n : ℕ} (hs : s.Canonical) : (Machine.movePage s m src dst n).Canonical :=
  .swapPage (.ite hs.drainPlace.copyAll.useStack hs.drainPlace.copyAll)

/-! ### Events of the memories -/

theorem State.Canonical.release {s : State} {t : ℕ} {x : Waiter} (hs : s.Canonical) : (Machine.release s t x).Canonical := by
  unfold Machine.release
  split
  · split
    · exact hs.setAccess.due
    · exact hs
  · exact hs.due
  · exact hs.modCore

theorem State.Canonical.releaseAll {s : State} {t : ℕ} {l : List Waiter} (hs : s.Canonical) : (Machine.releaseAll s t l).Canonical := by
  induction l generalizing s t with
  | nil => exact hs
  | cons w l ih => exact ih hs.release

theorem State.Canonical.drainGranule {s : State} {d g : ℕ} (hs : s.Canonical) : (Machine.drainGranule s d g).Canonical := by
  unfold Machine.drainGranule
  split
  · exact hs.drainRange
  · exact hs

theorem State.Canonical.execGranuleSequenceEnd {s : State} (hs : s.Canonical) : (Machine.execGranuleSequenceEnd s).Canonical := by
  unfold Machine.execGranuleSequenceEnd
  dsimp only
  split
  · exact hs.drainGranule.runSeq.modDie.releaseAll.pumpSeqs
  · trivial

theorem State.Canonical.walkAccess {s : State} {num : ℕ} {lf : Option TlbEntry} (hs : s.Canonical) : (Machine.walkAccess s num lf).Canonical := by
  unfold Machine.walkAccess
  split
  · exact hs
  · split
    · exact hs.foundFault
    · exact .due (.setAccess (.ite hs hs.modCore))

theorem State.Canonical.nextWalk {d n : ℕ} {s : State} (hs : s.Canonical) : (Machine.nextWalk d n s).Canonical := by
  induction n generalizing s with
  | zero => exact hs
  | succ n ih =>
    unfold Machine.nextWalk
    split
    · exact .ite (ih hs.modDie) hs.modDie.draw.due
    · exact hs

theorem State.Canonical.execTranslationWalkEnd {s : State} (hs : s.Canonical) : (Machine.execTranslationWalkEnd s).Canonical := by
  unfold Machine.execTranslationWalkEnd
  dsimp only
  split
  · trivial
  · split
    · exact hs.modDie.nextWalk.memoryEvent.foldl fun _ _ h => h.walkAccess
    · split
      · rename_i t r heq
        have h1 : r.Canonical := hs.modDie.nextWalk.walk.of_pair heq
        exact .ite (hs.modDie.nextWalk.foldl fun _ _ h => h.walkAccess) (h1.foldl fun _ _ h => h.walkAccess)
      · exact hs.modDie.nextWalk.foldl fun _ _ h => h.walkAccess

theorem State.Canonical.execReductionDrain {s : State} (hs : s.Canonical) : (Machine.execReductionDrain s).Canonical := by
  unfold Machine.execReductionDrain
  split
  · exact hs.drainEntry
  · trivial

theorem State.Canonical.execHeatDecay {s : State} (hs : s.Canonical) : (Machine.execHeatDecay s).Canonical :=
  .next (.after (.ite hs.modSwitch hs.modDie))

theorem State.Canonical.migStatus {st : ℕ} {s : State} {num : ℕ} (hs : s.Canonical) : (Machine.migStatus st s num).Canonical := by
  unfold Machine.migStatus
  split
  · exact hs.returnAt
  · exact hs

theorem State.Canonical.setMig {s : State} {g h : Migration} (hs : s.Canonical) : (s.setMig g h).Canonical := hs

theorem State.Canonical.startMove {s : State} {g : Migration} (hs : s.Canonical) : (Machine.startMove s g).Canonical :=
  hs.drainPlace.copyAll.setMig.draw.after

theorem State.Canonical.nextMove {s : State} {port : ℕ} (hs : s.Canonical) : (Machine.nextMove s port).Canonical := by
  unfold Machine.nextMove
  refine .ite hs ?_
  split
  · exact hs.startMove
  · exact hs

theorem State.Canonical.execMigrationRequest {s : State} (hs : s.Canonical) : (Machine.execMigrationRequest s).Canonical := by
  unfold Machine.execMigrationRequest
  dsimp only
  split
  · exact hs.setMig
  · split
    · exact hs.migStatus
    · refine .ite hs.migStatus (.ite hs.migStatus ?_)
      split
      · exact hs.migStatus
      · exact .ite hs.migStatus hs.update.nextMove

theorem State.Canonical.releaseHeld {s : State} {g : Migration} {src k : ℕ} (hs : s.Canonical) : (Machine.releaseHeld s g src k).Canonical := by
  unfold Machine.releaseHeld
  refine hs.foldl ?_
  intro t x h1
  split
  · exact h1.actAt
  · exact h1

theorem State.Canonical.endMove {s : State} {g : Migration} {k status : ℕ} (hs : s.Canonical) : (Machine.endMove s g k status).Canonical :=
  (hs.update.releaseHeld.foldl (fun _ _ h1 => h1.migStatus)).nextMove

theorem State.Canonical.abandonMove {s : State} {g : Migration} {unit reason status : ℕ} (hs : s.Canonical) :
    (Machine.abandonMove s g unit reason status).Canonical :=
  hs.memoryEvent.endMove

theorem State.Canonical.recopy {s : State} {g : Migration} (hs : s.Canonical) : (Machine.recopy s g).Canonical :=
  hs.drainPlace.foldl (fun _ _ h1 => h1.copyAll)

theorem State.Canonical.execMigrationComplete {s : State} (hs : s.Canonical) : (Machine.execMigrationComplete s).Canonical := by
  unfold Machine.execMigrationComplete
  dsimp only
  split
  · trivial
  · exact .ite trivial (.ite hs.endMove (.ite hs.abandonMove (.ite hs.recopy.setMig.draw.after (.ite (.ite hs.after hs.setMig.draw.after.after)
        (.ite hs.after (.next (.endMove (.swapPage (.ite hs.recopy hs.recopy.useStack)))))))))

theorem State.Canonical.execMigrationHoldTimeout {s : State} (hs : s.Canonical) : (Machine.execMigrationHoldTimeout s).Canonical := by
  unfold Machine.execMigrationHoldTimeout
  split
  · trivial
  · exact .ite hs.abandonMove trivial

theorem State.Canonical.moveError {s : State} {k : ℕ} (hs : s.Canonical) : (Machine.moveError s k).Canonical := by
  unfold Machine.moveError
  split
  · exact hs
  · split
    · exact hs.setMig.releaseHeld.startMove
    · exact hs.abandonMove

theorem State.Canonical.poisonRange {s : State} {k n : ℕ} (hs : s.Canonical) : (s.poisonRange k n).Canonical := hs

theorem State.Canonical.storeOn {r : ℕ × List ℕ} {acc : Bool × State} {i : ℕ} (hacc : acc.2.Canonical) : (Machine.storeOn r acc i).2.Canonical := by
  unfold Machine.storeOn
  dsimp only
  split
  · exact hacc
  · split
    · exact hacc.draw.update
    · exact hacc.draw

theorem State.Canonical.storeBoth {s : State} {r : ℕ × List ℕ} (hs : s.Canonical) : (Machine.storeBoth s r).2.Canonical :=
  .foldlWith (g := Prod.snd) hs fun _ _ h => h.storeOn

theorem State.Canonical.storeRecord {s : State} {kind : ℕ} {args : List ℕ} (hs : s.Canonical) : (Machine.storeRecord s kind args).Canonical :=
  .ite hs.storeBoth hs.storeBoth.update.after

theorem State.Canonical.rehomeRow {s : State} {d key : ℕ} (hs : s.Canonical) : (Machine.rehomeRow s d key).Canonical := by
  unfold Machine.rehomeRow
  dsimp only
  refine .ite (hs.foldl ?h).after (hs.foldl ?h)
  intro t x h1
  refine .ite h1 ?_
  split
  · exact h1.movePage
  · exact h1

theorem State.Canonical.retireRow {s : State} {d pa : ℕ} (hs : s.Canonical) : (Machine.retireRow s d pa).Canonical :=
  .ite hs.update.memoryEvent.storeRecord hs.modDie.memoryEvent.storeRecord.rehomeRow

theorem State.Canonical.replayRow {s : State} {r : ℕ × List ℕ} (hs : s.Canonical) : (Machine.replayRow s r).Canonical :=
  .ite hs (.ite hs.modDie hs.update)

theorem State.Canonical.hbmError {s : State} {d pa : ℕ} {bad : Bool} (hs : s.Canonical) : (Machine.hbmError s d pa bad).Canonical :=
  .ite (.retireRow (.memoryEvent (.ite hs.poisonRange.moveError.modVd hs.poisonRange.moveError))) (.ite hs.memoryEvent.modDie.retireRow
      hs.memoryEvent.modDie)

theorem State.Canonical.execEccError {s : State} (hs : s.Canonical) : (Machine.execEccError s).Canonical := by
  unfold Machine.execEccError
  dsimp only
  split
  · split
    · exact hs.hbmError
    · exact .ite hs.update.dirty.memoryEvent hs.memoryEvent
    · exact .ite hs.poisonRange.moveError hs
  · exact .ite hs.modCore hs
  · exact .ite hs.modCore hs
  · exact hs.rehomeRow
  · exact .ite hs.modVd hs

theorem State.Canonical.execHbmScrub {s : State} (hs : s.Canonical) : (Machine.execHbmScrub s).Canonical := hs.after

theorem State.Canonical.execVaultScrub {s : State} (hs : s.Canonical) : (Machine.execVaultScrub s).Canonical := hs.after

theorem State.Canonical.execRetirementRecordRetry {s : State} (hs : s.Canonical) : (Machine.execRetirementRecordRetry s).Canonical := by
  unfold Machine.execRetirementRecordRetry
  split
  · trivial
  · exact .ite hs.storeBoth.update (.next (.after (.ite hs.storeBoth.update.memoryEvent.update.after hs.storeBoth.update)))

theorem State.Canonical.execTranslationInvalidate {s : State} (hs : s.Canonical) : (Machine.execTranslationInvalidate s).Canonical :=
  .ite (hs.update.foldl (fun _ _ h1 => h1.draw.after)) trivial

theorem State.Canonical.setInval {s : State} {i : Inval} (hs : s.Canonical) : (s.setInval i).Canonical := hs

theorem State.Canonical.ackInval {s : State} {i : Inval} {d : ℕ} (hs : s.Canonical) : (Machine.ackInval s i d).Canonical :=
  .ite hs.update.reply hs.setInval

theorem State.Canonical.execInval {s : State} (hs : s.Canonical) : (Machine.execInval s).Canonical := by
  unfold Machine.execInval
  dsimp only
  split
  · trivial
  · exact .ite hs.after (.ite (.next (.after (.ite hs.dropDie.setInval hs))) (.next (.ackInval (.ite hs.dropDie.setInval hs))))

theorem State.Canonical.execOutsidePortTimeout {s : State} (hs : s.Canonical) : (Machine.execOutsidePortTimeout s).Canonical := by
  unfold Machine.execOutsidePortTimeout
  split
  · exact .ite hs.foundMember trivial
  · trivial

theorem State.Canonical.execOutsidePortLost {s : State} (hs : s.Canonical) : (Machine.execOutsidePortLost s).Canonical :=
  .ite hs.modSwitch.memoryEvent hs.update.memoryEvent

/-! ### In-switch reduction -/

theorem State.Canonical.setSlot {s : State} {w i : ℕ} {r : Option RedSlot} (hs : s.Canonical) : (s.setSlot w i r).Canonical := hs.modSwitch

theorem State.Canonical.sendSres {s : State} {w : ℕ} {m : MemberId} {cid tag : ℕ} {word : Dword} {data : List Byte} {stamp : Tab ℕ}
    (hs : s.Canonical) :
    (Machine.sendSres s w m cid tag word data stamp).Canonical :=
  .ite hs.modSwitch.switchOut hs.modSwitch.after

theorem State.Canonical.countDrop {s : State} {w g : ℕ} (hs : s.Canonical) : (Machine.countDrop s w g).Canonical := hs.modSwitch.telemetry

theorem State.Canonical.completeSlot {s : State} {w i : ℕ} {r : RedSlot} {part : Bool} (hs : s.Canonical) :
    (Machine.completeSlot s w i r part).Canonical :=
  (hs.foldl (fun _ _ h1 => h1.sendSres)).setSlot.after

theorem State.Canonical.combine {s : State} {w i : ℕ} {r : RedSlot} {p : Pkt} (hs : s.Canonical) : (Machine.combine s w i r p).Canonical :=
  .ite hs.completeSlot hs.setSlot

theorem State.Canonical.contribute {s : State} {w : ℕ} {p : Pkt} (hs : s.Canonical) : (Machine.contribute s w p).Canonical := by
  unfold Machine.contribute
  dsimp only
  split
  · split
    · split
      · exact hs.modSwitch.countDrop.sendSres
      · exact .ite hs.modSwitch.countDrop.sendSres hs.modSwitch.combine
    · exact hs.modSwitch
  · split
    · exact hs.modSwitch.countDrop.sendSres
    · exact hs.modSwitch.after.combine

theorem State.Canonical.execSredPacket {s : State} (hs : s.Canonical) : (Machine.execSredPacket s).Canonical := by
  unfold Machine.execSredPacket
  split
  · exact .ite hs.contribute trivial
  · trivial

theorem State.Canonical.execReductionSlotDeadline {s : State} (hs : s.Canonical) : (Machine.execReductionSlotDeadline s).Canonical := by
  unfold Machine.execReductionSlotDeadline
  dsimp only
  split
  · exact .ite hs.completeSlot trivial
  · trivial

theorem State.Canonical.execSlotLingerEnd {s : State} (hs : s.Canonical) : (Machine.execSlotLingerEnd s).Canonical := by
  unfold Machine.execSlotLingerEnd
  dsimp only
  split
  · split
    · exact .ite hs.setSlot trivial
    · trivial
  · trivial

theorem State.Canonical.deliverSres {s : State} {m : MemberId} {p : Pkt} (hs : s.Canonical) : (Machine.deliverSres s m p).Canonical := by
  unfold Machine.deliverSres
  dsimp only
  split
  · exact hs.modMember.checkHeld
  · refine .ite hs.modMember.checkHeld.returnAt ?_
    split
    · exact hs.modMember.checkHeld.putAt.returnAt
    · exact hs.waitGranule

theorem State.Canonical.execSres {s : State} (hs : s.Canonical) : (Machine.execSres s).Canonical := by
  unfold Machine.execSres
  dsimp only
  split
  · exact .ite hs.after (.ite (.next (.deliverSres (.ite hs.arriveCommon hs))) trivial)
  · trivial

theorem State.Canonical.loseSlot {s : State} {w : ℕ} {r : RedSlot} (hs : s.Canonical) : (Machine.loseSlot s w r).Canonical :=
  (hs.foldl (fun _ _ h1 => h1.sendSres)).fabricEvent

theorem State.Canonical.reinstallSlot {s : State} {vd : ℕ} {r : RedSlot} (hs : s.Canonical) : (Machine.reinstallSlot s vd r).Canonical := by
  unfold Machine.reinstallSlot
  dsimp only
  split
  · exact hs.loseSlot
  · split
    · exact hs.setSlot.after
    · exact hs.setSlot.after

theorem State.Canonical.saveSlots {s : State} {vd : ℕ} (hs : s.Canonical) : (Machine.saveSlots s vd).Canonical :=
  (hs.foldl (fun _ _ h1 => h1.modSwitch)).modMember

/-! ### Events of the fabric -/

theorem State.Canonical.dropPkt {s : State} {w : ℕ} {p : Pkt} (hs : s.Canonical) : (Machine.dropPkt s w p).Canonical := hs.modSwitch.countDrop

theorem State.Canonical.switchForward {s : State} {w : ℕ} {p : Pkt} (hs : s.Canonical) : (Machine.switchForward s w p).Canonical :=
  .ite (.ite hs.after hs) (.ite hs.dropPkt (.ite (.ite hs.after hs) (.ite hs.after (.ite hs hs.switchOut))))

theorem State.Canonical.execSwitchPacketForward {s : State} (hs : s.Canonical) : (Machine.execSwitchPacketForward s).Canonical := by
  unfold Machine.execSwitchPacketForward
  split
  · exact hs.switchForward
  · trivial

theorem State.Canonical.withdrawTask {s : State} {m : MemberId} {h : ℕ} {t : Task} (hs : s.Canonical) : (Machine.withdrawTask s m h t).Canonical := by
  unfold Machine.withdrawTask
  split
  · exact hs.modCore
  · exact .ite hs.modMember (.releaseTask (.ite (hs.modMember.foldl (fun _ _ h1 => h1.sendDemand)) hs.modMember))

theorem State.Canonical.withdrawJob {s : State} {m : MemberId} {h : ℕ} {j : Job} (hs : s.Canonical) : (Machine.withdrawJob s m h j).Canonical := by
  unfold Machine.withdrawJob
  split
  · exact hs
  · exact .ite hs hs.modMember.jobCheckEnd
  · exact hs.modMember.finishJob

theorem State.Canonical.demandAct {s : State} {m : MemberId} {wm word : ℕ} {inc : Bool} (hs : s.Canonical) :
    (Machine.demandAct s m wm word inc).Canonical := by
  unfold Machine.demandAct
  split
  · exact hs
  · split
    · split
      · exact .ite hs.modMember.withdrawTask hs.modMember
      · exact hs
    · split
      · exact .ite hs.modMember.withdrawJob hs.modMember
      · exact hs

theorem State.Canonical.askOnce {s : State} {n : ℕ} {i : Instr} {m : MemberId} {a : ℕ} (hs : s.Canonical) : (Machine.askOnce s n i m a).Canonical :=
  .ite hs hs.afterM

theorem State.Canonical.pokeColl {s : State} {m : MemberId} {cid : Option ℕ} (hs : s.Canonical) : (Machine.pokeColl s m cid).Canonical := by
  unfold Machine.pokeColl
  refine hs.foldl ?_
  intro t x h1
  split
  · exact .ite h1.askOnce h1
  · exact h1

theorem State.Canonical.deliverResponse {s : State} {m : MemberId} {p : Pkt} (hs : s.Canonical) : (Machine.deliverResponse s m p).Canonical := by
  unfold Machine.deliverResponse
  dsimp only
  split
  · exact hs
  · refine .ite hs.foundFault ?_
    split
    · exact hs.performedAcc
    · exact hs.performedAcc
    · exact hs.performedAcc
    · exact hs.performedAcc
    · exact hs.performedAcc
    · exact hs

theorem State.Canonical.memoryPkt {s : State} {m : MemberId} {p : Pkt} (hs : s.Canonical) : (Machine.memoryPkt s m p).Canonical :=
  .ite hs.engineAccess (.ite hs.engineAccess hs.servePlace)

theorem State.Canonical.fifoArrive {s : State} {k : CoreId} {i : ℕ} {v : Vec} (hs : s.Canonical) : (Machine.fifoArrive s k i v).Canonical :=
  hs.modCore

theorem State.Canonical.pushDone {s : State} {m : MemberId} {p : Pkt} (hs : s.Canonical) : (Machine.pushDone s m p).Canonical := by
  unfold Machine.pushDone
  split
  · exact hs.performedAcc
  · exact hs

theorem State.Canonical.takeTicket {s : State} {m : MemberId} {p : Pkt} (hs : s.Canonical) : (Machine.takeTicket s m p).Canonical := hs.modDie.after

theorem State.Canonical.applyPkt {s : State} {m : MemberId} {p : Pkt} (hs : s.Canonical) : (Machine.applyPkt s m p).Canonical := by
  unfold Machine.applyPkt
  split
  · exact hs.memoryPkt
  · exact hs.memoryPkt
  · exact hs.memoryPkt
  · exact hs.engineAccess
  · exact hs.appliedPkt.deliverResponse
  · exact hs.appliedPkt.deliverResponse
  · exact hs.appliedPkt.fifoArrive
  · exact hs.ackPkt.modMember.pokeColl
  · exact hs.ackPkt.modMember.pokeColl
  · exact hs.appliedPkt.demandAct
  · exact hs.appliedPkt.takeTicket
  · exact hs.appliedPkt.modMember.foldl (fun _ _ h1 => h1.afterM)
  · exact hs.appliedPkt

theorem State.Canonical.applyOne {s : State} {m : MemberId} (hs : s.Canonical) : CanonicalOpt id (Machine.applyOne s m) :=
  .ite trivial (hs.takeDominated.map fun _ h => h.applyPkt.checkHeld)

theorem State.Canonical.arrivePkt {s : State} {m : MemberId} {w : ℕ} {p : Pkt} (hs : s.Canonical) : (Machine.arrivePkt s m w p).Canonical := by
  unfold Machine.arrivePkt
  refine .ite hs.after (.ite hs.arriveCommon.modMember ?_)
  split
  · exact hs.arriveCommon.modMember.sendAck
  · rename_i t heq
    have h1 : t.Canonical := hs.arriveCommon.acceptPkt.of_eq heq
    have h2 : ((Machine.applyOne t m).getD t).Canonical := h1.applyOne.getD h1
    exact .ite h2.after h2

theorem State.Canonical.arrival {s : State} {ty : ℕ} (hs : s.Canonical) : (Machine.arrival s ty).Canonical := by
  unfold Machine.arrival
  split
  · exact .ite hs.arrivePkt trivial
  · trivial

theorem State.Canonical.execWritePacket {s : State} (hs : s.Canonical) : (Machine.execWritePacket s).Canonical := hs.arrival

theorem State.Canonical.execReadPacket {s : State} (hs : s.Canonical) : (Machine.execReadPacket s).Canonical := hs.arrival

theorem State.Canonical.execRdresp {s : State} (hs : s.Canonical) : (Machine.execRdresp s).Canonical := hs.arrival

theorem State.Canonical.execAtomicPacket {s : State} (hs : s.Canonical) : (Machine.execAtomicPacket s).Canonical := hs.arrival

theorem State.Canonical.execAtresp {s : State} (hs : s.Canonical) : (Machine.execAtresp s).Canonical := hs.arrival

theorem State.Canonical.execFeop {s : State} (hs : s.Canonical) : (Machine.execFeop s).Canonical := hs.arrival

theorem State.Canonical.execCdata {s : State} (hs : s.Canonical) : (Machine.execCdata s).Canonical := hs.arrival

theorem State.Canonical.execCflush {s : State} (hs : s.Canonical) : (Machine.execCflush s).Canonical := hs.arrival

theorem State.Canonical.execTkreq {s : State} (hs : s.Canonical) : (Machine.execTkreq s).Canonical := hs.arrival

theorem State.Canonical.execTkcall {s : State} (hs : s.Canonical) : (Machine.execTkcall s).Canonical := hs.arrival

theorem State.Canonical.execBartok {s : State} (hs : s.Canonical) : (Machine.execBartok s).Canonical := hs.arrival

theorem State.Canonical.execFifoPacket {s : State} (hs : s.Canonical) : (Machine.execFifoPacket s).Canonical := by
  unfold Machine.execFifoPacket
  split
  · exact .ite hs.pushDone.fifoArrive hs.arrival
  · trivial

theorem State.Canonical.execDemand {s : State} (hs : s.Canonical) : (Machine.execDemand s).Canonical := by
  unfold Machine.execDemand
  split
  · exact .ite hs.arrival (.ite trivial (.ite hs.demandAct hs.sendPkt))
  · trivial

theorem State.Canonical.ackedAccess {s : State} {a : Access} (hs : s.Canonical) : (Machine.ackedAccess s a).Canonical := by
  unfold Machine.ackedAccess
  split
  case h_1 => exact hs.fillDone.performedAcc
  case h_6 => exact .ite hs.performedAcc hs
  case h_7 => exact hs.performedAcc
  all_goals exact hs

theorem State.Canonical.ackArrive {s : State} {m : MemberId} {p : Pkt} (hs : s.Canonical) : (Machine.ackArrive s m p).Canonical :=
  (hs.modMember.foldl (fun _ _ h1 => h1.ackedAccess)).pumpOut.pokeColl

theorem State.Canonical.execAckPacket {s : State} (hs : s.Canonical) : (Machine.execAckPacket s).Canonical := by
  unfold Machine.execAckPacket
  split
  · exact .ite (.ite hs.after hs.arriveCommon.ackArrive) trivial
  · trivial

theorem State.Canonical.failRemote {s : State} {m : MemberId} {dst : ℕ} (hs : s.Canonical) : (Machine.failRemote s m dst).Canonical := by
  unfold Machine.failRemote
  dsimp only
  refine hs.foldl ?_
  intro t x h1
  split
  · exact h1.stmFail
  · exact h1.foundMember

theorem State.Canonical.abortTo {s : State} {m : MemberId} {dst : ℕ} {l : List Pkt} (hs : s.Canonical) : (Machine.abortTo s m dst l).Canonical := by
  unfold Machine.abortTo
  refine hs.foldl ?_
  intro t x h1
  split
  · exact .ite h1.after h1
  · exact h1

theorem State.Canonical.declareUnreachable {s : State} {m : MemberId} {dst seq tries : ℕ} (hs : s.Canonical) :
    (Machine.declareUnreachable s m dst seq tries).Canonical :=
  hs.modMember.fabricEvent.failRemote.abortTo

theorem State.Canonical.execRetransmitTimeout {s : State} (hs : s.Canonical) : (Machine.execRetransmitTimeout s).Canonical := by
  unfold Machine.execRetransmitTimeout
  dsimp only
  split
  · trivial
  · exact .ite hs.declareUnreachable hs.modMember.sendAt.after

theorem State.Canonical.execStampWaitApply {s : State} (hs : s.Canonical) : (Machine.execStampWaitApply s).Canonical := by
  unfold Machine.execStampWaitApply
  split
  · rename_i t1 heq
    have h1 : t1.Canonical := hs.applyOne.of_eq heq
    exact h1
  · trivial

theorem State.Canonical.execStampWaitTimeout {s : State} (hs : s.Canonical) : (Machine.execStampWaitTimeout s).Canonical := by
  unfold Machine.execStampWaitTimeout
  dsimp only
  split
  · exact hs.fabricEvent
  · trivial

theorem State.Canonical.sendBeacons {s : State} {m : MemberId} (hs : s.Canonical) : (Machine.sendBeacons s m).Canonical :=
  hs.foldl (fun _ _ h1 => h1.draw.after)

theorem State.Canonical.execBeaconTimer {s : State} (hs : s.Canonical) : (Machine.execBeaconTimer s).Canonical := .ite hs.sendBeacons.afterM trivial

theorem State.Canonical.execBeacon {s : State} (hs : s.Canonical) : (Machine.execBeacon s).Canonical := by
  unfold Machine.execBeacon
  split
  · exact .ite hs.raiseClock trivial
  · trivial

theorem State.Canonical.execRateLimitRise {s : State} (hs : s.Canonical) : (Machine.execRateLimitRise s).Canonical :=
  .ite (.next (.ite hs.modMember.after hs.modMember)) trivial

theorem State.Canonical.execTicketWindowEnd {s : State} (hs : s.Canonical) : (Machine.execTicketWindowEnd s).Canonical := hs.modDie.after

theorem State.Canonical.execTicketCall {s : State} (hs : s.Canonical) : (Machine.execTicketCall s).Canonical := by
  unfold Machine.execTicketCall
  dsimp only
  split
  · exact .ite hs.after (.next (.ite hs.modDie.sendPkt hs.modDie.sendPkt.after))
  · trivial

/-! ### Events of jobs and collectives -/

theorem State.Canonical.vaultReach {s : State} {m : MemberId} {va n : ℕ} {write : Bool} (hs : s.Canonical) :
    (Machine.vaultReach s m va n write).Canonical :=
  .ite trivial (.ite hs.drainRange hs)

theorem State.Canonical.engineFetch {s : State} {m : MemberId} {h ea n : ℕ} (hs : s.Canonical) : (Machine.engineFetch s m h ea n).Canonical := by
  unfold Machine.engineFetch
  split
  · exact hs
  · exact .ite hs.after hs.engineAccess

theorem State.Canonical.engineRead {s : State} {m : MemberId} {h ea n : ℕ} (hs : s.Canonical) : (Machine.engineRead s m h ea n).Canonical := by
  unfold Machine.engineRead
  split
  · split
    · rename_i k t1 heq
      have h1 : t1.Canonical := hs.vaultReach.of_eq heq
      exact .ite trivial h1
    · rename_i t1 heq
      have h1 : t1.Canonical := hs.vaultReach.of_eq heq
      exact h1.engineFetch
    · trivial
  · exact hs.engineFetch
  · refine .ite hs.engineFetch ?_
    split
    · rename_i t1 heq
      have h1 : t1.2.Canonical := hs.vaRead.of_eq heq
      exact h1
    · trivial

theorem State.Canonical.engineWrite {s : State} {m : MemberId} {h ea : ℕ} {l : List Byte} (hs : s.Canonical) :
    (Machine.engineWrite s m h ea l).Canonical := by
  unfold Machine.engineWrite
  dsimp only
  split
  · split
    · rename_i v t1 heq
      have h1 : t1.Canonical := hs.vaultReach.of_eq heq
      exact h1.putAt
    · rename_i t1 heq
      have h1 : t1.Canonical := hs.vaultReach.of_eq heq
      exact h1.engineAccess
    · trivial
  · exact hs.engineAccess
  · refine .ite hs.engineAccess ?_
    split
    · rename_i t1 heq
      have h1 : t1.Canonical := hs.vaWrite.of_eq heq
      exact h1
    · trivial

theorem State.Canonical.bufRead {s : State} {m : MemberId} {h : ℕ} {c : List Dword} {dst : Bool} {off n : ℕ} (hs : s.Canonical) :
    (Machine.bufRead s m h c dst off n).Canonical :=
  hs.engineRead

theorem State.Canonical.bufWrite {s : State} {m : MemberId} {h : ℕ} {c : List Dword} {dst : Bool} {off : ℕ} {l : List Byte} (hs : s.Canonical) :
    (Machine.bufWrite s m h c dst off l).Canonical := by
  unfold Machine.bufWrite
  split
  · rename_i t heq
    have h1 : t.Canonical := hs.engineWrite.of_eq heq
    exact State.Canonical.ite h1.modMember h1
  · exact hs.engineWrite

theorem State.Canonical.modColl {s : State} {m : MemberId} {h : ℕ} {f : Coll → Coll} (hs : s.Canonical) : (Machine.modColl s m h f).Canonical :=
  hs.modMember

theorem State.Canonical.askStep {s : State} {m : MemberId} {h n : ℕ} (hs : s.Canonical) : (Machine.askStep s m h n).Canonical := by
  unfold Machine.askStep
  split
  · exact hs.askOnce
  · exact hs

theorem State.Canonical.nextStep {s : State} {m : MemberId} {h : ℕ} {nxt : ℕ → ℕ} (hs : s.Canonical) : (Machine.nextStep s m h nxt).Canonical :=
  hs.modColl.modMember.askStep

theorem State.Canonical.moveOn {s : State} {m : MemberId} {h n : ℕ} (hs : s.Canonical) : (Machine.moveOn s m h n).Canonical := hs.modColl.askStep

theorem State.Canonical.discardLanding {s : State} {m : MemberId} {cid : ℕ} (hs : s.Canonical) : (Machine.discardLanding s m cid).Canonical :=
  hs.modMember.foldl (fun _ _ h1 => h1.countPkt)

theorem State.Canonical.abortColl {s : State} {m : MemberId} {h : ℕ} {j : Job} {first : Bool} (hs : s.Canonical) :
    (Machine.abortColl s m h j first).Canonical :=
  .finishJob (.ite (hs.modMember.discardLanding.fabricEvent.foldl (fun _ _ h1 => h1.draw.after)) hs.modMember.discardLanding)

theorem State.Canonical.failColl {s : State} {m : MemberId} {h : ℕ} {j : Job} {cause : ℕ} {v : Dword} (hs : s.Canonical) :
    (Machine.failColl s m h j cause v).Canonical :=
  hs.report.abortColl

theorem State.Canonical.beginColl {s : State} {m : MemberId} {h : ℕ} {j : Job} (hs : s.Canonical) : (Machine.beginColl s m h j).Canonical := by
  unfold Machine.beginColl
  refine .ite hs.after ?_
  split
  · exact hs.modMember.abortColl
  · exact .ite hs.askStep hs.abortColl

theorem State.Canonical.execJobActivate {s : State} (hs : s.Canonical) : (Machine.execJobActivate s).Canonical := by
  unfold Machine.execJobActivate
  dsimp only
  split
  · split
    · exact .ite hs.beginColl trivial
    · trivial
  · split
    · refine .ite trivial ?_
      split
      · trivial
      · refine .next (.ite (.beginColl ?asked) (.afterM ?asked))
        exact .ite hs.modDie.modMember hs.modDie.modMember.afterM
    · trivial

theorem State.Canonical.execChunkIssue {s : State} (hs : s.Canonical) : (Machine.execChunkIssue s).Canonical := by
  unfold Machine.execChunkIssue
  dsimp only
  refine .ite trivial ?_
  split
  · exact .ite hs.afterM trivial
  · split
    · trivial
    · split
      · exact .next (.afterM (.sendPkt (.modMember (.ite hs.modDie.noteStart hs.modDie))))
      · exact .next (.afterM (.chunkStart (.modMember (.ite hs.modDie.noteStart hs.modDie))))
      · exact .next (.afterM (.chunkStart (.ite hs.modDie.noteStart hs.modDie)))

theorem State.Canonical.execChunkBoundary {s : State} (hs : s.Canonical) : (Machine.execChunkBoundary s).Canonical := by
  unfold Machine.execChunkBoundary
  dsimp only
  split
  · exact .ite (.ite hs.askStep trivial) (.ite hs.chunkDone trivial)
  · trivial

theorem State.Canonical.execJobOutFill {s : State} (hs : s.Canonical) : (Machine.execJobOutFill s).Canonical := by
  unfold Machine.execJobOutFill
  dsimp only
  split
  · refine .ite ?_ trivial
    split
    · exact hs.modMember.engineAccess
    · exact hs.modMember.afterM
  · trivial

theorem State.Canonical.execJobBarrierArrival {s : State} (hs : s.Canonical) : (Machine.execJobBarrierArrival s).Canonical := by
  unfold Machine.execJobBarrierArrival
  dsimp only
  split
  · exact .ite (.ite hs.modMember.engineAccess hs.modMember.afterM) trivial
  · trivial

theorem State.Canonical.packetAborted {s : State} {m : MemberId} {key : ℕ} (hs : s.Canonical) : (Machine.packetAborted s m key).Canonical :=
  hs.modMember

theorem State.Canonical.retireJob {s : State} {m : MemberId} {h : ℕ} {j : Job} (hs : s.Canonical) : (Machine.retireJob s m h j).Canonical := by
  unfold Machine.retireJob
  dsimp only
  refine .noteIdle (.foldl ?_ ?_)
  · split
    · exact .packetPart (.ite hs.modMember.retire.packetAborted hs.modMember.retire)
    · exact hs.modMember.retire
  · intro t x h1
    split
    · exact .ite h1.afterM h1
    · exact h1

theorem State.Canonical.execJobSignalWrite {s : State} (hs : s.Canonical) : (Machine.execJobSignalWrite s).Canonical := by
  unfold Machine.execJobSignalWrite
  dsimp only
  split
  · refine .ite hs.retireJob (.ite trivial (.ite hs.retireJob (.ite hs.modMember.engineAccess ?_)))
    split
    · rename_i t1 heq
      have h1 : t1.Canonical := hs.vaWrite.of_eq heq
      exact h1.tick.retireJob
    · exact hs.memoryEvent.retireJob
  · trivial

theorem State.Canonical.execTriggerFire {s : State} (hs : s.Canonical) : (Machine.execTriggerFire s).Canonical := by
  unfold Machine.execTriggerFire
  dsimp only
  split
  · refine .ite ?_ trivial
    split
    · exact hs.startJob.modMember
    · exact hs.modMember
  · trivial

theorem State.Canonical.awayTo {s : State} {num dm : ℕ} (hs : s.Canonical) : (s.awayTo num dm).Canonical := by
  unfold State.awayTo
  split
  · exact hs.setAccess
  · exact hs

theorem State.Canonical.execFifoOutTransfer {s : State} (hs : s.Canonical) : (Machine.execFifoOutTransfer s).Canonical := by
  unfold Machine.execFifoOutTransfer
  dsimp only
  split
  · split
    · refine .ite (.next (.ite ?sent (.after ?sent))) hs.after
      exact .ite hs.modCore.modCore.after hs.modCore.modCore.awayTo.sendPkt
    · split
      · exact .next (.ite hs.modCore.setAccess.update.due hs.modCore.setAccess.update.due.after)
      · exact .next (.ite hs.modCore.startAccess.ofBundle hs.modCore.startAccess.ofBundle.after)
    · exact hs.after
  · trivial

theorem State.Canonical.execFifoLoadFetch {s : State} (hs : s.Canonical) : (Machine.execFifoLoadFetch s).Canonical := by
  unfold Machine.execFifoLoadFetch
  dsimp only
  split
  · exact .ite (.ite hs.after hs.modCore.startAccess.ofBundle.after) trivial
  · trivial

theorem State.Canonical.execStepEnd {s : State} (hs : s.Canonical) : (Machine.execStepEnd s).Canonical := by
  unfold Machine.execStepEnd
  split
  · exact .ite hs.modMember.finishJob hs
  · trivial

theorem State.Canonical.execStepSend {s : State} (hs : s.Canonical) : (Machine.execStepSend s).Canonical := by
  unfold Machine.execStepSend
  dsimp only
  split
  · trivial
  · refine .ite hs.abortColl (.ite trivial (.ite hs (.ite hs.modColl.nextStep ?_)))
    split
    · rename_i t1 heq
      have h1 : t1.Canonical := hs.bufRead.of_eq heq
      exact h1
    · exact hs.failColl
    · rename_i l t1 heq
      have h1 : t1.Canonical := hs.bufRead.of_eq heq
      exact .next (.ite h1.sendPkt.modColl.nextStep h1.sendPkt.moveOn)

theorem State.Canonical.consumed {s : State} {m : MemberId} {h : ℕ} {p : Pkt} {peer n : ℕ} {fwd : Option ℕ} (hs : s.Canonical) :
    (Machine.consumed s m h p peer n fwd).Canonical :=
  .ite hs.modMember.countPkt.checkHeld.modColl.nextStep hs.modMember.countPkt.checkHeld.moveOn

theorem State.Canonical.receive {s : State} {m : MemberId} {h : ℕ} {j : Job} {w : StepWord} {reduce : Bool} {fwd : Option ℕ} (hs : s.Canonical) :
    (Machine.receive s m h j w reduce fwd).Canonical := by
  unfold Machine.receive
  dsimp only
  refine .ite hs.abortColl ?_
  split
  · exact hs
  · refine .ite hs ?_
    split
    · rename_i t1 heq
      have h1 : t1.Canonical := Reach.Canonical.of_eq heq (.ite hs.bufRead hs)
      exact h1
    · exact hs.failColl
    · rename_i d t1 heq
      have h1 : t1.Canonical := Reach.Canonical.of_eq heq (.ite hs.bufRead hs)
      split
      · rename_i t2 heq
        have h2 : t2.Canonical := h1.bufWrite.of_eq heq
        exact h2
      · exact h1.failColl
      · rename_i v t2 heq
        have h2 : t2.Canonical := h1.bufWrite.of_eq heq
        refine .consumed ?_
        split
        · exact h2.sendPkt
        · exact h2

theorem State.Canonical.execStepRecv {s : State} (hs : s.Canonical) : (Machine.execStepRecv s).Canonical := by
  unfold Machine.execStepRecv
  split
  · exact hs.receive
  · trivial

theorem State.Canonical.execStepRrs {s : State} (hs : s.Canonical) : (Machine.execStepRrs s).Canonical := by
  unfold Machine.execStepRrs
  split
  · exact .ite trivial hs.receive
  · trivial

theorem State.Canonical.execStepRrd {s : State} (hs : s.Canonical) : (Machine.execStepRrd s).Canonical := by
  unfold Machine.execStepRrd
  split
  · exact hs.receive
  · trivial

theorem State.Canonical.copyPiece {s : State} {m : MemberId} {h : ℕ} {c : List Dword} {w : StepWord} {off n : ℕ} (hs : s.Canonical) :
    (Machine.copyPiece s m h c w off n).Canonical := by
  unfold Machine.copyPiece
  dsimp only
  split
  case h_1 | h_4 =>
    split
    · rename_i l t heq
      have h1 : t.Canonical := hs.bufRead.of_eq heq
      exact h1
    · rename_i t heq
      have h1 : t.Canonical := hs.bufRead.of_eq heq
      exact h1
    · trivial
  case h_2 | h_3 =>
    split
    · rename_i e t heq
      have h1 : t.Canonical := hs.bufRead.of_eq heq
      split
      · rename_i l r heq
        have h2 : r.Canonical := h1.bufRead.of_eq heq
        exact h2.draw
      · rename_i r heq
        have h2 : r.Canonical := h1.bufRead.of_eq heq
        exact h2
      · trivial
    · rename_i t heq
      have h1 : t.Canonical := hs.bufRead.of_eq heq
      exact h1
    · trivial

theorem State.Canonical.execStepCopy {s : State} (hs : s.Canonical) : (Machine.execStepCopy s).Canonical := by
  unfold Machine.execStepCopy
  dsimp only
  split
  · trivial
  · refine .ite hs ?_
    split
    · rename_i t1 heq
      have h1 : t1.Canonical := hs.copyPiece.of_eq heq
      exact h1
    · exact hs.failColl
    · rename_i p t1 heq
      have h1 : t1.Canonical := hs.copyPiece.of_eq heq
      split
      · rename_i t2 heq
        have h2 : t2.Canonical := h1.bufWrite.of_eq heq
        exact h2
      · exact h1.failColl
      · rename_i v t2 heq
        have h2 : t2.Canonical := h1.bufWrite.of_eq heq
        exact .next (.ite h2.nextStep h2.moveOn)

theorem State.Canonical.execStepWait {s : State} (hs : s.Canonical) : (Machine.execStepWait s).Canonical := by
  unfold Machine.execStepWait
  split
  · exact .ite hs hs.nextStep
  · trivial

theorem State.Canonical.execStepSignal {s : State} (hs : s.Canonical) : (Machine.execStepSignal s).Canonical := by
  unfold Machine.execStepSignal
  dsimp only
  split
  · trivial
  · refine .ite hs (.ite hs.tick.nextStep ?_)
    split
    · rename_i t1 heq
      have h1 : t1.Canonical := hs.engineWrite.of_eq heq
      exact h1
    · exact hs.failColl
    · rename_i v t1 heq
      have h1 : t1.Canonical := hs.engineWrite.of_eq heq
      exact .next (.ite h1.tick.nextStep h1.modColl)

theorem State.Canonical.execStepLoop {s : State} (hs : s.Canonical) : (Machine.execStepLoop s).Canonical := by
  unfold Machine.execStepLoop
  split
  · exact hs.modColl.nextStep
  · trivial

theorem State.Canonical.execStepEndl {s : State} (hs : s.Canonical) : (Machine.execStepEndl s).Canonical := by
  unfold Machine.execStepEndl
  split
  · exact hs.modColl.nextStep
  · trivial

theorem State.Canonical.execStepPeer {s : State} (hs : s.Canonical) : (Machine.execStepPeer s).Canonical := by
  unfold Machine.execStepPeer
  dsimp only
  split
  · exact hs.modColl.nextStep
  · trivial

theorem State.Canonical.execStepBar {s : State} (hs : s.Canonical) : (Machine.execStepBar s).Canonical := by
  unfold Machine.execStepBar
  dsimp only
  split
  · trivial
  · refine .ite hs (.ite hs.tick.nextStep (.ite (.ite trivial hs.sendPkt.modColl.askStep) ?_))
    split
    · exact hs
    · exact hs.modMember.countPkt.modColl.askStep

theorem State.Canonical.execCollectiveAbortNotice {s : State} (hs : s.Canonical) : (Machine.execCollectiveAbortNotice s).Canonical := by
  unfold Machine.execCollectiveAbortNotice
  dsimp only
  refine .ite trivial ?_
  split
  · exact hs.abortColl
  · exact hs.modMember

/-! ### The front end -/

theorem State.Canonical.stopQueue {s : State} {m : MemberId} {q va reason : ℕ} (hs : s.Canonical) : (Machine.stopQueue s m q va reason).Canonical :=
  .report (.ite hs.store hs.modVd.parseAll)

theorem State.Canonical.checkOwn15 {s : State} {m : MemberId} (hs : s.Canonical) : (Machine.checkOwn15 s m).Canonical := .ite hs.store.report hs

theorem State.Canonical.lookAt {s : State} {m : MemberId} {q : ℕ} (hs : s.Canonical) : (Machine.lookAt s m q).Canonical := by
  unfold Machine.lookAt
  dsimp only
  refine .ite hs (.ite (.ite hs.checkOwn15 hs) ?_)
  split
  · exact .stopQueue (.ite hs.checkOwn15 hs)
  · refine .ite (.ite hs.checkOwn15 hs) ?_
    split
    · exact .stopQueue (.ite hs.checkOwn15 hs)
    · rename_i t1 heq
      have h1 : t1.2.Canonical := (State.Canonical.vaRead (.ite hs.checkOwn15 hs)).of_eq heq
      split
      · exact h1.draw.after
      · exact .stopQueue (.ite hs.checkOwn15 hs)

theorem State.Canonical.execQueueDoorbell {s : State} (hs : s.Canonical) : (Machine.execQueueDoorbell s).Canonical := .ite hs.lookAt trivial

theorem State.Canonical.execQueuePoll {s : State} (hs : s.Canonical) : (Machine.execQueuePoll s).Canonical :=
  .ite trivial (hs.foldl (fun _ _ h1 => h1.lookAt)).afterM

theorem State.Canonical.nextPacket {s : State} {ty : ℕ} (hs : s.Canonical) : CanonicalOpt Prod.snd (Machine.nextPacket s ty) := by
  unfold Machine.nextPacket
  dsimp only
  refine .ite (.ite ?_ trivial) (.ite ?_ trivial)
  · split
    · rename_i t1 heq
      have h1 : t1.2.Canonical := hs.vaDwords.of_eq heq
      exact h1
    · trivial
  · split
    · rename_i t1 heq
      have h1 : t1.2.Canonical := hs.vaDwords.of_eq heq
      exact .ite h1 trivial
    · trivial

theorem State.Canonical.parsed {s : State} {q i : ℕ} {dw : List Dword} {left : ℕ} {sat : List ℕ} (hs : s.Canonical) :
    (Machine.parsed s q i dw left sat).Canonical :=
  .ite hs.notIdle.modMember.store.after hs.notIdle.modMember

theorem State.Canonical.malformed {s : State} {reason : ℕ} (hs : s.Canonical) : (Machine.malformed s reason).Canonical := hs.stopQueue

theorem State.Canonical.completeNow {s : State} (hs : s.Canonical) : (Machine.completeNow s).Canonical := hs.afterM

theorem State.Canonical.placeItems {s : State} {m : MemberId} {map w n i : ℕ} {acc : Option ℕ × ℕ} (hs : s.Canonical) :
    CanonicalExc Prod.snd (Machine.placeItems s m map w n i acc) := by
  induction n generalizing i acc s with
  | zero => exact hs
  | succ n ih =>
    unfold Machine.placeItems
    split
    · trivial
    · rename_i r heq
      have h1 : r.2.Canonical := hs.vaDwords.of_eq heq
      refine .ite ?_ (ih h1)
      split
      · trivial
      · rename_i t ht
        exact ih (h1.vaWrite.of_eq ht)

theorem State.Canonical.readLaunch {s : State} {m : MemberId} {q i : ℕ} {dw : List Dword} (hs : s.Canonical) :
    CanonicalExc Prod.snd (Machine.readLaunch s m q i dw) := by
  unfold Machine.readLaunch
  dsimp only
  refine .ite trivial (.ite trivial (.ite trivial (.ite trivial ?_)))
  split
  · trivial
  · rename_i t1 heq
    have h1 : t1.2.Canonical := hs.vaRead.of_eq heq
    split
    · trivial
    · rename_i t2 heq
      have h2 : t2.2.Canonical := h1.vaDwords.of_eq heq
      split
      · trivial
      · rename_i t3 heq
        have h3 : t3.2.Canonical := h2.vaDwords.of_eq heq
        refine .ite trivial ?_
        split
        · trivial
        · rename_i t4 heq
          have h4 : t4.2.Canonical := CanonicalExc.of_eq (g := Prod.snd) heq (.ite h3.placeItems h3)
          exact h4.draw

theorem State.Canonical.execLaunchPacket {s : State} (hs : s.Canonical) : (Machine.execLaunchPacket s).Canonical := by
  unfold Machine.execLaunchPacket
  dsimp only
  split
  · refine .ite ?_ trivial
    split
    · exact hs.malformed
    · rename_i t1 heq
      have h1 : t1.2.Canonical := hs.vaDwords.of_eq heq
      exact h1.malformed
  · rename_i dw t1 heq
    have h1 : t1.Canonical := hs.nextPacket.of_eq heq
    split
    · exact h1.malformed
    · rename_i l t2 heq
      have h2 : t2.Canonical := h1.readLaunch.of_eq heq
      exact h2.parsed.modMember.draw.afterM

theorem State.Canonical.putPreset {d : ℕ} {m : MemberId} {s : State} {p : Dword × Dword} (hs : s.Canonical) :
    (Machine.putPreset d m s p).Canonical := by
  unfold Machine.putPreset
  dsimp only
  split
  · exact hs.drainRange.putAt.setFe.filled.serve
  · exact hs.setFe.serve
  · exact hs.barrierAct

theorem State.Canonical.placePane {s : State} {m : MemberId} {l : Launch} (hs : s.Canonical) : (Machine.placePane s m l).Canonical := by
  unfold Machine.placePane
  dsimp only
  split
  · exact hs.waitGranule
  · refine .ite ?h (.afterM ?h)
    exact ((hs.foldl fun _ _ h => h.putPreset).foldl fun _ _ h => h.modCore).modMember.noteStart

theorem State.Canonical.execPanePlacement {s : State} (hs : s.Canonical) : (Machine.execPanePlacement s).Canonical := by
  unfold Machine.execPanePlacement
  dsimp only
  refine .ite trivial ?_
  split
  · exact hs.placePane
  · trivial

theorem State.Canonical.execTaskDispatch {s : State} (hs : s.Canonical) : (Machine.execTaskDispatch s).Canonical := by
  unfold Machine.execTaskDispatch
  refine .ite trivial ?_
  split
  · rename_i t1 heq
    have h1 : t1.Canonical := hs.dispatchTurn.of_eq heq
    exact h1
  · trivial

theorem brecOn_cons {α β γ δ : Type} {F : (l : List α) → List.below (motive := fun _ => β → γ → δ) l → β → γ → δ} {f : List α → β → γ → δ}
    (hf : f = fun l b c => List.brecOn (motive := fun _ => β → γ → δ) l F b c) (x : α) (l : List α) :
    f (x :: l) = F (x :: l) ⟨f l, (List.brecOn.go l F).2⟩ := by
  subst hf
  rfl
theorem spawnRecords_eq (m : MemberId) (key : ℕ) :
    spawnRecords m key = fun l b c => List.brecOn (motive := fun _ => ℕ → State → ℕ × State) l (spawnRecords._f m key) b c := by
  delta spawnRecords
  exact rfl

theorem State.Canonical.spawnRecords {m : MemberId} {key : ℕ} {l : List (List Dword)} {i : ℕ} {s : State} (hs : s.Canonical) :
    (Machine.spawnRecords m key l i s).2.Canonical := by
  induction l generalizing i s with
  | nil => exact hs
  | cons r l ih =>
    rw [brecOn_cons (spawnRecords_eq m key)]
    unfold spawnRecords._f
    dsimp -zeta only
    split
    · rename_i _ t heq
      exact ih (hs.admitTask.of_pair heq)
    · exact hs

theorem State.Canonical.spawnRest {s : State} {p : Packet} (hs : s.Canonical) : (Machine.spawnRest s p).Canonical :=
  .ite hs.spawnRecords.modMember.after hs.spawnRecords.modMember.after

theorem State.Canonical.execTasksPacket {s : State} (hs : s.Canonical) : (Machine.execTasksPacket s).Canonical := by
  unfold Machine.execTasksPacket
  dsimp only
  split
  · exact .ite hs.spawnRest trivial
  · split
    · trivial
    · rename_i dw t1 heq
      have h1 : t1.Canonical := hs.nextPacket.of_eq heq
      split
      · exact h1.malformed
      · refine .ite h1.malformed ?_
        split
        · exact h1.malformed
        · rename_i l t2 heq
          have h2 : t2.Canonical := h1.vaDwords.of_eq heq
          refine .ite h2.malformed ?_
          split
          · exact h2.parsed.modMember.spawnRest
          · exact h2.parsed.modMember

theorem State.Canonical.execCopyPacket {s : State} (hs : s.Canonical) : (Machine.execCopyPacket s).Canonical := by
  unfold Machine.execCopyPacket
  dsimp only
  split
  · trivial
  · rename_i dw t1 heq
    have h1 : t1.Canonical := hs.nextPacket.of_eq heq
    split
    · exact h1.malformed
    · refine .ite h1.malformed ?_
      split
      · exact h1.malformed
      · rename_i card t2 heq
        have h2 : t2.Canonical := h1.vaDwords.of_eq heq
        refine .ite h2.malformed ?_
        split
        · exact h2.after
        · exact h2.parsed.startJob

theorem State.Canonical.readCounter {s : State} {m : MemberId} {d0 : ℕ} (hs : s.Canonical) : CanonicalExc Prod.snd (Machine.readCounter s m d0) :=
  .ite (.ite hs.drainRange trivial) (hs.vaRead.map fun _ h => h)

theorem State.Canonical.fenceRead {m : MemberId} {entries : List (Dword × Dword)} {s : State} {sat : List ℕ} (hs : s.Canonical) :
    (Machine.fenceRead m entries s sat).2.2.Canonical := by
  refine .foldlWith (g := fun r : List ℕ × Bool × State => r.2.2) hs fun acc i h => ?_
  dsimp only
  split
  · exact h
  · split
    · exact h
    · rename_i r heq
      have h1 : r.2.Canonical := h.readCounter.of_eq heq
      split
      · exact h1
      · exact h1

theorem State.Canonical.pollLater {s : State} {m : MemberId} {key : ℕ} (hs : s.Canonical) : (Machine.pollLater s m key).Canonical := hs.draw.afterM

theorem State.Canonical.execFencePacket {s : State} (hs : s.Canonical) : (Machine.execFencePacket s).Canonical := by
  unfold Machine.execFencePacket
  dsimp only
  split
  · trivial
  · rename_i dw t1 heq
    have h1 : t1.Canonical := hs.nextPacket.of_eq heq
    split
    · exact h1.malformed
    · refine .ite h1.malformed ?_
      split
      · exact h1.malformed
      · rename_i l t2 heq
        have h2 : t2.Canonical := h1.vaDwords.of_eq heq
        exact .ite h2.malformed (.ite h2.malformed (.next (.ite h2.fenceRead.parsed.completeNow h2.fenceRead.parsed.pollLater)))

theorem State.Canonical.execFenceCounterPoll {s : State} (hs : s.Canonical) : (Machine.execFenceCounterPoll s).Canonical := by
  unfold Machine.execFenceCounterPoll
  dsimp only
  split
  · trivial
  · exact .ite trivial (.next (.ite hs.fenceRead.modMember.afterM hs.fenceRead.modMember.pollLater))

theorem State.Canonical.signalAct {s : State} {m : MemberId} {q : ℕ} {dw : List Dword} (hs : s.Canonical) :
    (Machine.signalAct s m q dw).Canonical := by
  unfold Machine.signalAct
  dsimp only
  split
  · rename_i t heq
    refine State.Canonical.tick (CanonicalExc.of_eq (g := id) heq (.ite ?_ hs.vaWrite))
    split
    · trivial
    · rename_i r hr
      have h1 : r.2.Canonical := hs.vaRead.of_eq hr
      exact h1.vaWrite
  · exact hs.memoryEvent

theorem State.Canonical.actOrWait {s : State} {dw : List Dword} {wait : List ℕ} {act : State → State} (hs : s.Canonical)
    (hact : ∀ t0, t0.Canonical → (act t0).Canonical) :
    (Machine.actOrWait s dw wait act).Canonical :=
  .ite (hact _ hs.parsed).completeNow hs.parsed

theorem State.Canonical.heldAct {s : State} {ty : ℕ} {act : State → Packet → State} (hs : s.Canonical)
    (hact : ∀ t0 x1, t0.Canonical → (act t0 x1).Canonical) :
    CanonicalOpt id (Machine.heldAct s ty act) := by
  unfold Machine.heldAct
  split
  · exact .ite (hact _ _ hs.modMember).completeNow trivial
  · trivial

theorem State.Canonical.execSignalPacket {s : State} (hs : s.Canonical) : (Machine.execSignalPacket s).Canonical := by
  unfold Machine.execSignalPacket
  dsimp only
  split
  · rename_i t heq
    have h1 : t.Canonical := (hs.heldAct fun _ _ h => h.signalAct).of_eq heq
    exact h1
  · trivial
  · rename_i dw t _ heq
    have h1 : t.Canonical := hs.nextPacket.of_eq heq
    split
    · exact h1.malformed
    · exact h1.actOrWait fun _ h => h.signalAct

theorem State.Canonical.execStrikePacket {s : State} (hs : s.Canonical) : (Machine.execStrikePacket s).Canonical := by
  unfold Machine.execStrikePacket
  dsimp only
  split
  · rename_i t heq
    have h1 : t.Canonical := (hs.heldAct fun _ _ h => by split; exacts [h.strikeVd.tick, h]).of_eq heq
    exact h1
  · trivial
  · rename_i dw t _ heq
    have h1 : t.Canonical := hs.nextPacket.of_eq heq
    split
    · exact h1.malformed
    · exact h1.malformed
    · refine h1.actOrWait fun _ h => ?_
      split
      · exact h.strikeVd.tick
      · exact h

theorem State.Canonical.execDimPacket {s : State} (hs : s.Canonical) : (Machine.execDimPacket s).Canonical := by
  unfold Machine.execDimPacket
  dsimp only
  split
  · rename_i t heq
    have h1 : t.Canonical := (hs.heldAct fun _ _ h => h.dimMember).of_eq heq
    exact h1
  · trivial
  · rename_i dw t _ heq
    have h1 : t.Canonical := hs.nextPacket.of_eq heq
    split
    · exact h1.malformed
    · exact h1.actOrWait fun _ h => h.dimMember

theorem State.Canonical.execBarrierPacket {s : State} (hs : s.Canonical) : (Machine.execBarrierPacket s).Canonical := by
  unfold Machine.execBarrierPacket
  dsimp only
  split
  · rename_i t heq
    have h1 : t.Canonical := (hs.heldAct fun _ _ h => h).of_eq heq
    exact h1
  · trivial
  · rename_i dw t _ heq
    have h1 : t.Canonical := hs.nextPacket.of_eq heq
    split
    · exact h1.malformed
    · exact h1.actOrWait fun _ h => h

theorem State.Canonical.execNopPacket {s : State} (hs : s.Canonical) : (Machine.execNopPacket s).Canonical := by
  unfold Machine.execNopPacket
  dsimp only
  split
  · trivial
  · rename_i dw t1 heq
    have h1 : t1.Canonical := hs.nextPacket.of_eq heq
    split
    · exact h1.malformed
    · exact h1.actOrWait (fun _ h2 => h2)

theorem State.Canonical.packetGone {s : State} {m : MemberId} {key : ℕ} (hs : s.Canonical) : (Machine.packetGone s m key).Canonical := by
  unfold Machine.packetGone
  dsimp only
  refine ((hs.modMember.modMember.foldl ?_).foldl (fun _ _ h1 => .ite h1.after h1)).noteIdle
  intro t x h1
  refine .ite ?_ h1
  split
  · exact h1.after
  · exact h1

theorem State.Canonical.packetSignal {s : State} {m : MemberId} {p : Packet} (hs : s.Canonical) : (Machine.packetSignal s m p).Canonical := by
  unfold Machine.packetSignal
  refine .ite ?_ hs
  split
  · rename_i t1 heq
    have h1 : t1.Canonical := hs.vaWrite.of_eq heq
    exact h1.tick
  · exact hs.memoryEvent

theorem State.Canonical.execPacketCompletion {s : State} (hs : s.Canonical) : (Machine.execPacketCompletion s).Canonical := by
  unfold Machine.execPacketCompletion
  dsimp only
  refine .ite hs.after ?_
  split
  · exact .ite hs.after trivial
  · exact .ite hs.draw.after.packetGone (.ite (.ite hs.modMember hs.packetSignal.packetGone) hs.packetSignal.packetGone)

/-! ### A context leaves its die and comes back -/

theorem State.Canonical.capture {s : State} {w : Option ℕ} {m : MemberId} {p : Pkt} (hs : s.Canonical) : (Machine.capture s w m p).Canonical := by
  unfold Machine.capture
  dsimp only
  split
  · exact hs.modMember.modSwitch
  · exact hs.modMember.modMember

theorem State.Canonical.captureAll {s : State} {w : Option ℕ} {l : List (MemberId × Pkt)} (hs : s.Canonical) :
    (Machine.captureAll s w l).2.Canonical := by
  refine .foldlWith (g := Prod.snd) hs fun acc e h => ?_
  split
  · exact h
  · exact h.capture

theorem State.Canonical.captureDue {s : State} {w : Option ℕ} {sel : MemberId → Pkt → Instr → ℕ → Bool} (hs : s.Canonical) :
    (Machine.captureDue s w sel).2.Canonical :=
  hs.captureAll.update

theorem State.Canonical.captureNi {s : State} {m : MemberId} {marked : Bool} (hs : s.Canonical) : (Machine.captureNi s m marked).2.Canonical :=
  hs.captureAll.modMember.update.modDie

theorem State.Canonical.sweepGang {s : State} {vd : ℕ} (hs : s.Canonical) : (Machine.sweepGang s vd).Canonical := hs.captureDue

theorem State.Canonical.saveCtx {s : State} {d : ℕ} {m : MemberId} (hs : s.Canonical) : (Machine.saveCtx s d m).Canonical := by
  unfold Machine.saveCtx
  lift_lets
  intro s1 s2 s3 s4 mine gone as s5 cs s6 s7
  have h1 : s1.Canonical := hs.foldl fun _ _ h => h.drainEntry
  have h4 : s4.Canonical := h1.sweepGang.captureNi.saveSlots
  have h5 : s5.Canonical := h4.update
  have h6 : s6.Canonical := h5.update
  exact h6.modMember.modDie

theorem State.Canonical.reissue {s : State} {a : Access} (hs : s.Canonical) : (Machine.reissue s a).Canonical := by
  unfold Machine.reissue
  dsimp only
  split
  · exact hs.update
  · exact hs.update.due
  · exact hs.update
  · exact hs.update
  · split
    · exact hs.update
    · exact hs.update
    · exact hs.update.due
  · exact hs.update.due

theorem State.Canonical.redeliver {m : MemberId} {s : State} {p : Pkt} (hs : s.Canonical) : (Machine.redeliver m s p).Canonical :=
  .ite hs.after (.ite hs.after (.ite hs.modMember (.ite hs.modMember.checkHeld hs.modDie.after)))

theorem State.Canonical.deliverNet {s : State} {m : MemberId} (hs : s.Canonical) : (Machine.deliverNet s m).Canonical :=
  hs.modMember.foldl (fun _ _ h1 => h1.redeliver)

theorem State.Canonical.wakeEngines {s : State} {m : MemberId} (hs : s.Canonical) : (Machine.wakeEngines s m).Canonical :=
  (hs.pumpOut.foldl (fun _ _ h1 => h1.afterM)).afterM.pokeColl

theorem State.Canonical.resumeDue {s : State} {m : MemberId} {n : ℕ} (hs : s.Canonical) : (Machine.resumeDue s m n).Canonical := hs

theorem State.Canonical.reinstallSlots {s : State} {vd : ℕ} (hs : s.Canonical) : (Machine.reinstallSlots s vd).Canonical :=
  (hs.foldl (fun _ _ h1 => h1.reinstallSlot)).modMember

theorem State.Canonical.loadCtx {s : State} {m : MemberId} (hs : s.Canonical) : (Machine.loadCtx s m).Canonical := by
  refine .wakeEngines (.checkHeld (.askDispatch (.afterM (.afterM (.ite ?h (.foldl ?h fun _ _ h => h.after))))))
  exact (hs.update.modDie.modMember.foldl fun _ _ h => h.reissue).reinstallSlots.deliverNet.resumeDue.sendBeacons.afterM

theorem State.Canonical.discardWork {s : State} {m : MemberId} (hs : s.Canonical) : (Machine.discardWork s m).Canonical := hs.modMember.update

theorem State.Canonical.abandon {s : State} {vd : ℕ} (hs : s.Canonical) : (Machine.abandon s vd).Canonical := by
  unfold Machine.abandon
  dsimp only
  refine hs.foldl ?_
  intro t x h1
  refine h1.discardWork.foldl ?_
  intro t x h2
  split
  · rename_i t3 heq
    have h3 : t3.Canonical := h2.vaWrite.of_eq heq
    exact h3
  · exact h2.memoryEvent

theorem State.Canonical.spillDie {s : State} {d : ℕ} {sel : MemberId → Bool} (hs : s.Canonical) : (Machine.spillDie s d sel).Canonical := by
  unfold Machine.spillDie
  refine hs.foldl ?_
  intro t x h1
  split
  · exact .ite h1.drainRange.copyAll.modMember.setGran h1
  · exact h1

theorem State.Canonical.dropGranules {s : State} {m : MemberId} (hs : s.Canonical) : (Machine.dropGranules s m).Canonical := hs.modDie

theorem State.Canonical.vaultOff {s : State} {d : ℕ} (hs : s.Canonical) : (Machine.vaultOff s d).Canonical := hs.spillDie.modDie

theorem State.Canonical.gateDies {s : State} (hs : s.Canonical) : (Machine.gateDies s).Canonical :=
  hs.foldl (fun _ _ h1 => .ite (.ite h1.modDie h1.modDie.vaultOff) h1)

/-! ### The gang controller -/

theorem State.Canonical.setVote {s : State} {f : Vote → Vote} (hs : s.Canonical) : (Machine.setVote s f).Canonical := hs

theorem State.Canonical.watch {s : State} (hs : s.Canonical) : (Machine.watch s).Canonical := hs.setVote.after

theorem State.Canonical.sendSnuff {s : State} {v : Vote} (hs : s.Canonical) : (Machine.sendSnuff s v).Canonical :=
  (hs.update.foldl (fun _ _ h1 => h1.draw.after)).after.after.watch

theorem State.Canonical.makeChanges {s : State} (hs : s.Canonical) : (Machine.makeChanges s).Canonical :=
  (hs.foldl (fun _ _ h1 => .ite h1.update h1)).setVote

theorem State.Canonical.sendRelight {s : State} (hs : s.Canonical) : (Machine.sendRelight s).Canonical :=
  (hs.makeChanges.setVote.foldl (fun _ _ h1 => h1.draw.after)).setVote

theorem State.Canonical.resumeIdle {s : State} {vd : ℕ} (hs : s.Canonical) : (Machine.resumeIdle s vd).Canonical := by
  unfold Machine.resumeIdle
  split
  · exact hs.modVd.due
  · exact hs.noteIdle

theorem State.Canonical.voteDone {s : State} (hs : s.Canonical) : (Machine.voteDone s).Canonical := by
  unfold Machine.voteDone
  dsimp only
  refine .gateDies (.ite ?h (.after (.update ?h)))
  refine State.Canonical.foldl (hs.update.foldl ?_) fun _ _ h => .resumeIdle (.ite h h.wakeDone)
  intro t n h
  split
  · exact h.modVd.draw.after
  · exact h.modVd.after
  · exact h.modVd

theorem State.Canonical.beginVote {s : State} {leaving coming : List ℕ} {slot : ℕ} {kill restricted : Bool}
    {changes : List (ℕ × Cell × Cell)} (hs : s.Canonical) :
    (Machine.beginVote s leaving coming slot kill restricted changes).Canonical :=
  .ite (.ite hs.update.makeChanges.voteDone hs.update.sendRelight) hs.sendSnuff

theorem State.Canonical.takePending {s : State} (hs : s.Canonical) : (Machine.takePending s).Canonical := by
  unfold Machine.takePending
  split
  · exact hs.update
  · exact hs

theorem State.Canonical.execSlotQuantumEnd {s : State} (hs : s.Canonical) : (Machine.execSlotQuantumEnd s).Canonical := by
  unfold Machine.execSlotQuantumEnd
  dsimp only
  refine .ite trivial (.ite hs.after ?_)
  split
  · exact hs.takePending.beginVote
  · exact hs.takePending.beginVote

theorem State.Canonical.execSnuff {s : State} (hs : s.Canonical) : (Machine.execSnuff s).Canonical := by
  unfold Machine.execSnuff
  dsimp only
  refine .ite trivial (.ite hs.after (.ite hs.modDie ?_))
  split
  · exact hs.modDie.draw.after
  · exact hs.modDie.modMember

theorem State.Canonical.execCountLatch {s : State} (hs : s.Canonical) : (Machine.execCountLatch s).Canonical :=
  .ite trivial ((hs.foldl (fun _ _ h1 => .ite h1 h1.modMember.draw.after)).foldl (fun _ _ h1 => h1.draw.after)).after

theorem State.Canonical.execCount {s : State} (hs : s.Canonical) : (Machine.execCount s).Canonical :=
  .ite trivial (.next (.ite hs.setVote.sendRelight hs.setVote))

theorem State.Canonical.execSumreq {s : State} (hs : s.Canonical) : (Machine.execSumreq s).Canonical := .ite trivial hs.setVote.after

theorem State.Canonical.sendAbort {s : State} (hs : s.Canonical) : (Machine.sendAbort s).Canonical :=
  (hs.setVote.foldl (fun _ _ h1 => h1.draw.after)).after

theorem State.Canonical.execRefuse {s : State} (hs : s.Canonical) : (Machine.execRefuse s).Canonical :=
  .ite trivial (.next (.sendAbort (.ite hs.modVd.gangEvent hs.modVd)))

theorem State.Canonical.execDrainDeadline {s : State} (hs : s.Canonical) : (Machine.execDrainDeadline s).Canonical :=
  .ite trivial (hs.setVote.draw.foldl (fun _ _ h1 => h1.after)).watch

theorem State.Canonical.execHold {s : State} (hs : s.Canonical) : (Machine.execHold s).Canonical := by
  unfold Machine.execHold
  dsimp only
  refine .ite trivial (.ite (.ite trivial ?_) hs.captureDue.draw.after)
  split
  · refine .next (.after (.draw ?_))
    split
    · exact hs.captureNi
    · exact hs
  · trivial

theorem State.Canonical.overflowRecords {s : State} {l : List ℕ} (hs : s.Canonical) : (Machine.overflowRecords s l).Canonical := by
  fun_induction Machine.overflowRecords s l with
  | case1 s k i left l ih => exact ih hs.gangEvent
  | case2 s l => exact hs

theorem State.Canonical.stopCores {s : State} {d : ℕ} (hs : s.Canonical) : (Machine.stopCores s d).Canonical := hs

theorem State.Canonical.killVd {s : State} {vd : ℕ} (hs : s.Canonical) : (Machine.killVd s vd).Canonical :=
  .ite hs (hs.foldl (fun _ _ h1 => h1.stopCores)).modVd.after

theorem State.Canonical.heldAll {s : State} (hs : s.Canonical) : (Machine.heldAll s).Canonical :=
  .ite (hs.foldl (fun _ _ h1 => .ite h1.modVd.killVd h1.modVd)).sendAbort hs.sendRelight

theorem State.Canonical.execHeld {s : State} (hs : s.Canonical) : (Machine.execHeld s).Canonical :=
  .ite trivial (.next (.ite hs.setVote.overflowRecords.heldAll hs.setVote.overflowRecords))

theorem State.Canonical.execAbort {s : State} (hs : s.Canonical) : (Machine.execAbort s).Canonical := .ite trivial hs.modMember.deliverNet.wakeEngines

theorem State.Canonical.execBackoffEnd {s : State} (hs : s.Canonical) : (Machine.execBackoffEnd s).Canonical :=
  .ite trivial (.ite (.next (.ite hs.voteDone hs.sendRelight)) hs.sendSnuff)

theorem State.Canonical.takePosition {s : State} {d : ℕ} (hs : s.Canonical) : (Machine.takePosition s d).Canonical := by
  unfold Machine.takePosition
  split
  · exact hs
  · exact .foldl (.update (.modDie (.ite hs hs.spillDie))) (fun _ _ h1 => h1.gangEvent)

theorem State.Canonical.bringIn {s : State} {d : ℕ} (hs : s.Canonical) : (Machine.bringIn s d).Canonical := by
  unfold Machine.bringIn
  dsimp only
  split
  · exact hs.modDie
  · split
    · exact .ite (.after (.ite hs.loadCtx.stopCores hs.loadCtx)) (.ite hs.loadCtx.stopCores hs.loadCtx)
    · exact .ite hs.loadCtx.stopCores hs.loadCtx

theorem State.Canonical.execRelight {s : State} (hs : s.Canonical) : (Machine.execRelight s).Canonical := by
  unfold Machine.execRelight
  dsimp only
  refine .ite trivial ?_
  split
  · exact hs.modDie.after
  · exact .ite hs.after hs.saveCtx.draw.after
  · exact hs.draw.after
  · exact hs.takePosition.bringIn.draw.after

theorem State.Canonical.execLit {s : State} (hs : s.Canonical) : (Machine.execLit s).Canonical :=
  .ite trivial (.next (.ite hs.setVote.voteDone hs.setVote))

theorem State.Canonical.loseGranules {s : State} {d : ℕ} (hs : s.Canonical) : (Machine.loseGranules s d).Canonical := by
  unfold Machine.loseGranules
  dsimp only
  refine (hs.foldl ?_).modDie
  intro t x h1
  split
  · exact h1.modMember.gangEvent
  · exact h1

theorem State.Canonical.dieFailed {s : State} {d : ℕ} (hs : s.Canonical) : (Machine.dieFailed s d).Canonical := by
  unfold Machine.dieFailed
  dsimp only
  split
  · exact (hs.foldl (fun _ _ h1 => h1.gangEvent)).loseGranules.update.modDie.update.killVd
  · exact (hs.foldl (fun _ _ h1 => h1.gangEvent)).loseGranules.update.modDie

theorem State.Canonical.execVotePartyTimeout {s : State} (hs : s.Canonical) : (Machine.execVotePartyTimeout s).Canonical := by
  unfold Machine.execVotePartyTimeout
  dsimp only
  refine .ite trivial ?_
  split
  · exact hs.after.sendAbort
  · refine .ite trivial (.next ?_)
    split
    · refine .ite (.heldAll ?silent) ?silent
      exact hs.foldl fun _ _ h => h.setVote.dieFailed
    · refine .ite (.voteDone ?unlit) ?unlit
      exact hs.foldl fun _ _ h => h.setVote.dieFailed
    · exact hs.foldl fun _ _ h => h.setVote.dieFailed

theorem State.Canonical.takeOff {s : State} {vd : ℕ} {kill : Bool} {retry : Instr} (hs : s.Canonical) : (Machine.takeOff s vd kill retry).Canonical :=
  .ite hs.beginVote (.ite hs hs.after)

theorem State.Canonical.execAbortedWrite {s : State} (hs : s.Canonical) : (Machine.execAbortedWrite s).Canonical :=
  .ite trivial (.ite hs.takeOff hs.abandon.update.gateDies)

theorem State.Canonical.collapse {s : State} {vd : ℕ} (hs : s.Canonical) : (Machine.collapse s vd).Canonical :=
  .ite hs.modVd.homeCells.takeOff hs.modVd.homeCells.draw.after

theorem State.Canonical.execCollapseRequest {s : State} (hs : s.Canonical) : (Machine.execCollapseRequest s).Canonical := by
  unfold Machine.execCollapseRequest
  dsimp only
  refine .ite trivial ?_
  split
  · exact .ite hs.collapse trivial
  · exact .ite hs.takeOff (.ite hs.draw.after trivial)
  · trivial

theorem State.Canonical.execIdleTimeout {s : State} (hs : s.Canonical) : (Machine.execIdleTimeout s).Canonical := by
  unfold Machine.execIdleTimeout
  dsimp only
  split
  · exact .ite hs.collapse trivial
  · trivial

theorem State.Canonical.releasePages {s : State} {vd : ℕ} (hs : s.Canonical) : (Machine.releasePages s vd).Canonical := hs.modVd.dropTlb.modVd

theorem State.Canonical.repack {s : State} {vd : ℕ} (hs : s.Canonical) : (Machine.repack s vd).Canonical := by
  unfold Machine.repack
  dsimp only
  refine hs.foldl ?_
  intro t x h1
  refine .ite ?_ h1
  split
  · exact h1.movePage
  · exact h1

theorem State.Canonical.restStacks {s : State} {vd : ℕ} (hs : s.Canonical) : (Machine.restStacks s vd).Canonical :=
  .ite hs (hs.foldl (fun _ _ h1 => h1.foldl (fun _ _ h2 => .ite h2.modDie h2)))

theorem State.Canonical.classWork {s : State} {vd : ℕ} (hs : s.Canonical) : (Machine.classWork s vd).Canonical := by
  unfold Machine.classWork
  dsimp only
  split
  · exact hs
  · exact hs.foldl (fun _ _ h1 => h1.spillDie)
  · exact hs.abandon.releasePages.repack.foldl (fun _ _ h1 => h1.dropGranules.modMember)

theorem State.Canonical.notePower {s : State} {vd : ℕ} (hs : s.Canonical) : (Machine.notePower s vd).Canonical := hs.modVd

theorem State.Canonical.tryWake {s : State} {vd : ℕ} (hs : s.Canonical) : (Machine.tryWake s vd).Canonical := by
  unfold Machine.tryWake
  dsimp only
  refine .ite hs.modVd.after (.ite hs.notePower.setVote (.ite hs.modVd.after ?_))
  split
  · exact hs.modVd.after
  · exact hs.notePower.beginVote

theorem State.Canonical.beginWake {s : State} {vd : ℕ} (hs : s.Canonical) : (Machine.beginWake s vd).Canonical :=
  (hs.modVd.foldl (fun _ _ h1 => h1.modMember)).after.tryWake

theorem State.Canonical.execCollapseWork {s : State} (hs : s.Canonical) : (Machine.execCollapseWork s).Canonical :=
  .ite trivial (.next (.ite hs.classWork.modVd.restStacks.gateDies.beginWake hs.classWork.modVd.restStacks.gateDies))

theorem State.Canonical.execStrike {s : State} (hs : s.Canonical) : (Machine.execStrike s).Canonical := by
  unfold Machine.execStrike
  dsimp only
  refine .ite trivial (.ite (.ite hs.after trivial) (.next ?_))
  split
  · exact hs.modVd
  · exact hs.beginWake
  · exact .ite hs hs.tryWake
  · exact hs

theorem State.Canonical.execWakeLate {s : State} (hs : s.Canonical) : (Machine.execWakeLate s).Canonical :=
  .ite (.next (.ite hs.modVd.after hs.modVd)) trivial

theorem State.Canonical.execHangtExpiry {s : State} (hs : s.Canonical) : (Machine.execHangtExpiry s).Canonical := .ite hs.modCore.gangEvent trivial

/-! ### Requests to the wicks -/

theorem State.Canonical.modCtxCore {s : State} {m : MemberId} {k : CoreId} {f : Core → Core} (hs : s.Canonical) :
    (Machine.modCtxCore s m k f).Canonical :=
  .ite hs.modCore hs.modMember

theorem State.Canonical.svcMap {s : State} {m : MemberId} {a n : ℕ} (hs : s.Canonical) : (Machine.svcMap s m a n).Canonical := by
  unfold Machine.svcMap
  dsimp only
  refine .ite trivial (.ite trivial (.ite trivial ?_))
  split
  · rename_i t1 heq
    have h1 : t1.Canonical := hs.backPages.of_eq heq
    exact h1.modVd
  · trivial

theorem State.Canonical.svcUnmap {s : State} {m : MemberId} {a n : ℕ} (hs : s.Canonical) : (Machine.svcUnmap s m a n).Canonical :=
  .ite trivial (.ite trivial (.ite hs.dropTlb hs.dropTlb.modVd))

theorem State.Canonical.protectPage {m : MemberId} {w : Bool} {s : State} {va : ℕ} (hs : s.Canonical) :
    CanonicalOpt id (Machine.protectPage m w s va) := by
  unfold Machine.protectPage
  split
  · exact hs
  · refine .ite ?_ hs.modVd
    refine CanonicalOpt.map (g := fun _ => s) (by cases frameFor _ _ _; trivial; exact hs) fun a h => ?_
    dsimp only [id]
    exact h.modVd.drainPlace.copyAll.useStack.modVd

theorem State.Canonical.svcProtect {s : State} {m : MemberId} {a n : ℕ} {w : Bool} (hs : s.Canonical) : (Machine.svcProtect s m a n w).Canonical := by
  unfold Machine.svcProtect
  dsimp only
  refine .ite trivial (.ite trivial (.ite hs.dropTlb ?_))
  split
  · rename_i t heq
    have h1 : t.Canonical := (CanonicalOpt.foldlM hs.dropTlb fun _ _ h => h.protectPage).of_eq heq
    exact h1
  · trivial

theorem State.Canonical.svcAnswer {s : State} {m : MemberId} {k : CoreId} {r : Svc} (hs : s.Canonical) : (Machine.svcAnswer s m k r).Canonical := by
  unfold Machine.svcAnswer
  split
  · exact hs.svcMap
  · exact hs.svcUnmap
  · exact hs.svcProtect
  · exact .ite trivial hs.report
  · trivial

theorem State.Canonical.svcLand {s : State} {m : MemberId} {k : CoreId} {d : Dest} (hs : s.Canonical) : (Machine.svcLand s m k d).Canonical :=
  .ite hs.landVal hs.modCtxCore

theorem State.Canonical.takeHead {s : State} {w : ℕ} (hs : s.Canonical) : (Machine.takeHead s w).Canonical := .ite hs hs.setBox

theorem State.Canonical.execSvcReply {s : State} (hs : s.Canonical) : (Machine.execSvcReply s).Canonical := by
  unfold Machine.execSvcReply
  dsimp only
  refine .ite ?_ (.ite trivial (.ite hs.after (.ite hs.takeHead.reply ?_)))
  · split
    · exact hs.sendSvc
    · trivial
  · split
    · exact .ite hs.takeHead trivial
    · split
      · rename_i t1 heq
        have h1 : t1.Canonical := hs.svcAnswer.of_eq heq
        exact h1.after
      · rename_i t1 heq
        have h1 : t1.Canonical := hs.svcAnswer.of_eq heq
        exact h1.takeHead.modCtxCore.svcLand
      · exact hs.takeHead.modCtxCore

theorem State.Canonical.placePages {s : State} {vd : ℕ} (hs : s.Canonical) : (Machine.placePages s vd).Canonical := by
  refine State.Canonical.modVd (hs.foldl fun t i h => ?_)
  dsimp only
  split
  · rename_i pa r _ heq
    have h1 : r.Canonical := h.backPages.of_eq heq
    exact h1.modVd
  · exact h

theorem State.Canonical.createMember {vd : ℕ} {s : State} {e : ℕ × ℕ} (hs : s.Canonical) : (Machine.createMember vd s e).Canonical := hs.modMember

theorem State.Canonical.zeroGang {s : State} {gang : ℕ} (hs : s.Canonical) : (Machine.zeroGang s gang).Canonical := hs

theorem State.Canonical.createVd {s : State} {p : VdParams} {vd gang vf : ℕ} {dies : List ℕ} (hs : s.Canonical) :
    (Machine.createVd s p vd gang vf dies).Canonical := by
  refine .noteIdle (.reply (.ite (.update ?h) ?h))
  exact (hs.draw.draw.draw.zeroGang.modVd.foldl fun _ _ h => h.createMember).placePages.homeCells

theorem State.Canonical.execVdCreate {s : State} (hs : s.Canonical) : (Machine.execVdCreate s).Canonical := by
  unfold Machine.execVdCreate
  dsimp only
  split
  · trivial
  · refine .ite hs.reply ?_
    split
    · split
      · exact hs.createVd
      · exact hs.reply
    · exact hs.reply

theorem State.Canonical.resetMember {s : State} {m : MemberId} (hs : s.Canonical) : (Machine.resetMember s m).Canonical :=
  (hs.foldl (fun _ _ h1 => h1.store.store)).dropGranules.zeroAll.update.modMember

theorem State.Canonical.tornDown {s : State} {vd : ℕ} (hs : s.Canonical) : (Machine.tornDown s vd).2.Canonical := by
  unfold Machine.tornDown
  split
  · exact hs.killVd
  · split
    · exact hs
    · exact hs.abandon

theorem State.Canonical.clearVd {s : State} {vd : ℕ} (hs : s.Canonical) : (Machine.clearVd s vd).Canonical := by
  unfold Machine.clearVd
  dsimp only
  refine .ite (.update ?h) ?h
  split
  · refine .ite (.homeCells ?h1) ?h1
    exact (hs.foldl fun _ _ h => h.resetMember).modVd
  · exact (hs.foldl fun _ _ h => h.resetMember).modVd

theorem State.Canonical.execVdReset {s : State} (hs : s.Canonical) : (Machine.execVdReset s).Canonical :=
  .ite trivial (.ite hs.tornDown.clearVd.memoryEvent hs.tornDown.after)

theorem State.Canonical.zeroPages {s : State} {vd : ℕ} (hs : s.Canonical) : (Machine.zeroPages s vd).Canonical := by
  unfold Machine.zeroPages
  refine hs.foldl ?_
  intro t x h1
  refine .ite h1 ?_
  split
  · exact h1.drainPlace.zeroAll
  · exact h1

theorem State.Canonical.execVdDestroy {s : State} (hs : s.Canonical) : (Machine.execVdDestroy s).Canonical :=
  .ite trivial (.ite hs.tornDown.after hs.tornDown.clearVd.zeroPages.homeCells.update.dropTlb.update.modVd.memoryEvent.gateDies)

theorem State.Canonical.execVaultload {s : State} (hs : s.Canonical) : (Machine.execVaultload s).Canonical := by
  unfold Machine.execVaultload
  refine .ite hs.reply ?_
  split
  · exact hs.reply
  · rename_i l t heq
    have h1 : t.Canonical := hs.vaRead.of_eq heq
    refine .ite ?_ (h1.foldl (fun _ _ h2 => .ite (.setGran (.modMember (.ite h2 h2.zeroAll))) (.modMember (.ite h2 h2.zeroAll)))).store.reply
    split
    · exact h1.waitGranule
    · exact (h1.drainRange.putAt.foldl (fun _ _ h2 => h2.setGran)).reply

theorem State.Canonical.execScheduleChange {s : State} (hs : s.Canonical) : (Machine.execScheduleChange s).Canonical := .ite hs.reply hs.update.reply

theorem State.Canonical.leavePackage {s : State} {vd life : ℕ} (hs : s.Canonical) : (Machine.leavePackage s vd life).Canonical :=
  (hs.zeroPages.dropTlb.foldl (fun _ _ h1 => h1.resetMember)).homeCells.modVd.after

theorem State.Canonical.execLiveMigration {s : State} (hs : s.Canonical) : (Machine.execLiveMigration s).Canonical := by
  unfold Machine.execLiveMigration
  dsimp only
  refine .ite trivial ?_
  split
  · exact .ite trivial hs.draw.after
  · exact .ite (.ite hs.draw.memoryEvent hs.draw.modVd.after) (.ite (.next (.after (.ite
        hs.beginVote hs))) (hs.foldl (fun _ _ h1 => h1.spillDie)).draw.after)
  · exact .ite trivial (.ite hs.draw.modVd.memoryEvent hs.draw.leavePackage)

theorem State.Canonical.execStubForward {s : State} (hs : s.Canonical) : (Machine.execStubForward s).Canonical := by
  unfold Machine.execStubForward
  dsimp only
  split
  · exact .ite hs.report trivial
  · trivial

theorem State.Canonical.execStubExpiry {s : State} (hs : s.Canonical) : (Machine.execStubExpiry s).Canonical := .ite hs.modVd trivial

theorem State.Canonical.hostReply {s : State} {vd : ℕ} {l : List Byte} (hs : s.Canonical) : (Machine.hostReply s vd l).Canonical := hs.reply

theorem State.Canonical.hostRefuse {s : State} {vd : ℕ} {write : Bool} (hs : s.Canonical) : (Machine.hostRefuse s vd write).Canonical :=
  .ite hs.telemetry hs.reply

theorem State.Canonical.hostVa {s : State} {vd va n : ℕ} {w : Option (List Byte)} (hs : s.Canonical) : (Machine.hostVa s vd va n w).Canonical := by
  unfold Machine.hostVa
  dsimp only
  refine .ite hs.hostRefuse (.ite hs.after ?_)
  split
  · refine .ite (.ite hs.strikeVd hs.hostReply) ?_
    split
    · split
      · rename_i t1 heq
        have h1 : t1.Canonical := hs.vaWrite.of_eq heq
        exact h1
      · exact hs.hostRefuse
    · split
      · rename_i t1 heq
        have h1 : t1.2.Canonical := hs.vaRead.of_eq heq
        exact h1.hostReply
      · exact hs.hostRefuse
  · exact hs.hostRefuse

theorem State.Canonical.hostMessage {s : State} {w : ℕ} {l : List Byte} (hs : s.Canonical) : (Machine.hostMessage s w l).Canonical :=
  .ite hs.after hs.setBox.draw.after

theorem State.Canonical.hostPf {s : State} {b c n : ℕ} {w : Option (List Byte)} (hs : s.Canonical) : (Machine.hostPf s b c n w).Canonical := by
  unfold Machine.hostPf
  split
  · exact .ite hs.draw.hostReply trivial
  · exact hs
  · exact .ite hs.hostMessage trivial
  · trivial

theorem State.Canonical.execHostPortAccess {s : State} (hs : s.Canonical) : (Machine.execHostPortAccess s).Canonical :=
  .ite trivial (.ite hs.hostRefuse (.ite hs.hostPf (.ite (.ite hs.hostVa trivial) (.ite trivial (.ite hs.hostVa (.ite hs.hostVa (.next (.ite hs
      hs.hostReply))))))))

/-! ### The scale-out transport -/

theorem State.Canonical.sendSetup {s : State} {vd i : ℕ} {e : Endpoint} {key : ℕ} (hs : s.Canonical) : (Machine.sendSetup s vd i e key).Canonical :=
  hs.dgramOut

theorem State.Canonical.execEndpointCreate {s : State} (hs : s.Canonical) : (Machine.execEndpointCreate s).Canonical := by
  unfold Machine.execEndpointCreate
  split
  · trivial
  · exact .ite hs.reply hs.setEndpoint.sendSetup.after

theorem State.Canonical.refuseEndpoint {s : State} {vd i : ℕ} (hs : s.Canonical) : (Machine.refuseEndpoint s vd i).Canonical := hs.modVd.reply

theorem State.Canonical.execEndpointSetupTimeout {s : State} (hs : s.Canonical) : (Machine.execEndpointSetupTimeout s).Canonical := by
  unfold Machine.execEndpointSetupTimeout
  dsimp only
  split
  · exact .ite trivial hs.refuseEndpoint
  · trivial

theorem State.Canonical.execEthPortSplit {s : State} (hs : s.Canonical) : (Machine.execEthPortSplit s).Canonical :=
  .ite hs.reply (.ite hs.update.reply hs.update.reply)

theorem State.Canonical.freshKey {s : State} {vd i : ℕ} {e : Endpoint} (hs : s.Canonical) : (Machine.freshKey s vd i e).Canonical :=
  (hs.setEndpoint.foldl (fun _ _ h1 => h1.modMember)).foldl (fun _ _ h1 => .ite h1.after h1.dgramOut.after)

theorem State.Canonical.execEthSetup {s : State} (hs : s.Canonical) : (Machine.execEthSetup s).Canonical := by
  unfold Machine.execEthSetup
  dsimp only
  split
  · exact .ite hs.telemetry (.ite trivial (.ite (.next (.ite hs.telemetry hs.refuseEndpoint)) (.ite hs.telemetry (.ite (.next (.ite
        hs.setEndpoint hs.freshKey)) hs.update.setEndpoint.sendSetup.reply.after))))
  · trivial

theorem State.Canonical.execPairRekey {s : State} (hs : s.Canonical) : (Machine.execPairRekey s).Canonical := by
  unfold Machine.execPairRekey
  dsimp only
  split
  · exact .ite hs.sendSetup.freshKey trivial
  · trivial

theorem State.Canonical.execEthKeepaliveTimer {s : State} (hs : s.Canonical) : (Machine.execEthKeepaliveTimer s).Canonical := by
  unfold Machine.execEthKeepaliveTimer
  dsimp only
  split
  · exact .ite hs.sendOnce.after trivial
  · trivial

theorem State.Canonical.takeDgram {s : State} {kind : ℕ} {f : State → ℕ → ℕ → Endpoint → Dgram → State} (hs : s.Canonical)
    (hf : ∀ t0 x1 x2 x3 x4, t0.Canonical → (f t0 x1 x2 x3 x4).Canonical) :
    (Machine.takeDgram s kind f).Canonical := by
  unfold Machine.takeDgram
  dsimp only
  split
  · trivial
  · refine .ite hs.telemetry (.ite trivial ?_)
    split
    · exact hs.telemetry
    · refine .ite hs.telemetry ?_
      split
      · exact hf _ _ _ _ _ (.ite hs.sendOnce hs)
      · exact .next (.ite hs.sendOnce hs)

theorem State.Canonical.takeOnce {s : State} {kind : ℕ} {f : State → ℕ → ℕ → Endpoint → Dgram → State} (hs : s.Canonical)
    (hf : ∀ t0 x1 x2 x3 x4, t0.Canonical → (f t0 x1 x2 x3 x4).Canonical) :
    (Machine.takeOnce s kind f).Canonical :=
  hs.takeDgram (fun _ _ _ _ _ h1 => .ite h1 (hf _ _ _ _ _ h1.setEndpoint))

theorem State.Canonical.sendEthAck {s : State} {vd i : ℕ} (hs : s.Canonical) : (Machine.sendEthAck s vd i).Canonical := by
  unfold Machine.sendEthAck
  split
  · exact hs.setEndpoint.sendOnce
  · exact hs

theorem State.Canonical.oweAck {s : State} {vd i : ℕ} {d : Dgram} (hs : s.Canonical) : (Machine.oweAck s vd i d).Canonical := by
  unfold Machine.oweAck
  split
  · exact .ite hs.setEndpoint.sendEthAck (.ite hs.setEndpoint.draw.after hs.setEndpoint)
  · exact hs

theorem State.Canonical.takeNumbered {s : State} {kind : ℕ} {f : State → ℕ → ℕ → Endpoint → Dgram → Option State} (hs : s.Canonical)
    (hf : ∀ t0 x1 x2 x3 x4, t0.Canonical → CanonicalOpt id (f t0 x1 x2 x3 x4)) :
    (Machine.takeNumbered s kind f).Canonical := by
  unfold Machine.takeNumbered
  refine hs.takeDgram ?_
  intro _ _ _ _ _ h1
  refine .ite h1.sendOnce (.ite h1.oweAck ?_)
  split
  · exact h1.telemetry
  · rename_i t2 heq
    have h2 : t2.Canonical := (hf _ _ _ _ _ h1).of_eq heq
    split
    · exact h2.setEndpoint.oweAck
    · exact h2

theorem State.Canonical.execEthWrite {s : State} (hs : s.Canonical) : (Machine.execEthWrite s).Canonical :=
  hs.takeNumbered (fun _ _ _ _ _ h1 => .ite h1.hostVa trivial)

theorem State.Canonical.execEthRead {s : State} (hs : s.Canonical) : (Machine.execEthRead s).Canonical := by
  unfold Machine.execEthRead
  refine hs.takeNumbered ?_
  intro _ _ _ _ _ h1
  refine .ite ?_ trivial
  split
  · rename_i l t2 heq
    have h2 : t2.Canonical := h1.vaRead.of_eq heq
    exact h2.sendDgram
  · trivial

theorem State.Canonical.execEthNote {s : State} (hs : s.Canonical) : (Machine.execEthNote s).Canonical := by
  refine hs.takeNumbered fun t vd _ e d h => ?_
  split
  · rename_i l r heq
    have h1 : r.Canonical := h.vaRead.of_eq heq
    exact h1.vaWrite.toOption
  · trivial

theorem State.Canonical.onJobDie {s : State} {m : MemberId} {i : Instr} {o : Subject} {f : State → State} (hs : s.Canonical)
    (hf : ∀ t0, t0.Canonical → (f t0).Canonical) :
    (Machine.onJobDie s m i o f).Canonical :=
  .ite (hf _ hs) hs.update

theorem State.Canonical.takeFetched {s : State} {m : MemberId} {h q : ℕ} {l : List Byte} (hs : s.Canonical) :
    (Machine.takeFetched s m h q l).Canonical := by
  unfold Machine.takeFetched
  split
  · exact .ite hs.modMember.chunkOut hs
  · exact hs

theorem State.Canonical.execEthRddata {s : State} (hs : s.Canonical) : (Machine.execEthRddata s).Canonical := by
  unfold Machine.execEthRddata
  dsimp only
  split
  · exact .ite hs.takeFetched trivial
  · refine hs.takeNumbered ?_
    intro _ _ _ _ _ h1
    split
    · exact h1.onJobDie (fun _ h2 => h2.takeFetched)
    · exact h1

theorem State.Canonical.jobAcked {s : State} {m : MemberId} {h : ℕ} {d : Dgram} (hs : s.Canonical) : (Machine.jobAcked s m h d).Canonical := by
  unfold Machine.jobAcked
  split
  · exact .ite (.ite hs.finishJob hs) (.ite (.ite hs.modMember.chunkDone hs.modMember) hs)
  · exact hs

theorem State.Canonical.execEthAck {s : State} (hs : s.Canonical) : (Machine.execEthAck s).Canonical := by
  unfold Machine.execEthAck
  split
  · exact .ite hs.jobAcked trivial
  · exact hs.takeOnce (fun _ _ _ _ _ h1 => h1.setEndpoint.foldl (fun _ _ h2 => .ite (h2.onJobDie (fun _ h3 => h3.jobAcked)) h2))

theorem State.Canonical.execEthEcho {s : State} (hs : s.Canonical) : (Machine.execEthEcho s).Canonical :=
  hs.takeOnce (fun _ _ _ _ _ h1 => h1.setEndpoint.after)

theorem State.Canonical.execEthRateRise {s : State} (hs : s.Canonical) : (Machine.execEthRateRise s).Canonical := by
  unfold Machine.execEthRateRise
  dsimp only
  split
  · exact .ite (.next (.ite hs.setEndpoint.after hs.setEndpoint)) trivial
  · trivial

theorem State.Canonical.execEthKeep {s : State} (hs : s.Canonical) : (Machine.execEthKeep s).Canonical := hs.takeOnce (fun _ _ _ _ _ h1 => h1)

theorem State.Canonical.execEthBusy {s : State} (hs : s.Canonical) : (Machine.execEthBusy s).Canonical :=
  hs.takeOnce (fun _ _ _ _ _ h1 => h1.setEndpoint)

theorem State.Canonical.execEthAckTimer {s : State} (hs : s.Canonical) : (Machine.execEthAckTimer s).Canonical := by
  unfold Machine.execEthAckTimer
  dsimp only
  split
  · exact .ite trivial hs.sendEthAck
  · trivial

theorem State.Canonical.jobUnreachable {s : State} {m : MemberId} {h : ℕ} (hs : s.Canonical) : (Machine.jobUnreachable s m h).Canonical := by
  unfold Machine.jobUnreachable
  split
  · exact (hs.abortJob.modMember.foldl (fun _ _ h1 => h1.chunkDone)).jobCheckEnd
  · exact hs

theorem State.Canonical.execEthRetransmitTimeout {s : State} (hs : s.Canonical) : (Machine.execEthRetransmitTimeout s).Canonical := by
  unfold Machine.execEthRetransmitTimeout
  dsimp only
  split
  · exact .ite hs.jobUnreachable trivial
  · split
    · trivial
    · split
      · trivial
      · exact .ite trivial (.ite hs.after (.ite hs.setEndpoint.dgramOut.after (hs.setEndpoint.foldl (fun _ _ h1 => h1.onJobDie (fun _ h2 => h2.jobUnreachable)))))

/-! ### The platform -/

theorem State.Canonical.repairRecord {s : State} {kind : ℕ} {args : List ℕ} (hs : s.Canonical) : (Machine.repairRecord s kind args).2.Canonical := by
  unfold Machine.repairRecord
  dsimp only
  split
  · exact hs.modPlatform.storeBoth
  · exact hs.modPlatform.storeBoth.modPlatform.telemetry

theorem State.Canonical.setLink {s : State} {n : ℕ} {l : Link} (hs : s.Canonical) : (Machine.setLink s n l).Canonical := hs.modPlatform

theorem State.Canonical.linkEvent {s : State} {kind n : ℕ} {args : List ℕ} (hs : s.Canonical) : (Machine.linkEvent s kind n args).Canonical :=
  hs.fabricEvent

theorem State.Canonical.closeLink {s : State} {n reason : ℕ} (hs : s.Canonical) : (Machine.closeLink s n reason).Canonical := by
  unfold Machine.closeLink
  dsimp only
  split
  · exact .ite hs.setLink.linkEvent.dieFailed hs.setLink.linkEvent
  · exact hs.setLink.linkEvent

theorem State.Canonical.trainOn {s : State} {n stage : ℕ} (hs : s.Canonical) : (Machine.trainOn s n stage).Canonical := hs.draw.after

theorem State.Canonical.execLinkTraining {s : State} (hs : s.Canonical) : (Machine.execLinkTraining s).Canonical :=
  .ite trivial (.ite hs.draw.after (.ite hs.draw.setLink hs.draw.setLink.trainOn))

theorem State.Canonical.execLaneDetectTimeout {s : State} (hs : s.Canonical) : (Machine.execLaneDetectTimeout s).Canonical :=
  .ite trivial hs.linkEvent

theorem State.Canonical.execLaneFailure {s : State} (hs : s.Canonical) : (Machine.execLaneFailure s).Canonical :=
  .ite trivial (.ite (.ite hs.repairRecord.setLink.linkEvent.trainOn hs.repairRecord.setLink.linkEvent.trainOn) (.ite
      hs.setLink.linkEvent.trainOn hs.setLink.closeLink))

theorem State.Canonical.execBufferBankError {s : State} (hs : s.Canonical) : (Machine.execBufferBankError s).Canonical :=
  .ite trivial (.next (.ite hs.setLink.closeLink hs.setLink))

theorem State.Canonical.loseHeld {s : State} {w : ℕ} (hs : s.Canonical) : (Machine.loseHeld s w).Canonical := hs.update.foldl (fun _ _ h1 => h1.after)

theorem State.Canonical.losePosition {s : State} {w : ℕ} (hs : s.Canonical) : (Machine.losePosition s w).Canonical := by
  refine .ite (.after (.draw ?h)) (.foldl (.modPlatform (.ite (.after (.after ?h)) (.after ?h))) fun _ _ h => h.setLink)
  exact hs.fabricEvent.modSwitch.loseHeld.foldl fun _ _ h => h.loseSlot

theorem State.Canonical.execSwitchHeartbeatLoss {s : State} (hs : s.Canonical) : (Machine.execSwitchHeartbeatLoss s).Canonical :=
  .ite trivial (.ite hs.modSwitch hs.losePosition)

theorem State.Canonical.execSwitchTakeover {s : State} (hs : s.Canonical) : (Machine.execSwitchTakeover s).Canonical :=
  .ite trivial (.ite hs.repairRecord.after hs.repairRecord.modSwitch.modPlatform.update.fabricEvent)

theorem State.Canonical.execPowerLoss {s : State} (hs : s.Canonical) : (Machine.execPowerLoss s).Canonical := Tab.wf_filter _ hs

theorem State.Canonical.applyRecord {s : State} {r : ℕ × List ℕ} (hs : s.Canonical) : (Machine.applyRecord s r).Canonical := by
  unfold Machine.applyRecord
  dsimp only
  split
  · exact hs.modPlatform
  · exact hs.modDie.modPlatform
  · exact hs.modSwitch.modPlatform
  · exact hs.setLink
  · exact hs.replayRow

theorem State.Canonical.bootNext {s : State} {n bound : ℕ} (hs : s.Canonical) : (Machine.bootNext s n bound).Canonical := hs.draw.modPlatform.after

theorem State.Canonical.startPart {s : State} (hs : s.Canonical) : (Machine.startPart s).Canonical := hs.update.update.after.after.after

theorem State.Canonical.execPowerOnReset {s : State} (hs : s.Canonical) : (Machine.execPowerOnReset s).Canonical := by
  unfold Machine.execPowerOnReset
  dsimp only
  refine .ite trivial ?_
  split
  · exact hs.update.bootNext
  · exact .ite hs.bootNext hs.telemetry
  · exact State.Canonical.bootNext (.ite hs.draw.modPlatform hs.draw.modPlatform.telemetry)
  · exact (hs.foldl fun _ _ h => h.applyRecord).bootNext
  · exact State.Canonical.bootNext (Tab.wf_filter _ hs)
  · exact (hs.foldl fun _ _ h => h.after).bootNext
  · exact hs.modPlatform.reply.startPart

theorem State.Canonical.raiseAlarm {s : State} {code : ℕ} (hs : s.Canonical) : (Machine.raiseAlarm s code).Canonical := by
  unfold Machine.raiseAlarm
  dsimp only
  split
  · exact hs.modPlatform.memoryEvent.storeRecord
  · exact hs.modPlatform.memoryEvent.storeRecord.modPlatform
  · exact hs.modPlatform.memoryEvent.storeRecord.modPlatform.update.foldl (fun _ _ h1 => .ite h1.after h1)

theorem State.Canonical.execSecurityViolation {s : State} (hs : s.Canonical) : (Machine.execSecurityViolation s).Canonical :=
  .ite hs.raiseAlarm trivial

theorem State.Canonical.execUnfreezeRequest {s : State} (hs : s.Canonical) : (Machine.execUnfreezeRequest s).Canonical :=
  .ite hs.modPlatform.reply hs.reply

theorem State.Canonical.execAttestation {s : State} (hs : s.Canonical) : (Machine.execAttestation s).Canonical :=
  .ite hs.reply (.next (.ite hs.draw.modPlatform.reply hs.draw.modPlatform.reply))

theorem State.Canonical.execRecoveryImage {s : State} (hs : s.Canonical) : (Machine.execRecoveryImage s).Canonical :=
  .ite trivial (.ite hs.modPlatform.after (.next (.ite hs.modPlatform.raiseAlarm hs.modPlatform)))

theorem State.Canonical.execWickUpdate {s : State} (hs : s.Canonical) : (Machine.execWickUpdate s).Canonical := by
  unfold Machine.execWickUpdate
  dsimp only
  refine .ite hs.reply (.ite (.ite (.next (.reply (.ite hs.modPlatform.raiseAlarm hs.modPlatform))) (.ite hs.reply (.next (.ite (.after ?put)
      (.after ?put))))) ?_)
  · exact hs.draw.draw.modPlatform.modWick
  · split
    · exact hs.modWick.reply
    · trivial

theorem State.Canonical.execWickUpdateTimeout {s : State} (hs : s.Canonical) : (Machine.execWickUpdateTimeout s).Canonical := by
  unfold Machine.execWickUpdateTimeout
  dsimp only
  split
  · exact .ite trivial hs.update.modPlatform.telemetry.reply
  · trivial

theorem State.Canonical.execManagementDieTakeover {s : State} (hs : s.Canonical) : (Machine.execManagementDieTakeover s).Canonical :=
  .ite hs.modPlatform.telemetry trivial

theorem State.Canonical.leaveVaults {s : State} {d : ℕ} {moves lost : ℕ → Bool} (hs : s.Canonical) :
    (Machine.leaveVaults s d moves lost).Canonical := by
  unfold Machine.leaveVaults
  dsimp only
  refine (hs.foldl ?_).modDie
  intro t x h1
  split
  · exact .ite h1.modMember.gangEvent h1.copyAll.modMember
  · exact h1

theorem State.Canonical.execCoreColumnRepair {s : State} (hs : s.Canonical) : (Machine.execCoreColumnRepair s).Canonical :=
  .ite trivial (.ite hs.after (.ite hs.repairRecord hs.repairRecord.leaveVaults.modPlatform.telemetry))

theorem State.Canonical.execDieReplacement {s : State} (hs : s.Canonical) : (Machine.execDieReplacement s).Canonical :=
  .ite trivial (.ite (.ite (hs.foldl (fun _ _ h1 => h1.gangEvent)) (.ite hs.repairRecord hs.repairRecord.modPlatform.after)) (.ite hs.modDie trivial))

theorem State.Canonical.modDies {s : State} {f : Die → Die} (hs : s.Canonical) : (Machine.modDies s f).Canonical := hs.foldl (fun _ _ h1 => h1.modDie)

theorem State.Canonical.execPowerSample {s : State} (hs : s.Canonical) : (Machine.execPowerSample s).Canonical := by
  refine .next (.after (.ite (.modPlatform ?h) (.ite (.after ?h) ?h)))
  exact .ite hs.draw.modPlatform.modDies hs.draw.modPlatform

theorem State.Canonical.execDutyRaise {s : State} (hs : s.Canonical) : (Machine.execDutyRaise s).Canonical := .ite trivial hs.modDies.modPlatform

theorem State.Canonical.execJunctionOvertemp {s : State} (hs : s.Canonical) : (Machine.execJunctionOvertemp s).Canonical := .ite trivial hs.modDie

theorem State.Canonical.execJunctionCooled {s : State} (hs : s.Canonical) : (Machine.execJunctionCooled s).Canonical :=
  .ite trivial (.next (.ite hs.modDie hs))

theorem State.Canonical.execCoolantAlarm {s : State} (hs : s.Canonical) : (Machine.execCoolantAlarm s).Canonical :=
  .ite trivial hs.modPlatform.modDies.report

theorem State.Canonical.execThermalStop {s : State} (hs : s.Canonical) : (Machine.execThermalStop s).Canonical := hs.storeRecord.modDies.modPlatform

theorem State.Canonical.execTelemetrySample {s : State} (hs : s.Canonical) : (Machine.execTelemetrySample s).Canonical := hs.update.modPlatform.after

/-! ### What each kind of op starts -/

theorem OpSem.Keeps.plain {o : OpSem} (heffect : o.effect = fun _ s => s) (hfinal : o.final = fun s => s) : o.Keeps where
  effect hs := by rwa [heffect]
  final hs := by rwa [hfinal]

theorem OpSem.Keeps.tretOp {o : Sys} {wf : Bool} {skip : ℕ} : (Machine.tretOp o wf skip).Keeps where
  effect hs := hs
  final hs := hs.modCore

theorem OpSem.Keeps.svcOp {o : Sys} {wf : Bool} : (Machine.svcOp o wf).Keeps where
  effect hs := hs.modCore.sendSvc
  final hs := hs

theorem OpSem.Keeps.endOp {opc : ℕ} {o : Sys} {wf : Bool} {rd : List Operand} {task : Bool} {kind : Core → EndKind} :
    (Machine.endOp opc o wf rd task kind).Keeps where
  effect hs := hs.modCore
  final hs := hs

theorem OpSem.Keeps.queueOp {o : OpSem} {f : Core → Dword → Val × Core} (ho : o.Keeps) : (Machine.queueOp o f).Keeps where
  effect hs := hs.setCore.bindResult
  final hs := ho.final hs

theorem OpSem.Keeps.matOp {kind : ℕ} {o : Str} {wf : Bool} {rd : List Operand} {tags : Bool} {ok : Core → Bool}
    {stream : State → Option (ℕ × ℕ)} {items : Core → List ItemRef} {mk : State → ℕ → MOp} :
    (Machine.matOp kind o wf rd tags ok stream items mk).Keeps where
  effect hs := hs.startMOp
  final hs := hs

theorem OpSem.Keeps.loadOp {h : Head} {w : ℕ} {wf : Bool} {rd : List Operand} {ea : Core → Dword} {n : ℕ} {kind : AccKind} {d : Core → Dest}
    {extra : Core → Bool} {acq : Bool} {rsVal : List Byte → Val} : (Machine.loadOp h w wf rd ea n kind d extra acq rsVal).Keeps where
  effect hs :=
    State.Canonical.ite (.ite hs hs.startAccess) (.ite hs.startDone (.ite hs.startAccess.waitForLast hs.startAccess))
  final hs := hs

theorem OpSem.Keeps.storeOp {h : Head} {w : ℕ} {wf : Bool} {rd : List Operand} {ea : Core → Dword} {n : ℕ} {rel : Bool} {extra : Core → Bool}
    {poison : Core → Option ℕ} {data : Core → List Byte} : (Machine.storeOp h w wf rd ea n rel extra poison data).Keeps where
  effect hs := State.Canonical.ite hs hs.startAccess
  final hs := hs

theorem OpSem.Keeps.loadI {opc : ℕ} {o : Q4} {wf : Bool} {n : ℕ} {sx acq : Bool} : (Machine.loadI opc o wf n sx acq).Keeps := .loadOp

theorem OpSem.Keeps.loadW {opc : ℕ} {o : I28} {wf : Bool} {n : ℕ} {sx : Bool} : (Machine.loadW opc o wf n sx).Keeps := .loadOp

theorem OpSem.Keeps.storeI {opc : ℕ} {o : Q4} {wf : Bool} {n : ℕ} {rel : Bool} : (Machine.storeI opc o wf n rel).Keeps := .storeOp

theorem OpSem.Keeps.storeW {opc : ℕ} {o : I28} {wf : Bool} {n : ℕ} : (Machine.storeW opc o wf n).Keeps := .storeOp

theorem OpSem.Keeps.vstSumOp {h : Head} {w : ℕ} {wf : Bool} {rd : List Operand} {ea : Core → Dword} {d : Operand} :
    (Machine.vstSumOp h w wf rd ea d).Keeps where
  effect hs := State.Canonical.ite hs hs.startAccess
  final hs := hs

theorem OpSem.Keeps.feOp {opc : ℕ} {o : Q4} {wf : Bool} {op : FeOp} {val acq rel : Bool} : (Machine.feOp opc o wf op val acq rel).Keeps where
  effect hs := State.Canonical.ite hs.startAccess.waitForLast hs.startAccess
  final hs := hs

theorem OpSem.Keeps.fenceOp {opc scope : ℕ} {o : Sys} {wf : Bool} : (Machine.fenceOp opc scope o wf).Keeps where
  effect hs := hs.startAt.waitForLast
  final hs := hs

theorem OpSem.Keeps.amoInstr {opc : ℕ} {o : Q4} {wf : Bool} {op : AmoOp} {n : ℕ} {merges : Bool} : (Machine.amoInstr opc o wf op n merges).Keeps where
  effect hs := hs.startAccess
  final hs := hs

theorem OpSem.Keeps.streamLoad {opc : ℕ} {o : Str} {wf : Bool} {ok : Core → Bool} {bad : Core → StreamReg → Option ℕ}
    {fifoBad : Core → StreamReg → Bool} {go : Core → StreamReg → AccKind × Dest} : (Machine.streamLoad opc o wf ok bad fifoBad go).Keeps where
  effect hs := hs.startWide
  final hs := hs

theorem OpSem.Keeps.stmOp {opc : ℕ} {o : Q4} {wf : Bool} {n : ℕ} {extra : Core → Bool} {poison : Core → Option ℕ} {data : Core → List Byte} :
    (Machine.stmOp opc o wf n extra poison data).Keeps where
  effect hs := hs.stmGo
  final hs := hs

theorem OpSem.Keeps.asyncOp {h : Head} {w : ℕ} {wf : Bool} {rd : List Operand} {check : State → Option (ℕ × Dword)} {go : State → State}
    (hgo : ∀ {s : State}, s.Canonical → (go s).Canonical) : (Machine.asyncOp h w wf rd check go).Keeps where
  effect hs := hgo hs
  final hs := hs

/-- Every op keeps memory canonical: the ones listed start something, the others have results only. -/
theorem semOf_keeps {i : Instr} {o : OpSem} (h : semOf i = some o) : o.Keeps := by
  cases i <;> cases h
  case lnest => exact ⟨fun hs => hs.drainOwn.modCore, fun hs => hs⟩
  case lbrk | nswOff => exact ⟨fun hs => hs.modCore, fun hs => hs⟩
  case tret | tretSkip => exact .tretOp
  case rstart => exact ⟨fun hs => hs, fun hs => hs.modCore⟩
  case svcMap | svcUnmap | svcProtect | svcReport => exact .svcOp
  case yield | done | park | halt => exact .endOp
  case await => exact ⟨fun hs => hs.modCore, fun hs => hs⟩
  case spawn => exact ⟨fun hs => hs.drainOwn.drainList.startAt, fun hs => hs⟩
  case nswOn => exact ⟨fun hs => State.Canonical.ite hs hs.modCore.after, fun hs => hs⟩
  case dim => exact ⟨fun hs => hs.dimMember, fun hs => hs⟩
  case vcpush | vcpop | vcbal => exact .queueOp (.plain rfl rfl)
  case mm | mmz | mzero | mldt | mtr | macc | mcvt | mscal => exact .matOp
  case msdt => exact ⟨fun hs => hs.startMOp.openMsdt, fun hs => hs⟩
  case ldS8I | ldZ8I | ldS16I | ldZ16I | ldS32I | ldZ32I | ld64I | ldAcq32 | ldAcq64 => exact .loadI
  case ldS8W | ldZ8W | ldS16W | ldZ16W | ldS32W | ldZ32W | ld64W => exact .loadW
  case vldI | vldW => exact .loadOp
  case st8I | st16I | st32I | st64I | stRel32 | stRel64 => exact .storeI
  case st8W | st16W | st32W | st64W => exact .storeW
  case vstI | vstW => exact .storeOp
  case vstSumI | vstSumW => exact .vstSumOp
  case ldfeKeep | ldfeTake | stfeFill | fechk | feset | feclr => exact .feOp
  case fenceC | fenceD | fenceG => exact .fenceOp
  case amoAdd32 | amoAnd32 | amoOr32 | amoXor32 | amoMaxS32 | amoMaxZ32 | amoMinS32 | amoMinZ32 | amoSwap32 | cas32 | amoFaddF32 |
    amoFaddBf16 | amoFmaxF32 | amoAdd64 | amoAnd64 | amoOr64 | amoXor64 | amoMaxS64 | amoMaxZ64 | amoMinS64 | amoMinZ64 | amoSwap64 | cas64 =>
    exact .amoInstr
  case ldt | vldt => exact .streamLoad
  case sdef => exact ⟨fun hs => State.Canonical.ite hs hs.drainOwn, fun hs => hs⟩
  case fbind => exact ⟨fun hs => hs.drainOwn.modCore, fun hs => hs⟩
  case fpush => exact ⟨fun hs => hs.update.modCore.after, fun hs => hs⟩
  case fpop => exact ⟨fun hs => hs.modCore.wantFetch, fun hs => hs⟩
  case stm64 | stmV => exact .stmOp
  case cpy | cpyr | coll | trig => exact .asyncOp fun hs => hs.drainCard.startAt
  case binit | bexp | barr | bwait => exact .asyncOp fun hs => State.Canonical.ite hs.startAccess.waitForLast hs.startAccess
  case sred => exact .asyncOp fun hs => hs.drainOwn.startAt
  case ifill => exact .asyncOp fun hs => hs.startWide
  case sig => exact .asyncOp fun hs => hs.startAccess
  case pref | wdraw | jobq | heat | mig => exact .asyncOp fun hs => hs.startAt
  all_goals exact .plain rfl rfl

theorem bundleOps_keeps {b : ℕ} {o : OpSem} (ho : o ∈ bundleOps b) : o.Keeps := by
  obtain ⟨⟨slot, w, r⟩, -, hr⟩ := List.mem_filterMap.mp ho
  match r, hr with
  | .ok i, hr => exact semOf_keeps hr
  | .error .unassigned, rfl => exact .plain rfl rfl
  | .error .illegal, rfl => exact .plain rfl rfl
  | .error .notOffered, rfl => exact .svcOp

theorem State.Canonical.issueBundle {s : State} {k : CoreId} (hs : s.Canonical) : (Machine.issueBundle s k).Canonical :=
  .issueOps (.ite hs.modCore hs) fun _ => bundleOps_keeps

theorem State.Canonical.execBundleIssue {s : State} (hs : s.Canonical) : (Machine.execBundleIssue s).Canonical := .ite hs.update.issueBundle trivial

/-! ### One step -/

/-- An op's meaning is its issue alone. -/
theorem exec_of_semOf {i : Instr} {o : OpSem} {s : State} (h : semOf i = some o) : exec i s = runOne o s := by
  cases i <;> cases h <;> rfl

theorem State.Canonical.exec_event {i : Instr} {s : State} (hs : s.Canonical) (h : semOf i = none) : Outcome.Canonical (Machine.exec i s) := by
  cases i <;> cases h
  case bundleIssue => exact hs.execBundleIssue
  case resultWriteback => exact hs.execResultWriteback
  case taggedResultLand => exact hs.execTaggedResultLand
  case timingTrap => exact hs.execTimingTrap
  case deferredFaultFound => exact hs.execDeferredFaultFound
  case trapEntry => exact hs.execTrapEntry
  case abortedWrite => exact hs.execAbortedWrite
  case nswWindowExceeded => exact hs.execNswWindowExceeded
  case nswWindowKill => exact hs.execNswWindowKill
  case clockGate => exact hs.execClockGate
  case powerGate => exact hs.execPowerGate
  case hangtExpiry => exact hs.execHangtExpiry
  case panePlacement => exact hs.execPanePlacement
  case taskDispatch => exact hs.execTaskDispatch
  case granuleSequenceEnd => exact hs.execGranuleSequenceEnd
  case translationWalkEnd => exact hs.execTranslationWalkEnd
  case reductionDrain => exact hs.execReductionDrain
  case heatDecay => exact hs.execHeatDecay
  case migrationRequest => exact hs.execMigrationRequest
  case migrationHoldTimeout => exact hs.execMigrationHoldTimeout
  case eccError => exact hs.execEccError
  case hbmScrub => exact hs.execHbmScrub
  case vaultScrub => exact hs.execVaultScrub
  case retirementRecordRetry => exact hs.execRetirementRecordRetry
  case translationInvalidate => exact hs.execTranslationInvalidate
  case inval => exact hs.execInval
  case slotQuantumEnd => exact hs.execSlotQuantumEnd
  case snuff => exact hs.execSnuff
  case countLatch => exact hs.execCountLatch
  case refuse => exact hs.execRefuse
  case count => exact hs.execCount
  case sumreq => exact hs.execSumreq
  case drainDeadline => exact hs.execDrainDeadline
  case hold => exact hs.execHold
  case held => exact hs.execHeld
  case abort => exact hs.execAbort
  case backoffEnd => exact hs.execBackoffEnd
  case relight => exact hs.execRelight
  case lit => exact hs.execLit
  case votePartyTimeout => exact hs.execVotePartyTimeout
  case collapseRequest => exact hs.execCollapseRequest
  case idleTimeout => exact hs.execIdleTimeout
  case collapseWork => exact hs.execCollapseWork
  case strike => exact hs.execStrike
  case wakeLate => exact hs.execWakeLate
  case beaconTimer => exact hs.execBeaconTimer
  case beacon => exact hs.execBeacon
  case stampWaitApply => exact hs.execStampWaitApply
  case stampWaitTimeout => exact hs.execStampWaitTimeout
  case switchPacketForward => exact hs.execSwitchPacketForward
  case writePacket => exact hs.execWritePacket
  case readPacket => exact hs.execReadPacket
  case rdresp => exact hs.execRdresp
  case atomicPacket => exact hs.execAtomicPacket
  case atresp => exact hs.execAtresp
  case ackPacket => exact hs.execAckPacket
  case feop => exact hs.execFeop
  case fifoPacket => exact hs.execFifoPacket
  case cdata => exact hs.execCdata
  case demand => exact hs.execDemand
  case sredPacket => exact hs.execSredPacket
  case sres => exact hs.execSres
  case cflush => exact hs.execCflush
  case tkreq => exact hs.execTkreq
  case tkcall => exact hs.execTkcall
  case bartok => exact hs.execBartok
  case rateLimitRise => exact hs.execRateLimitRise
  case ticketWindowEnd => exact hs.execTicketWindowEnd
  case ticketCall => exact hs.execTicketCall
  case retransmitTimeout => exact hs.execRetransmitTimeout
  case linkTraining => exact hs.execLinkTraining
  case laneDetectTimeout => exact hs.execLaneDetectTimeout
  case laneFailure => exact hs.execLaneFailure
  case bufferBankError => exact hs.execBufferBankError
  case switchHeartbeatLoss => exact hs.execSwitchHeartbeatLoss
  case switchTakeover => exact hs.execSwitchTakeover
  case jobActivate => exact hs.execJobActivate
  case chunkIssue => exact hs.execChunkIssue
  case chunkBoundary => exact hs.execChunkBoundary
  case jobOutFill => exact hs.execJobOutFill
  case jobBarrierArrival => exact hs.execJobBarrierArrival
  case jobSignalWrite => exact hs.execJobSignalWrite
  case triggerFire => exact hs.execTriggerFire
  case fifoOutTransfer => exact hs.execFifoOutTransfer
  case fifoLoadFetch => exact hs.execFifoLoadFetch
  case stepEnd => exact hs.execStepEnd
  case stepSend => exact hs.execStepSend
  case stepRecv => exact hs.execStepRecv
  case stepRrs => exact hs.execStepRrs
  case stepRrd => exact hs.execStepRrd
  case stepCopy => exact hs.execStepCopy
  case stepWait => exact hs.execStepWait
  case stepSignal => exact hs.execStepSignal
  case stepLoop => exact hs.execStepLoop
  case stepEndl => exact hs.execStepEndl
  case stepPeer => exact hs.execStepPeer
  case stepBar => exact hs.execStepBar
  case collectiveAbortNotice => exact hs.execCollectiveAbortNotice
  case reductionSlotDeadline => exact hs.execReductionSlotDeadline
  case slotLingerEnd => exact hs.execSlotLingerEnd
  case launchPacket => exact hs.execLaunchPacket
  case tasksPacket => exact hs.execTasksPacket
  case copyPacket => exact hs.execCopyPacket
  case fencePacket => exact hs.execFencePacket
  case fenceCounterPoll => exact hs.execFenceCounterPoll
  case signalPacket => exact hs.execSignalPacket
  case strikePacket => exact hs.execStrikePacket
  case dimPacket => exact hs.execDimPacket
  case barrierPacket => exact hs.execBarrierPacket
  case nopPacket => exact hs.execNopPacket
  case packetCompletion => exact hs.execPacketCompletion
  case queueDoorbell => exact hs.execQueueDoorbell
  case queuePoll => exact hs.execQueuePoll
  case vdCreate => exact hs.execVdCreate
  case vdReset => exact hs.execVdReset
  case vdDestroy => exact hs.execVdDestroy
  case vaultload => exact hs.execVaultload
  case scheduleChange => exact hs.execScheduleChange
  case liveMigration => exact hs.execLiveMigration
  case stubForward => exact hs.execStubForward
  case stubExpiry => exact hs.execStubExpiry
  case endpointCreate => exact hs.execEndpointCreate
  case endpointSetupTimeout => exact hs.execEndpointSetupTimeout
  case ethPortSplit => exact hs.execEthPortSplit
  case ethWrite => exact hs.execEthWrite
  case ethRead => exact hs.execEthRead
  case ethRddata => exact hs.execEthRddata
  case ethAck => exact hs.execEthAck
  case ethNote => exact hs.execEthNote
  case ethEcho => exact hs.execEthEcho
  case ethSetup => exact hs.execEthSetup
  case ethKeep => exact hs.execEthKeep
  case ethBusy => exact hs.execEthBusy
  case ethKeepaliveTimer => exact hs.execEthKeepaliveTimer
  case ethAckTimer => exact hs.execEthAckTimer
  case ethRetransmitTimeout => exact hs.execEthRetransmitTimeout
  case ethRateRise => exact hs.execEthRateRise
  case powerOnReset => exact hs.execPowerOnReset
  case recoveryImage => exact hs.execRecoveryImage
  case wickUpdate => exact hs.execWickUpdate
  case wickUpdateTimeout => exact hs.execWickUpdateTimeout
  case managementDieTakeover => exact hs.execManagementDieTakeover
  case coreColumnRepair => exact hs.execCoreColumnRepair
  case dieReplacement => exact hs.execDieReplacement
  case powerSample => exact hs.execPowerSample
  case dutyRaise => exact hs.execDutyRaise
  case junctionOvertemp => exact hs.execJunctionOvertemp
  case coolantAlarm => exact hs.execCoolantAlarm
  case thermalStop => exact hs.execThermalStop
  case telemetrySample => exact hs.execTelemetrySample
  case outsidePortTimeout => exact hs.execOutsidePortTimeout
  case outsidePortLost => exact hs.execOutsidePortLost
  case securityViolation => exact hs.execSecurityViolation
  case unfreezeRequest => exact hs.execUnfreezeRequest
  case attestation => exact hs.execAttestation
  case svcReply => exact hs.execSvcReply
  case migrationComplete => exact hs.execMigrationComplete
  case hostPortAccess => exact hs.execHostPortAccess
  case powerLoss => exact hs.execPowerLoss
  case junctionCooled => exact hs.execJunctionCooled
  case pairRekey => exact hs.execPairRekey

theorem State.Canonical.exec {i : Instr} {s : State} (hs : s.Canonical) : Outcome.Canonical (Machine.exec i s) := by
  cases h : semOf i with
  | none => exact hs.exec_event h
  | some o =>
    rw [exec_of_semOf h]
    exact hs.runOne (semOf_keeps h)

theorem State.Canonical.runDue {a : Act} {s : State} (hs : s.Canonical) : (Machine.runDue a s).Canonical := by
  unfold Machine.runDue
  split
  · exact hs.performId
  · rename_i i o
    have h := State.Canonical.exec (i := i) (s := { s with subject := o }) hs.update
    split
    · rename_i t heq
      exact h.of_eq heq
    · exact hs
    · trivial

theorem State.Canonical.coreTurn {s : State} {r : Outcome} (hs : s.Canonical) (h : Machine.coreTurn s = some r) : r.Canonical := by
  unfold Machine.coreTurn at h
  split at h
  · cases h
    exact hs.modCore
  split at h
  · cases h
    exact hs.update.exec
  split at h
  · cases h
    exact .ite hs.update.exec hs.lateFreeze
  split at h
  · cases h
    exact hs.update.exec
  split at h
  · cases h
    exact hs.endCore
  split at h
  · cases h
    exact hs.update.exec
  · cases h

theorem State.Canonical.step {s : State} (hs : s.Canonical) : Outcome.Canonical (Machine.step s) := by
  unfold Machine.step
  refine .ite hs.update ?_
  split
  · exact hs.update.runDue
  · split
    · rename_i heq
      exact hs.coreTurn heq
    · exact hs.update

/-- Settles O47: a step keeps `State.Canonical`, by the lemmas about what it can run. -/
theorem memoryStaysCanonical : Obligations.MemoryStaysCanonical := by
  unfold Obligations.MemoryStaysCanonical
  intro s t hs h
  have ht : Outcome.Canonical (Machine.step s) := State.Canonical.step hs
  exact ht.of_eq h

/-! ## Power-on reset -/

theorem linkOf_reset {n : ℕ} (h : n < 48) : (linkOf State.reset n).up = false := by
  change (linkReset n).up = false
  rw [linkReset, if_pos (by omega)]
  rfl

theorem readCr_reset (k : CoreId) (n : ℕ) :
    readCr State.reset k n = if n = 0x002 then 1 else if n = 0x040 then coreCoord k else if n = 0x052 then 42500 else 0 := by
  unfold readCr
  dsimp only
  split
  case h_25 =>
    rw [if_neg ‹n = 2 → False›, if_neg ‹n = 64 → False›, if_neg ‹n = 82 → False›]
    split
    · rfl
    · split
      · rfl
      · rfl
  all_goals rfl

/-- Settles O48: the reset state is made of empty tables, which read as their default; the numbered control registers are read one by one. -/
theorem resetState : Obligations.ResetState := by
  unfold Obligations.ResetState
  exact ⟨rfl, rfl, fun _ => rfl, fun _ => rfl, rfl, fun _ _ => ⟨rfl, rfl, rfl⟩, fun _ => rfl, fun _ => linkOf_reset, readCr_reset,
    fun _ _ => ⟨ite_self _, rfl, rfl, rfl, rfl, rfl, rfl, rfl, rfl, rfl⟩⟩

end Sys2Proof.Machine
end

section
/-!
PROOFS. What the platform's events are made of: reports, the agenda, folds, changes of dies, and records of the record store.
-/
namespace Sys2Proof.Machine

/-! ### Reports sent and events to come -/

theorem told_report {s : State} {r : Report} (h : r.clk = s.clk) : Told (s.report r) r.kind r.code r.vd r.args :=
  ⟨r, by simp, rfl, rfl, rfl, rfl, h⟩
theorem told_gangEvent (s : State) (kind vd member core : ℕ) (args : List ℕ) : Told (gangEvent s kind vd member core args) 0 kind vd args := told_report rfl
theorem told_fabricEvent (s : State) (kind vd member : ℕ) (args : List ℕ) : Told (fabricEvent s kind vd member args) 1 kind vd args := told_report rfl
theorem told_memoryEvent (s : State) (kind vd member unit : ℕ) (args : List ℕ) :
    Told (memoryEvent s kind vd member unit args) 2 kind vd (unit :: args) := told_report rfl
theorem told_telemetry (s : State) (code : ℕ) (args : List ℕ) : Told (telemetry s code args) 6 code 0 args := told_report rfl
theorem told_reply (s : State) (code vd : ℕ) (args : List ℕ) : Told (reply s code vd args) 8 code vd args := told_report rfl

/-- A report that has been sent stays among those sent while the clk is the same. -/
theorem Told.mono {s t : State} {kind code vd : ℕ} {args : List ℕ} (h : Told s kind code vd args) (hclk : t.clk = s.clk) (hr : s.reports ⊆ t.reports) :
    Told t kind code vd args := by
  obtain ⟨r, hmem, hkind, hcode, hvd, hargs, hrclk⟩ := h
  exact ⟨r, hr hmem, hkind, hcode, hvd, hargs, hrclk.trans hclk.symm⟩

theorem Told.report {s : State} {kind code vd : ℕ} {args : List ℕ} (h : Told s kind code vd args) (r : Report) : Told (s.report r) kind code vd args :=
  h.mono rfl (List.subset_append_left _ _)

theorem coming_after (s : State) (n : ℕ) (i : Instr) (o : Subject) : Coming (s.after n i o) (s.clk + n) i o := by simp [Coming]

theorem Coming.after {s : State} {at_ : ℕ} {i : Instr} {o : Subject} (h : Coming s at_ i o) (n : ℕ) (i' : Instr) (o' : Subject) :
    Coming (s.after n i' o') at_ i o := List.mem_append_left _ h

/-- An event comes later than the clk of `s` and within a bound. -/
def ComesWithin (s t : State) (bound : ℕ) (i : Instr) (o : Subject) : Prop := ∃ at_, s.clk < at_ ∧ at_ ≤ s.clk + bound ∧ Coming t at_ i o

theorem comesWithin_after {s s' : State} (h : s'.clk = s.clk) (f : ℕ) {bound : ℕ} (hb : 0 < bound) (i : Instr) (o : Subject) :
    ComesWithin s (s'.after (1 + f % bound) i o) bound i o := by
  have := Nat.mod_lt f hb
  exact ⟨s'.clk + (1 + f % bound), by omega, by omega, coming_after ..⟩

/-! ### Folds that keep a relation -/

/-- A relation between states that every step of a fold keeps holds from the first to the last. -/
theorem foldl_keeps {α : Type} {R : State → State → Prop} (hrefl : ∀ s, R s s) (htrans : ∀ {s t u}, R s t → R t u → R s u) {f : State → α → State}
    (hf : ∀ s x, R s (f s x)) (l : List α) (s : State) : R s (l.foldl f s) :=
  List.foldlRecOn l f (hrefl s) fun t ht x _ => htrans ht (hf t x)

/-- What has been reported stays reported, and the clk and the platform are the same. -/
structure TellsMore (s t : State) : Prop where
  clk : t.clk = s.clk
  platform : t.platform = s.platform
  reports : s.reports ⊆ t.reports

theorem TellsMore.refl (s : State) : TellsMore s s := ⟨rfl, rfl, List.Subset.refl _⟩
theorem TellsMore.trans {s t u : State} (h : TellsMore s t) (h' : TellsMore t u) : TellsMore s u :=
  ⟨h'.clk.trans h.clk, h'.platform.trans h.platform, List.Subset.trans h.reports h'.reports⟩
theorem TellsMore.told {s t : State} (h : TellsMore s t) {kind code vd : ℕ} {args : List ℕ} (ht : Told s kind code vd args) : Told t kind code vd args :=
  ht.mono h.clk h.reports
theorem TellsMore.linkOf {s t : State} (h : TellsMore s t) (n : ℕ) : linkOf t n = Machine.linkOf s n := by simp [Machine.linkOf, h.platform]
theorem TellsMore.report {s t : State} (h : TellsMore s t) (r : Report) : TellsMore s (t.report r) :=
  ⟨h.clk, h.platform, List.subset_append_of_subset_left _ h.reports⟩
theorem TellsMore.foldl {α : Type} {f : State → α → State} (hf : ∀ s x, TellsMore s (f s x)) (l : List α) (s : State) : TellsMore s (l.foldl f s) :=
  foldl_keeps TellsMore.refl TellsMore.trans hf l s

/-! ### A die that fails (R427) -/

theorem TellsMore.loseGranules (s : State) (d : ℕ) : TellsMore s (Machine.loseGranules s d) := by
  have h : TellsMore s _ := TellsMore.foldl (f := fun s (e : ℕ × Granule) => match memberAt s d e.2.owner with
    | some o => gangEvent (s.modMember o fun c => { c with lost := Tab.put false c.lost e.1 true }) 0x07 o.vd o.member 0xFFFF [e.1, 1, d]
    | none => s) (fun s e => by
      split
      · exact ⟨rfl, rfl, List.subset_append_left _ _⟩
      · exact .refl s)
    ((s.die d).gran.filter fun e => decide (e.2.res = 2)) s
  exact ⟨h.clk, h.platform, h.reports⟩

theorem TellsMore.killVd (s : State) (vd : ℕ) : TellsMore s (Machine.killVd s vd) := by
  unfold Machine.killVd
  split
  · exact .refl s
  · have h := TellsMore.foldl (f := fun s (e : MemberId × ℕ) => stopCores s e.2) (fun s _ => ⟨rfl, rfl, List.Subset.refl _⟩) (votersOf s [vd]) s
    exact ⟨h.clk, h.platform, h.reports⟩

theorem TellsMore.dieFailed (s : State) (d : ℕ) : TellsMore s (Machine.dieFailed s d) := by
  unfold Machine.dieFailed
  extract_lets vds s₁ was s₂ s₃ s₄
  have h₁ : TellsMore s s₁ := TellsMore.foldl (fun s _ => (TellsMore.refl s).report _) _ s
  have h₂ : TellsMore s s₂ := h₁.trans (.loseGranules s₁ d)
  have h₄ : TellsMore s s₄ := ⟨h₂.clk, h₂.platform, h₂.reports⟩
  clear_value was s₄
  cases was with
  | none => exact h₄
  | some m =>
    refine TellsMore.trans ?_ (.killVd _ _)
    exact ⟨h₄.clk, h₄.platform, h₄.reports⟩

/-! ### Every die of the package -/

theorem die_foldl_modDie (f : Die → Die) (s : State) (n d : ℕ) :
    ((List.range n).foldl (fun s d => s.modDie d f) s).die d = if d < n then f (s.die d) else s.die d := by
  induction n with
  | zero => rfl
  | succ n ih =>
    rw [List.range_succ, List.foldl_append, List.foldl_cons, List.foldl_nil]
    by_cases hd : d = n
    · subst hd
      simp [ih]
    · rw [State.die_modDie_other _ _ hd, ih]
      simp [show d < n + 1 ↔ d < n by omega]

/-- Every die changes, and nothing else. -/
theorem modDies_spec (s : State) (f : Die → Die) : ∃ ds, modDies s f = { s with dies := ds } ∧ ∀ d < 64, Tab.get Die.reset ds d = f (s.die d) := by
  have heq : ∃ ds, modDies s f = { s with dies := ds } :=
    List.foldlRecOn (motive := fun t : State => ∃ ds, t = { s with dies := ds }) _ _ ⟨s.dies, rfl⟩ (by
      rintro _ ⟨ds, rfl⟩ d -
      exact ⟨_, rfl⟩)
  obtain ⟨ds, heq⟩ := heq
  refine ⟨ds, heq, fun d hd => ?_⟩
  have h := die_foldl_modDie f s Config.dies d
  rw [if_pos (by exact hd)] at h
  exact (congrArg (State.die · d) heq).symm.trans h

/-! ### The record store (R22, R382, R465) -/

/-- Only the records change, beside the free values drawn. -/
def recorded (s : State) (fresh : ℕ) (records : Tab (List (ℕ × List ℕ))) : State :=
  { s with fresh := fresh, platform := { s.platform with records := records } }

/-- What writing a record to the stores of some management dies has done to the records, `ok` when every write has succeeded. -/
structure Stored (s : State) (r : ℕ × List ℕ) (l : List ℕ) (ok : Bool) (records : Tab (List (ℕ × List ℕ))) : Prop where
  eq_or_append : ∀ i, Tab.get [] records i = Tab.get [] s.platform.records i ∨
    r ∉ Tab.get [] s.platform.records i ∧ Tab.get [] records i = Tab.get [] s.platform.records i ++ [r]
  written : ok = true → ∀ i ∈ l, r ∈ Tab.get [] records i
  others : ∀ i, i ∉ l → Tab.get [] records i = Tab.get [] s.platform.records i
  chosen : ok = true → ∀ i ∈ l, r ∉ Tab.get [] s.platform.records i → ∃ n, Config.freeChoice n % 2 = 0

theorem storeOn_written {r : ℕ × List ℕ} {s : State} {i : ℕ} (ok : Bool) (hr : r ∉ Tab.get [] s.platform.records i)
    (hlen : (Tab.get [] s.platform.records i).length < storeSize) (hc : Config.freeChoice s.fresh % 2 = 0) : storeOn r (ok, s) i =
      (ok, recorded s (s.fresh + 1) (Tab.put [] s.platform.records i (Tab.get [] s.platform.records i ++ [r]))) := by
  simp [storeOn, hr, hlen, hc, recorded, State.draw]

/-- One write: the record is there already, is appended by a free choice, or is not written. -/
theorem storeOn_eq (r : ℕ × List ℕ) (ok : Bool) (s : State) (i : ℕ) :
    storeOn r (ok, s) i = (ok, s) ∧ r ∈ Tab.get [] s.platform.records i ∨
    storeOn r (ok, s) i = (ok, recorded s (s.fresh + 1) (Tab.put [] s.platform.records i (Tab.get [] s.platform.records i ++ [r]))) ∧
      r ∉ Tab.get [] s.platform.records i ∧ Config.freeChoice s.fresh % 2 = 0 ∨
    storeOn r (ok, s) i = (false, recorded s (s.fresh + 1) s.platform.records) := by
  by_cases hr : r ∈ Tab.get [] s.platform.records i
  · exact .inl ⟨by simp [storeOn, hr], hr⟩
  · by_cases hc : (Tab.get [] s.platform.records i).length < storeSize ∧ Config.freeChoice s.fresh % 2 = 0
    · exact .inr (.inl ⟨storeOn_written ok hr hc.1 hc.2, hr, hc.2⟩)
    · exact .inr (.inr (by simp [storeOn, hr, hc, recorded, State.draw]))

theorem foldl_storeOn (s : State) (r : ℕ × List ℕ) (l : List ℕ) :
    ∃ ok fresh records, l.foldl (storeOn r) (true, s) = (ok, recorded s fresh records) ∧ Stored s r l ok records := by
  induction l using List.reverseRecOn with
  | nil => exact ⟨true, s.fresh, s.platform.records, rfl, fun i => .inl rfl, by simp, by simp, by simp⟩
  | append_singleton l i ih =>
    obtain ⟨ok, fresh, records, heq, h⟩ := ih
    rw [List.foldl_append, heq, List.foldl_cons, List.foldl_nil]
    obtain ⟨hw, hmem⟩ | ⟨hw, hmem, hc⟩ | hw := storeOn_eq r ok (recorded s fresh records) i
    case inl =>
      refine ⟨ok, fresh, records, hw, h.eq_or_append, ?_, ?_, ?_⟩
      · simp only [List.mem_append, List.mem_singleton]
        rintro hok j (hj | rfl)
        · exact h.written hok j hj
        · exact hmem
      · simp only [List.mem_append, not_or]
        exact fun j hj => h.others j hj.1
      · simp only [List.mem_append, List.mem_singleton]
        rintro hok j (hj | rfl) hnew
        · exact h.chosen hok j hj hnew
        · by_cases hj : j ∈ l
          · exact h.chosen hok j hj hnew
          · exact absurd (h.others j hj ▸ hmem) hnew
    case inr.inl =>
      change _ = (ok, recorded s (fresh + 1) (Tab.put [] records i (Tab.get [] records i ++ [r]))) at hw
      have hget (j : ℕ) := Tab.get_put [] records i j (Tab.get [] records i ++ [r])
      refine ⟨ok, _, _, hw, fun j => ?_, ?_, ?_, fun _ _ _ _ => ⟨_, hc⟩⟩
      · by_cases hj : j = i
        · subst hj
          obtain h' | ⟨-, h'⟩ := h.eq_or_append j
          · exact .inr ⟨h' ▸ hmem, by rw [← h', hget, if_pos rfl]⟩
          · exact absurd (by simp [recorded, h']) hmem
        · exact (h.eq_or_append j).imp (by rw [hget, if_neg hj]; exact id) (.imp_right (by rw [hget, if_neg hj]; exact id))
      · simp only [List.mem_append, List.mem_singleton]
        intro hok j hj
        rw [hget]
        split
        · simp
        · exact h.written hok j (hj.resolve_right ‹_›)
      · simp only [List.mem_append, List.mem_singleton, not_or]
        intro j hj
        rw [hget, if_neg hj.2]
        exact h.others j hj.1
    case inr.inr =>
      refine ⟨false, _, _, hw, h.eq_or_append, by simp, fun j hj => h.others j ?_, by simp⟩
      exact fun hl => hj (List.mem_append_left _ hl)

/-- The management dies a record goes to. -/
def stores (s : State) : List ℕ := if s.platform.standby then [s.platform.mgmtDie, 1 - s.platform.mgmtDie] else [s.platform.mgmtDie]

theorem mem_stores {s : State} {i : ℕ} : i ∈ stores s ↔ Stores s i := by
  unfold stores Stores
  cases s.platform.standby <;> simp

theorem storeBoth_eq (s : State) (r : ℕ × List ℕ) :
    ∃ ok fresh records, storeBoth s r = (ok, recorded s fresh records) ∧ Stored s r (stores s) ok records := foldl_storeOn s r (stores s)

theorem Stored.subset {s : State} {r : ℕ × List ℕ} {l : List ℕ} {ok : Bool} {records : Tab (List (ℕ × List ℕ))} (h : Stored s r l ok records) (i : ℕ) :
    ∀ x ∈ Tab.get [] s.platform.records i, x ∈ Tab.get [] records i := by
  intro x hx
  obtain h' | ⟨-, h'⟩ := h.eq_or_append i
  · exact h' ▸ hx
  · exact h' ▸ List.mem_append_left _ hx

theorem get_map_filter {α : Type} (p : α → Bool) (t : Tab (List α)) (i : ℕ) :
    Tab.get [] (t.map fun e => (e.1, e.2.filter p)) i = (Tab.get [] t i).filter p := by
  induction t with
  | nil => rfl
  | cons e t ih =>
    obtain ⟨k, v⟩ := e
    simp only [List.map_cons, Tab.get]
    split
    · rfl
    · exact ih

/-- The state with a record taken out of every store. -/
def withoutRecord (s : State) (r : ℕ × List ℕ) : State :=
  s.modPlatform fun p => { p with records := p.records.map fun e => (e.1, e.2.filter fun x => decide (x ≠ r)) }

theorem get_withoutRecord (s : State) (r : ℕ × List ℕ) (i : ℕ) :
    Tab.get [] (withoutRecord s r).platform.records i = (Tab.get [] s.platform.records i).filter fun x => decide (x ≠ r) := get_map_filter ..

theorem not_mem_withoutRecord (s : State) (r : ℕ × List ℕ) (i : ℕ) : r ∉ Tab.get [] (withoutRecord s r).platform.records i := by
  simp [get_withoutRecord]

theorem repairRecord_of_storeBoth {s t : State} {kind : ℕ} {args : List ℕ} {ok : Bool}
    (h : storeBoth (withoutRecord s (kind, args)) (kind, args) = (ok, t)) :
    repairRecord s kind args =
      if ok then (true, t) else (false, telemetry (t.modPlatform fun p => { p with records := s.platform.records }) 0x45 [kind]) := by
  change (if (storeBoth (withoutRecord s (kind, args)) (kind, args)).1 then storeBoth (withoutRecord s (kind, args)) (kind, args)
    else (false, telemetry ((storeBoth (withoutRecord s (kind, args)) (kind, args)).2.modPlatform fun p => { p with records := s.platform.records }) 0x45 [kind])) = _
  rw [h]
  cases ok <;> rfl

/-- A repair record is written to every store that takes it, beside what stood there, which some free choice allows; or the attempt is reported and
nothing else changes but the free values drawn. -/
theorem repairRecord_eq (s : State) (kind : ℕ) (args : List ℕ) :
    (∃ fresh records, repairRecord s kind args = (true, recorded s fresh records) ∧ Repaired s (recorded s fresh records) kind args ∧
      ∃ n, Config.freeChoice n % 2 = 0) ∨
    ∃ fresh, repairRecord s kind args = (false, telemetry { s with fresh := fresh } 0x45 [kind]) := by
  have hnew := not_mem_withoutRecord s (kind, args)
  obtain ⟨ok, fresh, records, heq, h⟩ := storeBoth_eq (withoutRecord s (kind, args)) (kind, args)
  have hrep := repairRecord_of_storeBoth heq
  cases ok with
  | false => exact .inr ⟨fresh, hrep⟩
  | true =>
    refine .inl ⟨fresh, records, hrep, fun i => ⟨fun hi => ?_, fun hi => ?_⟩, ?_⟩
    · obtain h' | ⟨-, h'⟩ := h.eq_or_append i
      · exact absurd (h' ▸ h.written rfl i (mem_stores.mpr hi)) (hnew i)
      · exact h'.trans (by rw [get_withoutRecord])
    · exact (h.others i fun hi' => hi (mem_stores.mp hi')).trans (get_withoutRecord ..)
    · exact h.chosen rfl s.platform.mgmtDie (mem_stores.mpr (.inl rfl)) (hnew _)

/-- A record is in the stores, or is written again a second later. -/
theorem storeRecord_eq (s : State) (kind : ℕ) (args : List ℕ) :
    ∃ fresh records pending agenda, storeRecord s kind args =
        { s with fresh := fresh, agenda := agenda, platform := { s.platform with records := records, pendingRecords := pending } } ∧
      Recorded s (storeRecord s kind args) kind args := by
  obtain ⟨ok, fresh, records, heq, h⟩ := storeBoth_eq s (kind, args)
  cases ok with
  | false =>
    have hst : storeRecord s kind args = { recorded s fresh records with
        platform := { (recorded s fresh records).platform with pendingRecords := s.platform.pendingRecords ++ [(kind, args, 1)] } }.after Config.second
          .retirementRecordRetry {} := by simp [storeRecord, heq]; rfl
    exact ⟨_, _, _, _, hst.trans rfl, hst ▸ h.subset, .inr ⟨hst ▸ rfl, hst ▸ coming_after ..⟩⟩
  | true =>
    have hst : storeRecord s kind args = recorded s fresh records := by simp [storeRecord, heq]
    exact ⟨_, _, _, _, hst.trans rfl, hst ▸ h.subset, .inl ⟨fun i hi => hst ▸ h.written rfl i (mem_stores.mpr hi), hst ▸ rfl⟩⟩

end Sys2Proof.Machine
end

section
/-!
PROOFS. The links of O60 (R441 to R443).
-/
namespace Sys2Proof.Machine

/-! ### Links -/

theorem linkOf_setLink_same (s : State) (n : ℕ) (l : Link) : linkOf (setLink s n l) n = l := Tab.get_put_same ..

theorem linkOf_setLink_other (s : State) {n j : ℕ} (l : Link) (h : j ≠ n) : linkOf (setLink s n l) j = linkOf s j := by
  change Tab.get _ (Tab.put _ _ _ _) _ = _
  unfold Tab.put
  split
  · exact Tab.get_erase_other _ _ h
  · exact Tab.get_insert_other _ _ _ h

@[simp] theorem setLink_clk (s : State) (n : ℕ) (l : Link) : (setLink s n l).clk = s.clk := rfl

theorem isLink_iff {n : ℕ} : isLink n = true ↔ n < 48 ∨ 64 ≤ n ∧ n < 1288 := by simp [isLink]

theorem linkField_eq (n : ℕ) : linkField n = if n < 64 then n / 3 * 4096 + 68 + n % 3 else (n - 64) % 18 * 4096 + (n - 64) / 18 := by
  simp only [linkField, Nat.add_assoc]

theorem told_linkEvent (s : State) (kind n : ℕ) (args : List ℕ) : Told (linkEvent s kind n args) 1 kind 0 (linkField n :: args) := told_fabricEvent ..

/-- The training of a link goes on within the bound of its next stage. -/
theorem trainOn_comes {s s' : State} (h : s'.clk = s.clk) (n stage : ℕ) :
    ComesWithin s (trainOn s' n stage) (if stage < 2 then 85000000 else 4250) .linkTraining { a := n } :=
  comesWithin_after h (Config.freeDelay s'.fresh) (bound := if stage < 2 then 85000000 else 4250) (by split <;> decide) _ _

/-- A link that closes is down, its record is out, and no time passes. -/
theorem closeLink_spec (s : State) (n reason : ℕ) : (closeLink s n reason).clk = s.clk ∧
    linkOf (closeLink s n reason) n = { linkOf s n with up := false, stage := 4 } ∧
    Told (closeLink s n reason) 1 0x03 0 [linkField n, reason, 260 * (linkOf s n).banks] := by
  set s₁ := linkEvent (setLink s n { linkOf s n with up := false, stage := 4 }) 0x03 n [reason, 260 * (linkOf s n).banks] with hs₁
  have htold : Told s₁ 1 0x03 0 [linkField n, reason, 260 * (linkOf s n).banks] := told_linkEvent ..
  have hmore : TellsMore s₁ (closeLink s n reason) := by
    unfold closeLink
    dsimp only
    rw [← hs₁]
    split
    · split
      · exact .dieFailed _ _
      · exact .refl _
    · exact .refl _
  exact ⟨hmore.clk, (hmore.linkOf n).trans (linkOf_setLink_same ..), hmore.told htold⟩

section
variable {s : State} {n : ℕ} {l : Link} (hsub : s.subject.a = n) (hlink : linkOf s n = l) (hn : isLink n = true)
include hsub hlink hn

theorem linkTraining_happens (hstage : l.stage < 4) :
    Happens .linkTraining s fun t => Quiet s t ∧ (∀ j, j ≠ n → linkOf t j = linkOf s j) ∧
      (l.stage = 3 ∧ linkOf t n = { l with up := true, stage := 4 } ∨
       l.stage < 3 ∧ linkOf t n = { l with stage := l.stage + 1 } ∧
        ComesWithin s t (if l.stage = 0 then 85000000 else 4250) .linkTraining { a := n } ∨
       n < 48 ∧ l.stage = 0 ∧ l.up = false ∧ linkOf t n = l ∧ Coming t (s.clk + 85000000) .laneDetectTimeout { a := n }) := by
  subst hsub hlink
  have h48 := isLink_iff.mp hn
  change ∃ t, execLinkTraining s = _ ∧ _
  unfold execLinkTraining
  dsimp only
  rw [if_neg (by simp [hn, hstage])]
  split
  case isTrue h =>
    obtain ⟨hlt, hzero, hup, -⟩ := h
    exact ⟨_, rfl, ⟨rfl, rfl, rfl, rfl, rfl⟩, fun _ _ => rfl, .inr (.inr ⟨by omega, hzero, by simpa using hup, rfl, coming_after ..⟩)⟩
  split
  case isTrue h =>
    exact ⟨_, rfl, ⟨rfl, rfl, rfl, rfl, rfl⟩, fun j hj => linkOf_setLink_other _ _ hj, .inl ⟨h, linkOf_setLink_same ..⟩⟩
  case isFalse h =>
    refine ⟨_, rfl, ⟨rfl, rfl, rfl, rfl, rfl⟩, fun j hj => linkOf_setLink_other s.draw _ hj, .inr (.inl ⟨by omega, linkOf_setLink_same .., ?_⟩)⟩
    simpa using trainOn_comes (s := s) (s' := setLink s.draw s.subject.a _) rfl s.subject.a ((linkOf s s.subject.a).stage + 1)

theorem laneDetectTimeout_happens (hup : l.up = false) (hstage : l.stage = 0) :
    Happens .laneDetectTimeout s fun t => Quiet s t ∧ t.platform = s.platform ∧ Told t 1 0x03 0 [linkField n, 3, 260 * l.banks] := by
  subst hsub hlink
  exact ⟨_, if_neg (by simp [hn, hup, hstage]), ⟨rfl, rfl, rfl, rfl, rfl⟩, rfl, told_linkEvent ..⟩

variable (hup : l.up = true)
include hup

theorem execLaneFailure_eq (hb : s.subject.b < 18) (hlanes : l.lanes + l.spares ≠ 0) :
    execLaneFailure s =
      if 16 ≤ l.lanes + l.spares - 1 then
        let r := repairRecord s 0x105 [n, 16, l.lanes + l.spares - 1 - 16]
        if r.1 then .next (trainOn (linkEvent (setLink r.2 n { l with lanes := 16, spares := l.lanes + l.spares - 1 - 16, stage := min l.stage 2 }) 0x01 n
          [s.subject.b, l.lanes + l.spares - 1 - 16]) n 2)
        else .next (trainOn (linkEvent (setLink r.2 n { l with lanes := 15, spares := 0, stage := 0 }) 0x02 n [15, 100]) n 0)
      else if 8 ≤ l.lanes + l.spares - 1 then
        .next (trainOn (linkEvent (setLink s n { l with lanes := l.lanes + l.spares - 1, spares := 0, stage := 0 }) 0x02 n [l.lanes + l.spares - 1, 100]) n 0)
      else .next (closeLink (setLink s n { l with lanes := l.lanes + l.spares - 1, spares := 0 }) n 1) := by
  subst hsub hlink
  exact if_neg (by simp [hn, hup]; omega)

theorem laneFailure_happens_spare (hb : s.subject.b < 18) (hlanes : l.lanes + l.spares ≠ 0) (hw : 16 ≤ l.lanes + l.spares - 1) :
    Happens .laneFailure s fun t => Quiet s t ∧
      (linkOf t n = { l with lanes := 16, spares := l.lanes + l.spares - 1 - 16, stage := min l.stage 2 } ∧
        Repaired s t 0x105 [n, 16, l.lanes + l.spares - 1 - 16] ∧ Told t 1 0x01 0 [linkField n, s.subject.b, l.lanes + l.spares - 1 - 16] ∧
        ComesWithin s t 4250 .linkTraining { a := n } ∨
       linkOf t n = { l with lanes := 15, spares := 0, stage := 0 } ∧ t.platform.records = s.platform.records ∧ Told t 6 0x45 0 [0x105] ∧
        Told t 1 0x02 0 [linkField n, 15, 100] ∧ ComesWithin s t 85000000 .linkTraining { a := n }) := by
  have heq := execLaneFailure_eq hsub hlink hn hup hb hlanes
  rw [if_pos hw] at heq
  obtain ⟨fresh, records, hrep, hrepaired, -⟩ | ⟨fresh, hrep⟩ := repairRecord_eq s 0x105 [n, 16, l.lanes + l.spares - 1 - 16]
  · rw [hrep] at heq
    exact ⟨_, heq, ⟨rfl, rfl, rfl, rfl, rfl⟩, .inl ⟨linkOf_setLink_same .., hrepaired, told_linkEvent .., trainOn_comes (by rfl) n 2⟩⟩
  · rw [hrep] at heq
    exact ⟨_, heq, ⟨rfl, rfl, rfl, rfl, rfl⟩, .inr ⟨linkOf_setLink_same .., rfl, (told_telemetry { s with fresh := fresh } 0x45 [0x105]).report _, told_linkEvent ..,
      trainOn_comes (by rfl) n 0⟩⟩

theorem laneFailure_happens_narrow (hb : s.subject.b < 18) (hlanes : l.lanes + l.spares ≠ 0) (h8 : 8 ≤ l.lanes + l.spares - 1)
    (h16 : l.lanes + l.spares - 1 < 16) :
    Happens .laneFailure s fun t => Quiet s t ∧ linkOf t n = { l with lanes := l.lanes + l.spares - 1, spares := 0, stage := 0 } ∧
      Told t 1 0x02 0 [linkField n, l.lanes + l.spares - 1, 100] ∧ ComesWithin s t 85000000 .linkTraining { a := n } := by
  have heq := execLaneFailure_eq hsub hlink hn hup hb hlanes
  rw [if_neg (by omega), if_pos h8] at heq
  exact ⟨_, heq, ⟨rfl, rfl, rfl, rfl, rfl⟩, linkOf_setLink_same .., told_linkEvent .., trainOn_comes (by rfl) n 0⟩

theorem laneFailure_happens_closed (hb : s.subject.b < 18) (hlanes : l.lanes + l.spares ≠ 0) (h8 : l.lanes + l.spares - 1 < 8) :
    Happens .laneFailure s fun t => t.clk = s.clk ∧ linkOf t n = { l with lanes := l.lanes + l.spares - 1, spares := 0, up := false, stage := 4 } ∧
      Told t 1 0x03 0 [linkField n, 1, 260 * l.banks] := by
  have heq := execLaneFailure_eq hsub hlink hn hup hb hlanes
  rw [if_neg (by omega), if_neg (by omega)] at heq
  have h := closeLink_spec (setLink s n { l with lanes := l.lanes + l.spares - 1, spares := 0 }) n 1
  rw [linkOf_setLink_same] at h
  exact ⟨_, heq, h⟩

theorem bufferBankError_happens (hbanks : 3 ≤ l.banks) :
    Happens .bufferBankError s fun t => Quiet s t ∧ linkOf t n = { l with banks := l.banks - 1 } := by
  subst hsub hlink
  refine ⟨setLink s s.subject.a { linkOf s s.subject.a with banks := (linkOf s s.subject.a).banks - 1 }, ?_, ⟨rfl, rfl, rfl, rfl, rfl⟩, linkOf_setLink_same ..⟩
  exact (if_neg (by simp [hn, hup]; omega)).trans (congrArg _ (if_neg (by omega)))

theorem bufferBankError_happens_closed (hpos : 1 ≤ l.banks) (hbanks : l.banks < 3) :
    Happens .bufferBankError s fun t => t.clk = s.clk ∧ linkOf t n = { l with banks := l.banks - 1, up := false, stage := 4 } ∧
      Told t 1 0x03 0 [linkField n, 2, 260 * (l.banks - 1)] := by
  subst hsub hlink
  have h := closeLink_spec (setLink s s.subject.a { linkOf s s.subject.a with banks := (linkOf s s.subject.a).banks - 1 }) s.subject.a 2
  rw [linkOf_setLink_same] at h
  exact ⟨_, (if_neg (by simp [hn, hup]; omega)).trans (congrArg _ (if_pos (by omega))), h⟩

end

end Sys2Proof.Machine
end

section
/-!
PROOFS. The switch positions of O60 (R15, R445, R453).
-/
namespace Sys2Proof.Machine

/-! ### Packets a lost position held (R444, R446) -/

/-- The packet an entry of the agenda brings to switch position `w`. -/
def heldAt (w : ℕ) (x : Due) : Option Pkt := match x.act with
  | .event i o => if i = .switchPacketForward ∧ o.a = w then o.pkt else none
  | .perform _ => none

theorem heldAt_event {w at_ : ℕ} {o : Subject} (h : o.a = w) : heldAt w ⟨at_, .event .switchPacketForward o⟩ = o.pkt := by simp [heldAt, h]

/-- Packets go again, 50 µs later, to the position that each one's path takes. -/
theorem foldl_resend (l : List Pkt) (s : State) : ∃ as : List Due,
    l.foldl (fun s p => s.after (50 * Config.us) .switchPacketForward { a := switchPos s p, pkt := some p }) s = { s with agenda := s.agenda ++ as } ∧
    (∀ p ∈ l, ∃ w, ⟨s.clk + 42500, .event .switchPacketForward { a := w, pkt := some p }⟩ ∈ as) ∧
    ∀ x ∈ as, ∃ p ∈ l, ∃ w, x = ⟨s.clk + 42500, .event .switchPacketForward { a := w, pkt := some p }⟩ := by
  induction l generalizing s with
  | nil => exact ⟨[], by simp, by simp, by simp⟩
  | cons p l ih =>
    obtain ⟨as, heq, hall, honly⟩ := ih (s.after (50 * Config.us) .switchPacketForward { a := switchPos s p, pkt := some p })
    refine ⟨⟨s.clk + 42500, .event .switchPacketForward { a := switchPos s p, pkt := some p }⟩ :: as, ?_, ?_, ?_⟩
    · rw [List.foldl_cons, heq, State.after_agenda, List.append_assoc]
      rfl
    · rintro q (_ | ⟨_, hq⟩)
      · exact ⟨_, List.mem_cons_self⟩
      · exact (hall q hq).imp fun _ => List.mem_cons_of_mem _
    · rintro x (_ | ⟨_, hx⟩)
      · exact ⟨p, List.mem_cons_self, _, rfl⟩
      · obtain ⟨q, hq, w, hw⟩ := honly x hx
        exact ⟨q, List.mem_cons_of_mem _ hq, w, hw⟩

/-- Only the agenda changes: of the packets that position `w` held, the reductions go again and no other is left. -/
theorem loseHeld_spec (s : State) (w : ℕ) : ∃ agenda, loseHeld s w = { s with agenda := agenda } ∧
    ∀ at_ o p, o.a = w → o.pkt = some p →
      (p.type = 0x0B → Coming s at_ .switchPacketForward o → ∃ w', ⟨s.clk + 42500, .event .switchPacketForward { a := w', pkt := some p }⟩ ∈ agenda) ∧
      (p.type ≠ 0x0B → ⟨at_, .event .switchPacketForward o⟩ ∉ agenda) := by
  obtain ⟨as, heq, hall, honly⟩ := foldl_resend ((s.agenda.filterMap (heldAt w)).filter fun p => decide (p.type = 0x0B))
    { s with agenda := s.agenda.filter fun x => (heldAt w x).isNone }
  refine ⟨_, heq, fun at_ o p ho hp => ⟨fun htype hcoming => ?_, fun htype hmem => ?_⟩⟩
  · obtain ⟨w', hw'⟩ := hall p (by simpa [htype] using ⟨_, hcoming, (heldAt_event ho).trans hp⟩)
    exact ⟨w', List.mem_append_right _ hw'⟩
  · obtain hmem | hmem := List.mem_append.mp hmem
    · have := (List.mem_filter.mp hmem).2
      simp [heldAt_event ho, hp] at this
    · obtain ⟨q, hq, w', hw'⟩ := honly _ hmem
      simp only [Due.mk.injEq, Act.event.injEq] at hw'
      have hpq : p = q := by simpa [hw'.2.2] using hp.symm
      exact htype (by simpa [hpq] using (List.mem_filter.mp hq).2)

/-! ### Reduction slots that are lost (R453) -/

/-- What is sent is results of reductions; switch position `w` keeps its slots and whether it is down. -/
structure SendsSres (w : ℕ) (s t : State) : Prop where
  quiet : Quiet s t
  platform : t.platform = s.platform
  reports : s.reports ⊆ t.reports
  down : (t.switch w).down = (s.switch w).down
  slots : (t.switch w).slots = (s.switch w).slots
  agenda : s.agenda ⊆ t.agenda
  sres : ∀ x ∈ t.agenda, x ∈ s.agenda ∨ ∃ i o p, x.act = .event i o ∧ o.pkt = some p ∧ p.type = 0x0C

theorem Quiet.refl (s : State) : Quiet s s := ⟨rfl, rfl, rfl, rfl, rfl⟩
theorem Quiet.trans {s t u : State} (h : Quiet s t) (h' : Quiet t u) : Quiet s u :=
  ⟨h'.clk.trans h.clk, h'.mem.trans h.mem, h'.fe.trans h.fe, h'.poison.trans h.poison, h'.cores.trans h.cores⟩

theorem SendsSres.refl {w : ℕ} (s : State) : SendsSres w s s := ⟨.refl s, rfl, List.Subset.refl _, rfl, rfl, List.Subset.refl _, fun _ => .inl⟩
theorem SendsSres.trans {w : ℕ} {s t u : State} (h : SendsSres w s t) (h' : SendsSres w t u) : SendsSres w s u where
  quiet := h.quiet.trans h'.quiet
  platform := h'.platform.trans h.platform
  reports := List.Subset.trans h.reports h'.reports
  down := h'.down.trans h.down
  slots := h'.slots.trans h.slots
  agenda := List.Subset.trans h.agenda h'.agenda
  sres x hx := (h'.sres x hx).elim (h.sres x) .inr

theorem SendsSres.after (s : State) (w n : ℕ) (i : Instr) (o : Subject) {p : Pkt} (hp : o.pkt = some p) (htype : p.type = 0x0C) :
    SendsSres w s (s.after n i o) := by
  refine ⟨⟨rfl, rfl, rfl, rfl, rfl⟩, rfl, fun _ h => h, rfl, rfl, List.subset_append_left _ _, fun x hx => ?_⟩
  rw [State.after_agenda, List.mem_append, List.mem_singleton] at hx
  exact hx.imp_right (by rintro rfl; exact ⟨i, o, p, rfl, hp, htype⟩)

theorem SendsSres.modSwitch (s : State) (w : ℕ) {f : Switch → Switch} (hf : ∀ x, (f x).down = x.down ∧ (f x).slots = x.slots) :
    SendsSres w s (s.modSwitch w f) :=
  ⟨⟨rfl, rfl, rfl, rfl, rfl⟩, rfl, fun _ h => h, by simp [hf], by simp [hf], fun _ h => h, fun _ => .inl⟩

theorem SendsSres.modDie (s : State) (w d : ℕ) (f : Die → Die) : SendsSres w s (s.modDie d f) :=
  ⟨⟨rfl, rfl, rfl, rfl, rfl⟩, rfl, fun _ h => h, rfl, rfl, fun _ h => h, fun _ => .inl⟩

theorem SendsSres.switchOut (s : State) (w : ℕ) {p : Pkt} (htype : p.type = 0x0C) : SendsSres w s (Machine.switchOut s w p) := by
  refine (SendsSres.modSwitch s w ?_).trans (.trans (.modDie _ w p.ddie _) (.after _ w 30 _ _ rfl htype))
  exact fun x => ⟨rfl, rfl⟩

theorem SendsSres.sendSres (s : State) (w : ℕ) (m : MemberId) (cid tag : ℕ) (word : Dword) (data : List Byte) (stamp : Tab ℕ) :
    SendsSres w s (Machine.sendSres s w m cid tag word data stamp) := by
  unfold Machine.sendSres
  extract_lets d src p g s₁
  have htype : p.type = 0x0C := by
    simp only [p, payloadLen]
    split <;> rfl
  have h₁ : SendsSres w s s₁ := .modSwitch s w (by exact fun x => ⟨rfl, rfl⟩)
  refine h₁.trans ?_
  split
  · exact .switchOut s₁ w htype
  · exact .after s₁ w _ _ _ rfl htype

theorem SendsSres.foldl {α : Type} {w : ℕ} {f : State → α → State} (hf : ∀ s x, SendsSres w s (f s x)) (l : List α) (s : State) :
    SendsSres w s (l.foldl f s) := foldl_keeps SendsSres.refl SendsSres.trans hf l s

theorem SendsSres.loseSlot (s₀ : State) (w : ℕ) (r : RedSlot) : SendsSres w s₀ (Machine.loseSlot s₀ w r) := by
  have h := SendsSres.foldl (fun s (e : ℕ × ℕ × ℕ) => .sendSres s w ⟨vdOfGang s₀ r.gang, e.1⟩ r.cid e.2.1 (completionWord false false true none []) [] []) r.waiting s₀
  exact h.trans ⟨⟨rfl, rfl, rfl, rfl, rfl⟩, rfl, List.subset_append_left _ _, rfl, rfl, List.Subset.refl _, fun _ => .inl⟩

/-! ### A position that is lost -/

/-- The state once position `w` is declared lost, before a spare is sought. -/
def positionLost (s : State) (w : ℕ) : State :=
  ((s.switch w).slots.filterMap fun e => match e.2 with
    | some r => if r.done.isNone then some r else none
    | none => none).foldl (fun s r => loseSlot s w r)
    (loseHeld ((fabricEvent s 0x04 0 0xFF [w * 4096, w, switchDie s w, (s.members.map fun e => e.2.retransmit.countP fun x => decide (switchPos s x.pkt = w)).sum]).modSwitch w
      fun x => { x with down := true, slots := [], outQueue := [], heartbeats := 0 }) w)

theorem losePosition_eq (s : State) (w : ℕ) : losePosition s w =
    let t := positionLost s w
    if t.platform.spareSwitches < 2 then t.draw.after (1 + Config.freeDelay t.fresh % (2000 * Config.us)) .switchTakeover { a := w, b := t.clk }
    else
      let t := t.after 0 .outsidePortLost { a := w, b := 3 }
      let t := if w % 4 = 0 then t.after 0 .outsidePortLost { a := 0x40 + w / 4, b := 3 } else t
      let t := t.modPlatform fun p => { p with ethDown := Tab.put false p.ethDown w true }
      (List.range 3).foldl (fun s i => setLink s (3 * w + i) { linkOf s (3 * w + i) with up := false, stage := 4 }) t := rfl

/-- Position `w` is lost: what the loss says and what becomes of what it held. -/
structure PositionLost (w : ℕ) (s t : State) : Prop where
  quiet : Quiet s t
  down : (t.switch w).down = true
  slots : (t.switch w).slots = []
  told : Told t 1 0x04 0 [w * 4096, w, switchDie s w, (s.members.map fun e => e.2.retransmit.countP fun x => decide (switchPos s x.pkt = w)).sum]
  held : ∀ at_ o p, o.a = w → o.pkt = some p →
    (p.type = 0x0B → Coming s at_ .switchPacketForward o → ∃ w', Coming t (s.clk + 42500) .switchPacketForward { a := w', pkt := some p }) ∧
    (p.type ≠ 0x0B → p.type ≠ 0x0C → ¬Coming t at_ .switchPacketForward o)

theorem positionLost_spec (s : State) (w : ℕ) : PositionLost w s (positionLost s w) ∧ (positionLost s w).platform = s.platform := by
  set args := [w * 4096, w, switchDie s w, (s.members.map fun e => e.2.retransmit.countP fun x => decide (switchPos s x.pkt = w)).sum] with hargs
  set s₁ := (fabricEvent s 0x04 0 0xFF args).modSwitch w fun x => { x with down := true, slots := [], outQueue := [], heartbeats := 0 } with hs₁
  obtain ⟨agenda, heq, hheld⟩ := loseHeld_spec s₁ w
  have hsends : SendsSres w (loseHeld s₁ w) (positionLost s w) := .foldl (fun s r => .loseSlot s w r) _ _
  rw [heq] at hsends
  have hsw : s₁.switch w = { s.switch w with down := true, slots := [], outQueue := [], heartbeats := 0 } := State.switch_modSwitch ..
  have htold : Told s₁ 1 0x04 0 args := told_fabricEvent s 0x04 0 0xFF args
  obtain ⟨quiet, platform, reports, down, slots, hagenda, sres⟩ := hsends
  refine ⟨⟨⟨quiet.clk, quiet.mem, quiet.fe, quiet.poison, quiet.cores⟩, down.trans (congrArg Switch.down hsw), slots.trans (congrArg Switch.slots hsw),
    htold.mono quiet.clk reports, ?_⟩, platform⟩
  intro at_ o p ho hp
  refine ⟨fun htype hcoming => ((hheld at_ o p ho hp).1 htype hcoming).imp fun _ h => hagenda h, fun htype hres hcoming => ?_⟩
  obtain hmem | ⟨i, o', p', hact, hp', hres'⟩ := sres _ hcoming
  · exact (hheld at_ o p ho hp).2 htype hmem
  · simp only [Act.event.injEq] at hact
    rw [← hact.2, hp, Option.some.injEq] at hp'
    exact hres (hp' ▸ hres')

/-- What follows the loss without a packet on its way keeps it. -/
theorem PositionLost.mono {w : ℕ} {s t u : State} (h : PositionLost w s t) (hquiet : Quiet t u) (hswitches : u.switches = t.switches)
    (hreports : t.reports ⊆ u.reports) (hagenda : t.agenda ⊆ u.agenda)
    (hnew : ∀ x ∈ u.agenda, x ∈ t.agenda ∨ ∃ i o, x.act = .event i o ∧ o.pkt = none) : PositionLost w s u where
  quiet := h.quiet.trans hquiet
  down := by simpa [State.switch, hswitches] using h.down
  slots := by simpa [State.switch, hswitches] using h.slots
  told := h.told.mono hquiet.clk hreports
  held at_ o p ho hp := by
    refine ⟨fun htype hcoming => ((h.held at_ o p ho hp).1 htype hcoming).imp fun _ h => hagenda h, fun htype hres hcoming => ?_⟩
    obtain hmem | ⟨i, o', hact, hnone⟩ := hnew _ hcoming
    · exact (h.held at_ o p ho hp).2 htype hres hmem
    · simp only [Act.event.injEq] at hact
      rw [← hact.2, hp] at hnone
      exact Option.some_ne_none _ hnone

theorem PositionLost.after {w : ℕ} {s t : State} (h : PositionLost w s t) (n : ℕ) (i : Instr) {o : Subject} (ho : o.pkt = none) :
    PositionLost w s (t.after n i o) := by
  refine h.mono ⟨rfl, rfl, rfl, rfl, rfl⟩ rfl (fun _ h => h) (List.subset_append_left _ _) fun x hx => ?_
  rw [State.after_agenda, List.mem_append, List.mem_singleton] at hx
  exact hx.imp_right (by rintro rfl; exact ⟨i, o, rfl, ho⟩)

theorem PositionLost.modPlatform {w : ℕ} {s t : State} (h : PositionLost w s t) (f : Platform → Platform) : PositionLost w s (t.modPlatform f) :=
  h.mono ⟨rfl, rfl, rfl, rfl, rfl⟩ rfl (fun _ h => h) (fun _ h => h) fun _ => .inl

theorem PositionLost.draw {w : ℕ} {s t : State} (h : PositionLost w s t) : PositionLost w s t.draw :=
  h.mono ⟨rfl, rfl, rfl, rfl, rfl⟩ rfl (fun _ h => h) (fun _ h => h) fun _ => .inl

/-- The three reach links of position `w` go down; nothing but the platform changes. -/
theorem closeReach_spec (s : State) (w : ℕ) :
    let t := (List.range 3).foldl (fun s i => setLink s (3 * w + i) { linkOf s (3 * w + i) with up := false, stage := 4 }) s
    (∃ f : Platform → Platform, t = s.modPlatform f ∧ (f s.platform).ethDown = s.platform.ethDown) ∧ ∀ i < 3, (linkOf t (3 * w + i)).up = false := by
  refine ⟨⟨fun _ => _, rfl, rfl⟩, fun i hi => ?_⟩
  rw [show List.range 3 = [0, 1, 2] from rfl]
  simp only [List.foldl_cons, List.foldl_nil]
  obtain rfl | rfl | rfl : i = 0 ∨ i = 1 ∨ i = 2 := by omega
  · rw [linkOf_setLink_other _ _ (by omega), linkOf_setLink_other _ _ (by omega), linkOf_setLink_same]
  · rw [linkOf_setLink_other _ _ (by omega), linkOf_setLink_same]
  · rw [linkOf_setLink_same]

theorem losePosition_spare {s : State} (w : ℕ) (hspare : s.platform.spareSwitches < 2) :
    PositionLost w s (losePosition s w) ∧ (losePosition s w).platform = s.platform ∧
      ComesWithin s (losePosition s w) 1700000 .switchTakeover { a := w, b := s.clk } := by
  obtain ⟨hlost, hplatform⟩ := positionLost_spec s w
  have heq := losePosition_eq s w
  rw [if_pos (by rw [hplatform]; exact hspare)] at heq
  rw [heq]
  refine ⟨hlost.draw.after _ _ rfl, hplatform, ?_⟩
  rw [← hlost.quiet.clk]
  exact comesWithin_after (by exact hlost.quiet.clk) _ (by decide) _ _

theorem losePosition_none {s : State} (w : ℕ) (hspare : 2 ≤ s.platform.spareSwitches) :
    PositionLost w s (losePosition s w) ∧ Coming (losePosition s w) s.clk .outsidePortLost { a := w, b := 3 } ∧
      (w % 4 = 0 → Coming (losePosition s w) s.clk .outsidePortLost { a := 0x40 + w / 4, b := 3 }) ∧
      Tab.get false (losePosition s w).platform.ethDown w = true ∧ ∀ i < 3, (linkOf (losePosition s w) (3 * w + i)).up = false := by
  obtain ⟨hlost, hplatform⟩ := positionLost_spec s w
  have heq := losePosition_eq s w
  extract_lets t t₁ t₂ t₃ at heq
  rw [if_neg (by rw [show t.platform = _ from hplatform]; omega)] at heq
  obtain ⟨⟨f, hf, heth⟩, hdown⟩ := closeReach_spec t₃ w
  rw [← heq] at hf hdown
  have hclk : t.clk + 0 = s.clk := hlost.quiet.clk
  have h₁ : PositionLost w s t₁ ∧ Coming t₁ s.clk .outsidePortLost { a := w, b := 3 } :=
    ⟨hlost.after 0 _ rfl, hclk ▸ coming_after t 0 _ _⟩
  have h₂ : PositionLost w s t₂ ∧ Coming t₂ s.clk .outsidePortLost { a := w, b := 3 } ∧
      (w % 4 = 0 → Coming t₂ s.clk .outsidePortLost { a := 0x40 + w / 4, b := 3 }) := by
    by_cases hw : w % 4 = 0
    · rw [show t₂ = t₁.after 0 .outsidePortLost { a := 0x40 + w / 4, b := 3 } from if_pos hw]
      exact ⟨h₁.1.after 0 _ rfl, h₁.2.after .., fun _ => hclk ▸ coming_after t₁ 0 _ _⟩
    · rw [show t₂ = t₁ from if_neg hw]
      exact ⟨h₁.1, h₁.2, fun h => absurd h hw⟩
  obtain ⟨hlost₂, hcoming, hhost⟩ := h₂
  rw [hf] at hdown ⊢
  exact ⟨(hlost₂.modPlatform _).modPlatform f, hcoming, hhost, (congrArg (Tab.get false · w) heth).trans (Tab.get_put_same false t₂.platform.ethDown w true), hdown⟩

/-! ### SWITCH_HEARTBEAT_LOSS, SWITCH_TAKEOVER -/

theorem switchHeartbeatLoss_eq {s : State} (ha : s.subject.a < 16) (hup : (s.switch s.subject.a).down = false) :
    execSwitchHeartbeatLoss s =
      if (s.switch s.subject.a).heartbeats + max s.subject.b 1 < 3 then
        .next (s.modSwitch s.subject.a fun x => { x with heartbeats := (s.switch s.subject.a).heartbeats + max s.subject.b 1 })
      else .next (losePosition s s.subject.a) :=
  if_neg (by simp [Config.switches, hup]; omega)

theorem switchDie_of_lt (s : State) {w : ℕ} (hw : w < 16) : switchDie s w = (s.switch w).physical.getD w := by
  rw [switchDie, Nat.mod_eq_of_lt hw]

theorem switchTakeover_happens {s : State} (ha : s.subject.a < 16) (hdown : (s.switch s.subject.a).down = true) (hspare : s.platform.spareSwitches < 2) :
    Happens .switchTakeover s fun t => Quiet s t ∧
      ((t.switch s.subject.a).down = false ∧ (t.switch s.subject.a).physical = some (16 + s.platform.spareSwitches) ∧
        t.platform.spareSwitches = s.platform.spareSwitches + 1 ∧ Repaired s t 0x104 [s.subject.a, 16 + s.platform.spareSwitches] ∧
        (∀ e ∈ t.members, e.2.unreachable = []) ∧
        Told t 1 0x05 0 [s.subject.a * 4096, s.subject.a, switchDie s s.subject.a * 256 + (16 + s.platform.spareSwitches), (s.clk - s.subject.b) / 850] ∨
       t.switches = s.switches ∧ t.members = s.members ∧ NotRepaired s t 0x104 ∧ Coming t (s.clk + 850) .switchTakeover s.subject) := by
  change ∃ t, execSwitchTakeover s = _ ∧ _
  unfold execSwitchTakeover
  dsimp only
  rw [if_neg (by simp [Config.switches, hdown]; omega)]
  obtain ⟨fresh, records, hrep, hrepaired, -⟩ | ⟨fresh, hrep⟩ := repairRecord_eq s 0x104 [s.subject.a, 16 + s.platform.spareSwitches]
  · rw [hrep]
    have hsw := State.switch_modSwitch (recorded s fresh records) s.subject.a fun x => { x with down := false, physical := some (16 + s.platform.spareSwitches) }
    refine ⟨_, if_neg (by simp), ⟨rfl, rfl, rfl, rfl, rfl⟩, .inl ⟨?_, ?_, rfl, hrepaired, ?_, told_fabricEvent ..⟩⟩
    · exact congrArg Switch.down hsw
    · exact congrArg Switch.physical hsw
    · intro e he
      obtain ⟨e', -, rfl⟩ := List.mem_map.mp he
      rfl
  · rw [hrep]
    exact ⟨_, if_pos rfl, ⟨rfl, rfl, rfl, rfl, rfl⟩, .inr ⟨rfl, rfl, ⟨rfl, told_telemetry { s with fresh := fresh } 0x45 [0x104]⟩, coming_after ..⟩⟩

end Sys2Proof.Machine
end

section
/-!
PROOFS. Security alarms, attestation, images, updates and the management dies of O60 (R25, R374, R376, R473 to R475).
-/
namespace Sys2Proof.Machine

/-! ### Alarms (R473, R474) -/

theorem hour_eq : Config.hour = 3060000000000 := by norm_num [Config.hour, Config.second]
theorem day_eq : Config.day = 73440000000000 := by norm_num [Config.day, Config.hour, Config.second]

theorem violationLevel_eq (s : State) {a : ℕ} (h1 : 1 ≤ a) (h5 : a ≤ 5) : violationLevel s a = alarmLevel s a := by
  unfold violationLevel alarmLevel
  rw [hour_eq, day_eq]
  generalize 3060000000000 = hour, 73440000000000 = day
  obtain rfl | rfl | rfl | rfl | rfl : a = 1 ∨ a = 2 ∨ a = 3 ∨ a = 4 ∨ a = 5 := by omega
  all_goals simp

theorem alarmLevel_cases (s : State) (a : ℕ) : alarmLevel s a = 1 ∨ alarmLevel s a = 2 ∨ alarmLevel s a = 3 := by
  unfold alarmLevel
  dsimp only
  split_ifs <;> simp

/-- The violations noted once violation `a` has happened now. -/
def notedViolation (s : State) (a : ℕ) : Tab ℕ :=
  Tab.put 0 (Tab.put 0 s.platform.violations (2 * a + 1) (Tab.get 0 s.platform.violations (2 * a))) (2 * a) (s.clk + 1)

/-- The state once violation `a` is noted, reported and recorded. -/
def alarmRecorded (s : State) (a : ℕ) : State :=
  storeRecord (memoryEvent (s.modPlatform fun p => { p with violations := notedViolation s a }) 0x0A 0 0xFF 0xFF [violationLevel s a, a]) 0x0A
    [violationLevel s a, a, s.clk]

/-- What violation `a` changes of the platform. -/
structure AlarmPlatform (s t : State) (a : ℕ) : Prop where
  violations : t.platform.violations = notedViolation s a
  boot : t.platform.boot = s.platform.boot
  badImages : t.platform.badImages = s.platform.badImages
  updateFailures : t.platform.updateFailures = s.platform.updateFailures
  wicks : t.wicks = s.wicks

theorem alarmRecorded_spec (s : State) (a : ℕ) (h : violationLevel s a = alarmLevel s a) :
    Told (alarmRecorded s a) 2 0x0A 0 [0xFF, alarmLevel s a, a] ∧ Recorded s (alarmRecorded s a) 0x0A [alarmLevel s a, a, s.clk] ∧
    ((alarmRecorded s a).clk = s.clk ∧ (alarmRecorded s a).mem = s.mem ∧ (alarmRecorded s a).cores = s.cores) ∧
    (alarmRecorded s a).platform.frozen = s.platform.frozen ∧ (alarmRecorded s a).platform.erased = s.platform.erased ∧
    (alarmRecorded s a).vds = s.vds ∧ AlarmPlatform s (alarmRecorded s a) a := by
  unfold alarmRecorded
  rw [h]
  set m := memoryEvent (s.modPlatform fun p => { p with violations := notedViolation s a }) 0x0A 0 0xFF 0xFF [alarmLevel s a, a] with hm
  have htold : Told m 2 0x0A 0 [0xFF, alarmLevel s a, a] := told_memoryEvent ..
  obtain ⟨fresh, records, pending, agenda, heq, hrecorded⟩ := storeRecord_eq m 0x0A [alarmLevel s a, a, s.clk]
  refine ⟨heq ▸ htold, hrecorded, ?_⟩
  rw [heq]
  exact ⟨⟨rfl, rfl, rfl⟩, rfl, rfl, rfl, rfl, rfl, rfl, rfl, rfl⟩

/-- The destruction of every live VD of a list comes at once; only the agenda changes. -/
theorem foldl_destroy (l : Tab VD) (s : State) : ∃ as : List Due,
    l.foldl (fun s e => if e.2.live then s.after 0 .vdDestroy { a := e.1 } else s) s = { s with agenda := s.agenda ++ as } ∧
      ∀ e ∈ l, e.2.live = true → ⟨s.clk, .event .vdDestroy { a := e.1 }⟩ ∈ as := by
  induction l generalizing s with
  | nil => exact ⟨[], by simp, by simp⟩
  | cons e l ih =>
    rw [List.foldl_cons]
    by_cases he : e.2.live = true
    · obtain ⟨as, heq, hall⟩ := ih (s.after 0 .vdDestroy { a := e.1 })
      refine ⟨⟨s.clk, .event .vdDestroy { a := e.1 }⟩ :: as, ?_, ?_⟩
      · rw [if_pos he, heq, State.after_agenda, List.append_assoc]
        rfl
      · rintro e' (_ | ⟨_, he'⟩) hlive
        · exact List.mem_cons_self
        · exact List.mem_cons_of_mem _ (hall e' he' hlive)
    · obtain ⟨as, heq, hall⟩ := ih s
      refine ⟨as, by rw [if_neg he, heq], ?_⟩
      rintro e' (_ | ⟨_, he'⟩) hlive
      · exact absurd hlive he
      · exact hall e' he' hlive

/-- Every key is erased and every live VD is to be destroyed (R474). -/
def eraseAll (s : State) : State :=
  let s := s.modPlatform fun p => { p with erased := true }
  let s := { s with vds := s.vds.map fun (e : ℕ × VD) => (e.1, { e.2 with keyNo := 0 }) }
  s.vds.foldl (fun s e => if e.2.live then s.after 0 .vdDestroy { a := e.1 } else s) s

theorem eraseAll_spec (s : State) : ∃ as : List Due, eraseAll s = { s with
      agenda := s.agenda ++ as, platform := { s.platform with erased := true }, vds := s.vds.map fun (e : ℕ × VD) => (e.1, { e.2 with keyNo := 0 }) } ∧
    ∀ e ∈ s.vds, e.2.live = true → ⟨s.clk, .event .vdDestroy { a := e.1 }⟩ ∈ as := by
  obtain ⟨as, heq, hall⟩ := foldl_destroy (s.vds.map fun (e : ℕ × VD) => (e.1, { e.2 with keyNo := 0 })) { s with
    platform := { s.platform with erased := true }, vds := s.vds.map fun (e : ℕ × VD) => (e.1, { e.2 with keyNo := 0 }) }
  exact ⟨as, heq, fun e he hlive => hall (e.1, { e.2 with keyNo := 0 }) (List.mem_map_of_mem he) hlive⟩

theorem raiseAlarm_eq (s : State) (a : ℕ) : raiseAlarm s a = match violationLevel s a with
    | 1 => alarmRecorded s a
    | 2 => (alarmRecorded s a).modPlatform fun p => { p with frozen := true }
    | _ => eraseAll (alarmRecorded s a) := rfl

theorem raiseAlarm_spec (s : State) {a : ℕ} (h1 : 1 ≤ a) (h5 : a ≤ 5) : Alarmed s (raiseAlarm s a) a ∧ AlarmPlatform s (raiseAlarm s a) a := by
  have hlevel := violationLevel_eq s h1 h5
  obtain ⟨htold, hrecorded, hkept, hfrozen, herased, hvds, hplatform⟩ := alarmRecorded_spec s a hlevel
  rw [raiseAlarm_eq, hlevel]
  obtain hlv | hlv | hlv := alarmLevel_cases s a
  · simp only [hlv]
    exact ⟨⟨htold, hrecorded, hkept, fun _ => ⟨hfrozen, herased⟩, fun h => by omega, fun h => by omega⟩, hplatform⟩
  · simp only [hlv]
    exact ⟨⟨htold, hrecorded, hkept, fun h => by omega, fun _ => ⟨rfl, herased⟩, fun h => by omega⟩, ⟨hplatform.1, hplatform.2, hplatform.3, hplatform.4, hplatform.5⟩⟩
  · simp only [hlv]
    obtain ⟨as, heq, hdestroy⟩ := eraseAll_spec (alarmRecorded s a)
    rw [heq]
    obtain ⟨hold, hstored⟩ := hrecorded
    refine ⟨⟨htold, ⟨hold, ?_⟩, hkept, fun h => by omega, fun h => by omega, fun _ => ⟨rfl, ?_, fun e he hlive => ?_⟩⟩,
      ⟨hplatform.1, hplatform.2, hplatform.3, hplatform.4, hplatform.5⟩⟩
    · exact hstored.imp_right fun ⟨hpending, hretry⟩ => ⟨hpending, List.mem_append_left _ hretry⟩
    · intro e he
      obtain ⟨e', -, rfl⟩ := List.mem_map.mp he
      rfl
    · exact List.mem_append_right _ (hkept.1 ▸ hdestroy e (hvds ▸ he) hlive)

/-- A reply sent after an alarm leaves it raised. -/
theorem Alarmed.reply {s t : State} {a : ℕ} (h : Alarmed s t a) (code vd : ℕ) (args : List ℕ) : Alarmed s (Machine.reply t code vd args) a :=
  ⟨h.told.report _, h.stored, h.kept, h.level1, h.level2, h.level3⟩

/-- Counters of failures and images are no part of what an alarm says. -/
theorem Alarmed.of_modPlatform {s t : State} {a : ℕ} {f : Platform → Platform} (h : Alarmed (s.modPlatform f) t a)
    (hf : ∃ n m, f s.platform = { s.platform with badImages := n, updateFailures := m }) : Alarmed s t a := by
  obtain ⟨n, m, hf⟩ := hf
  obtain ⟨told, stored, kept, level1, level2, level3⟩ := h
  simp only [alarmLevel, Recorded, Stores, State.platform_modPlatform, hf] at told stored level1 level2 level3
  exact ⟨told, stored, kept, level1, level2, level3⟩

theorem securityViolation_happens {s : State} (h1 : 1 ≤ s.subject.a) (h5 : s.subject.a ≤ 5) :
    Happens .securityViolation s fun t => Alarmed s t s.subject.a ∧ Tab.get 0 t.platform.violations (2 * s.subject.a) = s.clk + 1 ∧
      Tab.get 0 t.platform.violations (2 * s.subject.a + 1) = Tab.get 0 s.platform.violations (2 * s.subject.a) := by
  obtain ⟨halarm, hplatform⟩ := raiseAlarm_spec s h1 h5
  refine ⟨_, if_pos ⟨h1, h5⟩, halarm, ?_, ?_⟩
  · rw [hplatform.violations, notedViolation, Tab.get_put_same]
  · rw [hplatform.violations, notedViolation, Tab.get_put_other _ _ _ (by omega), Tab.get_put_same]

/-! ### Requests to unfreeze and to attest (R474, R475) -/

theorem unfreezeRequest_happens {s : State} (hfrozen : s.platform.frozen = true) (hb : s.subject.b = 1) :
    Happens .unfreezeRequest s fun t => Quiet s t ∧ t.platform = { s.platform with frozen := false } ∧ Told t 8 0 0 [] :=
  ⟨_, if_pos ⟨hfrozen, hb⟩, ⟨rfl, rfl, rfl, rfl, rfl⟩, rfl, told_reply ..⟩

theorem unfreezeRequest_refused {s : State} (h : s.platform.frozen = false ∨ s.subject.b ≠ 1) :
    Happens .unfreezeRequest s fun t => Quiet s t ∧ t.platform = s.platform ∧ Told t 8 1 0 [] := by
  refine ⟨_, if_neg fun ⟨hfrozen, hb⟩ => ?_, ⟨rfl, rfl, rfl, rfl, rfl⟩, rfl, told_reply ..⟩
  exact h.elim (by simp [hfrozen]) (· hb)

theorem attestation_refused {s : State} (h : s.platform.erased = true ∨ 2 ^ 20 ≤ s.platform.xmss) :
    Happens .attestation s fun t => Quiet s t ∧ t.platform = s.platform ∧ Told t 8 1 0 [] :=
  ⟨_, if_pos h, ⟨rfl, rfl, rfl, rfl, rfl⟩, rfl, told_reply ..⟩

theorem attestation_happens {s : State} (herased : s.platform.erased = false) (hxmss : s.platform.xmss < 2 ^ 20) :
    Happens .attestation s fun t => Quiet s t ∧ t.platform = { s.platform with xmss := s.platform.xmss + 1 } ∧ (Told t 8 0 0 [s.platform.xmss] ∨ Told t 8 1 0 []) := by
  have heq : execAttestation s = .next (if Config.freeChoice s.fresh % 2 = 0
      then reply (s.draw.modPlatform fun p => { p with xmss := p.xmss + 1 }) 0 0 [s.platform.xmss]
      else reply (s.draw.modPlatform fun p => { p with xmss := p.xmss + 1 }) 1 0 []) := if_neg (by simp [herased]; omega)
  refine ⟨_, heq, ?_⟩
  split
  · exact ⟨⟨rfl, rfl, rfl, rfl, rfl⟩, rfl, .inl (told_reply ..)⟩
  · exact ⟨⟨rfl, rfl, rfl, rfl, rfl⟩, rfl, .inr (told_reply ..)⟩

/-! ### RECOVERY_IMAGE (R374) -/

section
variable {s : State} (hboot : s.platform.boot = 1) (hA : s.platform.imageA = false) (hB : s.platform.imageB = false)
include hboot hA hB

theorem recoveryImage_happens (hb : s.subject.b = 1) : Happens .recoveryImage s fun t => Quiet s t ∧
    t.platform = { s.platform with imageA := decide (s.platform.active = 1), imageB := decide (s.platform.active = 0), active := 1 - s.platform.active, badImages := 0 } ∧
    Coming t s.clk .powerOnReset { a := 2 } := by
  refine ⟨_, (if_neg (by simp [hboot, hA, hB])).trans (if_pos hb), ⟨rfl, rfl, rfl, rfl, rfl⟩, ?_, coming_after ..⟩
  simp [hA, hB]

theorem recoveryImage_failed (hb : s.subject.b ≠ 1) : Happens .recoveryImage s fun t =>
    t.platform.badImages = s.platform.badImages + 1 ∧ t.platform.boot = 1 ∧ (s.platform.badImages = 2 → Alarmed s t 5) := by
  set s₁ := s.modPlatform fun p => { p with badImages := p.badImages + 1 } with hs₁
  have heq : execRecoveryImage s = .next (if s.platform.badImages + 1 = 3 then raiseAlarm s₁ 5 else s₁) :=
    (if_neg (by simp [hboot, hA, hB])).trans (if_neg hb)
  refine ⟨_, heq, ?_⟩
  split
  · obtain ⟨halarm, hplatform⟩ := raiseAlarm_spec s₁ (a := 5) (by decide) (by decide)
    exact ⟨hplatform.badImages, hplatform.boot.trans hboot, fun _ => halarm.of_modPlatform ⟨_, _, rfl⟩⟩
  · exact ⟨rfl, hboot, fun h => by omega⟩

end

/-! ### WICK_UPDATE, WICK_UPDATE_TIMEOUT (R376) -/

/-- The wick that has just been put. -/
theorem wick_of_put {s t : State} {a : ℕ} {w : Wick} (h : t.wicks = Tab.put Wick.reset s.wicks a w) : t.wick a = w := by
  rw [State.wick, h, Tab.get_put_same]

theorem accepts_iff {s : State} : accepts s = true ↔ Serving s := by simp [accepts, Serving, and_assoc]

section
variable {s : State} {a : ℕ} (hsub : s.subject.a = a)
include hsub

theorem wickUpdate_refused (h : s.subject.b = 0 ∧ ¬Serving s ∨ 7 < a) :
    Happens .wickUpdate s fun t => Quiet s t ∧ t.wicks = s.wicks ∧ Told t 8 1 0 [a] := by
  subst hsub
  exact ⟨_, if_pos (h.imp_left (.imp_right (by simp [← accepts_iff]))), ⟨rfl, rfl, rfl, rfl, rfl⟩, rfl, told_reply ..⟩

theorem execWickUpdate_load (hserving : Serving s) (ha : a ≤ 7) (hb : s.subject.b = 0) : execWickUpdate s =
    if s.subject.v ≠ 1 then
      let s' := s.modPlatform fun p => { p with updateFailures := p.updateFailures + 1 }
      .next (reply (if s'.platform.updateFailures = 3 then raiseAlarm s' 5 else s') 1 0 [a])
    else if s.wicks.any fun e => e.2.pendingUpdate.isSome then .next (reply s 1 0 [a])
    else
      let s' := (s.draw.draw.modPlatform fun p => { p with updateFailures := 0 }).modWick a fun _ => { s.wick a with pendingUpdate := some (s.subject.c, s.clk) }
      .next (if Config.freeChoice s.fresh % 2 = 0 then
          s'.after (1 + Config.freeDelay (s.fresh + 1) % (100 * 1000 * Config.us - 1)) .wickUpdate { s.subject with b := 1 }
        else s'.after (100 * 1000 * Config.us) .wickUpdateTimeout { a := a }) := by
  subst hsub
  exact (if_neg (by simp [accepts_iff.mpr hserving]; omega)).trans (if_pos hb)

theorem wickUpdate_unverified (hserving : Serving s) (ha : a ≤ 7) (hb : s.subject.b = 0) (hv : s.subject.v ≠ 1) :
    Happens .wickUpdate s fun t => t.wicks = s.wicks ∧ t.platform.updateFailures = s.platform.updateFailures + 1 ∧ Told t 8 1 0 [a] ∧
      (s.platform.updateFailures = 2 → Alarmed s t 5) := by
  have heq := execWickUpdate_load hsub hserving ha hb
  rw [if_pos hv] at heq
  extract_lets s₁ at heq
  refine ⟨_, heq, ?_⟩
  split
  · obtain ⟨halarm, hplatform⟩ := raiseAlarm_spec s₁ (a := 5) (by decide) (by decide)
    exact ⟨hplatform.wicks, hplatform.updateFailures, told_reply .., fun _ => Alarmed.of_modPlatform (halarm.reply ..) ⟨_, _, rfl⟩⟩
  · exact ⟨rfl, rfl, told_reply .., fun h => absurd (congrArg (· + 1) h) ‹_›⟩

theorem wickUpdate_busy (hserving : Serving s) (ha : a ≤ 7) (hb : s.subject.b = 0) (hv : s.subject.v = 1) (hbusy : ∃ e ∈ s.wicks, e.2.pendingUpdate ≠ none) :
    Happens .wickUpdate s fun t => Quiet s t ∧ t.wicks = s.wicks ∧ Told t 8 1 0 [a] := by
  have heq := execWickUpdate_load hsub hserving ha hb
  rw [if_neg (not_not.mpr hv), if_pos (by simpa [List.any_eq_true, Option.isSome_iff_ne_none] using hbusy)] at heq
  exact ⟨_, heq, ⟨rfl, rfl, rfl, rfl, rfl⟩, rfl, told_reply ..⟩

theorem wickUpdate_loads (hserving : Serving s) (ha : a ≤ 7) (hb : s.subject.b = 0) (hv : s.subject.v = 1) (hfree : ∀ e ∈ s.wicks, e.2.pendingUpdate = none) :
    Happens .wickUpdate s fun t => Quiet s t ∧ t.platform.updateFailures = 0 ∧ t.wick a = { s.wick a with pendingUpdate := some (s.subject.c, s.clk) } ∧
      ((∃ at_, s.clk < at_ ∧ at_ < s.clk + 85000000 ∧ Coming t at_ .wickUpdate { s.subject with b := 1 }) ∨
        Coming t (s.clk + 85000000) .wickUpdateTimeout { a := a }) := by
  have heq := execWickUpdate_load hsub hserving ha hb
  rw [if_neg (not_not.mpr hv), if_neg (by simpa [List.any_eq_true, Option.isSome_iff_ne_none] using hfree)] at heq
  extract_lets src s₁ at heq
  have hwick : s₁.wick a = { s.wick a with pendingUpdate := some (s.subject.c, s.clk) } := wick_of_put (s := s) (by rfl)
  refine ⟨_, heq, ?_⟩
  split
  · obtain ⟨at_, hlo, hhi, hcoming⟩ := comesWithin_after (s := s) (s' := s₁) rfl (Config.freeDelay (s.fresh + 1)) (bound := 100 * 1000 * Config.us - 1)
      (by decide) .wickUpdate { s.subject with b := 1 }
    refine ⟨⟨rfl, rfl, rfl, rfl, rfl⟩, rfl, hwick, .inl ⟨at_, hlo, ?_, hcoming⟩⟩
    simp only [Config.us] at hhi
    omega
  · exact ⟨⟨rfl, rfl, rfl, rfl, rfl⟩, rfl, hwick, .inr (coming_after ..)⟩

theorem wickUpdate_starts (ha : a ≤ 7) (hb : s.subject.b ≠ 0) {v at_ : ℕ} (hw : (s.wick a).pendingUpdate = some (v, at_)) :
    Happens .wickUpdate s fun t => Quiet s t ∧ Told t 8 0 0 [a, v] ∧ t.wick a = { s.wick a with bank := 1 - (s.wick a).bank, version := v, pendingUpdate := none } := by
  subst hsub
  refine ⟨reply (s.modWick s.subject.a fun _ => { s.wick s.subject.a with bank := 1 - (s.wick s.subject.a).bank, version := v, pendingUpdate := none }) 0 0
    [s.subject.a, v], ?_, ⟨rfl, rfl, rfl, rfl, rfl⟩, told_reply .., wick_of_put rfl⟩
  refine (if_neg (by simp [hb]; omega)).trans ((if_neg hb).trans ?_)
  simp only [hw]

theorem wickUpdateTimeout_happens {v at_ : ℕ} (hw : (s.wick a).pendingUpdate = some (v, at_)) (hclk : at_ + 85000000 ≤ s.clk) :
    Happens .wickUpdateTimeout s fun t => Quiet s t ∧ Told t 8 1 0 [a] ∧ Told t 6 0x42 0 [a, v] ∧ t.wick a = { s.wick a with pendingUpdate := none } := by
  subst hsub
  have heq : execWickUpdateTimeout s =
      let s' : State := { s with wicks := Tab.put Wick.reset s.wicks s.subject.a { s.wick s.subject.a with pendingUpdate := none } }
      let s' := s'.modPlatform fun p => { p with counters := Tab.put 0 p.counters 0x42 (Tab.get 0 p.counters 0x42 + 1) }
      .next (reply (telemetry s' 0x42 [s.subject.a, v]) 1 0 [s.subject.a]) := by
    unfold execWickUpdateTimeout
    rw [State.wick] at hw
    simp only [hw]
    exact if_neg (by simp only [Config.us]; omega)
  extract_lets s₁ s₂ at heq
  exact ⟨_, heq, ⟨rfl, rfl, rfl, rfl, rfl⟩, told_reply .., (told_telemetry s₂ 0x42 [s.subject.a, v]).report _, wick_of_put (s := s) rfl⟩

end

/-! ### MANAGEMENT_DIE_TAKEOVER (R25) -/

theorem managementDieTakeover_happens {s : State} (h : s.platform.standby = true) : Happens .managementDieTakeover s fun t => Quiet s t ∧ t.agenda = s.agenda ∧
    Told t 6 0x43 0 [1 - s.platform.mgmtDie] ∧ t.platform = { s.platform with mgmtDie := 1 - s.platform.mgmtDie, standby := false } :=
  ⟨_, if_pos h, ⟨rfl, rfl, rfl, rfl, rfl⟩, rfl, told_telemetry .., rfl⟩

end Sys2Proof.Machine
end

section
/-!
PROOFS. Spare dies, power, temperature, telemetry, power-up and power loss of O60 (R373 to R381, R430, R465).
-/
namespace Sys2Proof.Machine

/-! ### DIE_REPLACEMENT (R430) -/

section
variable {s : State} {a : ℕ} (hsub : s.subject.a = a) (ha : a < 64) (hnew : (s.die a).newPosition = none)
include hsub ha hnew

theorem execDieReplacement_eq : execDieReplacement s =
    if s.subject.b = 0 then
      if Tab.get false s.platform.spareDies (a / 16) then
        let vds := ((s.members.filter fun e => e.2.live && decide (e.2.die = a)).map (·.1 / 256)).eraseDups
        .next (vds.foldl (fun s n => gangEvent s 0x0A n 0xFF 0xFFFF [a, positionOf s a, 0]) s)
      else
        let r := repairRecord s 0x102 [a, 17 * (a / 16) + 16]
        if !r.1 then .next r.2
        else .next ((r.2.modPlatform fun p => { p with spareDies := Tab.put false p.spareDies (a / 16) true }).after (5000 * Config.us) .dieReplacement { s.subject with b := 1 })
    else if Tab.get false s.platform.spareDies (a / 16) then
      .next (s.modDie a fun t => { t with newPosition := some (17 * (a / 16) + 16), power := if t.failed then .gated else t.power,
                                          vaultPower := if t.failed then .active else t.vaultPower })
    else .fault .noSuchEvent := by
  subst hsub
  exact if_neg (by simp [Config.dies, hnew]; omega)

theorem dieReplacement_spare (hb : s.subject.b = 0) (hspare : Tab.get false s.platform.spareDies (a / 16) = false) :
    Happens .dieReplacement s fun t => Quiet s t ∧ t.dies = s.dies ∧
      (Tab.get false t.platform.spareDies (a / 16) = true ∧ Repaired s t 0x102 [a, 17 * (a / 16) + 16] ∧ Coming t (s.clk + 4250000) .dieReplacement { s.subject with b := 1 } ∨
       NotRepaired s t 0x102) := by
  have heq := execDieReplacement_eq hsub ha hnew
  rw [if_pos hb, if_neg (by simp [hspare])] at heq
  obtain ⟨fresh, records, hrep, hrepaired, -⟩ | ⟨fresh, hrep⟩ := repairRecord_eq s 0x102 [a, 17 * (a / 16) + 16]
  · rw [hrep] at heq
    refine ⟨_, heq.trans (if_neg (by simp)), ⟨rfl, rfl, rfl, rfl, rfl⟩, rfl, .inl ⟨?_, hrepaired, coming_after ..⟩⟩
    exact Tab.get_put_same false s.platform.spareDies (a / 16) true
  · rw [hrep] at heq
    exact ⟨_, heq.trans (if_pos rfl), ⟨rfl, rfl, rfl, rfl, rfl⟩, rfl, .inr ⟨rfl, told_telemetry { s with fresh := fresh } 0x45 [0x102]⟩⟩

omit hsub ha hnew in
/-- Reports only; one of them for every VD of the list. -/
theorem foldl_gangEvent (s₀ : State) (l : List ℕ) : ∃ rs : List Report,
    l.foldl (fun s n => gangEvent s 0x0A n 0xFF 0xFFFF [a, positionOf s a, 0]) s₀ = { s₀ with reports := s₀.reports ++ rs } ∧
      ∀ n ∈ l, ⟨0, 0x0A, n, 0xFF, 0xFFFF, s₀.clk, [a, positionOf s₀ a, 0]⟩ ∈ rs := by
  induction l generalizing s₀ with
  | nil => exact ⟨[], by simp, by simp⟩
  | cons n l ih =>
    obtain ⟨rs, heq, hall⟩ := ih (gangEvent s₀ 0x0A n 0xFF 0xFFFF [a, positionOf s₀ a, 0])
    refine ⟨⟨0, 0x0A, n, 0xFF, 0xFFFF, s₀.clk, [a, positionOf s₀ a, 0]⟩ :: rs, ?_, ?_⟩
    · rw [List.foldl_cons, heq, gangEvent, State.report_reports, List.append_assoc]
      rfl
    · rintro k (_ | ⟨_, hk⟩)
      · exact List.mem_cons_self
      · exact List.mem_cons_of_mem _ (hall k hk)

theorem dieReplacement_none (hb : s.subject.b = 0) (hspare : Tab.get false s.platform.spareDies (a / 16) = true) :
    Happens .dieReplacement s fun t => Quiet s t ∧ t.dies = s.dies ∧ t.platform = s.platform ∧
      ∀ e ∈ s.members, e.2.live = true → e.2.die = a → Told t 0 0x0A (e.1 / 256) [a, positionOf s a, 0] := by
  have heq := execDieReplacement_eq hsub ha hnew
  rw [if_pos hb, if_pos hspare] at heq
  obtain ⟨rs, hfold, hall⟩ := foldl_gangEvent (a := a) s ((s.members.filter fun e => e.2.live && decide (e.2.die = a)).map (·.1 / 256)).eraseDups
  dsimp only at heq
  rw [hfold] at heq
  refine ⟨_, heq, ⟨rfl, rfl, rfl, rfl, rfl⟩, rfl, rfl, fun e he hlive hdie => ?_⟩
  exact ⟨_, List.mem_append_right _ (hall (e.1 / 256) (List.mem_eraseDups.mpr (List.mem_map.mpr ⟨e, List.mem_filter.mpr ⟨he, by simp [hlive, hdie]⟩, rfl⟩))), rfl, rfl, rfl, rfl, rfl⟩

theorem dieReplacement_stands (hb : s.subject.b ≠ 0) (hspare : Tab.get false s.platform.spareDies (a / 16) = true) :
    Happens .dieReplacement s fun t => Quiet s t ∧ (t.die a).newPosition = some (17 * (a / 16) + 16) ∧
      ((s.die a).failed = true → (t.die a).power = .gated ∧ (t.die a).vaultPower = .active) ∧
      (t.die a).ctx = (s.die a).ctx ∧ (t.die a).gran = (s.die a).gran ∧ ∀ d, d ≠ a → t.die d = s.die d := by
  have heq := execDieReplacement_eq hsub ha hnew
  rw [if_neg hb, if_pos hspare] at heq
  refine ⟨_, heq, ⟨rfl, rfl, rfl, rfl, rfl⟩, ?_⟩
  rw [State.die_modDie]
  refine ⟨rfl, fun hfailed => ⟨if_pos hfailed, if_pos hfailed⟩, rfl, rfl, fun d hd => State.die_modDie_other s _ hd⟩

end

/-! ### POWER_SAMPLE, DUTY_RAISE (R378) -/

theorem dutyRaise_happens {s : State} (hclk : s.platform.lastRaise + 850000 ≤ s.clk) (hpower : 100 * s.platform.power < 97 * s.platform.powerCap) :
    Happens .dutyRaise s fun t => Quiet s t ∧ t.platform = { s.platform with lastRaise := s.clk } ∧
      ∀ d < 64, t.die d = { s.die d with duty := min 16 ((s.die d).duty + 1) } := by
  obtain ⟨ds, heq, hdies⟩ := modDies_spec s fun t => { t with duty := min 16 (t.duty + 1) }
  have hexec : execDutyRaise s = .next { s with dies := ds, platform := { s.platform with lastRaise := s.clk } } := by
    rw [execDutyRaise, if_neg (by simp only [Config.us]; omega), heq]
    rfl
  exact ⟨_, hexec, ⟨rfl, rfl, rfl, rfl, rfl⟩, rfl, hdies⟩

theorem powerSample_happens (s : State) : Happens .powerSample s fun t => Quiet s t ∧ Coming t (s.clk + 85000) .powerSample {} ∧
    (∀ d < 64, t.die d = if s.platform.powerCap < t.platform.power ∧ (s.die d).power = .active then { s.die d with duty := max 4 ((s.die d).duty - 1) } else s.die d) ∧
    (100 * t.platform.power < 97 * s.platform.powerCap → s.platform.lastRaise + 850000 ≤ s.clk → Coming t s.clk .dutyRaise {}) ∧
    (97 * s.platform.powerCap ≤ 100 * t.platform.power → t.platform.lastRaise = s.clk) := by
  change ∃ t, execPowerSample s = _ ∧ _
  unfold execPowerSample
  extract_lets w s₁ cap s₂ s₃
  have hs₂ : ∃ ds, s₂ = { s₁ with dies := ds } ∧
      ∀ d < 64, Tab.get Die.reset ds d = if cap < w ∧ (s.die d).power = .active then { s.die d with duty := max 4 ((s.die d).duty - 1) } else s.die d := by
    by_cases hcap : cap < w
    · obtain ⟨ds, heq, hdies⟩ := modDies_spec s₁ fun t => if t.power = .active then { t with duty := max 4 (t.duty - 1) } else t
      refine ⟨ds, (if_pos hcap).trans heq, fun d hd => (hdies d hd).trans ?_⟩
      simp only [hcap, true_and]
      rfl
    · exact ⟨s₁.dies, if_neg hcap, fun d _ => (if_neg fun h => hcap h.1).symm⟩
  obtain ⟨ds, hs₂, hdies⟩ := hs₂
  have hs₃ : s₃ = if 97 * cap ≤ 100 * w then s₂.modPlatform fun p => { p with lastRaise := s₂.clk }
    else if s₂.platform.lastRaise + 1000 * Config.us ≤ s₂.clk then s₂.after 0 .dutyRaise {} else s₂ := rfl
  rw [hs₂] at hs₃
  clear_value s₃
  refine ⟨_, rfl, ?_⟩
  split_ifs at hs₃ with hw hclk
  · subst hs₃
    exact ⟨⟨rfl, rfl, rfl, rfl, rfl⟩, coming_after .., hdies, fun h => absurd hw (not_le.mpr h), fun _ => rfl⟩
  · subst hs₃
    exact ⟨⟨rfl, rfl, rfl, rfl, rfl⟩, coming_after .., hdies, fun _ _ => (coming_after ..).after .., fun h => absurd h hw⟩
  · subst hs₃
    exact ⟨⟨rfl, rfl, rfl, rfl, rfl⟩, coming_after .., hdies, fun _ h => absurd h hclk, fun h => absurd h hw⟩

/-! ### JUNCTION_OVERTEMP, JUNCTION_COOLED, COOLANT_ALARM, THERMAL_STOP (R379) -/

theorem junctionOvertemp_happens {s : State} (hd : s.subject.a < 64) : Happens .junctionOvertemp s fun t => Quiet s t ∧
    t.die s.subject.a = { s.die s.subject.a with dutyCap := 8 } ∧ ∀ j, j ≠ s.subject.a → t.die j = s.die j :=
  ⟨_, if_neg (not_le.mpr hd), ⟨rfl, rfl, rfl, rfl, rfl⟩, State.die_modDie .., fun _ hj => State.die_modDie_other _ _ hj⟩

theorem junctionCooled_happens {s : State} (hd : s.subject.a < 64) (hcap : (s.die s.subject.a).dutyCap ≠ 16) : Happens .junctionCooled s fun t => Quiet s t ∧
    t.die s.subject.a = if s.platform.inlet ≤ 10 * s.platform.inletLimit ∧ 240 ≤ s.platform.flow then { s.die s.subject.a with dutyCap := 16 } else s.die s.subject.a := by
  refine ⟨_, if_neg (not_or.mpr ⟨not_le.mpr hd, hcap⟩), ?_⟩
  simp only [coolantOk, decide_eq_true_eq]
  split
  · exact ⟨⟨rfl, rfl, rfl, rfl, rfl⟩, State.die_modDie ..⟩
  · exact ⟨.refl s, rfl⟩

theorem coolantAlarm_happens {s : State} (h : 10 * s.platform.inletLimit < s.subject.b ∨ s.subject.c < 240) : Happens .coolantAlarm s fun t => Quiet s t ∧
    Told t 7 1 0 [s.subject.b, s.subject.c] ∧ ∀ d < 64, t.die d = { s.die d with dutyCap := 8 } := by
  set s₁ := s.modPlatform fun p => { p with inlet := s.subject.b, flow := s.subject.c } with hs₁
  obtain ⟨ds, heq, hdies⟩ := modDies_spec s₁ fun t => { t with dutyCap := 8 }
  have hbad : ¬coolantOk s₁.platform = true := by
    simp only [coolantOk, hs₁, State.platform_modPlatform, decide_eq_true_eq]
    omega
  refine ⟨_, (if_neg hbad).trans (congrArg (fun u : State => Host.Outcome.next (u.report ⟨7, 1, 0, 0xFF, 0xFFFF, s.clk, [s.subject.b, s.subject.c]⟩)) heq),
    ⟨rfl, rfl, rfl, rfl, rfl⟩, told_report (s := { s₁ with dies := ds }) rfl, hdies⟩

theorem thermalStop_happens (s : State) : Happens .thermalStop s fun t => Quiet s t ∧ Recorded s t 0x106 [s.clk] ∧ t.platform.stopped = true ∧
    ∀ d < 64, t.die d = { s.die d with power := .off, vaultPower := .off, stopped := true } := by
  obtain ⟨fresh, records, pending, agenda, hstore, hrecorded⟩ := storeRecord_eq s 0x106 [s.clk]
  obtain ⟨ds, heq, hdies⟩ := modDies_spec (storeRecord s 0x106 [s.clk]) fun t => { t with power := .off, vaultPower := .off, stopped := true }
  have hexec : execThermalStop s = .next _ := congrArg (fun u : State => Host.Outcome.next (u.modPlatform fun p => { p with stopped := true })) heq
  rw [hstore] at hexec hrecorded hdies
  exact ⟨_, hexec, ⟨rfl, rfl, rfl, rfl, rfl⟩, hrecorded, rfl, hdies⟩

/-! ### TELEMETRY_SAMPLE (R381) -/

theorem telemetrySample_happens (s : State) : Happens .telemetrySample s fun t => Quiet s t ∧ Coming t (s.clk + 850000) .telemetrySample {} ∧
    t.platform.samples.length ≤ 1024 ∧ ∃ row, t.platform.samples = (row :: s.platform.samples).take 1024 ∧
      row.take 4 = [s.clk, s.platform.power, s.platform.inlet, s.platform.flow] ∧ row.length = 276 + 2 * s.platform.counters.length ∧
      (row.drop 212).take 64 = (List.range 64).map fun d => min (s.die d).duty (s.die d).dutyCap := by
  set temps := (List.range 208).map fun i => Config.freeValue (s.fresh + i) with htemps
  set duties := (List.range 64).map fun d => min (s.die d).duty (s.die d).dutyCap with hduties
  set counters := s.platform.counters.flatMap fun e => [e.1, e.2] with hcounters
  have htemps' : temps.length = 208 := by simp [htemps]
  have hduties' : duties.length = 64 := by simp [hduties]
  have hcounters' : counters.length = 2 * s.platform.counters.length := by simp [hcounters, List.length_flatMap, Nat.mul_comm]
  refine ⟨_, rfl, ⟨rfl, rfl, rfl, rfl, rfl⟩, coming_after .., ?_, [s.clk, s.platform.power, s.platform.inlet, s.platform.flow] ++ temps ++ duties ++ counters,
    rfl, rfl, ?_, ?_⟩
  · exact List.length_take_le ..
  · simp only [List.length_append, htemps', hduties', hcounters', List.length_cons, List.length_nil]
  · rw [List.append_assoc, List.drop_append_of_le_length (by simp [htemps'])]
    rw [List.drop_eq_nil_of_le (by simp [htemps']), List.nil_append, List.take_append_of_le_length (by omega), List.take_of_length_le (by omega)]

/-! ### POWER_LOSS (R465) -/

theorem get_filter {α : Type} (d : α) (p : ℕ → Bool) (t : Tab α) (x : ℕ) : Tab.get d (t.filter fun e => p e.1) x = if p x then Tab.get d t x else d := by
  induction t with
  | nil => simp [Tab.get]
  | cons e t ih =>
    obtain ⟨k, v⟩ := e
    rw [List.filter_cons]
    by_cases hx : x = k
    · subst hx
      by_cases hp : p x = true
      · simp [hp, Tab.get]
      · simp only [hp, Bool.false_eq_true, if_false] at ih ⊢
        exact ih
    · by_cases hp : p k = true
      · simp only [hp, if_true, Tab.get, if_neg hx]
        exact ih
      · simp only [hp, Bool.false_eq_true, if_false, Tab.get, if_neg hx]
        exact ih

theorem powerLoss_mem (s : State) (x : ℕ) : Tab.get 0 (s.mem.filter fun c => decide (c.1 / 2 ^ 80 = 3 ∨ c.1 / 2 ^ 80 = 4)) x =
    if x / 2 ^ 80 = 3 ∨ x / 2 ^ 80 = 4 then Tab.get 0 s.mem x else 0 := by
  exact (get_filter 0 (fun x => decide (x / 2 ^ 80 = 3 ∨ x / 2 ^ 80 = 4)) s.mem x).trans (by simp only [decide_eq_true_eq])

/-! ### POWER_ON_RESET (R373) -/

theorem Quiet.foldl {α : Type} {f : State → α → State} (hf : ∀ s x, Quiet s (f s x)) (l : List α) (s : State) : Quiet s (l.foldl f s) :=
  foldl_keeps Quiet.refl Quiet.trans hf l s

theorem replayRow_quiet (s : State) (r : ℕ × List ℕ) : Quiet s (replayRow s r) := by
  unfold replayRow
  dsimp only
  split_ifs
  · exact .refl s
  · exact ⟨rfl, rfl, rfl, rfl, rfl⟩
  · exact ⟨rfl, rfl, rfl, rfl, rfl⟩

theorem applyRecord_quiet (s : State) (r : ℕ × List ℕ) : Quiet s (applyRecord s r) := by
  unfold applyRecord
  dsimp only
  split
  · exact ⟨rfl, rfl, rfl, rfl, rfl⟩
  · exact ⟨rfl, rfl, rfl, rfl, rfl⟩
  · exact ⟨rfl, rfl, rfl, rfl, rfl⟩
  · exact ⟨rfl, rfl, rfl, rfl, rfl⟩
  · exact replayRow_quiet s r

/-- Quanta put into the table of slots, from slot `k` on. -/
theorem get_foldl_zipIdx (l : List ℕ) (t : Tab ℕ) (k i : ℕ) : Tab.get 0 ((l.zipIdx k).foldl (fun t e => Tab.put 0 t e.2 e.1) t) i =
    if k ≤ i ∧ i < k + l.length then l.getD (i - k) 0 else Tab.get 0 t i := by
  induction l generalizing t k with
  | nil => simp
  | cons q l ih =>
    rw [List.zipIdx_cons, List.foldl_cons, ih, Tab.get_put, List.length_cons]
    obtain hi | rfl | hi := lt_trichotomy i k
    · rw [if_neg (by omega), if_neg (by omega), if_neg (by omega)]
    · rw [if_neg (by omega), if_pos rfl, if_pos (by omega), Nat.sub_self, List.getD_cons_zero]
    · have hsub : i - k = (i - (k + 1)) + 1 := by omega
      rw [hsub, List.getD_cons_succ, if_neg (show ¬i = k by omega)]
      simp only [show (k + 1 ≤ i ∧ i < k + 1 + l.length) ↔ (k ≤ i ∧ i < k + (l.length + 1)) by omega]

/-- The configuration that the third step leaves (R373, R375): the record's, in range, or the defaults, which are reported unless the record holds them. -/
def ConfigLoaded (config : List ℕ) (t : State) : Prop :=
  let u := t.platform
  (∃ mode quanta, config = [u.powerCap, u.inletLimit, u.drain, u.mgmtAddr, mode] ++ quanta ∧ u.slotCount = quanta.length ∧
    (∀ i, Tab.get 0 u.slotQuanta i = quanta.getD i 0) ∧ 8000 ≤ u.powerCap ∧ u.powerCap ≤ 16500 ∧ 15 ≤ u.inletLimit ∧ u.inletLimit ≤ 45 ∧
    5 ≤ u.drain ∧ u.drain ≤ 200 ∧ u.mgmtAddr < 128 ∧ 1 ≤ u.slotCount ∧ u.slotCount ≤ 16) ∨
  u.powerCap = 16500 ∧ u.inletLimit = 40 ∧ u.drain = 20 ∧ u.mgmtAddr = 0x4E ∧ u.slotCount = 1 ∧ u.slotQuanta = [] ∧ (config = [] ∨ Told t 6 0x41 0 [])

theorem configLoaded_of_record {config : List ℕ} {p : Platform} {t : State} (hok : configOk config = true) (ht : t.platform = { loadConfig config p with boot := 3 }) :
    ConfigLoaded config t := by
  unfold ConfigLoaded
  rw [ht]
  match config with
  | [] => exact .inr ⟨rfl, rfl, rfl, rfl, rfl, rfl, .inl rfl⟩
  | [_] | [_, _] | [_, _, _] | [_, _, _, _] => simp [configOk] at hok
  | cap :: inlet :: drain :: addr :: mode :: quanta =>
    simp only [configOk, List.isEmpty_cons, Bool.false_or, Bool.and_eq_true, decide_eq_true_eq, List.length_cons] at hok
    obtain ⟨⟨⟨⟨⟨⟨hcap, hinlet⟩, hdrain⟩, haddr⟩, -⟩, hlen⟩, -⟩ := hok
    change 8000 ≤ cap ∧ cap ≤ 16500 at hcap
    change 15 ≤ inlet ∧ inlet ≤ 45 at hinlet
    change 5 ≤ drain ∧ drain ≤ 200 at hdrain
    change 0 ≤ addr ∧ addr ≤ 127 at haddr
    have hcount : (loadConfig (cap :: inlet :: drain :: addr :: mode :: quanta) p).slotCount = quanta.length := by simp [loadConfig]
    refine .inl ⟨mode, quanta, rfl, hcount, fun i => ?_, hcap.1, hcap.2, hinlet.1, hinlet.2, hdrain.1, hdrain.2, by exact Nat.lt_succ_of_le haddr.2, ?_, ?_⟩
    · refine (get_foldl_zipIdx quanta [] 0 i).trans ?_
      split
      · rfl
      · rw [List.getD_eq_default _ _ (by omega)]
        rfl
    · exact hcount ▸ (by omega)
    · exact hcount ▸ (by omega)

/-- One record of the store alone, replayed (R101, R373, R382). -/
def Replayed (s t : State) : Prop :=
  let p := s.platform
  let only (r : ℕ × List ℕ) : Prop := Tab.get [] p.records p.mgmtDie = [r]
  (∀ d c, only (0x101, [d, c]) → Tab.get 16 t.platform.columns d = c) ∧
  (∀ d q, only (0x102, [d, q]) → (t.die d).position = some q ∧ Tab.get false t.platform.spareDies (d / 16) = true ∧
    Tab.get 0 t.platform.steer (d / 16) = 1 + positionOf s d % 17) ∧
  (∀ w q, only (0x104, [w, q]) → (t.switch w).physical = some q ∧ t.platform.spareSwitches = p.spareSwitches + 1) ∧
  (∀ n l sp, only (0x105, [n, l, sp]) → linkOf t n = { linkOf s n with lanes := l, spares := sp }) ∧
  (∀ d row n x, only (3, [d, row, n, x, 0]) → Tab.get 0 t.platform.remaps (d * 2 ^ 48 + row) = n + 1) ∧
  ∀ d row n x, only (3, [d, row, n, x, 1]) → Tab.get false (t.die (d / 2)).offline (d % 2 * 2 ^ 64 + row) = true

theorem replayed_bootNext (s : State) : Replayed s (bootNext ((Tab.get [] s.platform.records s.platform.mgmtDie).foldl applyRecord s) 4 85000000) := by
  refine ⟨fun d c h => ?_, fun d q h => ?_, fun w q h => ?_, fun n l sp h => ?_, fun d row n x h => ?_, fun d row n x h => ?_⟩
  all_goals rw [h, List.foldl_cons, List.foldl_nil]
  · exact Tab.get_put_same 16 s.platform.columns d c
  · refine ⟨congrArg Die.position (State.die_modDie s d fun t => { t with position := some q }), Tab.get_put_same false s.platform.spareDies (d / 16) true,
      Tab.get_put_same 0 s.platform.steer (d / 16) _⟩
  · exact ⟨congrArg Switch.physical (State.switch_modSwitch s w fun x => { x with physical := some q }), rfl⟩
  · exact linkOf_setLink_same s n { linkOf s n with lanes := l, spares := sp }
  · exact Tab.get_put_same 0 s.platform.remaps (d * 2 ^ 48 + row) (n + 1)
  · have hdie := State.die_modDie s (d / 2) fun t => { t with offline := Tab.put false t.offline (d % 2 * 2 ^ 64 + row) true }
    exact (congrArg (fun t : Die => Tab.get false t.offline (d % 2 * 2 ^ 64 + row)) hdie).trans (Tab.get_put_same false (s.die (d / 2)).offline _ true)

/-- What every boot step but the last leaves (R373). -/
structure BootStep (s t : State) (a : ℕ) : Prop where
  cores : t.cores = s.cores
  boot : t.platform.boot = a
  clk : t.clk = if a = 1 then 0 else s.clk
  next : ComesWithin t t ([0, 42500000, 170000000, 8500000, 85000000, 1700000000, 425000000].getD a 0) .powerOnReset { a := a + 1 }
  mem : ∀ x, Tab.get 0 t.mem x = if a = 5 ∧ (x / 2 ^ 80 = 2 ∨ x / 2 ^ 80 = 5) then 0 else Tab.get 0 s.mem x

theorem bootNext_comes (s : State) (n : ℕ) {bound : ℕ} (hb : 0 < bound) : ComesWithin (bootNext s n bound) (bootNext s n bound) bound .powerOnReset { a := n + 1 } :=
  comesWithin_after (s := bootNext s n bound) (s' := s.draw.modPlatform fun p => { p with boot := n }) rfl (Config.freeDelay s.fresh) hb _ _

/-- A step that leaves memory, cores and the clk as they are. -/
theorem bootStep_of_quiet {s u : State} {a bound : ℕ} (hq : Quiet s u) (h1 : a ≠ 1) (h5 : a ≠ 5)
    (hb : [0, 42500000, 170000000, 8500000, 85000000, 1700000000, 425000000].getD a 0 = bound) (hpos : 0 < bound) : BootStep s (bootNext u a bound) a where
  cores := hq.cores
  boot := rfl
  clk := hq.clk.trans (if_neg h1).symm
  next := by rw [hb]; exact bootNext_comes u a hpos
  mem x := (congrArg (Tab.get 0 · x) hq.mem).trans (if_neg fun h => h5 h.1).symm

theorem bootStep_start (s : State) (bound : ℕ) (hb : 0 < bound) (h : bound = 42500000) : BootStep s (bootNext { s with clk := 0 } 1 bound) 1 where
  cores := rfl
  boot := rfl
  clk := rfl
  next := h ▸ bootNext_comes { s with clk := 0 } 1 hb
  mem x := (if_neg (by simp)).symm

/-- The fifth step scrubs the HBM and the save areas (R373). -/
theorem bootStep_scrub (s : State) :
    BootStep s (bootNext { s with mem := s.mem.filter fun c => decide (c.1 / 2 ^ 80 ≠ 2 ∧ c.1 / 2 ^ 80 ≠ 5) } 5 1700000000) 5 where
  cores := rfl
  boot := rfl
  clk := rfl
  next := bootNext_comes _ 5 (by decide)
  mem x := by
    refine (get_filter 0 (fun x => decide (x / 2 ^ 80 ≠ 2 ∧ x / 2 ^ 80 ≠ 5)) s.mem x).trans ?_
    by_cases h : x / 2 ^ 80 = 2 ∨ x / 2 ^ 80 = 5
    · rw [if_pos (show 5 = 5 ∧ _ from ⟨rfl, h⟩)]
      exact if_neg (by simpa only [decide_eq_true_eq, ← not_or, not_not] using h)
    · rw [if_neg (show ¬(5 = 5 ∧ _) from fun h' => h h'.2)]
      exact if_pos (by simpa only [decide_eq_true_eq, ← not_or] using h)

theorem foldl_linkTraining (s : State) (n : ℕ) : ∃ as : List Due,
    (List.range n).foldl (fun s n => s.after 0 .linkTraining { a := n }) s = { s with agenda := s.agenda ++ as } ∧
      ∀ i < n, ⟨s.clk, .event .linkTraining { a := i }⟩ ∈ as := by
  induction n with
  | zero => exact ⟨[], by simp, by simp⟩
  | succ n ih =>
    obtain ⟨as, heq, hall⟩ := ih
    refine ⟨as ++ [⟨s.clk, .event .linkTraining { a := n }⟩], ?_, fun i hi => ?_⟩
    · rw [List.range_succ, List.foldl_append, heq, List.foldl_cons, List.foldl_nil, State.after, State.due, ← List.append_assoc]
      rfl
    · obtain hi | rfl : i < n ∨ i = n := by omega
      · exact List.mem_append_left _ (hall i hi)
      · simp

/-- What step `a` of the table does (R373). -/
def bootOutcome (s : State) (a : ℕ) : Outcome := match a with
  | 1 => .next (bootNext { s with clk := 0 } 1 42500000)
  | 2 => if s.platform.imageA ∨ s.platform.imageB then .next (bootNext s 2 170000000) else .next (telemetry s 0x40 [])
  | 3 => .next (bootNext (if configOk s.platform.config ∧ Config.freeChoice s.fresh % 2 = 0 then s.draw.modPlatform (loadConfig s.platform.config)
        else telemetry (s.draw.modPlatform (loadConfig [])) 0x41 []) 3 8500000)
  | 4 => .next (bootNext ((Tab.get [] s.platform.records s.platform.mgmtDie).foldl applyRecord s) 4 85000000)
  | 5 => .next (bootNext { s with mem := s.mem.filter fun c => decide (c.1 / 2 ^ 80 ≠ 2 ∧ c.1 / 2 ^ 80 ≠ 5) } 5 1700000000)
  | 6 => .next (bootNext ((List.range 48).foldl (fun s n => s.after 0 .linkTraining { a := n }) s) 6 425000000)
  | _ => .next (startPart (reply (s.modPlatform fun p => { p with boot := 7 }) 0x300 0 []))

section
variable {s : State} {a : ℕ} (hsub : s.subject.a = a) (hstop : s.platform.stopped = false) (ha : a = s.platform.boot + 1)
include hsub hstop ha

theorem execPowerOnReset_eq : execPowerOnReset s = bootOutcome s a := by
  subst hsub
  exact if_neg (by simp [hstop, ha])

theorem powerOnReset_step (h1 : 1 ≤ a) (h6 : a ≤ 6) (himage : a = 2 → s.platform.imageA = true ∨ s.platform.imageB = true) :
    Happens .powerOnReset s fun t => BootStep s t a ∧ (a = 3 → ConfigLoaded s.platform.config t) ∧ (a = 4 → Replayed s t) ∧
      (a = 6 → ∀ n < 48, Coming t s.clk .linkTraining { a := n }) := by
  have heq := execPowerOnReset_eq hsub hstop ha
  clear hsub ha
  obtain rfl | rfl | rfl | rfl | rfl | rfl : a = 1 ∨ a = 2 ∨ a = 3 ∨ a = 4 ∨ a = 5 ∨ a = 6 := by omega
  · exact ⟨_, heq, bootStep_start s _ (by decide) rfl, by simp, by simp, by simp⟩
  · exact ⟨_, heq.trans (if_pos (himage rfl)), bootStep_of_quiet (.refl s) (by decide) (by decide) rfl (by decide), by simp, by simp, by simp⟩
  · refine ⟨_, heq, ?_⟩
    split
    case isTrue h =>
      exact ⟨bootStep_of_quiet ⟨rfl, rfl, rfl, rfl, rfl⟩ (by decide) (by decide) rfl (by decide), fun _ => configLoaded_of_record h.1 rfl, by simp, by simp⟩
    case isFalse h =>
      refine ⟨bootStep_of_quiet ⟨rfl, rfl, rfl, rfl, rfl⟩ (by decide) (by decide) rfl (by decide), fun _ => .inr ⟨rfl, rfl, rfl, rfl, rfl, rfl, .inr ?_⟩, by simp, by simp⟩
      exact told_telemetry (s.draw.modPlatform (loadConfig [])) 0x41 []
  · refine ⟨_, heq, bootStep_of_quiet (.foldl applyRecord_quiet _ s) (by decide) (by decide) rfl (by decide), by simp, fun _ => replayed_bootNext s, by simp⟩
  · exact ⟨_, heq, bootStep_scrub s, by simp, by simp, by simp⟩
  · obtain ⟨as, hfold, hall⟩ := foldl_linkTraining s 48
    change execPowerOnReset s = .next (bootNext ((List.range 48).foldl (fun s n => s.after 0 .linkTraining { a := n }) s) 6 425000000) at heq
    rw [hfold] at heq
    exact ⟨_, heq, bootStep_of_quiet ⟨rfl, rfl, rfl, rfl, rfl⟩ (by decide) (by decide) rfl (by decide), by simp, by simp,
      fun _ n hn => List.mem_append_left _ (List.mem_append_right _ (hall n hn))⟩

theorem powerOnReset_noImage (h2 : a = 2) (hA : s.platform.imageA = false) (hB : s.platform.imageB = false) :
    Happens .powerOnReset s fun t => Quiet s t ∧ t.platform = s.platform ∧ t.agenda = s.agenda ∧ Told t 6 0x40 0 [] := by
  have heq := execPowerOnReset_eq hsub hstop ha
  clear hsub ha
  subst h2
  exact ⟨_, heq.trans (if_neg (by simp [hA, hB])), ⟨rfl, rfl, rfl, rfl, rfl⟩, rfl, rfl, told_telemetry ..⟩

theorem powerOnReset_last (h7 : a = 7) {q : ℕ} (hq : (if Tab.get 0 s.platform.slotQuanta 0 = 0 then 1700000 else Tab.get 0 s.platform.slotQuanta 0) = q) :
    Happens .powerOnReset s fun t => Quiet s t ∧ t.platform = { s.platform with boot := 7 } ∧
      t.gc.running = true ∧ t.gc.slots = s.platform.slotCount ∧ t.gc.quanta = s.platform.slotQuanta ∧ t.gc.quantumEnd = s.clk + q ∧
      Coming t (s.clk + q) .slotQuantumEnd {} ∧ Coming t (s.clk + 85000) .powerSample {} ∧ Coming t (s.clk + 850000) .telemetrySample {} ∧ Told t 8 0x300 0 [] := by
  have heq := execPowerOnReset_eq hsub hstop ha
  clear hsub ha
  subst h7
  set u := reply (s.modPlatform fun p => { p with boot := 7 }) 0x300 0 [] with hu
  have htold : Told u 8 0x300 0 [] := told_reply ..
  set v : State := { u with gc := { u.gc with running := true, slots := u.platform.slotCount, quanta := u.platform.slotQuanta, quantumEnd := s.clk + q } } with hv
  have hstart : startPart u = ((v.after q .slotQuantumEnd {}).after 85000 .powerSample {}).after 850000 .telemetrySample {} := by subst hq; rfl
  refine ⟨_, heq.trans (congrArg _ hstart), ⟨rfl, rfl, rfl, rfl, rfl⟩, rfl, rfl, rfl, rfl, rfl, ?_, ?_, coming_after .., htold⟩
  · exact ((coming_after v q _ _).after ..).after ..
  · exact (coming_after (v.after q .slotQuantumEnd {}) 85000 _ _).after ..

end

end Sys2Proof.Machine
end

section
/-!
PROOFS. Granules that leave the vaults of a die (R17), over a table of member contexts in its canonical order.
-/
namespace Sys2Proof.Tab

theorem get_of_mem {α : Type} {d : α} {t : Tab α} (hs : sorted t = true) {k : ℕ} {v : α} (h : (k, v) ∈ t) : get d t k = v := by
  induction t with
  | nil => simp at h
  | cons e t ih =>
    obtain ⟨k', v'⟩ := e
    obtain ⟨habove, hs⟩ := (sorted_cons k' v' t).mp hs
    obtain h | h := List.mem_cons.mp h
    · cases h
      exact if_pos rfl
    · exact (if_neg (habove _ h).ne').trans (ih hs h)

/-- Writing over a key that is listed changes its entry and moves none. -/
theorem insert_eq_map {α : Type} {t : Tab α} (hs : sorted t = true) {k : ℕ} {v : α} (h : (k, v) ∈ t) (w : α) :
    insert t k w = t.map fun e => if e.1 = k then (k, w) else e := by
  induction t with
  | nil => simp at h
  | cons e t ih =>
    obtain ⟨k', v'⟩ := e
    obtain ⟨habove, hs⟩ := (sorted_cons k' v' t).mp hs
    rw [insert, List.map_cons]
    obtain h | h := List.mem_cons.mp h
    · cases h
      have htail : t.map (fun e => if e.1 = k then (k, w) else e) = t :=
        (List.map_congr_left fun e he => if_neg (habove e he).ne').trans (List.map_id t)
      rw [if_neg (lt_irrefl k), if_pos rfl, if_pos rfl, htail]
    · have hk : k' < k := habove _ h
      rw [if_neg (by omega), if_neg (by omega), if_neg (by omega), ih hs h]

end Sys2Proof.Tab

namespace Sys2Proof.Machine

/-! ### The member context a die-local number stands for -/

/-- An entry of the member table that answers to a die-local number. -/
def answersTo (d no : ℕ) (e : ℕ × Member) : Bool := e.2.live && decide (e.2.die = d ∧ e.2.localNo = no)

theorem memberAt_eq (s : State) (d no : ℕ) : memberAt s d no = (s.members.find? (answersTo d no)).map fun e => ⟨e.1 / 256, e.1 % 256⟩ := rfl

theorem exists_of_memberAt {s : State} {d no : ℕ} {m : MemberId} (hs : Tab.sorted s.members = true) (h : memberAt s d no = some m) :
    (memberKey m, s.member m) ∈ s.members ∧ (s.member m).live = true := by
  rw [memberAt_eq, Option.map_eq_some_iff] at h
  obtain ⟨⟨k, c⟩, hfind, rfl⟩ := h
  have hmem := List.mem_of_find?_eq_some hfind
  have hkey : memberKey ⟨k / 256, k % 256⟩ = k := Nat.div_add_mod k 256
  have hmember : s.member ⟨k / 256, k % 256⟩ = c := by rw [State.member, hkey, Tab.get_of_mem hs hmem]
  have hans : answersTo d no (k, c) = true := List.find?_some hfind
  rw [answersTo, Bool.and_eq_true] at hans
  exact ⟨by rw [hkey, hmember]; exact hmem, by rw [hmember]; exact hans.1⟩

/-- A change that leaves a live member on its die under its number leaves every die-local number what it stands for. -/
theorem memberAt_modMember {s : State} {m : MemberId} {f : Member → Member} (hs : Tab.sorted s.members = true) (hmem : (memberKey m, s.member m) ∈ s.members)
    (hlive : (s.member m).live = true) (hf : ∀ c, (f c).live = c.live ∧ (f c).die = c.die ∧ (f c).localNo = c.localNo) :
    Tab.sorted (s.modMember m f).members = true ∧ ∀ d no, memberAt (s.modMember m f) d no = memberAt s d no := by
  have hne : f (s.member m) ≠ Member.blank := fun h => by
    have := (hf (s.member m)).1
    rw [h, hlive] at this
    exact absurd this (by decide)
  have hput : (s.modMember m f).members = Tab.insert s.members (memberKey m) (f (s.member m)) := if_neg hne
  refine ⟨hput ▸ Tab.sorted_insert _ _ hs, fun d no => ?_⟩
  have hans : ∀ e ∈ s.members, (answersTo d no ∘ fun e => if e.1 = memberKey m then (memberKey m, f (s.member m)) else e) e = answersTo d no e := by
    rintro ⟨k, c⟩ he
    by_cases hk : k = memberKey m
    · subst hk
      have hc : c = s.member m := (Tab.get_of_mem hs he).symm
      obtain ⟨h1, h2, h3⟩ := hf c
      simp [answersTo, ← hc, h1, h2, h3]
    · simp [hk]
  rw [memberAt_eq, memberAt_eq, hput, Tab.insert_eq_map hs hmem, List.find?_map]
  rw [show s.members.find? (answersTo d no ∘ fun e => if e.1 = memberKey m then (memberKey m, f (s.member m)) else e) = s.members.find? (answersTo d no) from
    List.find?_congr hans, Option.map_map]
  refine congrArg (Option.map · _) (funext fun e => ?_)
  by_cases hk : e.1 = memberKey m <;> simp [hk]

/-! ### Vaults that a column leaves -/

/-- What is kept while dirty granules leave a vault: the order of the member table, what the die-local numbers stand for, what has been saved, lost and
told, and everything but memory and members. -/
structure KeepsMembers (s t : State) : Prop where
  clk : t.clk = s.clk
  cores : t.cores = s.cores
  dies : t.dies = s.dies
  platform : t.platform = s.platform
  reports : s.reports ⊆ t.reports
  sorted : Tab.sorted s.members = true → Tab.sorted t.members = true
  memberAt : Tab.sorted s.members = true → ∀ d no, memberAt t d no = memberAt s d no
  saved : ∀ m g, Tab.get false (s.member m).saved g = true → Tab.get false (t.member m).saved g = true
  lost : ∀ m g, Tab.get false (s.member m).lost g = true → Tab.get false (t.member m).lost g = true

theorem KeepsMembers.refl (s : State) : KeepsMembers s s := ⟨rfl, rfl, rfl, rfl, fun _ h => h, id, fun _ _ _ => rfl, fun _ _ => id, fun _ _ => id⟩

theorem KeepsMembers.trans {s t u : State} (h : KeepsMembers s t) (h' : KeepsMembers t u) : KeepsMembers s u where
  clk := h'.clk.trans h.clk
  cores := h'.cores.trans h.cores
  dies := h'.dies.trans h.dies
  platform := h'.platform.trans h.platform
  reports := List.Subset.trans h.reports h'.reports
  sorted hs := h'.sorted (h.sorted hs)
  memberAt hs d no := (h'.memberAt (h.sorted hs) d no).trans (h.memberAt hs d no)
  saved m g hg := h'.saved m g (h.saved m g hg)
  lost m g hg := h'.lost m g (h.lost m g hg)

/-- The member context that a dirty granule belongs to loses it, or has it saved. -/
def leaveVault (d : ℕ) (lost : ℕ → Bool) (s : State) (e : ℕ × Granule) : State := match memberAt s d e.2.owner with
  | some o =>
    if lost (e.1 / 48 % 16) then gangEvent (s.modMember o fun c => { c with lost := Tab.put false c.lost e.1 true }) 0x07 o.vd o.member 0xFFFF [e.1, 1, d]
    else (s.copyAll (vaultKey d (granBase e.1)) (saveKey o (granSave e.1)) Config.granule).modMember o fun c => { c with saved := Tab.put false c.saved e.1 true }
  | none => s

theorem leaveVaults_eq (s : State) (d : ℕ) (moves lost : ℕ → Bool) : leaveVaults s d moves lost =
    (((s.die d).gran.filter fun e => decide (e.2.res = 2) && moves (e.1 / 48 % 16)).foldl (leaveVault d lost) s).modDie d
      fun t => { t with gran := t.gran.filter fun e => !moves (e.1 / 48 % 16) } := rfl

theorem member_leaveVaults (s : State) (d : ℕ) (moves lost : ℕ → Bool) (m : MemberId) : (leaveVaults s d moves lost).member m =
    (((s.die d).gran.filter fun e => decide (e.2.res = 2) && moves (e.1 / 48 % 16)).foldl (leaveVault d lost) s).member m := rfl

theorem get_put_true {t : Tab Bool} {g g' : ℕ} (h : Tab.get false t g = true) : Tab.get false (Tab.put false t g' true) g = true := by
  rw [Tab.get_put]
  split
  · rfl
  · exact h

/-- What has been set of a member context stays set when a change of one only sets more. -/
theorem member_modMember_cases (s : State) (m n : MemberId) (f : Member → Member) :
    (s.modMember m f).member n = f (s.member n) ∨ (s.modMember m f).member n = s.member n := by
  by_cases h : memberKey n = memberKey m
  · left
    rw [State.member, h]
    exact (State.member_modMember s m f).trans (by rw [State.member, State.member, h])
  · exact .inr (State.member_modMember_other s f h)

theorem KeepsMembers.modMember {s : State} {m : MemberId} {f : Member → Member}
    (hm : Tab.sorted s.members = true → (memberKey m, s.member m) ∈ s.members ∧ (s.member m).live = true)
    (hf : ∀ c, (f c).live = c.live ∧ (f c).die = c.die ∧ (f c).localNo = c.localNo) (hsaved : ∀ c g, Tab.get false c.saved g = true → Tab.get false (f c).saved g = true)
    (hlost : ∀ c g, Tab.get false c.lost g = true → Tab.get false (f c).lost g = true) : KeepsMembers s (s.modMember m f) where
  clk := rfl
  cores := rfl
  dies := rfl
  platform := rfl
  reports _ h := h
  sorted hs := (memberAt_modMember hs (hm hs).1 (hm hs).2 hf).1
  memberAt hs := (memberAt_modMember hs (hm hs).1 (hm hs).2 hf).2
  saved n g hg := (member_modMember_cases s m n f).elim (fun h => h ▸ hsaved _ g hg) fun h => h ▸ hg
  lost n g hg := (member_modMember_cases s m n f).elim (fun h => h ▸ hlost _ g hg) fun h => h ▸ hg

theorem leaveVault_keeps (d : ℕ) (lost : ℕ → Bool) (s : State) (e : ℕ × Granule) : KeepsMembers s (leaveVault d lost s e) := by
  unfold leaveVault
  split
  case h_1 o ho =>
    have hm (hs : Tab.sorted s.members = true) := exists_of_memberAt hs ho
    split
    · have h := KeepsMembers.modMember (f := fun c => { c with lost := Tab.put false c.lost e.1 true }) hm (fun _ => ⟨rfl, rfl, rfl⟩) (fun _ _ => id) fun _ _ => get_put_true
      exact h.trans ⟨rfl, rfl, rfl, rfl, List.subset_append_left _ _, id, fun _ _ _ => rfl, fun _ _ => id, fun _ _ => id⟩
    · refine KeepsMembers.trans ⟨rfl, rfl, rfl, rfl, fun _ h => h, id, fun _ _ _ => rfl, fun _ _ => id, fun _ _ => id⟩ (t := s.copyAll ..) (.modMember hm ?_ ?_ ?_)
      · exact fun _ => ⟨rfl, rfl, rfl⟩
      · exact fun _ _ => get_put_true
      · exact fun _ _ => id
  case h_2 => exact .refl s

theorem foldl_leaveVault_keeps (d : ℕ) (lost : ℕ → Bool) (l : List (ℕ × Granule)) (s : State) : KeepsMembers s (l.foldl (leaveVault d lost) s) :=
  foldl_keeps KeepsMembers.refl KeepsMembers.trans (leaveVault_keeps d lost) l s

theorem gran_leaveVaults (s : State) (d : ℕ) (moves lost : ℕ → Bool) :
    ((leaveVaults s d moves lost).die d).gran = (s.die d).gran.filter fun e => !moves (e.1 / 48 % 16) := by
  rw [leaveVaults_eq, State.die_modDie]
  exact congrArg (fun t => (Tab.get Die.reset t d).gran.filter _) (foldl_leaveVault_keeps ..).dies

theorem leaveVault_leaves (d : ℕ) (lost : ℕ → Bool) {s : State} {e : ℕ × Granule} {m : MemberId} (hm : memberAt s d e.2.owner = some m) :
    (lost (e.1 / 48 % 16) = true → Tab.get false ((leaveVault d lost s e).member m).lost e.1 = true ∧ Told (leaveVault d lost s e) 0 0x07 m.vd [e.1, 1, d]) ∧
    (lost (e.1 / 48 % 16) = false → Tab.get false ((leaveVault d lost s e).member m).saved e.1 = true) := by
  unfold leaveVault
  simp only [hm]
  refine ⟨fun h => ?_, fun h => ?_⟩
  · rw [if_pos h]
    have hmember := State.member_modMember s m fun c => { c with lost := Tab.put false c.lost e.1 true }
    exact ⟨(congrArg (fun c : Member => Tab.get false c.lost e.1) hmember).trans (Tab.get_put_same false (s.member m).lost e.1 true), told_gangEvent ..⟩
  · rw [if_neg (by simp [h])]
    have hmember := State.member_modMember (s.copyAll (vaultKey d (granBase e.1)) (saveKey m (granSave e.1)) Config.granule) m
      fun c => { c with saved := Tab.put false c.saved e.1 true }
    exact (congrArg (fun c : Member => Tab.get false c.saved e.1) hmember).trans (Tab.get_put_same false (s.member m).saved e.1 true)

/-- A member context that the granule does not belong to is left as it is. -/
theorem leaveVault_other (d : ℕ) (lost : ℕ → Bool) {s : State} {e : ℕ × Granule} {o m : MemberId} (ho : memberAt s d e.2.owner = some o)
    (hne : memberKey m ≠ memberKey o) : (leaveVault d lost s e).member m = s.member m := by
  unfold leaveVault
  simp only [ho]
  split
  · exact State.member_modMember_other s (fun c => { c with lost := Tab.put false c.lost e.1 true }) hne
  · exact State.member_modMember_other (s.copyAll (vaultKey d (granBase e.1)) (saveKey o (granSave e.1)) Config.granule)
      (fun c => { c with saved := Tab.put false c.saved e.1 true }) hne

theorem foldl_leaveVault (d : ℕ) (lost : ℕ → Bool) (l : List (ℕ × Granule)) {s : State} (hs : Tab.sorted s.members = true) :
    KeepsMembers s (l.foldl (leaveVault d lost) s) ∧ ∀ e ∈ l, ∀ m, memberAt s d e.2.owner = some m →
      (lost (e.1 / 48 % 16) = true → Tab.get false ((l.foldl (leaveVault d lost) s).member m).lost e.1 = true ∧
        Told (l.foldl (leaveVault d lost) s) 0 0x07 m.vd [e.1, 1, d]) ∧
      (lost (e.1 / 48 % 16) = false → Tab.get false ((l.foldl (leaveVault d lost) s).member m).saved e.1 = true) := by
  induction l generalizing s with
  | nil => exact ⟨.refl s, by simp⟩
  | cons e l ih =>
    have hstep := leaveVault_keeps d lost s e
    obtain ⟨hkeeps, hleaves⟩ := ih (hstep.sorted hs)
    refine ⟨hstep.trans hkeeps, ?_⟩
    rintro e' (_ | ⟨_, he'⟩) m hm
    · obtain ⟨h1, h2⟩ := leaveVault_leaves d lost hm
      exact ⟨fun h => ⟨hkeeps.lost m e.1 (h1 h).1, (h1 h).2.mono hkeeps.clk hkeeps.reports⟩, fun h => hkeeps.saved m e.1 (h2 h)⟩
    · exact hleaves e' he' m ((hstep.memberAt hs d _).trans hm)

/-- What leaving the vaults of a die keeps, and what becomes of its dirty granules (R17, R428). -/
theorem leaveVaults_spec {s : State} (hs : Tab.sorted s.members = true) (d : ℕ) (moves lost : ℕ → Bool) :
    let t := leaveVaults s d moves lost
    t.clk = s.clk ∧ t.cores = s.cores ∧ t.platform = s.platform ∧ positionOf t d = positionOf s d ∧
    (t.die d).gran = ((s.die d).gran.filter fun e => !moves (e.1 / 48 % 16)) ∧
    ∀ e ∈ (s.die d).gran, e.2.res = 2 → moves (e.1 / 48 % 16) = true → ∀ m, memberAt s d e.2.owner = some m →
      (lost (e.1 / 48 % 16) = true → Tab.get false (t.member m).lost e.1 = true ∧ Told t 0 0x07 m.vd [e.1, 1, d]) ∧
      (lost (e.1 / 48 % 16) = false → Tab.get false (t.member m).saved e.1 = true) := by
  obtain ⟨hkeeps, hleaves⟩ := foldl_leaveVault d lost ((s.die d).gran.filter fun e => decide (e.2.res = 2) && moves (e.1 / 48 % 16)) hs
  rw [leaveVaults_eq]
  set u := ((s.die d).gran.filter fun e => decide (e.2.res = 2) && moves (e.1 / 48 % 16)).foldl (leaveVault d lost) s
  have hdie : u.die d = s.die d := congrArg (Tab.get Die.reset · d) hkeeps.dies
  refine ⟨hkeeps.clk, hkeeps.cores, hkeeps.platform, ?_, ?_, fun e he hres hmoves m hm => hleaves e (List.mem_filter.mpr ⟨he, by simp [hres, hmoves]⟩) m hm⟩
  · simp only [positionOf, State.die_modDie, hdie]
  · simp only [State.die_modDie, hdie]

end Sys2Proof.Machine
end

section
/-!
PROOFS. Column repairs, the clauses of O60 together, and why O60 is neither proved nor refuted: its clause on a column repair leaves out that the member
table is in its canonical order, and a repair is only made where an opaque choice lets its record be written.
-/
namespace Sys2Proof.Machine

/-! ### CORE_COLUMN_REPAIR (R17) -/

section
variable {s : State} {a b : ℕ} (hsub : s.subject.a = a) (hsubb : s.subject.b = b) (ha : a < 64) (hb : b ≤ 16)
  (hold : Tab.get 16 s.platform.columns (positionOf s a) ≠ b)
include hsub hsubb ha hb hold

theorem execCoreColumnRepair_eq : execCoreColumnRepair s =
    if (s.die a).ctx.isSome then .next (s.after Config.us .coreColumnRepair s.subject)
    else
      let r := repairRecord s 0x101 [positionOf s a, b]
      if !r.1 then .next r.2
      else
        let t := leaveVaults r.2 a (fun x => decide (physColumn (columnOf s a) x ≠ physColumn b x)) fun x => decide (s.subject.c = 1 ∧ physColumn (columnOf s a) x = b)
        .next (telemetry (t.modPlatform fun p => { p with columns := Tab.put 16 p.columns (positionOf t a) b }) 0x44 [a, b]) := by
  subst hsub hsubb
  exact if_neg (not_or.mpr ⟨not_le.mpr ha, not_or.mpr ⟨not_lt.mpr hb, hold⟩⟩)

theorem coreColumnRepair_waits (hctx : (s.die a).ctx ≠ none) :
    Happens .coreColumnRepair s fun t => Quiet s t ∧ t.dies = s.dies ∧ Coming t (s.clk + 850) .coreColumnRepair s.subject :=
  ⟨_, (execCoreColumnRepair_eq hsub hsubb ha hb hold).trans (if_pos (Option.isSome_iff_ne_none.mpr hctx)), ⟨rfl, rfl, rfl, rfl, rfl⟩, rfl, coming_after ..⟩

theorem execCoreColumnRepair_recorded (hctx : (s.die a).ctx = none) {r : State} (hrep : repairRecord s 0x101 [positionOf s a, b] = (true, r)) :
    execCoreColumnRepair s =
      let t := leaveVaults r a (fun x => decide (physColumn (columnOf s a) x ≠ physColumn b x)) fun x => decide (s.subject.c = 1 ∧ physColumn (columnOf s a) x = b)
      .next (telemetry (t.modPlatform fun p => { p with columns := Tab.put 16 p.columns (positionOf t a) b }) 0x44 [a, b]) := by
  rw [execCoreColumnRepair_eq hsub hsubb ha hb hold, if_neg (by simp [hctx]), hrep]
  rfl

/-- A repair whose record is not written is not made. -/
theorem coreColumnRepair_unrecorded (hctx : (s.die a).ctx = none) (hrep : (repairRecord s 0x101 [positionOf s a, b]).1 = false) :
    Happens .coreColumnRepair s fun t => t.clk = s.clk ∧ t.cores = s.cores ∧ t.dies = s.dies ∧ t.mem = s.mem ∧ NotRepaired s t 0x101 := by
  have heq := execCoreColumnRepair_eq hsub hsubb ha hb hold
  rw [if_neg (by simp [hctx])] at heq
  obtain ⟨fresh, records, hrep', -⟩ | ⟨fresh, hrep'⟩ := repairRecord_eq s 0x101 [positionOf s a, b]
  · simp [hrep'] at hrep
  · rw [hrep'] at heq
    exact ⟨_, heq.trans (if_pos rfl), rfl, rfl, rfl, rfl, rfl, told_telemetry { s with fresh := fresh } 0x45 [0x101]⟩

end

/-- What the statement says of a column repair of a die that no member context holds. -/
def ColumnRepairs (s : State) : Prop :=
  let o := s.subject; let place := positionOf s o.a; let old := Tab.get 16 s.platform.columns place
  let moves (g : ℕ) : Prop := physColumn old (g / 48 % 16) ≠ physColumn o.b (g / 48 % 16)
  let fails (g : ℕ) : Prop := o.c = 1 ∧ physColumn old (g / 48 % 16) = o.b
  Happens .coreColumnRepair s fun t => t.clk = s.clk ∧ t.cores = s.cores ∧
    (Repaired s t 0x101 [place, o.b] ∧ (∀ p, Tab.get 16 t.platform.columns p = if p = place then o.b else Tab.get 16 s.platform.columns p) ∧
      Told t 6 0x44 0 [o.a, o.b] ∧ (∀ e ∈ (t.die o.a).gran, ¬moves e.1) ∧
      (∀ e ∈ (s.die o.a).gran, ∀ m, e.2.res = 2 → memberAt s o.a e.2.owner = some m → moves e.1 →
        (fails e.1 → Tab.get false (t.member m).lost e.1 = true ∧ Told t 0 0x07 m.vd [e.1, 1, o.a]) ∧ (¬fails e.1 → Tab.get false (t.member m).saved e.1 = true)) ∨
     t.dies = s.dies ∧ t.mem = s.mem ∧ NotRepaired s t 0x101)

/-- A column repair does what the statement says where no write of a record is ever chosen to succeed, for then it is not made. -/
theorem columnRepairs_of_choice (h : ∀ n, Config.freeChoice n % 2 ≠ 0) {s : State} (ha : s.subject.a < 64) (hb : s.subject.b ≤ 16)
    (hold : Tab.get 16 s.platform.columns (positionOf s s.subject.a) ≠ s.subject.b) (hctx : (s.die s.subject.a).ctx = none) : ColumnRepairs s := by
  have hrep : (repairRecord s 0x101 [positionOf s s.subject.a, s.subject.b]).1 = false := by
    obtain ⟨_, _, -, -, n, hn⟩ | ⟨_, hrep⟩ := repairRecord_eq s 0x101 [positionOf s s.subject.a, s.subject.b]
    · exact absurd hn (h n)
    · rw [hrep]
  obtain ⟨t, hexec, hclk, hcores, hnot⟩ := coreColumnRepair_unrecorded rfl rfl ha hb hold hctx hrep
  exact ⟨t, hexec, hclk, hcores, .inr hnot⟩

/-- A column repair does what the statement says where the member table is in its canonical order. -/
theorem columnRepairs_of_sorted {s : State} (hs : Tab.sorted s.members = true) (ha : s.subject.a < 64) (hb : s.subject.b ≤ 16)
    (hold : Tab.get 16 s.platform.columns (positionOf s s.subject.a) ≠ s.subject.b) (hctx : (s.die s.subject.a).ctx = none) : ColumnRepairs s := by
  obtain ⟨fresh, records, hrep, hrepaired, -⟩ | ⟨fresh, hrep⟩ := repairRecord_eq s 0x101 [positionOf s s.subject.a, s.subject.b]
  case inr =>
    obtain ⟨t, hexec, hclk, hcores, hnot⟩ := coreColumnRepair_unrecorded rfl rfl ha hb hold hctx (by rw [hrep])
    exact ⟨t, hexec, hclk, hcores, .inr hnot⟩
  have heq := execCoreColumnRepair_recorded rfl rfl ha hb hold hctx hrep
  obtain ⟨hclk, hcores, hplatform, hpos, hgran, hleaves⟩ := leaveVaults_spec (s := recorded s fresh records) hs s.subject.a
    (fun x => decide (physColumn (columnOf s s.subject.a) x ≠ physColumn s.subject.b x)) fun x => decide (s.subject.c = 1 ∧ physColumn (columnOf s s.subject.a) x = s.subject.b)
  refine ⟨_, heq, hclk, hcores, .inl ⟨?_, fun p => ?_, told_telemetry .., fun e he => ?_, fun e he m hres hm hmoves => ?_⟩⟩
  · exact fun i => ⟨fun hi => (congrArg (Tab.get [] ·.records i) hplatform).trans ((hrepaired i).1 hi),
      fun hi => (congrArg (Tab.get [] ·.records i) hplatform).trans ((hrepaired i).2 hi)⟩
  · refine (congrArg (fun t : Platform => Tab.get 16 (Tab.put 16 t.columns _ _) p) hplatform).trans ?_
    rw [Tab.get_put]
    exact if_congr (by rw [hpos]; rfl) rfl rfl
  · have he' := (congrArg (e ∈ ·) hgran).mp he
    have hstay : physColumn (columnOf s s.subject.a) (e.1 / 48 % 16) = physColumn s.subject.b (e.1 / 48 % 16) := by simpa using (List.mem_filter.mp he').2
    exact not_not.mpr hstay
  · obtain ⟨hlost, hsaved⟩ := hleaves e he hres (decide_eq_true hmoves) m hm
    exact ⟨fun hf => ⟨(hlost (decide_eq_true hf)).1, (hlost (decide_eq_true hf)).2.report _⟩, fun hf => hsaved (decide_eq_false hf)⟩

/-! ### The clauses together -/

/-- Every clause of the statement but one holds; the one left is that of a column repair. -/
theorem platformEvents_of_columnRepairs (hcolumn : ∀ s : State, s.subject.a < 64 → s.subject.b ≤ 16 →
      Tab.get 16 s.platform.columns (positionOf s s.subject.a) ≠ s.subject.b → (s.die s.subject.a).ctx = none → ColumnRepairs s) :
    Obligations.PlatformEvents := by
  unfold Obligations.PlatformEvents
  refine ⟨fun s hn => ?_, fun s ha => ?_, fun s hstop ha => ?_, fun s hboot hA hB => ?_, fun s => ?_, fun s hstandby => managementDieTakeover_happens hstandby,
    fun s ha hb hold => ?_, fun s ha hnew => ?_, fun s => ?_, fun s hd => ?_, fun s => ?_, fun s => telemetrySample_happens s, fun s h1 h5 => securityViolation_happens h1 h5,
    fun s => ⟨fun hf hb => unfreezeRequest_happens hf hb, fun h => unfreezeRequest_refused h⟩, fun s => ⟨fun h => attestation_refused h, fun he hx => attestation_happens he hx⟩,
    fun s => ?_⟩
  case refine_1 =>
    have hlink := isLink_iff.mpr hn
    have hport := linkField_eq s.subject.a
    rw [← hport]
    refine ⟨fun hstage => linkTraining_happens rfl rfl hlink hstage, fun hup hstage => laneDetectTimeout_happens rfl rfl hlink hup hstage, fun hup hb hlanes =>
      ⟨fun hw => laneFailure_happens_spare rfl rfl hlink hup hb hlanes hw, fun h8 h16 => laneFailure_happens_narrow rfl rfl hlink hup hb hlanes h8 h16,
        fun h8 => laneFailure_happens_closed rfl rfl hlink hup hb hlanes h8⟩, fun hup hbanks => bufferBankError_happens rfl rfl hlink hup hbanks,
      fun hup hpos hbanks => bufferBankError_happens_closed rfl rfl hlink hup hpos hbanks⟩
  case refine_2 =>
    rw [← switchDie_of_lt s ha]
    refine ⟨fun hup hn => ?_, fun hup hn => ?_, fun hdown hspare => switchTakeover_happens ha hdown hspare⟩
    · exact ⟨_, (switchHeartbeatLoss_eq ha hup).trans (if_pos hn), ⟨rfl, rfl, rfl, rfl, rfl⟩, State.switch_modSwitch ..⟩
    · refine ⟨_, (switchHeartbeatLoss_eq ha hup).trans (if_neg (not_lt.mpr hn)), ?_⟩
      by_cases hspare : s.platform.spareSwitches < 2
      · obtain ⟨hlost, hplatform, htakeover⟩ := losePosition_spare s.subject.a hspare
        exact ⟨hlost.quiet, hlost.down, hlost.slots, hlost.told, hlost.held, fun _ => ⟨hplatform, htakeover⟩, fun h2 => absurd hspare (not_lt.mpr h2)⟩
      · obtain ⟨hlost, hports⟩ := losePosition_none s.subject.a (not_lt.mp hspare)
        exact ⟨hlost.quiet, hlost.down, hlost.slots, hlost.told, hlost.held, fun h2 => absurd h2 hspare, fun _ => hports⟩
  case refine_3 =>
    refine ⟨fun h1 h6 himage => ?_, fun h2 hA hB => powerOnReset_noImage rfl hstop ha h2 hA hB, fun h7 => powerOnReset_last rfl hstop ha h7 rfl⟩
    obtain ⟨t, hexec, hstep, hconfig, hreplay, hlinks⟩ := powerOnReset_step rfl hstop ha h1 h6 himage
    exact ⟨t, hexec, hstep.cores, hstep.boot, hstep.clk, hstep.next, hstep.mem, hconfig, hreplay, hlinks⟩
  case refine_4 => exact ⟨recoveryImage_happens hboot hA hB, recoveryImage_failed hboot hA hB⟩
  case refine_5 =>
    exact ⟨wickUpdate_refused rfl, wickUpdate_unverified rfl, wickUpdate_busy rfl, wickUpdate_loads rfl, fun v at_ ha hb hw => wickUpdate_starts rfl ha hb hw,
      fun v at_ hw hclk => wickUpdateTimeout_happens rfl hw hclk⟩
  case refine_6 =>
    exact ⟨coreColumnRepair_waits rfl rfl ha hb hold, hcolumn s ha hb hold⟩
  case refine_7 => exact ⟨dieReplacement_spare rfl ha hnew, dieReplacement_none rfl ha hnew, dieReplacement_stands rfl ha hnew⟩
  case refine_8 => exact ⟨powerSample_happens s, dutyRaise_happens⟩
  case refine_9 => exact ⟨junctionOvertemp_happens hd, junctionCooled_happens hd⟩
  case refine_10 => exact ⟨coolantAlarm_happens, thermalStop_happens s⟩
  case refine_11 =>
    exact ⟨_, rfl, powerLoss_mem s, rfl, rfl, rfl, rfl, rfl, rfl, rfl, rfl, rfl, rfl, rfl, rfl, rfl, rfl, rfl, rfl, rfl, rfl, rfl, rfl, fun n hn => linkOf_reset hn⟩

/-! ### Why O60 is not settled -/

/-- Die 0, free, with a dirty granule of each of two die-local numbers, and a member table out of order that lists key 1 twice: local number 2 is the
member 5 of VD 0, until the granule of local number 1 is saved, which puts the first entry of key 1 ahead of it. -/
def disordered (n : ℕ) : State :=
  { State.reset with
    fresh := n, platform := { Platform.reset with standby := false }
    dies := [(0, { Die.reset with gran := [(0, ⟨1, 2⟩), (1, ⟨2, 2⟩)] })]
    members := [(5, { Member.blank with live := true, localNo := 2 }), (1, { Member.blank with live := true, localNo := 2 }),
      (1, { Member.blank with live := true, localNo := 1 })] }

theorem repairRecord_disordered {n : ℕ} (h : Config.freeChoice n % 2 = 0) :
    repairRecord (disordered n) 0x101 [0, 0] = (true, recorded (disordered n) (n + 1) [(0, [(0x101, [0, 0])])]) := by
  refine repairRecord_of_storeBoth (ok := true) ?_
  exact storeOn_written (s := withoutRecord (disordered n) (0x101, [0, 0])) (i := 0) true (not_mem_withoutRecord (disordered n) (0x101, [0, 0]) 0) (show 0 < storeSize by decide) h

/-- The first granule saved, die-local number 2 stands for member 1: member 5 has neither granule saved. -/
theorem saved_disordered {s : State} (hmembers : s.members = (disordered 0).members) (lost : ℕ → Bool) (hlost : lost 0 = false) :
    (([(0, ⟨1, 2⟩), (1, ⟨2, 2⟩)] : List (ℕ × Granule)).foldl (leaveVault 0 lost) s).member ⟨0, 5⟩ = { Member.blank with live := true, localNo := 2 } := by
  have hfirst : memberAt s 0 1 = some ⟨0, 1⟩ := by rw [memberAt_eq, hmembers]; rfl
  have hmoved : (leaveVault 0 lost s (0, ⟨1, 2⟩)).members = Tab.put Member.blank s.members 1
      { s.member ⟨0, 1⟩ with saved := Tab.put false (s.member ⟨0, 1⟩).saved 0 true } := by
    simp only [leaveVault, hfirst]
    rw [if_neg (by simp [hlost])]
    rfl
  have hsecond : memberAt (leaveVault 0 lost s (0, ⟨1, 2⟩)) 0 2 = some ⟨0, 1⟩ := by
    rw [memberAt_eq, hmoved, State.member, hmembers]
    rfl
  rw [List.foldl_cons, List.foldl_cons, List.foldl_nil, leaveVault_other 0 lost hsecond (by decide), leaveVault_other 0 lost hfirst (by decide), State.member, hmembers]
  rfl

/-- `disordered` with the record of the repair of die 0 to column 0 written. -/
def disorderedRecorded (n : ℕ) : State := recorded (disordered n) (n + 1) [(0, [(0x101, [0, 0])])]

/-- Whether a granule leaves the vault where column 0 takes the place of the spare. -/
def movesToFirst (x : ℕ) : Bool := decide (physColumn 16 x ≠ physColumn 0 x)

/-- Both granules leave, and the second is not saved for the member that it belonged to. -/
theorem leaveVaults_disordered (n : ℕ) (lost : ℕ → Bool) (hlost : lost 0 = false) :
    ((leaveVaults (disorderedRecorded n) 0 movesToFirst lost).die 0).gran = [] ∧
      Tab.get false ((leaveVaults (disorderedRecorded n) 0 movesToFirst lost).member ⟨0, 5⟩).saved 1 = false := by
  have hleaving : (((disorderedRecorded n).die 0).gran.filter fun e => decide (e.2.res = 2) && movesToFirst (e.1 / 48 % 16)) = [(0, ⟨1, 2⟩), (1, ⟨2, 2⟩)] := rfl
  have hmember := (member_leaveVaults (disorderedRecorded n) 0 movesToFirst lost ⟨0, 5⟩).trans
    (hleaving ▸ saved_disordered (s := disorderedRecorded n) rfl lost hlost)
  exact ⟨(gran_leaveVaults ..).trans rfl, congrArg (fun c : Member => Tab.get false c.saved 1) hmember⟩

/-- The two places of a column repair's outcome that the proof below looks at are those of the state in which the vaults have been left. -/
theorem die_telemetry_modPlatform (s : State) (f : Platform → Platform) (code : ℕ) (args : List ℕ) (d : ℕ) :
    (telemetry (s.modPlatform f) code args).die d = s.die d := rfl

theorem member_telemetry_modPlatform (s : State) (f : Platform → Platform) (code : ℕ) (args : List ℕ) (m : MemberId) :
    (telemetry (s.modPlatform f) code args).member m = s.member m := rfl

theorem execCoreColumnRepair_disordered {n : ℕ} (h : Config.freeChoice n % 2 = 0) :
    ∃ f, execCoreColumnRepair (disordered n) =
      .next (telemetry ((leaveVaults (disorderedRecorded n) 0 movesToFirst fun x => decide (0 = 1 ∧ physColumn 16 x = 0)).modPlatform f) 0x44 [0, 0]) :=
  ⟨_, execCoreColumnRepair_recorded (s := disordered n) (a := 0) (b := 0) rfl rfl (by decide) (by decide) (show 16 ≠ 0 by decide) rfl
    (repairRecord_disordered h)⟩

/-- The second granule leaves its vault, and its member does not have it saved. -/
theorem not_columnRepairs_disordered {n : ℕ} (h : Config.freeChoice n % 2 = 0) : ¬ColumnRepairs (disordered n) := by
  rintro ⟨t, hexec, -, -, ht⟩
  obtain ⟨f, heq⟩ := execCoreColumnRepair_disordered h
  obtain ⟨hgran, hnot⟩ := leaveVaults_disordered n (fun x => decide (0 = 1 ∧ physColumn 16 x = 0)) rfl
  rw [← die_telemetry_modPlatform _ f 0x44 [0, 0], Host.Outcome.next.inj (heq.symm.trans hexec)] at hgran
  rw [← member_telemetry_modPlatform _ f 0x44 [0, 0], Host.Outcome.next.inj (heq.symm.trans hexec)] at hnot
  obtain ⟨-, -, -, -, hsaved⟩ | ⟨hdies, -⟩ := ht
  · exact Bool.false_ne_true (hnot.symm.trans ((hsaved (1, ⟨2, 2⟩) (.tail _ (.head _)) ⟨0, 5⟩ rfl rfl (show 0 ≠ 1 by decide)).2 fun hfails => zero_ne_one hfails.1))
  · rw [State.die, hdies] at hgran
    exact List.cons_ne_nil _ _ hgran

/-- O60 holds exactly if no free choice of the model (log 5) ever lets a record be written.  `Config.freeChoice` is opaque, so neither the statement nor its
negation follows from the model. -/
theorem platformEvents_iff : Obligations.PlatformEvents ↔ ∀ n, Config.freeChoice n % 2 ≠ 0 := by
  refine ⟨fun h n hn => ?_, fun h => platformEvents_of_columnRepairs fun s => columnRepairs_of_choice h⟩
  obtain ⟨-, -, -, -, -, -, hcolumn, -⟩ := h
  exact not_columnRepairs_disordered hn ((hcolumn (disordered n) (show 0 < 64 by decide) (show 0 ≤ 16 by decide) (show 16 ≠ 0 by decide)).2 rfl)

end Sys2Proof.Machine
end

section
/-!
PROOFS.  O54 fails: when no live VD has the gang number of a reduction slot, the slot's result goes out under the gang number of VD 0.
-/
namespace Sys2Proof.Machine

/-- The last contribution to a reduction of gang 0x25, from member 1. -/
def lastContribution : Pkt := { Pkt.local 1 0 0x0B 0x300 20 with gang := 0x25, cid := 0x11, rtag := 9, data := [3, 0, 0, 0] }

/-- The slot it completes: a .s32 sum that member 0 has contributed to. -/
def orphanSlot : RedSlot :=
  { gang := 0x25, cid := 0x11, ty := 5, op := 0, len := 4, partials := [4, 0, 0, 0], mask := [0], stamp := [], nan := none, nanElems := [],
    waiting := [(0, 1, 0x100)], deadline := 90, done := none }

/-- The switch position with that slot, in a machine without a VD of gang 0x25: its one VD has number 0, two members and gang 0x11. -/
def orphanS : State :=
  { State.reset with
    agenda := [], subject := { a := 12, pkt := some lastContribution }
    vds := [(0, { VD.blank with live := true, gang := 0x11, params := { VD.blank.params with n := 2 } })] }.modSwitch 12 fun w => { w with slots := [(51, some orphanSlot)] }

/-- An agenda entry that carries no packet of gang 0x25. -/
def foreignEntry (e : Due) : Bool := match e.act with
  | .event _ o => decide (∀ q ∈ o.pkt, q.gang ≠ 0x25)
  | .perform _ => true

/-- `vdOfGang` answers VD 0 for a gang that no VD has, and `sendSres` writes that VD's gang into the packet. -/
theorem orphanS_sres_foreign : ∃ t, exec .sredPacket orphanS = .next t ∧ t.agenda.all foreignEntry = true :=
  ⟨contribute orphanS 12 lastContribution, rfl, by decide +kernel⟩

theorem not_coming_of_foreign {t : State} (h : t.agenda.all foreignEntry = true) {at_ : ℕ} {i : Instr} {o : Subject} {q : Pkt} (ho : o.pkt = some q) (hq : q.gang = 0x25) :
    ¬Coming t at_ i o := fun hcoming =>
  of_decide_eq_true (List.all_eq_true.mp h _ hcoming) q ho hq

/-- Refutes O54: the last contribution to the slot of `orphanS` sends its SRES under gang 0x11, where the statement has the packet's gang 0x25. -/
theorem not_wakeAndReductionEvents : ¬Obligations.WakeAndReductionEvents := by
  unfold Obligations.WakeAndReductionEvents
  rintro ⟨-, -, -, -, -, -, -, hfurther, -⟩
  obtain ⟨-, hlast⟩ := hfurther orphanS lastContribution 51 orphanSlot rfl rfl (by decide) (by decide +kernel) (by decide +kernel) rfl rfl rfl rfl rfl rfl rfl
    (by decide) (by decide) rfl
  obtain ⟨t, hexec, -, -, -, hsres⟩ := hlast (by decide +kernel) (by decide +kernel)
  obtain ⟨t', hexec', hforeign⟩ := orphanS_sres_foreign
  obtain rfl : t = t' := Host.Outcome.next.inj (hexec.symm.trans hexec')
  obtain ⟨o, q, ho, ⟨hgang, -⟩, -, -, hcoming | ⟨hcoming, -⟩⟩ := hsres (0, 1, 0x100) (List.mem_append_left _ (.head _))
  · exact not_coming_of_foreign hforeign ho hgang hcoming
  · exact not_coming_of_foreign hforeign ho hgang hcoming

end Sys2Proof.Machine
end

section
/-!
PROOFS.  What happens beside a packet's own act: bytes are stored and reductions drain, tasks and jobs become ready, and the agenda grows.
-/
namespace Sys2Proof.Machine

/-! ### The relation -/

/-- A member without its tasks, jobs and triggers. -/
def Member.links (c : Member) : Member :=
  { c with pool := [], banks := [], ages := [], decls := [], producers := [], absorbed := [], jobs := [], jobOrder := [], triggers := [], dimmed := false,
           latecnt := 0 }

/-- A VD without the clk at which its idle timer started. -/
def VD.timeless (v : VD) : VD := { v with idleSince := none }

/-- No task or job of a member has gone; a job still has its card and packet. -/
structure WorkKept (c c' : Member) : Prop where
  task : ∀ h, (c.task h).isSome = true → (c'.task h).isSome = true
  job : ∀ h j, c.job h = some j → ∃ j', c'.job h = some j' ∧ j'.card = j.card ∧ j'.packet = j.packet

namespace WorkKept
variable {c c' c'' : Member}

theorem of_eq (hpool : c'.pool = c.pool) (hjobs : c'.jobs = c.jobs) : WorkKept c c' :=
  ⟨fun h ht => by rwa [Member.task, hpool], fun h j hj => ⟨j, by rwa [Member.job, hjobs], rfl, rfl⟩⟩

theorem trans (h : WorkKept c c') (h' : WorkKept c' c'') : WorkKept c c'' :=
  ⟨fun i hi => h'.task i (h.task i hi), fun i j hj => by
    obtain ⟨j', hj', hcard, hpacket⟩ := h.job i j hj
    obtain ⟨j'', hj'', hcard', hpacket'⟩ := h'.job i j' hj'
    exact ⟨j'', hj'', hcard'.trans hcard, hpacket'.trans hpacket⟩⟩

theorem put_task {i : ℕ} {x : Task} (hpool : c'.pool = Tab.put none c.pool i (some x)) (hjobs : c'.jobs = c.jobs) : WorkKept c c' := by
  refine ⟨fun h ht => ?_, fun h j hj => ⟨j, by rwa [Member.job, hjobs], rfl, rfl⟩⟩
  rw [Member.task, hpool, Tab.get_put]
  split
  · rfl
  · exact ht

theorem put_job {i : ℕ} {x : Job} (hx : ∀ j, c.job i = some j → x.card = j.card ∧ x.packet = j.packet) (hpool : c'.pool = c.pool)
    (hjobs : c'.jobs = Tab.put none c.jobs i (some x)) : WorkKept c c' := by
  refine ⟨fun h ht => by rwa [Member.task, hpool], fun h j hj => ?_⟩
  rw [Member.job, hjobs, Tab.get_put]
  split
  · next heq => exact ⟨x, rfl, hx j (heq ▸ hj)⟩
  · exact ⟨j, hj, rfl, rfl⟩

end WorkKept

/-- Cores, accesses and the gang controller are the same, VDs but for their idle timers, members but for their tasks, jobs and triggers, of which no task or
job has gone, and what was to come is still to come. -/
structure Steady (s t : State) : Prop where
  clk : t.clk = s.clk
  subject : t.subject = s.subject
  cores : t.cores = s.cores
  accesses : t.accesses = s.accesses
  gc : t.gc = s.gc
  platform : t.platform = s.platform
  vds : ∀ n, (t.vd n).timeless = (s.vd n).timeless
  members : ∀ m, (t.member m).links = (s.member m).links
  work : ∀ m, WorkKept (s.member m) (t.member m)
  agenda : s.agenda ⊆ t.agenda

namespace Steady
variable {s t u : State}

theorem refl (s : State) : Steady s s := ⟨rfl, rfl, rfl, rfl, rfl, rfl, fun _ => rfl, fun _ => rfl, fun _ => .of_eq rfl rfl, List.Subset.refl _⟩

theorem trans (h : Steady s t) (h' : Steady t u) : Steady s u :=
  ⟨h'.clk.trans h.clk, h'.subject.trans h.subject, h'.cores.trans h.cores, h'.accesses.trans h.accesses, h'.gc.trans h.gc, h'.platform.trans h.platform,
    fun n => (h'.vds n).trans (h.vds n), fun m => (h'.members m).trans (h.members m), fun m => (h.work m).trans (h'.work m), List.Subset.trans h.agenda h'.agenda⟩

/-- A relation between two states is all about what `Steady` speaks of. -/
theorem of_eq (h : Steady s t) (hclk : u.clk = t.clk) (hsub : u.subject = t.subject) (hcores : u.cores = t.cores) (hacc : u.accesses = t.accesses)
    (hgc : u.gc = t.gc) (hp : u.platform = t.platform) (hv : u.vds = t.vds) (hm : u.members = t.members) (ha : t.agenda ⊆ u.agenda) : Steady s u :=
  h.trans ⟨hclk, hsub, hcores, hacc, hgc, hp, fun n => by simp only [State.vd, hv], fun m => by simp only [State.member, hm],
    fun m => by simp only [State.member, hm]; exact .of_eq rfl rfl, ha⟩

theorem due (h : Steady s t) (at_ : ℕ) (a : Act) : Steady s (t.due at_ a) := h.of_eq rfl rfl rfl rfl rfl rfl rfl rfl (List.subset_append_left _ _)
theorem after (h : Steady s t) (n : ℕ) (i : Instr) (o : Subject) : Steady s (t.after n i o) := h.due _ _
theorem afterM (h : Steady s t) (n : ℕ) (i : Instr) (m : MemberId) (a : ℕ) : Steady s (t.afterM n i m a) := h.due _ _
theorem draw (h : Steady s t) : Steady s t.draw := h.of_eq rfl rfl rfl rfl rfl rfl rfl rfl (List.Subset.refl _)
theorem report (h : Steady s t) (r : Report) : Steady s (t.report r) := h.of_eq rfl rfl rfl rfl rfl rfl rfl rfl (List.Subset.refl _)
theorem modDie (h : Steady s t) (d : ℕ) (f : Die → Die) : Steady s (t.modDie d f) := h.of_eq rfl rfl rfl rfl rfl rfl rfl rfl (List.Subset.refl _)
theorem modSwitch (h : Steady s t) (n : ℕ) (f : Switch → Switch) : Steady s (t.modSwitch n f) := h.of_eq rfl rfl rfl rfl rfl rfl rfl rfl (List.Subset.refl _)
theorem store (h : Steady s t) (k : ℕ) (l : List Byte) : Steady s (t.store k l) := h.of_eq rfl rfl rfl rfl rfl rfl rfl rfl (List.Subset.refl _)

theorem modMember (h : Steady s t) {m : MemberId} {f : Member → Member} (hf : (f (t.member m)).links = (t.member m).links := by rfl)
    (hw : WorkKept (t.member m) (f (t.member m)) := by exact .of_eq rfl rfl) : Steady s (t.modMember m f) := by
  have hcases (n : MemberId) : ((t.modMember m f).member n).links = (t.member n).links ∧ WorkKept (t.member n) ((t.modMember m f).member n) := by
    by_cases hn : memberKey n = memberKey m
    · have heq (u : State) : u.member n = u.member m := congrArg (Tab.get Member.blank u.members) hn
      rw [heq, heq, State.member_modMember]
      exact ⟨hf, hw⟩
    · rw [State.member_modMember_other _ _ hn]
      exact ⟨rfl, .of_eq rfl rfl⟩
  exact h.trans ⟨rfl, rfl, rfl, rfl, rfl, rfl, fun _ => rfl, fun n => (hcases n).1, fun n => (hcases n).2, List.Subset.refl _⟩

theorem idleSince (h : Steady s t) (vd : ℕ) (o : Option ℕ) : Steady s (t.modVd vd fun v => { v with idleSince := o }) :=
  h.trans ⟨rfl, rfl, rfl, rfl, rfl, rfl, fun n => by
    by_cases hn : n = vd
    · rw [hn, State.vd_modVd]
      rfl
    · rw [State.vd_modVd_other _ _ hn], fun _ => rfl, fun _ => .of_eq rfl rfl, List.Subset.refl _⟩
theorem notIdle (h : Steady s t) (vd : ℕ) : Steady s (Machine.notIdle t vd) := h.idleSince vd none

theorem foldl {α : Type} {f : State → α → State} (h : Steady s t) (hf : ∀ u x, Steady u (f u x)) (l : List α) : Steady s (l.foldl f t) :=
  h.trans (foldl_keeps refl trans hf l t)

theorem ite {p : Prop} [Decidable p] (ht : Steady s t) (hu : Steady s u) : Steady s (if p then t else u) := by
  split
  · exact ht
  · exact hu

/-! ### What it leaves -/

theorem core (h : Steady s t) (k : CoreId) : t.core k = s.core k := by simp only [State.core, h.cores]
theorem packets (h : Steady s t) (m : MemberId) : (t.member m).packets = (s.member m).packets := (congrArg Member.packets (h.members m) :)
theorem parsed (h : Steady s t) (m : MemberId) : (t.member m).parsed = (s.member m).parsed := (congrArg Member.parsed (h.members m) :)
theorem clock (h : Steady s t) (m : MemberId) : (t.member m).clock = (s.member m).clock := (congrArg Member.clock (h.members m) :)
theorem tables (h : Steady s t) (n : ℕ) : (t.vd n).tables = (s.vd n).tables := (congrArg VD.tables (h.vds n) :)

end Steady

/-! ### Bytes stored, and reductions that drain (R97, R98) -/

namespace Steady
variable {s t : State}

theorem checkTriggers (h : Steady s t) (m : MemberId) (a n : ℕ) : Steady s (Machine.checkTriggers t m a n) := by
  unfold Machine.checkTriggers
  refine h.foldl (fun u e => ?_) _
  split
  · exact .ite ((refl u).modMember.afterM ..) (refl u)
  · exact refl u

theorem checkDoorbell (h : Steady s t) (vd k n : ℕ) : Steady s (Machine.checkDoorbell t vd k n) :=
  h.foldl (fun u _ => .ite ((refl u).foldl (fun v _ => (refl v).foldl (fun w _ => (refl w).draw.after ..) _) _) (refl u)) _

theorem pokeQueues (h : Steady s t) (d a n : ℕ) : Steady s (Machine.pokeQueues t d a n) := by
  unfold Machine.pokeQueues
  refine h.foldl (fun u e => ?_) _
  split
  · exact .ite ((refl u).due ..) (refl u)
  · exact refl u

theorem dirty (h : Steady s t) (d a : ℕ) : Steady s (t.dirty d a) := .ite (h.modDie ..) h

theorem vput (h : Steady s t) (d a : ℕ) (l : List Byte) : Steady s (t.vput d a l) := ((h.store ..).dirty ..).dirty ..

theorem putAt (h : Steady s t) (m : MemberId) (l : Loc) (b : List Byte) : Steady s (Machine.putAt t m l b) := by
  cases l with
  | vault d a => exact ((h.vput d a b).checkTriggers ..).pokeQueues ..
  | phys k =>
    have hd := (h.store k (keepRptr t m.vd k b)).checkDoorbell m.vd k b.length
    exact .ite hd (hd.of_eq rfl rfl rfl rfl rfl rfl rfl rfl (List.Subset.refl _))

theorem countHeat (h : Steady s t) (l : Loc) (n : ℕ) : Steady s (Machine.countHeat t l n) := by
  cases l with
  | vault d a => exact h
  | phys k => exact .ite (h.modDie ..) (.ite (h.modSwitch ..) h)

theorem drainMerge (h : Steady s t) (m : MemberId) (l : Loc) (e : Merge) : Steady s (Machine.drainMerge t m l e) := by
  cases l with
  | vault d a => exact h.foldl (fun u _ => (refl u).putAt ..) _
  | phys k => exact h.foldl (fun u _ => (refl u).putAt ..) _

theorem drainEntry (h : Steady s t) (d : ℕ) (m : MemberId) (e : Merge) : Steady s (Machine.drainEntry t d m e) := (h.modDie ..).drainMerge ..

theorem drainRange (h : Steady s t) (d : ℕ) (m : MemberId) (key n : ℕ) : Steady s (Machine.drainRange t d m key n) :=
  h.foldl (fun u _ => (refl u).drainEntry ..) _

end Steady

/-! ### Tasks and jobs that become ready (R44, R296) -/

namespace Steady
variable {s t : State}

theorem enqueueTask (h : Steady s t) (m : MemberId) (i : ℕ) (x : Task) : Steady s (Machine.enqueueTask t m i x) :=
  (h.notIdle _).modMember rfl (.put_task rfl rfl)

theorem withdrawInput (h : Steady s t) (m : MemberId) (word : ℕ) : Steady s (Machine.withdrawInput t m word) := by
  unfold Machine.withdrawInput
  split
  · exact h.after ..
  · exact h

theorem sendDemand (h : Steady s t) (m : MemberId) (word : ℕ) (inc : Bool) : Steady s (Machine.sendDemand t m word inc) := by
  unfold Machine.sendDemand
  split
  · exact h.after ..
  · exact h

theorem settleTask (h : Steady s t) (clear : List Owner) (m : MemberId) (i : ℕ) : Steady s (Machine.settleTask clear t m i) := by
  unfold Machine.settleTask
  split
  · exact h
  · have hwaits {x : Task} : Steady s (t.modMember m fun c => c.setTask i (some x)) := h.modMember rfl (.put_task rfl rfl)
    split
    · split
      · exact .ite (h.enqueueTask ..) h
      · exact .ite (h.enqueueTask ..) h
    pick_goal 3
    · exact h
    all_goals
      refine .ite ?_ (.ite hwaits h)
      split
      · exact .ite ((h.enqueueTask ..).foldl (fun u _ => ((refl u).withdrawInput ..).modMember) _) (h.enqueueTask ..)
      · exact hwaits

theorem settleJob (h : Steady s t) (clear : List Owner) (m : MemberId) (i : ℕ) : Steady s (Machine.settleJob clear t m i) := by
  unfold Machine.settleJob
  split
  · exact h
  · next j hj =>
    have hkept {c' : Member} {st : JobState} (hpool : c'.pool = (t.member m).pool) (hjobs : c'.jobs = Tab.put none (t.member m).jobs i (some { j with st := st })) :
        WorkKept (t.member m) c' := .put_job (fun j' hj' => by cases hj.symm.trans hj'; exact ⟨rfl, rfl⟩) hpool hjobs
    split
    · exact .ite ((h.modMember rfl (hkept rfl rfl)).afterM ..) (.ite (h.modMember rfl (hkept rfl rfl)) h)
    · exact .ite ((h.modMember rfl (hkept rfl rfl)).afterM ..) (.ite (h.modMember rfl (hkept rfl rfl)) h)
    · exact h

theorem askDispatch (h : Steady s t) (m : MemberId) : Steady s (Machine.askDispatch t m) := .ite (h.afterM ..) h

theorem settle (h : Steady s t) (m : MemberId) : Steady s (Machine.settle t m) := by
  unfold Machine.settle
  dsimp only
  refine .askDispatch (.foldl h.modMember (fun u d => ?_) _) m
  split
  · exact (refl u).settleTask ..
  · exact (refl u).settleJob ..

end Steady

end Sys2Proof.Machine
end

section
/-!
PROOFS.  How the front end reaches a VD's memory (R359): its places lie outside the vaults, so reading and writing there leaves every member as it is.
-/
namespace Sys2Proof.Machine

/-! ### Places outside the vaults (R91) -/

/-- The key of the first byte outside the vaults. -/
def outsideKey : ℕ := 2 * 2 ^ 80

theorem vaPlace_outside {s : State} {vd va : ℕ} {w : Bool} {l : Loc} (h : vaPlace s vd va w = .ok l) : ∃ k, l = .phys k ∧ outsideKey ≤ k := by
  unfold vaPlace at h
  split at h
  · cases h
  · dsimp only at h
    split at h
    · cases h
    · split at h
      · cases h
      · split at h <;> cases h
        · exact ⟨_, rfl, by simp only [outsideKey, hbmKey]; omega⟩
        · exact ⟨_, rfl, by simp only [outsideKey, tierKey]; omega⟩
        · exact ⟨_, rfl, by simp only [outsideKey, hostKey]; omega⟩

theorem vaLoc_outside {s : State} {vd va : ℕ} {w : Bool} {l : Loc} (h : vaLoc s vd va w = .ok l) : ∃ k, l = .phys k ∧ outsideKey ≤ k := by
  unfold vaLoc at h
  split at h
  · next l' hl =>
    split at h
    · cases h
    · cases h
      exact vaPlace_outside hl
  · cases h

/-! ### Members -/

/-- Only free values have been drawn and events put on the agenda. -/
def DrawsOnly (s t : State) : Prop := ∃ n l, t = { s with fresh := n, agenda := s.agenda ++ l }

theorem DrawsOnly.refl (s : State) : DrawsOnly s s := ⟨s.fresh, [], by rw [List.append_nil]⟩
theorem DrawsOnly.trans {s t u : State} (h : DrawsOnly s t) (h' : DrawsOnly t u) : DrawsOnly s u := by
  obtain ⟨n, l, rfl⟩ := h
  obtain ⟨n', l', rfl⟩ := h'
  exact ⟨n', l ++ l', by simp only [List.append_assoc]⟩
theorem DrawsOnly.foldl {α : Type} {f : State → α → State} (hf : ∀ s x, DrawsOnly s (f s x)) (l : List α) (s : State) : DrawsOnly s (l.foldl f s) :=
  foldl_keeps refl trans hf l s
theorem DrawsOnly.members {s t : State} (h : DrawsOnly s t) : t.members = s.members := by obtain ⟨n, l, rfl⟩ := h; rfl
theorem DrawsOnly.mem {s t : State} (h : DrawsOnly s t) : t.mem = s.mem := by obtain ⟨n, l, rfl⟩ := h; rfl

theorem drawsOnly_checkDoorbell (s : State) (vd k n : ℕ) : DrawsOnly s (checkDoorbell s vd k n) := by
  refine .foldl (fun s i => ?_) _ s
  dsimp only
  split
  · exact .foldl (fun s q => .foldl (fun s j => ⟨_, _, rfl⟩) _ s) _ s
  · exact .refl s

theorem members_putAt_phys (s : State) (m : MemberId) (k : ℕ) (b : List Byte) : (putAt s m (.phys k) b).members = s.members := by
  refine Eq.trans ?_ (drawsOnly_checkDoorbell (s.store k (keepRptr s m.vd k b)) m.vd k b.length).members
  dsimp only [putAt]
  split
  · rfl
  · rfl

theorem members_countHeat (s : State) (l : Loc) (n : ℕ) : (countHeat s l n).members = s.members := by
  cases l with
  | vault d a => rfl
  | phys k =>
    dsimp only [countHeat]
    split
    · rfl
    · split
      · rfl
      · rfl

theorem lineLoc_outside {d line : ℕ} (h : outsideKey / 64 ≤ line) : lineLoc d line = .phys (line * 64) :=
  if_neg (by simp only [outsideKey] at h; omega)

theorem members_drainEntry_outside (s : State) (d : ℕ) (m : MemberId) {e : Merge} (h : outsideKey / 64 ≤ e.line) : (drainEntry s d m e).members = s.members := by
  rw [drainEntry, lineLoc_outside h]
  exact foldl_keeps (R := fun s t => t.members = s.members) (fun _ => rfl) (fun h h' => h'.trans h) (fun s p => members_putAt_phys ..) e.pend _

theorem members_drainRange_outside (s : State) (d : ℕ) (m : MemberId) {key : ℕ} (n : ℕ) (h : outsideKey ≤ key) : (drainRange s d m key n).members = s.members := by
  refine List.foldlRecOn (motive := fun t : State => t.members = s.members) _ _ rfl fun t ht e he => ?_
  have hline : key / 64 ≤ e.line := (of_decide_eq_true (List.mem_filter.mp he).2).1
  exact (members_drainEntry_outside t d m ((Nat.div_le_div_right h).trans hline)).trans ht

/-! ### Reading and writing (R359) -/

/-- What every step of a fold that may fail keeps holds at its end. -/
theorem foldlM_keeps {ε α β : Type} {P : β → Prop} {f : β → α → Except ε β} (hf : ∀ b x c, f b x = .ok c → P b → P c) :
    ∀ (l : List α) {b c : β}, l.foldlM f b = .ok c → P b → P c
  | [], b, c, h, hb => by cases h; exact hb
  | x :: l, b, c, h, hb => by
    rw [List.foldlM_cons] at h
    cases hx : f b x with
    | error e => rw [hx] at h; cases h
    | ok d => rw [hx] at h; exact foldlM_keeps hf l h (hf b x d hx hb)

/-- The front end has used memory: only what `Steady` says has happened, and no member is changed. -/
def Outside (s t : State) : Prop := Steady s t ∧ t.members = s.members

theorem Outside.refl (s : State) : Outside s s := ⟨.refl s, rfl⟩
theorem Outside.trans {s t u : State} (h : Outside s t) (h' : Outside t u) : Outside s u := ⟨h.1.trans h'.1, h'.2.trans h.2⟩

theorem outside_drainRange (s : State) (d : ℕ) (m : MemberId) {key : ℕ} (n : ℕ) (h : outsideKey ≤ key) : Outside s (drainRange s d m key n) :=
  ⟨(Steady.refl s).drainRange .., members_drainRange_outside s d m n h⟩
theorem outside_countHeat (s : State) (l : Loc) (n : ℕ) : Outside s (countHeat s l n) := ⟨(Steady.refl s).countHeat .., members_countHeat ..⟩
theorem outside_putAt (s : State) (m : MemberId) (k : ℕ) (b : List Byte) : Outside s (putAt s m (.phys k) b) :=
  ⟨(Steady.refl s).putAt .., members_putAt_phys ..⟩

theorem outside_vaRead {s : State} {m : MemberId} {va n : ℕ} {r : List Byte × State} (h : vaRead s m va n = .ok r) : Outside s r.2 := by
  refine foldlM_keeps (P := fun r : List Byte × State => Outside s r.2) (fun r p r' hr hs => ?_) _ h (.refl s)
  cases hl : vaLoc r.2 m.vd p.1 false with
  | error e => simp only [hl, bind, Except.bind] at hr; cases hr
  | ok l =>
    simp only [hl, bind, Except.bind] at hr
    split at hr
    · cases hr
    · cases hr
      obtain ⟨k, rfl, hk⟩ := vaLoc_outside hl
      exact (hs.trans (outside_drainRange r.2 (Loc.phys k).die m p.2 hk)).trans (outside_countHeat _ (.phys k) p.2)

theorem outside_vaDwords {s : State} {m : MemberId} {va n : ℕ} {r : List Dword × State} (h : vaDwords s m va n = .ok r) : Outside s r.2 := by
  unfold vaDwords at h
  cases hr : vaRead s m va (8 * n) with
  | error e => rw [hr] at h; cases h
  | ok x => rw [hr] at h; cases h; exact outside_vaRead hr

/-- The next packet of a queue is read from memory. -/
theorem outside_nextPacket {s : State} {ty : ℕ} {r : List Dword × State} (h : nextPacket s ty = some r) : Outside s r.2 := by
  unfold nextPacket at h
  dsimp only at h
  split at h
  · split at h
    · split at h
      · next hr => cases h; exact outside_vaDwords hr
      · cases h
    · cases h
  · split at h
    · split at h
      · next hr =>
        split at h
        · cases h; exact outside_vaDwords hr
        · cases h
      · cases h
    · cases h

/-! ### An aligned dword written (R361) -/

theorem pagesOf_dword {a : ℕ} (h : a % 8 = 0) : pagesOf a 8 = [(a, 8)] := by
  have hmin : min 8 (4096 - a % 4096) = 8 := by omega
  simp [pagesOf, cutPages, hmin]

/-- A dword is written where the VD's leaf says, the reductions of its line before it. -/
theorem vaWrite_dword {s : State} {m : MemberId} {a v : ℕ} {l : Loc} (ha : a % 8 = 0) (hs : strikeAt s m.vd a = none) (hl : vaLoc s m.vd a true = .ok l) :
    vaWrite s m a (toBytes 8 v) = .ok (countHeat (putAt (drainRange s l.die m l.key 8) m l (toBytes 8 v)) l 8) := by
  have htake : (toBytes 8 v).take 8 = toBytes 8 v := List.take_of_length_le (by rw [toBytes_length])
  simp [vaWrite, toBytes_length, pagesOf_dword ha, hs, hl, bind, Except.bind, pure, Except.pure, htake]

/-- RPTR is elsewhere: all of a write is done (R358). -/
theorem keepRptr_offTables {s : State} {vd k : ℕ} {b : List Byte} (h : OffTables s vd k b.length) : keepRptr s vd k b = b := by
  have hnone : ((s.vd vd).tables.filter fun p => decide (k < p + 1024 ∧ p < k + b.length)) = [] :=
    List.filter_eq_nil_iff.mpr fun p hp => by
      have := h p hp
      simp only [decide_eq_true_eq]
      omega
  rw [keepRptr, hnone]
  rfl

theorem mem_putAt_phys {s : State} {m : MemberId} {k : ℕ} {b : List Byte} (h : OffTables s m.vd k b.length) :
    (putAt s m (.phys k) b).mem = memPut s.mem k b := by
  have hd : (checkDoorbell (s.store k (keepRptr s m.vd k b)) m.vd k b.length).mem = memPut s.mem k b := by
    rw [(drawsOnly_checkDoorbell ..).mem, keepRptr_offTables h, State.store_mem]
  refine Eq.trans ?_ hd
  dsimp only [putAt]
  split
  · rfl
  · rfl

theorem mem_countHeat (s : State) (l : Loc) (n : ℕ) : (countHeat s l n).mem = s.mem := by
  cases l with
  | vault d a => rfl
  | phys k =>
    dsimp only [countHeat]
    split
    · rfl
    · split
      · rfl
      · rfl

/-- A dword has been written outside the queue tables: it can be read there. -/
theorem vaWrite_dword_spec {s : State} {m : MemberId} {a v : ℕ} {l : Loc} (ha : a % 8 = 0) (hs : strikeAt s m.vd a = none) (hl : vaLoc s m.vd a true = .ok l)
    (hoff : OffTables s m.vd l.key 8) : ∃ t, vaWrite s m a (toBytes 8 v) = .ok t ∧ Outside s t ∧ memBytes t.mem l.key 8 = toBytes 8 v := by
  obtain ⟨k, rfl, hk⟩ := vaLoc_outside hl
  have hdrain := outside_drainRange s (Loc.phys k).die m 8 hk
  refine ⟨_, vaWrite_dword ha hs hl, (hdrain.trans (outside_putAt ..)).trans (outside_countHeat ..), ?_⟩
  have hoff' : OffTables (drainRange s (Loc.phys k).die m k 8) m.vd k (toBytes 8 v).length := fun p hp => by
    rw [toBytes_length]
    exact hoff p (hdrain.1.tables m.vd ▸ hp)
  have hlen := memBytes_memPut (toBytes 8 v) (drainRange s (Loc.phys k).die m k 8).mem k
  rw [toBytes_length] at hlen
  rw [mem_countHeat]
  exact (congrArg (memBytes · k 8) (mem_putAt_phys hoff')).trans hlen

end Sys2Proof.Machine
end

section
/-!
PROOFS.  The front end parses packets (R359 to R361): what parsing, stopping a queue and completing a packet leave, and the packet types that act at once.
-/
namespace Sys2Proof.Machine

/-! ### A queue that stops (R416, R417) -/

theorem bitN_mod_of_le {n i : ℕ} : bitN (n % 2 ^ i) i = false := by
  have h : n % 2 ^ i / 2 ^ i = 0 := Nat.div_eq_of_lt (Nat.mod_lt _ (by positivity))
  simp [bitN, h]

theorem memNat_memPut (mem : Mem) (k n v : ℕ) : memNat (memPut mem k (toBytes n v)) k n = v % 256 ^ n := by
  have h := memBytes_memPut (toBytes n v) mem k
  rw [toBytes_length] at h
  rw [memNat, h, ofBytes_toBytes]

theorem stopQueue_eq {q : ℕ} (hq : q ≤ 15) (s : State) (m : MemberId) (va reason : ℕ) : stopQueue s m q va reason =
    (s.store (descKey s m q) (toBytes 8 (descD0 s m q % 2 ^ 63))).report
      { kind := 4, code := reason, vd := m.vd, member := m.member, core := 0xFFFF, clk := s.clk, args := [q, va] } := by
  rw [stopQueue, if_pos hq]
  rfl

theorem stopQueue_stopped {s s0 : State} (hsub : s.subject.m = s0.subject.m) {q : ℕ} (hq : q ≤ 15) (va reason : ℕ) :
    Stopped s0 (stopQueue s s.subject.m q va reason) q va reason := by
  rw [stopQueue_eq hq, hsub]
  refine ⟨?_, told_report rfl⟩
  have hlt : descD0 s s0.subject.m q % 2 ^ 63 % 256 ^ 8 = descD0 s s0.subject.m q % 2 ^ 63 := Nat.mod_eq_of_lt (by omega)
  have hload : descD0 ((s.store (descKey s s0.subject.m q) (toBytes 8 (descD0 s s0.subject.m q % 2 ^ 63))).report
      { kind := 4, code := reason, vd := s0.subject.m.vd, member := s0.subject.m.member, core := 0xFFFF, clk := s.clk, args := [q, va] }) s0.subject.m q =
      descD0 s s0.subject.m q % 2 ^ 63 := (memNat_memPut s.mem _ 8 _).trans hlt
  rw [descEn, hload, bitN_mod_of_le]

theorem Steady.stopQueue {s t : State} (h : Steady s t) {q : ℕ} (hq : q ≤ 15) (m : MemberId) (va reason : ℕ) : Steady s (Machine.stopQueue t m q va reason) := by
  rw [stopQueue_eq hq]
  exact (h.store ..).report _

theorem malformed_eq {s : State} {q : ℕ} (hq : q ≤ 15) (hs : s.subject.a = q) (reason : ℕ) :
    malformed s reason = stopQueue s s.subject.m q (packetVa s s.subject.m q s.subject.b) reason := by
  rw [malformed, if_neg (by omega), hs]

/-- A malformed packet stops its queue; cores and members are as they were. -/
theorem malformed_spec {s s0 : State} (hsub : s.subject = s0.subject) (hq : s0.subject.a ≤ 15) (reason : ℕ) :
    (malformed s reason).cores = s.cores ∧ (malformed s reason).members = s.members ∧
      Stopped s0 (malformed s reason) s0.subject.a (packetVa s s0.subject.m s0.subject.a s0.subject.b) reason := by
  have hm : s.subject.m = s0.subject.m := congrArg Subject.m hsub
  rw [malformed_eq hq (congrArg Subject.a hsub), ← congrArg Subject.b hsub, ← hm]
  refine ⟨?_, ?_, stopQueue_stopped hm hq _ _⟩
  · rw [stopQueue_eq hq]; rfl
  · rw [stopQueue_eq hq]; rfl

/-! ### A packet parsed (R359) -/

/-- The packet that parsing puts on the list. -/
def parsedPacket (q i : ℕ) (dw : List Dword) (left : ℕ) (sat : List ℕ) : Packet :=
  { q := q, index := i, dw := dw, left := left, complete := false, sat := sat, reported := [], aborted := false }

/-- The member once a packet of it has been parsed. -/
def Member.parse (c : Member) (p : Packet) : Member :=
  { c with packets := c.packets ++ [p], parsed := Tab.put 0 c.parsed p.q (p.index + 1), dimmed := c.dimmed && decide (p.type = 7) }

theorem parsed_eq {q : ℕ} (hq : q ≤ 15) (s : State) (i : ℕ) (dw : List Dword) (left : ℕ) (sat : List ℕ) :
    ∃ k b, parsed s q i dw left sat = (((notIdle s s.subject.m.vd).modMember s.subject.m fun c =>
      c.parse (parsedPacket q i dw left sat)).store k b).after 1 .queueDoorbell { m := s.subject.m, a := q } := by
  simp only [parsed, if_pos hq]
  exact ⟨_, _, rfl⟩

theorem parsed_member {q : ℕ} (hq : q ≤ 15) (s : State) (i : ℕ) (dw : List Dword) (left : ℕ) (sat : List ℕ) :
    (parsed s q i dw left sat).member s.subject.m = (s.member s.subject.m).parse (parsedPacket q i dw left sat) := by
  obtain ⟨k, b, h⟩ := parsed_eq hq s i dw left sat
  rw [h, State.member_after, State.member_store, State.member_modMember]
  rfl

theorem parsed_cores {q : ℕ} (hq : q ≤ 15) (s : State) (i : ℕ) (dw : List Dword) (left : ℕ) (sat : List ℕ) : (parsed s q i dw left sat).cores = s.cores := by
  obtain ⟨k, b, h⟩ := parsed_eq hq s i dw left sat
  rw [h]
  rfl

theorem parsed_subject {q : ℕ} (hq : q ≤ 15) (s : State) (i : ℕ) (dw : List Dword) (left : ℕ) (sat : List ℕ) :
    (parsed s q i dw left sat).subject = s.subject := by
  obtain ⟨k, b, h⟩ := parsed_eq hq s i dw left sat
  rw [h]
  rfl

theorem parsed_agenda {q : ℕ} (hq : q ≤ 15) (s : State) (i : ℕ) (dw : List Dword) (left : ℕ) (sat : List ℕ) :
    (parsed s q i dw left sat).agenda = s.agenda ++ [⟨(parsed s q i dw left sat).clk + 1, .event .queueDoorbell { m := s.subject.m, a := q }⟩] := by
  obtain ⟨k, b, h⟩ := parsed_eq hq s i dw left sat
  rw [h]
  rfl

theorem parsed_vd {q : ℕ} (hq : q ≤ 15) (s : State) (i : ℕ) (dw : List Dword) (left : ℕ) (sat : List ℕ) (n : ℕ) :
    ((parsed s q i dw left sat).vd n).timeless = (s.vd n).timeless := by
  obtain ⟨k, b, h⟩ := parsed_eq hq s i dw left sat
  rw [h]
  exact ((Steady.refl s).notIdle _).vds n

/-- The packet of the event has been parsed. -/
theorem parsed_spec {s s0 : State} (hsub : s.subject = s0.subject) (hq : s0.subject.a ≤ 15) (dw : List Dword) (left : ℕ) (sat : List ℕ) :
    Parsed s0 (parsed s s0.subject.a s0.subject.b dw left sat) (dw.take 8) left sat := by
  have hm := parsed_member hq s s0.subject.b dw left sat
  rw [hsub] at hm
  refine ⟨⟨_, _, congrArg Member.packets hm, rfl, rfl, rfl, rfl, rfl⟩, ?_, ?_⟩
  · rw [queuePos, hm]
    exact Tab.get_put_same 0 _ s0.subject.a (s0.subject.b + 1)
  · rw [Coming, parsed_agenda hq, hsub]
    exact List.mem_append_right _ (.head _)

/-- What goes on with the packets and parse positions of the member kept, and nothing taken from the agenda. -/
theorem Parsed.mono {s t u : State} {dw : List Dword} {left : ℕ} {sat : List ℕ} (h : Parsed s t dw left sat) (hclk : u.clk = t.clk)
    (hpackets : (u.member s.subject.m).packets = (t.member s.subject.m).packets) (hparsed : (u.member s.subject.m).parsed = (t.member s.subject.m).parsed)
    (hagenda : t.agenda ⊆ u.agenda) : Parsed s u dw left sat := by
  obtain ⟨⟨l, p, hl, hp⟩, hpos, hagain⟩ := h
  refine ⟨⟨l, p, hpackets.trans hl, hp⟩, ?_, ?_⟩
  · rw [queuePos, hparsed]
    exact hpos
  · rw [Coming, hclk]
    exact hagenda hagain

theorem Parsed.steady {s t u : State} {dw : List Dword} {left : ℕ} {sat : List ℕ} (h : Parsed s t dw left sat) (hu : Steady t u) : Parsed s u dw left sat :=
  h.mono hu.clk (hu.packets _) (hu.parsed _) hu.agenda

theorem Parsed.after {s t : State} {dw : List Dword} {left : ℕ} {sat : List ℕ} (h : Parsed s t dw left sat) (n : ℕ) (i : Instr) (o : Subject) :
    Parsed s (t.after n i o) dw left sat :=
  h.mono rfl rfl rfl (List.subset_append_left _ _)

/-! ### Completion (R361) -/

theorem completes_completeNow {s t : State} (h : t.subject = s.subject) : Completes s (completeNow t) := by
  have hc := coming_after t 0 .packetCompletion { m := t.subject.m, a := packetKey t.subject.a t.subject.b }
  rw [h] at hc
  rw [completeNow, h]
  exact hc

theorem Parsed.completeNow {s t : State} {dw : List Dword} {left : ℕ} {sat : List ℕ} (h : Parsed s t dw left sat) : Parsed s (completeNow t) dw left sat :=
  h.after ..

theorem actOrWait_now (s : State) (dw : List Dword) (act : State → State) :
    actOrWait s dw [] act = completeNow (act (parsed s s.subject.a s.subject.b dw 0 [])) := rfl

theorem actOrWait_wait (s : State) (dw : List Dword) {wait : List ℕ} (h : wait ≠ []) (act : State → State) :
    actOrWait s dw wait act = parsed s s.subject.a s.subject.b dw 1 wait := by
  rw [actOrWait, if_neg]
  simpa using h

/-- No packet of the type is held, so none acts that has waited. -/
theorem heldAct_none {s : State} {ty : ℕ} (h : heldPacket s ty = none) (act : State → Packet → State) : heldAct s ty act = none := by
  rw [heldAct, h]

/-! ### NOP, BARRIER, DIM and STRIKE (R365) -/

section
variable {s s1 : State} {dw : List Dword}

theorem nopPacket_eq (hnext : nextPacket s 9 = some (dw, s1)) (hgood : commonBad 9 0 false dw s.subject.a = none) :
    exec .nopPacket s = .next (actOrWait s1 dw [] id) := by
  change execNopPacket s = _
  simp only [execNopPacket, hnext, hgood]

theorem barrierPacket_eq (hheld : heldPacket s 8 = none) (hnext : nextPacket s 8 = some (dw, s1)) (hgood : commonBad 8 (2 ^ 16) false dw s.subject.a = none) :
    exec .barrierPacket s =
      .next (actOrWait s1 dw (openPackets s1 s.subject.m (if bitN (dw.getD 0 0).toNat 16 then none else some s.subject.a)) id) := by
  change execBarrierPacket s = _
  simp only [execBarrierPacket, heldAct_none hheld, hnext, hgood]

theorem dimPacket_eq (hheld : heldPacket s 7 = none) (hnext : nextPacket s 7 = some (dw, s1)) (hgood : commonBad 7 0 false dw s.subject.a = none) :
    exec .dimPacket s = .next (actOrWait s1 dw (openPackets s1 s.subject.m none) fun s' => dimMember s' s.subject.m) := by
  change execDimPacket s = _
  simp only [execDimPacket, heldAct_none hheld, hnext, hgood]

/-- What the packet acts as when nothing holds it back: the VD its VA names is struck, as a release. -/
theorem strikePacket_eq {vd : ℕ} (hheld : heldPacket s 6 = none) (hnext : nextPacket s 6 = some (dw, s1)) (hsub : s1.subject = s.subject)
    (hgood : commonBad 6 (2 * 2 ^ 16) true dw s.subject.a = none) (hnow : bitN (dw.getD 0 0).toNat 17 = false)
    (htarget : ∀ u : State, (u.vd s.subject.m.vd).timeless = (s1.vd s.subject.m.vd).timeless → strikeTarget (u.vd s.subject.m.vd) (dw.getD 1 0).toNat = .ok vd)
    (hq : s.subject.a ≤ 15) :
    exec .strikePacket s = .next (completeNow (tick (strikeVd (parsed s1 s.subject.a s.subject.b dw 0 []) vd) s.subject.m)) := by
  have hwait : waitsFor s1 dw = [] := by rw [waitsFor, hnow]; rfl
  change execStrikePacket s = _
  simp only [execStrikePacket, heldAct_none hheld, hnext, hgood, htarget s1 rfl, hwait, actOrWait_now, hsub, htarget _ (parsed_vd hq ..)]

theorem allDimmed_one {s : State} {m : MemberId} (hn : (s.vd m.vd).params.n = 1) (hm : m.member = 0) (hd : (s.member m).dimmed = true) :
    allDimmed s m.vd = true := by
  obtain ⟨vd, i⟩ := m
  obtain rfl : i = 0 := hm
  rw [allDimmed, hn]
  simpa using hd

theorem dimMember_cases (s : State) (m : MemberId) :
    dimMember s m = (s.modMember m fun c => { c with dimmed := true }) ∨
      dimMember s m = (s.modMember m fun c => { c with dimmed := true }).after 0 .collapseRequest { a := m.vd, b := 1 } := by
  unfold dimMember
  dsimp only
  split
  · exact .inr rfl
  · exact .inl rfl

theorem Steady.dimMember {s t : State} (h : Steady s t) (m : MemberId) : Steady s (Machine.dimMember t m) := .ite (h.modMember.after ..) h.modMember

theorem dimMember_dimmed (s : State) (m : MemberId) : ((dimMember s m).member m).dimmed = true := by
  rcases dimMember_cases s m with h | h
  · rw [h, State.member_modMember]
  · rw [h, State.member_after, State.member_modMember]

/-- The last member of a running gang that dims asks for its collapse (R75). -/
theorem dimMember_collapse {s : State} {m : MemberId} (hn : (s.vd m.vd).params.n = 1) (hm : m.member = 0) (hrun : (s.vd m.vd).state = .running) :
    Coming (dimMember s m) (dimMember s m).clk .collapseRequest { a := m.vd, b := 1 } := by
  have hall : allDimmed (s.modMember m fun c => { c with dimmed := true }) m.vd = true :=
    allDimmed_one hn hm (congrArg Member.dimmed (State.member_modMember ..))
  have h : dimMember s m = (s.modMember m fun c => { c with dimmed := true }).after 0 .collapseRequest { a := m.vd, b := 1 } := if_pos ⟨hall, hrun⟩
  rw [h]
  exact coming_after ..

end

end Sys2Proof.Machine
end

section
/-!
PROOFS.  Packets that signal, and their completion (R361, R365); doorbells, polls, fences and launches (R359, R362, R366).
-/
namespace Sys2Proof.Machine

/-! ### SIGNAL (R365) -/

theorem sadrBad_of_commonBad {ty allow : ℕ} {va : Bool} {dw : List Dword} {q : ℕ} (h : commonBad ty allow va dw q = none) : sadrBad dw = false := by
  unfold commonBad at h
  split at h
  · cases h
  · split at h
    · cases h
    · next hbad => simp only [Bool.or_eq_true, not_or, Bool.not_eq_true] at hbad; exact hbad.2

/-- SADR of a SIGNAL is aligned. -/
theorem signal_aligned {dw : List Dword} (h : sadrBad dw = false) (hty : (dw.getD 0 0).toNat % 256 = 5) : (dw.getD 6 0).toNat % 8 = 0 := by
  have hsig : decide ((dw.getD 0 0).toNat % 256 = 5) = true := decide_eq_true hty
  simp only [sadrBad, hsig, Bool.or_true, Bool.true_and, Bool.or_eq_false_iff, decide_eq_false_iff_not, not_not] at h
  exact h.1.2

theorem strikeAt_congr {s t : State} {vd va : ℕ} (h : (t.vd vd).timeless = (s.vd vd).timeless) : strikeAt t vd va = strikeAt s vd va := by
  have hleaf : findLeaf (t.vd vd) va = findLeaf (s.vd vd) va := (congrArg (findLeaf · va) h :)
  rw [strikeAt, strikeAt, hleaf]

theorem vaLoc_congr {s t : State} {vd va : ℕ} {w : Bool} (h : (t.vd vd).timeless = (s.vd vd).timeless) (hdie : ∀ m, (t.member m).die = (s.member m).die)
    (hswitch : t.switches = s.switches) (hplatform : t.platform = s.platform) : vaLoc t vd va w = vaLoc s vd va w := by
  have hleaf : findLeaf (t.vd vd) va = findLeaf (s.vd vd) va := (congrArg (findLeaf · va) h :)
  have hvf : (t.vd vd).vf = (s.vd vd).vf := (congrArg VD.vf h :)
  have hplace : vaPlace t vd va w = vaPlace s vd va w := by simp only [vaPlace, hleaf, hvf, hdie]
  have hlost (l : Loc) : portLost t l = portLost s l := by simp only [portLost, State.switch, hswitch, hplatform]
  simp only [vaLoc, hplace, hlost]

theorem parsed_die {q : ℕ} (hq : q ≤ 15) (s : State) (i : ℕ) (dw : List Dword) (left : ℕ) (sat : List ℕ) (m : MemberId) :
    ((parsed s q i dw left sat).member m).die = (s.member m).die := by
  obtain ⟨k, b, h⟩ := parsed_eq hq s i dw left sat
  rw [h, State.member_after, State.member_store]
  exact (member_modMember_cases _ _ m _).elim (congrArg Member.die) (congrArg Member.die)

theorem parsed_vaLoc {q : ℕ} (hq : q ≤ 15) (s : State) (i : ℕ) (dw : List Dword) (left : ℕ) (sat : List ℕ) (vd va : ℕ) (w : Bool) :
    vaLoc (parsed s q i dw left sat) vd va w = vaLoc s vd va w := by
  refine vaLoc_congr (parsed_vd hq ..) (parsed_die hq s i dw left sat) ?_ ?_ <;>
  · obtain ⟨k, b, h⟩ := parsed_eq hq s i dw left sat
    rw [h]
    rfl

theorem Parsed.tick {s t : State} {dw : List Dword} {left : ℕ} {sat : List ℕ} (h : Parsed s t dw left sat) (m : MemberId) : Parsed s (tick t m) dw left sat :=
  h.mono rfl ((member_modMember_cases t m _ _).elim (congrArg Member.packets) (congrArg Member.packets))
    ((member_modMember_cases t m _ _).elim (congrArg Member.parsed) (congrArg Member.parsed)) (List.Subset.refl _)

theorem tick_clock (s : State) (m : MemberId) :
    Tab.get 0 ((tick s m).member m).clock m.member = (Tab.get 0 (s.member m).clock m.member + 1) % 2 ^ 32 := by
  rw [tick, State.member_modMember]
  exact Tab.get_put_same ..

theorem signalPacket_eq {s s1 : State} {dw : List Dword} (hheld : heldPacket s 5 = none) (hnext : nextPacket s 5 = some (dw, s1))
    (hgood : commonBad 5 (3 * 2 ^ 16) false dw s.subject.a = none) (hnow : bitN (dw.getD 0 0).toNat 17 = false) :
    exec .signalPacket s = .next (actOrWait s1 dw [] fun s' => signalAct s' s.subject.m s.subject.a dw) := by
  have hwait : waitsFor s1 dw = [] := by rw [waitsFor, hnow]; rfl
  change execSignalPacket s = _
  simp only [execSignalPacket, heldAct_none hheld, hnext, hgood, hwait]

/-- A SIGNAL that stores writes SVAL where SADR is mapped, as a release. -/
theorem signalAct_spec {s : State} {m : MemberId} (q : ℕ) {dw : List Dword} {l : Loc} (hstore : bitN (dw.getD 0 0).toNat 16 = false)
    (ha : (dw.getD 6 0).toNat % 8 = 0) (hs : strikeAt s m.vd (dw.getD 6 0).toNat = none) (hl : vaLoc s m.vd (dw.getD 6 0).toNat true = .ok l)
    (hoff : OffTables s m.vd l.key 8) : ∃ u, signalAct s m q dw = tick u m ∧ Outside s u ∧ memDword u.mem l.key = dw.getD 7 0 := by
  obtain ⟨u, hu, hout, hmem⟩ := vaWrite_dword_spec (v := (dw.getD 7 0).toNat) ha hs hl hoff
  refine ⟨u, ?_, hout, ?_⟩
  · simp only [signalAct, hstore, hu, Bool.false_eq_true, if_false]
  · rw [memDword, memNat, hmem, ofBytes_toBytes, Nat.mod_eq_of_lt (by omega)]
    exact BitVec.ofNat_toNat ..

theorem signalPacket_happens {s s1 : State} {dw : List Dword} {l : Loc} (hheld : heldPacket s 5 = none) (hnext : nextPacket s 5 = some (dw, s1))
    (hsub : s1.subject = s.subject) (hgood : commonBad 5 (3 * 2 ^ 16) false dw s.subject.a = none) (hq : s.subject.a ≤ 15) (hlen : dw.length = 8)
    (hty : (dw.getD 0 0).toNat % 256 = 5) (hstore : bitN (dw.getD 0 0).toNat 16 = false) (hnow : bitN (dw.getD 0 0).toNat 17 = false)
    (hs : strikeAt s1 s.subject.m.vd (dw.getD 6 0).toNat = none) (hl : vaLoc s1 s.subject.m.vd (dw.getD 6 0).toNat true = .ok l)
    (hoff : OffTables s1 s.subject.m.vd l.key 8) :
    Happens .signalPacket s fun t => t.cores = s1.cores ∧ Parsed s t dw 0 [] ∧ Completes s t ∧ memDword t.mem l.key = dw.getD 7 0 ∧
      Tab.get 0 (t.member s.subject.m).clock s.subject.m.member = (Tab.get 0 (s1.member s.subject.m).clock s.subject.m.member + 1) % 2 ^ 32 := by
  have hp := parsed_spec hsub hq dw 0 []
  rw [List.take_of_length_le hlen.le] at hp
  obtain ⟨u, hact, hout, hmem⟩ := signalAct_spec s.subject.a hstore (signal_aligned (sadrBad_of_commonBad hgood) hty)
    ((strikeAt_congr (parsed_vd hq s1 s.subject.b dw 0 [] s.subject.m.vd)).trans hs) ((parsed_vaLoc hq s1 s.subject.b dw 0 [] ..).trans hl)
    fun p hp => hoff p ((congrArg VD.tables (parsed_vd hq s1 s.subject.b dw 0 [] s.subject.m.vd) :) ▸ hp)
  refine ⟨completeNow (tick u s.subject.m), ?_, ?_, ((hp.steady hout.1).tick _).completeNow, ?_, hmem, ?_⟩
  · rw [signalPacket_eq hheld hnext hgood hnow, actOrWait_now, hsub, hact]
  · exact hout.1.cores.trans (parsed_cores hq ..)
  · exact completes_completeNow (hout.1.subject.trans ((parsed_subject hq ..).trans hsub))
  · have hm := parsed_member hq s1 s.subject.b dw 0 []
    rw [hsub] at hm
    refine (tick_clock u s.subject.m).trans ?_
    rw [hout.1.clock, hm]
    rfl

/-! ### Completion (R361) -/

/-- What stands when a packet leaves the list, before those that waited for it are asked. -/
def leftList (s : State) (m : MemberId) (key : ℕ) : State :=
  (s.modMember m fun c => { c with packets := c.packets.filter fun p => decide (p.key ≠ key) }).modMember m fun c =>
    { c with packets := c.packets.map fun p => if p.type = 4 then p else { p with sat := p.sat.filter fun k => decide (k ≠ key) } }

theorem noteIdle_cases (s : State) (vd : ℕ) :
    noteIdle s vd = s ∨ ∃ n, noteIdle s vd = (s.modVd vd fun v => { v with idleSince := some s.clk }).after n .idleTimeout { a := vd, b := s.clk } := by
  unfold noteIdle
  dsimp only
  split
  · exact .inl rfl
  · split
    · exact .inr ⟨_, rfl⟩
    · exact .inl rfl

theorem Steady.noteIdle {s t : State} (h : Steady s t) (vd : ℕ) : Steady s (Machine.noteIdle t vd) := by
  rcases noteIdle_cases t vd with e | ⟨n, e⟩ <;> rw [e]
  · exact h
  · exact (h.idleSince ..).after ..

theorem quiet_noteIdle (s : State) (vd : ℕ) : Quiet s (noteIdle s vd) := by
  rcases noteIdle_cases s vd with e | ⟨n, e⟩ <;> rw [e]
  · exact .refl s
  · exact ⟨rfl, rfl, rfl, rfl, rfl⟩

/-- Beside the list, only events are asked for, and the idle timer may start. -/
theorem packetGone_spec (s : State) (m : MemberId) (key : ℕ) :
    Steady (leftList s m key) (packetGone s m key) ∧ (packetGone s m key).mem = s.mem := by
  unfold packetGone
  extract_lets s1 waiters s2 s3
  have hs3 : Steady (leftList s m key) s3 ∧ Quiet (leftList s m key) s3 := by
    refine ⟨.foldl (.refl _) (fun u p => ?_) _, Quiet.foldl (fun u p => ?_) _ _⟩
    · split
      · split
        · exact (Steady.refl u).after ..
        · exact .refl u
      · exact .refl u
    · split
      · split
        · exact ⟨rfl, rfl, rfl, rfl, rfl⟩
        · exact .refl u
      · exact .refl u
  refine ⟨.noteIdle (hs3.1.foldl (fun u q => .ite ((Steady.refl u).after ..) (.refl u)) _) _, ?_⟩
  refine (quiet_noteIdle _ _).mem.trans ((Quiet.foldl (fun u q => ?_) _ _).mem.trans hs3.2.mem)
  split
  · exact ⟨rfl, rfl, rfl, rfl, rfl⟩
  · exact .refl u

theorem packetGone_packets (s : State) (m : MemberId) (key : ℕ) : ∀ x ∈ ((packetGone s m key).member m).packets, x.key ≠ key := by
  rw [(packetGone_spec s m key).1.packets, leftList, State.member_modMember, State.member_modMember]
  intro x hx
  obtain ⟨y, hy, rfl⟩ := List.mem_map.mp hx
  have hkey : y.key ≠ key := of_decide_eq_true (List.mem_filter.mp hy).2
  split
  · exact hkey
  · exact hkey

theorem packetCompletion_eq {s : State} {p : Packet} (hb : s.subject.b = 0)
    (hp : (s.member s.subject.m).packets.find? (fun p => decide (p.key = s.subject.a)) = some p) (hgw : p.type = 1 → bitN (p.dwn 0) 16 = false) :
    exec .packetCompletion s = .next (packetGone (packetSignal s s.subject.m p) s.subject.m s.subject.a) := by
  have hnot : (decide (p.type = 1) && bitN (p.dwn 0) 16) = false := by
    by_cases h : p.type = 1
    · rw [hgw h, Bool.and_false]
    · rw [decide_eq_false h, Bool.false_and]
  change execPacketCompletion s = _
  simp only [execPacketCompletion, hb, hp, hnot]
  simp

theorem packetSignal_spec {s : State} {m : MemberId} {p : Packet} {l : Loc} (hsig : bitN (p.dwn 0) 8 = true) (ha : p.dwn 6 % 8 = 0)
    (hs : strikeAt s m.vd (p.dwn 6) = none) (hl : vaLoc s m.vd (p.dwn 6) true = .ok l) (hoff : OffTables s m.vd l.key 8) :
    (packetSignal s m p).cores = s.cores ∧ memNat (packetSignal s m p).mem l.key 8 = if p.aborted then 0xFFFFFFFFFFFFFFFE else p.dwn 7 := by
  obtain ⟨u, hu, hout, hmem⟩ := vaWrite_dword_spec (v := if p.aborted then Config.aborted else p.dwn 7) ha hs hl hoff
  have heq : packetSignal s m p = tick u m := by simp only [packetSignal, hsig, if_true, hu]
  have hlt : (if p.aborted then Config.aborted else p.dwn 7) < 256 ^ 8 := by
    split
    · decide
    · exact (p.dw.getD 7 0).isLt
  rw [heq]
  refine ⟨hout.1.cores, ?_⟩
  change memNat u.mem l.key 8 = _
  rw [memNat, hmem, ofBytes_toBytes, Nat.mod_eq_of_lt hlt]
  rfl

/-! ### Doorbells and polls (R359) -/

theorem queueDoorbell_eq {s : State} (hparses : parses s s.subject.m = true) (hq : s.subject.a < 16) :
    exec .queueDoorbell s = .next (lookAt s s.subject.m s.subject.a) := by
  change execQueueDoorbell s = _
  rw [execQueueDoorbell]
  exact if_pos ⟨hparses, hq⟩

theorem lookAt_parse {s : State} {m : MemberId} {q : ℕ} {bytes : List Byte} {s1 : State} {e : Instr} (hq : q < 15) (hinit : initFirst s m.vd = false)
    (hcan : canParse s m q = true) (hread : vaRead s m (packetVa s m q (queuePos s m q)) 64 = .ok (bytes, s1))
    (he : packetEvent (bytes.headD 0).toNat = some e) :
    lookAt s m q = s1.draw.after (Config.freeDelay s1.fresh) e { m := m, a := q, b := queuePos s m q } := by
  have hcan' := hcan
  simp only [canParse, Bool.and_eq_true, Option.isNone_iff_eq_none] at hcan'
  obtain ⟨⟨⟨⟨hparses, hen⟩, hbad⟩, -⟩, -⟩ := hcan'
  have hne : q ≠ 15 := by omega
  simp only [lookAt, hparses, hinit, hne, if_false, hen, hbad, hcan, hread, he, Bool.not_true, Bool.or_self, Bool.false_eq_true]

theorem lookAt_bad {s : State} {m : MemberId} {q r : ℕ} (hq : q < 15) (hinit : initFirst s m.vd = false) (hparses : parses s m = true)
    (hen : descEn s m q = true) (hbad : descBad s m q = some r) : lookAt s m q = stopQueue s m q (packetVa s m q (queuePos s m q)) r := by
  have hne : q ≠ 15 := by omega
  simp only [lookAt, hparses, hinit, hne, if_false, hen, hbad, Bool.not_true, Bool.or_self, Bool.false_eq_true]

theorem Steady.checkOwn15 {s t : State} (h : Steady s t) (m : MemberId) : Steady s (Machine.checkOwn15 t m) := .ite ((h.store ..).report _) h

theorem Steady.lookAt {s t : State} (h : Steady s t) (m : MemberId) {q : ℕ} (hq : q ≤ 15) : Steady s (Machine.lookAt t m q) := by
  unfold Machine.lookAt
  split
  · exact h
  · extract_lets u
    have hu : Steady s u := .ite (h.checkOwn15 m) h
    split
    · exact hu
    · split
      · exact hu.stopQueue hq ..
      · split
        · exact hu
        · split
          · exact hu.stopQueue hq ..
          · next hread =>
            have hr := hu.trans (outside_vaRead hread).1
            split
            · exact hr.draw.after ..
            · exact hu.stopQueue hq ..

theorem queuePoll_happens {s : State} (h : parses s s.subject.m = true) :
    Happens .queuePoll s fun t => t.clk = s.clk ∧ t.cores = s.cores ∧ Coming t (s.clk + 85000) .queuePoll { m := s.subject.m } := by
  obtain ⟨u, hu⟩ : ∃ u, (List.range 16).foldl (fun s' q => lookAt s' s.subject.m q) s = u := ⟨_, rfl⟩
  have hfold : Steady s u := hu ▸ List.foldlRecOn _ _ (.refl s) fun t ht q hq => ht.lookAt _ (by have := List.mem_range.mp hq; omega)
  refine ⟨u.afterM (100 * Config.us) .queuePoll s.subject.m, ?_, hfold.clk, hfold.cores, ?_⟩
  · change execQueuePoll s = _
    simp only [execQueuePoll, h, hu]
    rfl
  · rw [← hfold.clk]
    exact coming_after u (100 * Config.us) ..

/-! ### Fences (R366) -/

theorem Steady.readCounter {s t : State} (h : Steady s t) {m : MemberId} {d0 : ℕ} {r : ℕ × State} (hr : Machine.readCounter t m d0 = .ok r) : Steady s r.2 := by
  unfold Machine.readCounter at hr
  dsimp only at hr
  split at hr
  · split at hr
    · cases hr
      exact h.drainRange ..
    · cases hr
  · cases hread : vaRead t m (bitsN d0 51 0) 8 with
    | error e => rw [hread] at hr; cases hr
    | ok x =>
      rw [hread] at hr
      cases hr
      exact h.trans (outside_vaRead hread).1

theorem Steady.fenceRead {s t : State} (h : Steady s t) (m : MemberId) (entries : List (Dword × Dword)) (sat : List ℕ) :
    Steady s (Machine.fenceRead m entries t sat).2.2 := by
  refine List.foldlRecOn (motive := fun r : List ℕ × Bool × State => Steady s r.2.2) _ _ h fun r hr i _ => ?_
  dsimp only
  split
  · exact hr
  · split
    · exact hr
    · next hcount =>
      have hc := hr.readCounter hcount
      split
      · exact hc
      · exact hc

/-- A fence that is not satisfied is looked at again within 2 µs. -/
theorem pollLater_within (s : State) (m : MemberId) (key : ℕ) :
    ∃ at_, (pollLater s m key).clk < at_ ∧ at_ ≤ (pollLater s m key).clk + 1700 ∧ Coming (pollLater s m key) at_ .fenceCounterPoll { m := m, a := key } :=
  comesWithin_after (s := pollLater s m key) (s' := s.draw) rfl _ (by decide) ..

/-- No counter of the fence is malformed. -/
theorem fence_wellFormed {es : List (Dword × Dword)}
    (h : ∀ e ∈ es, bitsN e.1.toNat 63 60 < 6 ∧ bitsN e.1.toNat 58 52 = 0 ∧ bitsN e.1.toNat 51 0 % 8 = 0) :
    (es.any fun e => decide (6 ≤ bitsN e.1.toNat 63 60) || decide (bitsN e.1.toNat 58 52 ≠ 0) || decide (bitsN e.1.toNat 51 0 % 8 ≠ 0)) = false := by
  refine List.any_eq_false.mpr fun e he => ?_
  obtain ⟨hcmp, hrsvd, halign⟩ := h e he
  simp [hcmp, hrsvd, halign]

theorem fencePacket_eq {s s1 s2 : State} {dw l : List Dword} (hnext : nextPacket s 4 = some (dw, s1))
    (hgood : commonBad 4 (0xFFFF * 2 ^ 48) true dw s.subject.a = none) (h1 : 1 ≤ bitsN (dw.getD 0 0).toNat 63 48) (h12 : bitsN (dw.getD 0 0).toNat 63 48 ≤ 12)
    (hread : vaDwords s1 s.subject.m (dw.getD 1 0).toNat (2 * bitsN (dw.getD 0 0).toNat 63 48) = .ok (l, s2))
    (hes : ∀ e ∈ pairs l, bitsN e.1.toNat 63 60 < 6 ∧ bitsN e.1.toNat 58 52 = 0 ∧ bitsN e.1.toNat 51 0 % 8 = 0)
    (hok : (fenceRead s.subject.m (pairs l) s2 []).2.1 = false) :
    exec .fencePacket s = .next (
      let r := fenceRead s.subject.m (pairs l) s2 []
      let t := parsed r.2.2 s.subject.a s.subject.b (dw ++ l) 1 r.1
      if r.1.length = bitsN (dw.getD 0 0).toNat 63 48 then completeNow t else pollLater t s.subject.m (packetKey s.subject.a s.subject.b)) := by
  change execFencePacket s = _
  simp only [execFencePacket, hnext, hgood, hread, fence_wellFormed hes, hok]
  rw [if_neg (by omega)]
  simp

theorem fencePacket_happens {s s1 s2 : State} {dw l : List Dword} (hnext : nextPacket s 4 = some (dw, s1))
    (hsub : (fenceRead s.subject.m (pairs l) s2 []).2.2.subject = s.subject)
    (hgood : commonBad 4 (0xFFFF * 2 ^ 48) true dw s.subject.a = none) (h1 : 1 ≤ bitsN (dw.getD 0 0).toNat 63 48) (h12 : bitsN (dw.getD 0 0).toNat 63 48 ≤ 12)
    (hq : s.subject.a ≤ 15) (hlen : dw.length = 8)
    (hread : vaDwords s1 s.subject.m (dw.getD 1 0).toNat (2 * bitsN (dw.getD 0 0).toNat 63 48) = .ok (l, s2))
    (hes : ∀ e ∈ pairs l, bitsN e.1.toNat 63 60 < 6 ∧ bitsN e.1.toNat 58 52 = 0 ∧ bitsN e.1.toNat 51 0 % 8 = 0)
    (hok : (fenceRead s.subject.m (pairs l) s2 []).2.1 = false) :
    let r := fenceRead s.subject.m (pairs l) s2 []
    Happens .fencePacket s fun t => t.cores = s.cores ∧ Parsed s t dw 1 r.1 ∧
      (r.1.length = bitsN (dw.getD 0 0).toNat 63 48 → Completes s t) ∧
      (r.1.length ≠ bitsN (dw.getD 0 0).toNat 63 48 →
        ∃ at_, t.clk < at_ ∧ at_ ≤ t.clk + 1700 ∧ Coming t at_ .fenceCounterPoll { m := s.subject.m, a := s.subject.a * 2 ^ 64 + s.subject.b }) := by
  intro r
  have hp := parsed_spec hsub hq (dw ++ l) 1 r.1
  rw [List.take_left' hlen] at hp
  have hcores : (parsed r.2.2 s.subject.a s.subject.b (dw ++ l) 1 r.1).cores = s.cores := by
    rw [parsed_cores hq]
    exact (((outside_nextPacket hnext).1.trans (outside_vaDwords hread).1).fenceRead ..).cores
  refine ⟨_, fencePacket_eq hnext hgood h1 h12 hread hes hok, ?_⟩
  by_cases hall : r.1.length = bitsN (dw.getD 0 0).toNat 63 48
  · rw [if_pos hall]
    exact ⟨hcores, hp.completeNow, fun _ => completes_completeNow ((parsed_subject hq ..).trans hsub), fun hne => absurd hall hne⟩
  · rw [if_neg hall]
    exact ⟨hcores, hp.mono rfl rfl rfl (List.subset_append_left _ _), fun h => absurd h hall, fun _ => pollLater_within ..⟩

theorem fenceCounterPoll_happens {s : State} {p : Packet}
    (hp : (s.member s.subject.m).packets.find? (fun p => decide (p.key = s.subject.a ∧ p.type = 4)) = some p) (hparses : parses s s.subject.m = true) :
    let m := s.subject.m
    let r := fenceRead m (pairs (p.dw.drop 8)) s p.sat
    Happens .fenceCounterPoll s fun t => t.mem = r.2.2.mem ∧ t.cores = r.2.2.cores ∧ { p with sat := r.1 } ∈ (t.member m).packets ∧
      (r.1.length = (pairs (p.dw.drop 8)).length → Coming t t.clk .packetCompletion { m := m, a := p.key }) ∧
      (r.1.length ≠ (pairs (p.dw.drop 8)).length →
        ∃ at_, t.clk < at_ ∧ at_ ≤ t.clk + 1700 ∧ Coming t at_ .fenceCounterPoll { m := m, a := p.key }) := by
  intro m r
  let u := r.2.2.modMember m fun c => { c with packets := c.packets.map fun x => if x = p then { x with sat := r.1 } else x }
  have hmem : { p with sat := r.1 } ∈ (u.member m).packets := by
    rw [State.member_modMember]
    refine List.mem_map.mpr ⟨p, ?_, if_pos rfl⟩
    rw [((Steady.refl s).fenceRead m (pairs (p.dw.drop 8)) p.sat).packets]
    exact List.mem_of_find?_eq_some hp
  have heq : exec .fenceCounterPoll s =
      .next (if r.1.length = (pairs (p.dw.drop 8)).length then u.afterM 0 .packetCompletion m p.key else pollLater u m p.key) := by
    change execFenceCounterPoll s = _
    simp only [execFenceCounterPoll, hp, hparses]
    rfl
  refine ⟨_, heq, ?_⟩
  by_cases hall : r.1.length = (pairs (p.dw.drop 8)).length
  · rw [if_pos hall]
    exact ⟨rfl, rfl, hmem, fun _ => coming_after u 0 ..,  fun hne => absurd hall hne⟩
  · rw [if_neg hall]
    exact ⟨rfl, rfl, hmem, fun h => absurd h hall, fun _ => pollLater_within ..⟩

end Sys2Proof.Machine
end

section
/-!
PROOFS.  Launches and tasks reach cores: what a LAUNCH is read as, the placement of a pane (R31, R33) and the dispatcher's pop (R39, R215).
-/
namespace Sys2Proof.Machine

/-! ### LAUNCH (R362) -/

/-- The rectangle and the image of a LAUNCH are those its first dword gives. -/
theorem readLaunch_shape {s s2 : State} {m : MemberId} {q i : ℕ} {dw : List Dword} {l : Launch} (h : readLaunch s m q i dw = .ok (l, s2)) :
    let d0 := (dw.getD 0 0).toNat
    l.lw = 2 ^ bitsN d0 20 18 ∧ l.lh = 2 ^ bitsN d0 23 21 ∧ l.x0 = bitsN d0 27 24 ∧ l.y0 = bitsN d0 31 28 ∧ l.image.length = bitsN d0 42 32 + 1 := by
  unfold readLaunch at h
  dsimp only at h
  iterate 4
    split at h
    · cases h
  split at h
  · cases h
  · split at h
    · cases h
    · split at h
      · cases h
      · split at h
        · cases h
        · split at h
          · cases h
          · cases h
            exact ⟨rfl, rfl, rfl, rfl, by rw [List.length_map, List.length_range]⟩

theorem launchPacket_eq {s s1 s2 : State} {dw : List Dword} {l : Launch} (hnext : nextPacket s 1 = some (dw, s1))
    (hread : readLaunch s1 s.subject.m s.subject.a s.subject.b dw = .ok (l, s2)) :
    exec .launchPacket s = .next (((parsed s2 s.subject.a s.subject.b dw 1 []).modMember s.subject.m fun c =>
      { c with launches := c.launches ++ [l] }).draw.afterM (Config.freeDelay s2.fresh) .panePlacement s.subject.m) := by
  change execLaunchPacket s = _
  simp only [execLaunchPacket, hnext, hread]

theorem launchPacket_happens {s s1 s2 : State} {dw : List Dword} {l : Launch} (hnext : nextPacket s 1 = some (dw, s1)) (hq : s.subject.a ≤ 15)
    (hread : readLaunch s1 s.subject.m s.subject.a s.subject.b dw = .ok (l, s2)) (hlen : dw.length = 8) (hsub : s2.subject = s.subject) :
    Happens .launchPacket s fun t => t.cores = s2.cores ∧ Parsed s t dw 1 [] ∧
      (t.member s.subject.m).launches = (s2.member s.subject.m).launches ++ [l] ∧
      ∃ at_, t.clk ≤ at_ ∧ Coming t at_ .panePlacement { m := s.subject.m } := by
  have hp := parsed_spec hsub hq dw 1 []
  rw [List.take_of_length_le hlen.le] at hp
  have hm := parsed_member hq s2 s.subject.b dw 1 []
  rw [hsub] at hm
  refine ⟨_, launchPacket_eq hnext hread, parsed_cores hq .., hp.mono rfl ?_ ?_ (List.subset_append_left _ _), ?_, _, Nat.le_add_right _ _,
    coming_after (State.draw _) _ _ _⟩
  · rw [State.afterM_eq, State.member_after, State.member_draw, State.member_modMember]
  · rw [State.afterM_eq, State.member_after, State.member_draw, State.member_modMember]
  · rw [State.afterM_eq, State.member_after, State.member_draw, State.member_modMember, hm]
    rfl

theorem launchPacket_malformed {s s1 : State} {dw : List Dword} {r : ℕ} (hnext : nextPacket s 1 = some (dw, s1))
    (hread : readLaunch s1 s.subject.m s.subject.a s.subject.b dw = .error r) : exec .launchPacket s = .next (malformed s1 r) := by
  change execLaunchPacket s = _
  simp only [execLaunchPacket, hnext, hread]

/-! ### The cores of a pane (R33) -/

/-- Puts at 0 to n − 1, read back. -/
theorem get_foldl_put_range {α : Type} [DecidableEq α] (d : α) (f : ℕ → α) (t : Tab α) (n b : ℕ) :
    Tab.get d ((List.range n).foldl (fun t i => Tab.put d t i (f i)) t) b = if b < n then f b else Tab.get d t b := by
  induction n with
  | zero => simp
  | succ n ih =>
    rw [List.range_succ, List.foldl_append, List.foldl_cons, List.foldl_nil, Tab.get_put, ih]
    by_cases hb : b = n
    · subst hb
      simp
    · have : b < n + 1 ↔ b < n := by omega
      simp [hb, this]

/-- The same with the keys one up. -/
theorem get_foldl_put_succ {α : Type} [DecidableEq α] (d : α) (f : ℕ → α) (n b : ℕ) :
    Tab.get d ((List.range n).foldl (fun t i => Tab.put d t (i + 1) (f i)) []) b = if 1 ≤ b ∧ b ≤ n then f (b - 1) else d := by
  induction n with
  | zero =>
    rw [if_neg (by omega)]
    rfl
  | succ n ih =>
    rw [List.range_succ, List.foldl_append, List.foldl_cons, List.foldl_nil, Tab.get_put, ih]
    by_cases hb : b = n + 1
    · subst hb
      simp
    · have : 1 ≤ b ∧ b ≤ n + 1 ↔ 1 ≤ b ∧ b ≤ n := by omega
      simp [hb, this]

/-- The image of a launch put into IMEM. -/
def imaged (l : Launch) (c : Core) : Core :=
  (List.range l.image.length).foldl (fun c b =>
    { c with imem := Tab.put 0 c.imem b (l.image.getD b 0), imemPoison := Tab.put false c.imemPoison b false }) c

theorem imaged_eq (l : Launch) (c : Core) : ∃ p, imaged l c =
    { c with imem := (List.range l.image.length).foldl (fun t b => Tab.put 0 t b (l.image.getD b 0)) c.imem, imemPoison := p } := by
  unfold imaged
  induction List.range l.image.length using List.reverseRecOn with
  | nil => exact ⟨c.imemPoison, rfl⟩
  | append_singleton r b ih =>
    obtain ⟨p, hp⟩ := ih
    exact ⟨_, by rw [List.foldl_append, List.foldl_append, hp]; rfl⟩

/-- What a launch leaves of a core. -/
structure PaneKeeps (l : Launch) (c c' : Core) : Prop where
  frozen : c'.frozen = c.frozen
  views : c'.views = c.views
  ctab : c'.ctab = c.ctab
  tvec : c'.tvec = c.tvec
  trapen : c'.trapen = c.trapen
  tsave1 : c'.tsave1 = c.tsave1
  tsave2 : c'.tsave2 = c.tsave2
  bank1 : c'.bank1 = c.bank1
  bank2 : c'.bank2 = c.bank2
  rs : c'.rs = c.rs
  imem : ∀ b, l.image.length ≤ b → Tab.get 0 c'.imem b = Tab.get 0 c.imem b

theorem PaneKeeps.refl (l : Launch) (c : Core) : PaneKeeps l c c := ⟨rfl, rfl, rfl, rfl, rfl, rfl, rfl, rfl, rfl, rfl, fun _ _ => rfl⟩

theorem PaneKeeps.trans {l : Launch} {c c' c'' : Core} (h : PaneKeeps l c c') (h' : PaneKeeps l c' c'') : PaneKeeps l c c'' :=
  ⟨h'.frozen.trans h.frozen, h'.views.trans h.views, h'.ctab.trans h.ctab, h'.tvec.trans h.tvec, h'.trapen.trans h.trapen, h'.tsave1.trans h.tsave1,
    h'.tsave2.trans h.tsave2, h'.bank1.trans h.bank1, h'.bank2.trans h.bank2, h'.rs.trans h.rs, fun b hb => (h'.imem b hb).trans (h.imem b hb)⟩

/-- The core state at the release of a pane (R33). -/
structure Released (s : State) (l : Launch) (c c' : Core) : Prop extends PaneKeeps l c c' where
  run : c'.run = .running
  task : c'.task = none
  pc : c'.pc = 0
  tl : c'.tl = 0
  next : c'.next = s.clk - c.frozen
  x : ∀ n, c'.readX n = if 1 ≤ n ∧ n ≤ 8 then l.args.getD (n - 1) 0 else 0
  files : c'.p = [] ∧ c'.ofS = [] ∧ c'.ofV = [] ∧ c'.streams = [] ∧ c'.fifos = [] ∧ c'.cq = [] ∧ c'.tags = [] ∧ c'.hist0 = [] ∧ c'.hist1 = [] ∧ c'.hist2 = []
  control : c'.nest.active = false ∧ c'.rpa = 0 ∧ c'.rpseq = 0 ∧ c'.wdrawn = false ∧ c'.pane = paneWord l
  image : ∀ b < l.image.length, Tab.get 0 c'.imem b = l.image.getD b 0

/-- x0 reads 0, x1 to x8 hold the arguments, and the others 0. -/
theorem readX_paneCore (s : State) (l : Launch) (c : Core) (n : ℕ) : (paneCore s l c).readX n = if 1 ≤ n ∧ n ≤ 8 then l.args.getD (n - 1) 0 else 0 := by
  unfold Core.readX
  split
  · next h => rw [if_neg (by omega)]
  · exact get_foldl_put_succ 0 (fun i => l.args.getD i 0) 8 n

theorem released_paneCore (s : State) (l : Launch) (c : Core) : Released s l c (paneCore s l c) := by
  obtain ⟨p, hp⟩ := imaged_eq l c
  have himem (b : ℕ) : Tab.get 0 (paneCore s l c).imem b = if b < l.image.length then l.image.getD b 0 else Tab.get 0 c.imem b :=
    (congrArg (fun c : Core => Tab.get 0 c.imem b) hp).trans (get_foldl_put_range 0 (fun b => l.image.getD b 0) c.imem _ b)
  exact {
    frozen := (congrArg Core.frozen hp :), views := (congrArg Core.views hp :), ctab := (congrArg Core.ctab hp :), tvec := (congrArg Core.tvec hp :)
    trapen := (congrArg Core.trapen hp :), tsave1 := (congrArg Core.tsave1 hp :), tsave2 := (congrArg Core.tsave2 hp :)
    bank1 := (congrArg Core.bank1 hp :), bank2 := (congrArg Core.bank2 hp :), rs := (congrArg Core.rs hp :)
    imem := fun b hb => (himem b).trans (if_neg (by omega))
    run := rfl, task := rfl, pc := rfl, tl := rfl, next := (congrArg (fun c : Core => s.clk - c.frozen) hp :), x := readX_paneCore s l c
    files := ⟨rfl, rfl, rfl, rfl, rfl, rfl, rfl, rfl, rfl, rfl⟩, control := ⟨rfl, rfl, rfl, rfl, rfl⟩
    image := fun b hb => (himem b).trans (if_pos hb) }

theorem Released.of_keeps {s s' : State} {l : Launch} {c c' c'' : Core} (h : PaneKeeps l c c') (h' : Released s' l c' c'') (hclk : s'.clk = s.clk) :
    Released s l c c'' :=
  { h' with toPaneKeeps := h.trans h'.toPaneKeeps, next := by rw [h'.next, hclk, h.frozen] }

/-- The cores of a list are released one after another. -/
def releaseCores (d : ℕ) (l : Launch) (s : State) (cs : List ℕ) : State := cs.foldl (fun s i => s.modCore ⟨d, i⟩ (paneCore s l)) s

theorem releaseCores_eq (d : ℕ) (l : Launch) (s : State) (cs : List ℕ) : ∃ t, releaseCores d l s cs = { s with cores := t } :=
  List.foldlRecOn (motive := fun u : State => ∃ t, u = { s with cores := t }) cs _ ⟨s.cores, rfl⟩ fun _ ⟨_, h⟩ _ _ => h ▸ ⟨_, rfl⟩

theorem releaseCores_other {d : ℕ} {l : Launch} {cs : List ℕ} {k : CoreId} (h : ∀ j ∈ cs, coreKey ⟨d, j⟩ ≠ coreKey k) (s : State) :
    (releaseCores d l s cs).core k = s.core k :=
  List.foldlRecOn (motive := fun u : State => u.core k = s.core k) cs _ rfl fun _ hu j hj =>
    (State.core_modCore_other _ _ (h j hj).symm).trans hu

theorem releaseCores_keeps (d : ℕ) (l : Launch) (s : State) (cs : List ℕ) (k : CoreId) : PaneKeeps l (s.core k) ((releaseCores d l s cs).core k) := by
  refine List.foldlRecOn (motive := fun u : State => PaneKeeps l (s.core k) (u.core k)) cs _ (.refl ..) fun u hu j _ => ?_
  by_cases hk : coreKey k = coreKey ⟨d, j⟩
  · have hcore (v : State) : v.core k = v.core ⟨d, j⟩ := congrArg (Tab.get Core.reset v.cores) hk
    rw [hcore (u.modCore ..), State.core_modCore, ← hcore u]
    exact hu.trans (released_paneCore ..).toPaneKeeps
  · rw [State.core_modCore_other _ _ hk]
    exact hu

theorem releaseCores_released (d : ℕ) (l : Launch) (s : State) {cs : List ℕ} {i : ℕ} (hi : i ∈ cs) :
    Released s l (s.core ⟨d, i⟩) ((releaseCores d l s cs).core ⟨d, i⟩) := by
  induction cs using List.reverseRecOn with
  | nil => cases hi
  | append_singleton cs j ih =>
    obtain ⟨t, ht⟩ := releaseCores_eq d l s cs
    have hlast : releaseCores d l s (cs ++ [j]) = (releaseCores d l s cs).modCore ⟨d, j⟩ (paneCore (releaseCores d l s cs) l) := by
      rw [releaseCores, List.foldl_append]
      rfl
    rw [hlast]
    by_cases hij : i = j
    · rw [hij, State.core_modCore]
      exact .of_keeps (releaseCores_keeps d l s cs _) (released_paneCore ..) (by rw [ht])
    · rw [State.core_modCore_other _ _ (by simp only [coreKey]; omega)]
      exact ih ((List.mem_append.mp hi).resolve_right fun h => hij (List.mem_singleton.mp h))

/-! ### PANE_PLACEMENT (R31) -/

/-- Memory, cores and members are the same. -/
def SameUnits (s t : State) : Prop := t.mem = s.mem ∧ t.cores = s.cores ∧ t.members = s.members

theorem SameUnits.refl (s : State) : SameUnits s s := ⟨rfl, rfl, rfl⟩
theorem SameUnits.trans {s t u : State} (h : SameUnits s t) (h' : SameUnits t u) : SameUnits s u :=
  ⟨h'.1.trans h.1, h'.2.1.trans h.2.1, h'.2.2.trans h.2.2⟩
theorem SameUnits.ite {s t u : State} {p : Prop} [Decidable p] (ht : SameUnits s t) (hu : SameUnits s u) : SameUnits s (if p then t else u) := by
  split
  · exact ht
  · exact hu
theorem SameUnits.foldl {s t : State} {α : Type} {f : State → α → State} {l : List α} (h : SameUnits s t)
    (hf : ∀ u x, SameUnits u (f u x) := by exact fun _ _ => ⟨rfl, rfl, rfl⟩) : SameUnits s (l.foldl f t) :=
  h.trans (foldl_keeps refl trans hf l t)

theorem sameUnits_wakeDone (s : State) (vd : ℕ) : SameUnits s (wakeDone s vd) := by
  unfold wakeDone
  split
  · unfold homeCells
    split
    · exact .foldl ⟨rfl, rfl, rfl⟩
    · exact ⟨rfl, rfl, rfl⟩
  · exact .refl s

theorem sameUnits_parseAll (s : State) (vd : ℕ) : SameUnits s (parseAll s vd) := .foldl (.refl s) fun u _ => .foldl (.refl u)

/-- The start of a packet after a wake changes the VD, the gang controller and the agenda. -/
theorem sameUnits_noteStart (s : State) (m : MemberId) : SameUnits s (noteStart s m) := by
  unfold noteStart
  extract_lets v s1 s2 s3
  have h1 : SameUnits s s1 := sameUnits_wakeDone s m.vd
  have h2 : SameUnits s s2 := .ite (h1.trans (sameUnits_parseAll ..)) h1
  have h3 : SameUnits s s3 := .ite h2 h2
  split
  · exact .refl s
  · split
    · exact h3
    · exact h3

/-- The member once a launch of it is a pane. -/
def Member.place (l : Launch) (c : Member) : Member :=
  { c with launches := c.launches.filter (fun x => decide (x ≠ l)), panes := c.panes ++ [⟨l.packet, l.x0, l.y0, l.lw, l.lh, []⟩] }

/-- A launch without presets is placed: its cores are released, and it is a pane. -/
theorem placePane_eq {s : State} {m : MemberId} {l : Launch} (h : l.presets = []) :
    let u := noteStart ((releaseCores (s.member m).die l s (rectCores l.x0 l.y0 l.lw l.lh)).modMember m (Member.place l)) m
    placePane s m l = u ∨ placePane s m l = u.afterM 0 .panePlacement m := by
  intro u
  have heq : placePane s m l = if (u.member m).launches.isEmpty then u else u.afterM 0 .panePlacement m := by
    simp only [placePane, h, List.find?_nil, List.foldl_nil]
    rfl
  rw [heq]
  split
  · exact .inl rfl
  · exact .inr rfl

theorem placePane_spec {s : State} {m : MemberId} {l : Launch} (h : l.presets = []) :
    (placePane s m l).mem = s.mem ∧ (placePane s m l).cores = (releaseCores (s.member m).die l s (rectCores l.x0 l.y0 l.lw l.lh)).cores ∧
      (placePane s m l).member m = (s.member m).place l := by
  obtain ⟨cs, hcs⟩ := releaseCores_eq (s.member m).die l s (rectCores l.x0 l.y0 l.lw l.lh)
  have hunits : SameUnits (({ s with cores := cs } : State).modMember m (Member.place l)) (placePane s m l) := by
    rw [← hcs]
    rcases placePane_eq (s := s) (m := m) h with e | e <;> rw [e]
    · exact sameUnits_noteStart ..
    · exact sameUnits_noteStart ..
  obtain ⟨hmem, hcores, hmembers⟩ := hunits
  refine ⟨hmem, hcores.trans (by rw [hcs]; rfl), ?_⟩
  rw [State.member, hmembers]
  exact State.member_modMember ..

theorem panePlacement_eq {s : State} {l : Launch} (hparses : parses s s.subject.m = true)
    (hl : placeable s (s.member s.subject.m).die [] (s.member s.subject.m).launches = some l) :
    exec .panePlacement s = .next (placePane s s.subject.m l) := by
  change execPanePlacement s = _
  simp only [execPanePlacement, hparses, hl]
  simp

/-! ### TASK_DISPATCH (R39, R215) -/

/-- With one bank to take from, the dispatcher takes that one, relaxed or not (R39, R41). -/
theorem relaxedPick_one (r b : ℕ) (age : ℕ → ℕ) : relaxedPick r [b] age = b := by
  unfold relaxedPick
  dsimp only [List.filter]
  generalize decide (33 ≤ age b + [b].countP fun g => decide (age b ≤ age g)) = forced
  cases forced
  · rfl
  · rfl

theorem bankHeads_mem {s : State} {m : MemberId} {b h : ℕ} (hb : (b, h) ∈ bankHeads s m) : (Tab.get [] (s.member m).banks b).headD 0 = h := by
  obtain ⟨b', -, hb'⟩ := List.mem_filterMap.mp hb
  split at hb'
  · next h' t hbank =>
    split at hb'
    · split at hb'
      · cases hb'
        rw [hbank]
        rfl
      · cases hb'
    · cases hb'
  · cases hb'

/-- The member once the dispatcher has popped bank `b` at clk `clk`. -/
structure Popped (clk b : ℕ) (c c' : Member) : Prop where
  lastPop : c'.lastPop = clk + 1
  banks : Tab.get [] c'.banks b = (Tab.get [] c.banks b).tail

/-- What the pop does to the member: the LFSR steps when the order is relaxed (R41). -/
def popped (clk b r : ℕ) (c : Member) : Member :=
  { (if c.relaxed then { popBank c b [b] with lfsr := r } else popBank c b [b]) with lastPop := clk + 1 }

theorem popped_spec (clk b r : ℕ) (c : Member) : Popped clk b c (popped clk b r c) := by
  refine ⟨rfl, ?_⟩
  unfold popped
  split
  · exact Tab.get_put_same ..
  · exact Tab.get_put_same ..

theorem dispatch_one {s : State} {m : MemberId} {b h i : ℕ} {x : Task} (hctx : (s.die (s.member m).die).ctx = some m)
    (hpop : (s.member m).lastPop ≠ s.clk + 1) (hheads : bankHeads s m = [(b, h)]) (hx : (s.member m).task h = some x)
    (hfree : longestFree s (s.member m).die (heldByLaunch (s.member m)) = some i) :
    dispatch s m = some (askDispatch (startTask (s.modMember m (popped s.clk b (lfsrStep (s.member m).lfsr))) ⟨(s.member m).die, i⟩ m h x) m) := by
  have hpick : (if (s.member m).relaxed then relaxedPick (lfsrStep (s.member m).lfsr) [b] (Tab.get 0 (s.member m).ages) else [b].foldl max b) = b := by
    split
    · exact relaxedPick_one ..
    · simp
  have hhead : (Tab.get [] (s.member m).banks b).headD 0 = h := bankHeads_mem (hheads ▸ .head _)
  unfold dispatch
  dsimp only
  rw [if_neg (by simp [hpop, hctx])]
  simp only [hheads, List.map_cons, List.map_nil, hfree, hpick, hhead, hx]
  rfl

/-- The core of a task at its start or resume (R215). -/
theorem startTask_core (s : State) (k : CoreId) (m : MemberId) (h : ℕ) (x : Task) :
    let c := s.core k
    let c' := (startTask s k m h x).core k
    c'.run = .running ∧ c'.task = some h ∧ c'.tl = 0 ∧ c'.next = s.clk - c.frozen + 4 ∧ c'.pane = 0x80000000 ∧ c'.wdrawn = ctlWd x.ctl ∧
      c'.pc = (if x.resumed = false ∧ x.fired = some true then ctlApc x.ctl else ctlPc x.ctl) ∧
      c'.readX 1 = x.x1 ∧ c'.readX 2 = x.x2 ∧ c'.readX 3 = x.x3 ∧ c'.readX 4 = x.x4 ∧ (∀ n, n = 0 ∨ 4 < n → c'.readX n = c.readX n) ∧
      c'.p = c.p ∧ c'.streams = c.streams ∧ c'.views = c.views ∧ c'.rs = c.rs ∧ c'.imem = c.imem := by
  intro c c'
  have hc : c' = _ := State.core_modCore ..
  have hx (n : ℕ) : c'.readX n = if n = 0 then 0 else
      if n = 4 then x.x4 else if n = 3 then x.x3 else if n = 2 then x.x2 else if n = 1 then x.x1 else Tab.get 0 c.x n := by
    rw [hc]
    simp only [Core.readX, Core.writeX, OfNat.ofNat_ne_zero, one_ne_zero, if_false, Tab.get_put]
    rfl
  have hpc : c'.pc = if x.resumed = false ∧ x.fired = some true then ctlApc x.ctl else ctlPc x.ctl := by
    have hpc' : c'.pc = if x.resumed then ctlPc x.ctl else if x.fired = some true then ctlApc x.ctl else ctlPc x.ctl := by rw [hc]
    rw [hpc']
    cases x.resumed <;> simp
  refine ⟨hc ▸ rfl, hc ▸ rfl, hc ▸ rfl, hc ▸ rfl, hc ▸ rfl, hc ▸ rfl, hpc, hx 1, hx 2, hx 3, hx 4, fun n hn => ?_, hc ▸ rfl, hc ▸ rfl, hc ▸ rfl, hc ▸ rfl, hc ▸ rfl⟩
  rw [hx n, Core.readX]
  rcases hn with rfl | hn
  · rfl
  · rw [if_neg (show n ≠ 4 by omega), if_neg (show n ≠ 3 by omega), if_neg (show n ≠ 2 by omega), if_neg (show n ≠ 1 by omega)]

theorem startTask_member (s : State) (k : CoreId) (m : MemberId) (h : ℕ) (x : Task) :
    (startTask s k m h x).member m = (s.member m).setTask h (some { x with st := .running k.core }) :=
  (State.member_modCore ..).trans (State.member_modMember ..)

theorem askDispatch_cases (s : State) (m : MemberId) : askDispatch s m = s ∨ askDispatch s m = s.afterM 1 .taskDispatch m := by
  unfold askDispatch
  split
  · exact .inr rfl
  · exact .inl rfl

theorem taskDispatch_eq {s : State} {b h i : ℕ} {x : Task} (hstop : (s.die (s.member s.subject.m).die).stopped = false)
    (hctx : (s.die (s.member s.subject.m).die).ctx = some s.subject.m) (hrejoins : rejoins s s.subject.m = false)
    (hpop : (s.member s.subject.m).lastPop ≠ s.clk + 1) (hheads : bankHeads s s.subject.m = [(b, h)]) (hx : (s.member s.subject.m).task h = some x)
    (hfree : longestFree s (s.member s.subject.m).die (heldByLaunch (s.member s.subject.m)) = some i) :
    exec .taskDispatch s = .next (askDispatch (startTask (s.modMember s.subject.m (popped s.clk b (lfsrStep (s.member s.subject.m).lfsr)))
      ⟨(s.member s.subject.m).die, i⟩ s.subject.m h x) s.subject.m) := by
  change execTaskDispatch s = _
  simp only [execTaskDispatch, hstop, dispatchTurn, hrejoins, dispatch_one hctx hpop hheads hx hfree]
  simp

end Sys2Proof.Machine
end

section
/-!
PROOFS.  TASKS and COPY packets (R365): a task is admitted, a job is queued, and the packet is parsed.
-/
namespace Sys2Proof.Machine

/-! ### Admission (R214, R293) -/

theorem registerProducer_links (c : Member) (word pm : ℕ) (o : Owner) : (registerProducer c word pm o).1.links = c.links := by
  unfold registerProducer
  split
  · rfl
  · rfl

theorem registerProducer_work (c : Member) (word pm : ℕ) (o : Owner) :
    (registerProducer c word pm o).1.pool = c.pool ∧ (registerProducer c word pm o).1.jobs = c.jobs := by
  unfold registerProducer
  split
  · exact ⟨rfl, rfl⟩
  · exact ⟨rfl, rfl⟩

theorem lowestFree_none {α : Type} {t : Tab (Option α)} {n h : ℕ} (hf : lowestFree t n = some h) : Tab.get none t h = none :=
  Option.isNone_iff_eq_none.mp (List.find?_some (p := fun i => (Tab.get none t i).isNone) hf)

theorem Steady.takeId {s t : State} (h : Steady s t) (n : ℕ) : Steady s { t with nextId := n } :=
  h.of_eq rfl rfl rfl rfl rfl rfl rfl rfl (List.Subset.refl _)

theorem task_put {c c' : Member} {i : ℕ} {x : Task} (hpool : c'.pool = Tab.put none c.pool i (some x)) : (c'.task i).isSome = true := by
  rw [Member.task, hpool, Tab.get_put_same]
  rfl

theorem job_put {c c' : Member} {i : ℕ} {x : Job} (hjobs : c'.jobs = Tab.put none c.jobs i (some x)) : c'.job i = some x := by
  rw [Member.job, hjobs, Tab.get_put_same]

/-- A record is admitted to a free place of the pool. -/
theorem admitTask_spec {s : State} {m : MemberId} {h : ℕ} (hfree : lowestFree (s.member m).pool 4096 = some h) (r fp : List Dword) (packet : Option ℕ) (key : ℕ) :
    ∃ t, admitTask s m r fp packet key = (some h, t) ∧ Steady s t ∧ ((t.member m).task h).isSome = true := by
  have hfree' : lowestFree (s.member m).pool Config.poolSize = some h := hfree
  unfold admitTask
  split
  · next hnone => cases hnone.symm.trans hfree'
  · next h' hh =>
    cases hh.symm.trans hfree'
    extract_lets ctl d3 x s1 s2 s3
    have h1 : Steady s s1 := ((Steady.refl s).takeId _).modMember rfl (.put_task rfl rfl)
    have hx : ((s1.member m).task h).isSome = true := by
      rw [show s1.member m = _ from State.member_modMember ..]
      exact task_put rfl
    have h2 : Steady s1 s2 := (Steady.refl s1).foldl (fun u w => (Steady.refl u).sendDemand ..) _
    have h3 : Steady s2 s3 := by
      dsimp only [s3]
      split
      · next w _ =>
        obtain ⟨hpool, hjobs⟩ := registerProducer_work (s2.member m) w m.member (.task h)
        exact (Steady.refl s2).modMember (registerProducer_links (s2.member m) w m.member (.task h)) (.trans (.of_eq hpool hjobs) (.put_task rfl rfl))
      · exact .refl s2
    exact ⟨_, rfl, ((h1.trans h2).trans h3).settle m, (((h2.trans h3).settle m).work m).task h hx⟩

theorem Steady.setJob {s t : State} (h : Steady s t) {m : MemberId} {i : ℕ} {j x : Job} (hj : (t.member m).job i = some j) (hcard : x.card = j.card)
    (hpacket : x.packet = j.packet) : Steady s (t.modMember m fun c => c.setJob i (some x)) :=
  h.modMember rfl (.put_job (fun j' hj' => by cases hj.symm.trans hj'; exact ⟨hcard, hpacket⟩) rfl rfl)

/-- A job is queued in a free place of the job queue. -/
theorem startJob_spec {s : State} {m : MemberId} {h : ℕ} (hfree : lowestFree (s.member m).jobs 256 = some h) (card fp : List Dword) (o : JobOrigin) :
    Steady s (startJob s m card fp o).2 ∧ ∃ j, ((startJob s m card fp o).2.member m).job h = some j ∧ j.card = card ∧ j.packet = o.packet := by
  have hfree' : lowestFree (s.member m).jobs Config.jobSlots = some h := hfree
  unfold startJob
  split
  · next hnone => cases hnone.symm.trans hfree'
  · next h' hh =>
    cases hh.symm.trans hfree'
    extract_lets j s1 cm s2
    have hnew {x : Job} (j' : Job) (hj' : (s.member m).job h = some j') : x.card = j'.card ∧ x.packet = j'.packet := by
      cases (lowestFree_none hfree).symm.trans hj'
    have h1 : Steady s s1 := ((Steady.refl s).notIdle _).modMember rfl (.put_job hnew rfl rfl)
    have hj : (s1.member m).job h = some j := by
      rw [show s1.member m = _ from State.member_modMember ..]
      exact job_put rfl
    have h2 : Steady s1 s2 := by
      dsimp only [s2]
      split
      · next w _ =>
        obtain ⟨hpool, hjobs⟩ := registerProducer_work (s1.member cm) w m.member (.job h)
        have hreg := (Steady.refl s1).modMember (m := cm) (f := fun _ => (registerProducer (s1.member cm) w m.member (.job h)).1)
          (registerProducer_links (s1.member cm) w m.member (.job h)) (.of_eq hpool hjobs)
        obtain ⟨x, hx, hcard, hpacket⟩ := (hreg.work m).job h j hj
        exact hreg.setJob hx hcard.symm hpacket.symm
      · exact .refl s1
    exact ⟨(h1.trans h2).settle m, ((h2.settle m).work m).job h j hj⟩

/-! ### TASKS (R365) -/

theorem tasksPacket_empty {s s1 : State} {dw : List Dword} (hheld : heldPacket s 2 = none) (hnext : nextPacket s 2 = some (dw, s1))
    (hgood : commonBad 2 (0xFFFF * 2 ^ 48 + 3 * 2 ^ 16) true dw s.subject.a = none) (hn : bitsN (dw.getD 0 0).toNat 63 48 = 0) :
    exec .tasksPacket s = .next (malformed s1 4) := by
  change execTasksPacket s = _
  simp only [execTasksPacket, hheld, hnext, hgood, hn, true_or, if_true]

/-- The state once a TASKS packet of one record is on the list, before its record is admitted. -/
def spawnReady (s : State) (dw : List Dword) (relaxed : Bool → Bool) : State :=
  (parsed s s.subject.a s.subject.b dw 1 []).modMember s.subject.m fun c =>
    { c with partials := Tab.put 0 c.partials s.subject.a 1, relaxed := relaxed c.relaxed }

/-- The scheduling order that a TASKS packet sets. -/
def orderOf (d0 : ℕ) (old : Bool) : Bool := match bitsN d0 17 16 with | 1 => false | 2 => true | _ => old

theorem tasksPacket_one {s s1 s2 : State} {dw l : List Dword} {p : Packet} (hheld : heldPacket s 2 = none) (hnext : nextPacket s 2 = some (dw, s1))
    (hsub : s2.subject = s.subject) (hgood : commonBad 2 (0xFFFF * 2 ^ 48 + 3 * 2 ^ 16) true dw s.subject.a = none)
    (hn : bitsN (dw.getD 0 0).toNat 63 48 = 1) (hrel : bitsN (dw.getD 0 0).toNat 17 16 ≠ 3) (hva : (dw.getD 1 0).toNat % 64 = 0)
    (hread : vaDwords s1 s.subject.m (dw.getD 1 0).toNat 8 = .ok (l, s2)) (hl : l.length = 8)
    (hrec : recordBad s2 s.subject.m l (fpDwords s2 s.subject.m (l.getD 3 0)) = false)
    (hp : heldPacket (spawnReady s2 (dw ++ l) (orderOf (dw.getD 0 0).toNat)) 2 = some p) :
    exec .tasksPacket s = .next (spawnRest (spawnReady s2 (dw ++ l) (orderOf (dw.getD 0 0).toNat)) p) := by
  have hone : (records 1 l).any (fun r => recordBad s2 s.subject.m r (fpDwords s2 s.subject.m (r.getD 3 0))) = false := by
    simp only [records, List.any_cons, List.any_nil, Bool.or_false, List.take_of_length_le hl.le, hrec]
  have hfine : ¬((1 : ℕ) = 0 ∨ 4096 < 1 ∨ bitsN (dw.getD 0 0).toNat 17 16 = 3 ∨ (dw.getD 1 0).toNat % 64 ≠ 0) := by omega
  unfold spawnReady at hp ⊢
  rw [hsub] at hp ⊢
  change execTasksPacket s = _
  simp only [execTasksPacket, hheld, hnext, hgood, hn, if_neg hfine, Nat.mul_one, hread, hone, Bool.false_eq_true, if_false]
  split
  · next hp' =>
    cases hp'.symm.trans hp
    rfl
  · next hnone => cases hnone.symm.trans hp

/-- The packet just put last on the list is the one held, when none of its queue and index was there. -/
theorem heldPacket_last {s : State} {ty : ℕ} {l : List Packet} {p : Packet} (hl : (s.member s.subject.m).packets = l ++ [p])
    (hold : ∀ x ∈ l, ¬(x.q = s.subject.a ∧ x.index = s.subject.b)) (hp : p.q = s.subject.a ∧ p.index = s.subject.b ∧ p.type = ty) :
    heldPacket s ty = some p := by
  have hnone : l.find? (fun p => decide (p.q = s.subject.a ∧ p.index = s.subject.b ∧ p.type = ty)) = none :=
    List.find?_eq_none.mpr fun x hx h => hold x hx (by obtain ⟨hq, hi, -⟩ := of_decide_eq_true h; exact ⟨hq, hi⟩)
  rw [heldPacket, hl, List.find?_append, hnone]
  simp [hp]

theorem spawnRecords_one {m : MemberId} {key : ℕ} {r : List Dword} {s u : State} {h : ℕ}
    (hu : admitTask s m r (fpDwords s m (r.getD 3 0)) (some key) (parseKey s.clk) = (some h, u)) (i : ℕ) : spawnRecords m key [r] i s = (i + 1, u) := by
  rw [brecOn_cons (spawnRecords_eq m key)]
  unfold spawnRecords._f
  dsimp -zeta only
  rw [hu]
  dsimp only
  rw [spawnRecords_eq]

/-- A packet of one record whose turn has come is admitted whole. -/
theorem spawnRest_one {s : State} {p : Packet} {h : ℕ} (hn : bitsN (p.dwn 0) 63 48 = 1) (hpart : Tab.get 0 (s.member s.subject.m).partials p.q = 1)
    (hfree : lowestFree (s.member s.subject.m).pool 4096 = some h) :
    ∃ u, Steady s u ∧ ((u.member s.subject.m).task h).isSome = true ∧ spawnRest s p =
      (u.modMember s.subject.m fun c => { c with partials := Tab.put 0 c.partials p.q 0 }).after 1 .queueDoorbell { m := s.subject.m, a := p.q } := by
  obtain ⟨u, hu, hsteady, htask⟩ :=
    admitTask_spec hfree ((p.dw.drop 8).take 8) (fpDwords s s.subject.m (((p.dw.drop 8).take 8).getD 3 0)) (some p.key) (parseKey s.clk)
  refine ⟨u, hsteady, htask, ?_⟩
  simp only [spawnRest, hn, hpart, Nat.sub_self, records, List.drop_zero, spawnRecords_one hu 0, Nat.zero_add, if_true]

theorem spawnReady_member {s : State} (hq : s.subject.a ≤ 15) (dw : List Dword) (relaxed : Bool → Bool) :
    (spawnReady s dw relaxed).member s.subject.m = { (s.member s.subject.m).parse (parsedPacket s.subject.a s.subject.b dw 1 []) with
      partials := Tab.put 0 (s.member s.subject.m).partials s.subject.a 1, relaxed := relaxed (s.member s.subject.m).relaxed } := by
  rw [spawnReady, State.member_modMember, parsed_member hq]
  rfl

theorem spawnReady_subject {s : State} (hq : s.subject.a ≤ 15) (dw : List Dword) (relaxed : Bool → Bool) : (spawnReady s dw relaxed).subject = s.subject :=
  parsed_subject hq ..

/-- The TASKS packet that parsing has put on the list is held. -/
theorem heldPacket_spawnReady {s : State} (hq : s.subject.a ≤ 15) {dw : List Dword} (relaxed : Bool → Bool)
    (hold : ∀ x ∈ (s.member s.subject.m).packets, ¬(x.q = s.subject.a ∧ x.index = s.subject.b)) (hty : (dw.getD 0 0).toNat % 256 = 2) :
    heldPacket (spawnReady s dw relaxed) 2 = some (parsedPacket s.subject.a s.subject.b dw 1 []) := by
  refine heldPacket_last (l := (s.member s.subject.m).packets) ?_ ?_ ?_ <;> rw [spawnReady_subject hq]
  · rw [spawnReady_member hq]
    rfl
  · exact hold
  · exact ⟨rfl, rfl, hty⟩

/-- A parsed TASKS packet of one record spawns it. -/
theorem spawnReady_spawnRest {s : State} (hq : s.subject.a ≤ 15) {dw : List Dword} (relaxed : Bool → Bool) {h : ℕ} (hn : bitsN (dw.getD 0 0).toNat 63 48 = 1)
    (hfree : lowestFree (s.member s.subject.m).pool 4096 = some h) :
    let t := spawnRest (spawnReady s dw relaxed) (parsedPacket s.subject.a s.subject.b dw 1 [])
    t.cores = s.cores ∧ ((t.member s.subject.m).task h).isSome = true ∧ queuePos t s.subject.m s.subject.a = s.subject.b + 1 ∧
      ∃ p ∈ (t.member s.subject.m).packets, p.q = s.subject.a ∧ p.index = s.subject.b ∧ p.left = 1 := by
  have hm := spawnReady_member hq dw relaxed
  obtain ⟨u, hu, htask, ht⟩ := spawnRest_one (s := spawnReady s dw relaxed) (p := parsedPacket s.subject.a s.subject.b dw 1 []) (h := h) hn
    (by rw [spawnReady_subject hq, hm]; exact Tab.get_put_same 0 _ s.subject.a 1) (by rw [spawnReady_subject hq, hm]; exact hfree)
  rw [spawnReady_subject hq] at ht htask
  dsimp only
  rw [ht, queuePos, State.member_after, State.member_modMember]
  refine ⟨hu.cores.trans (parsed_cores hq ..), htask, ?_, parsedPacket s.subject.a s.subject.b dw 1 [], ?_, rfl, rfl, rfl⟩
  · dsimp only
    rw [hu.parsed, hm]
    exact Tab.get_put_same 0 (s.member s.subject.m).parsed s.subject.a (s.subject.b + 1)
  · dsimp only
    rw [hu.packets, hm]
    exact List.mem_append_right _ (.head _)

theorem tasksPacket_happens {s s1 s2 : State} {dw l : List Dword} {h : ℕ} (hheld : heldPacket s 2 = none) (hnext : nextPacket s 2 = some (dw, s1))
    (hsub : s2.subject = s.subject) (hgood : commonBad 2 (0xFFFF * 2 ^ 48 + 3 * 2 ^ 16) true dw s.subject.a = none)
    (hn : bitsN (dw.getD 0 0).toNat 63 48 = 1) (hrel : bitsN (dw.getD 0 0).toNat 17 16 ≠ 3) (hva : (dw.getD 1 0).toNat % 64 = 0)
    (hread : vaDwords s1 s.subject.m (dw.getD 1 0).toNat 8 = .ok (l, s2)) (hdw : dw.length = 8) (hl : l.length = 8) (hq : s.subject.a ≤ 15)
    (hrec : recordBad s2 s.subject.m l (fpDwords s2 s.subject.m (l.getD 3 0)) = false)
    (hold : ∀ x ∈ (s2.member s.subject.m).packets, ¬(x.q = s.subject.a ∧ x.index = s.subject.b)) (hty : (dw.getD 0 0).toNat % 256 = 2)
    (hfree : lowestFree (s2.member s.subject.m).pool 4096 = some h) :
    Happens .tasksPacket s fun t => t.cores = s2.cores ∧ ((t.member s.subject.m).task h).isSome = true ∧
      queuePos t s.subject.m s.subject.a = s.subject.b + 1 ∧
      ∃ p ∈ (t.member s.subject.m).packets, p.q = s.subject.a ∧ p.index = s.subject.b ∧ p.left = 1 := by
  have hfirst : (dw ++ l).getD 0 0 = dw.getD 0 0 := List.getD_append _ _ _ _ (by omega)
  rw [← hsub] at hold hfree hq ⊢
  rw [← hfirst] at hty
  exact ⟨_, tasksPacket_one hheld hnext hsub hgood hn hrel hva hread hl hrec (heldPacket_spawnReady hq _ hold hty),
    spawnReady_spawnRest hq _ (hfirst ▸ hn) hfree⟩

/-! ### COPY (R365) -/

/-- A COPY packet whose card can be queued, when its turn comes. -/
theorem copyPacket_eq {s s1 s2 : State} {dw card : List Dword} (hnext : nextPacket s 3 = some (dw, s1))
    (hgood : commonBad 3 0 true dw s.subject.a = none) (hva : (dw.getD 1 0).toNat % 64 = 0) (hread : vaDwords s1 s.subject.m (dw.getD 1 0).toNat 8 = .ok (card, s2))
    (hkind : cardKind card ≠ 3) (hcard : cardBad (cardKind card) card (fpDwords s2 s.subject.m (card.getD 3 0)) = false)
    (hep : cardEpBad (s2.vd s.subject.m.vd) card = false) (hmember : cardMember (s2.vd s.subject.m.vd).params.n card = none) :
    exec .copyPacket s = .next (match lowestFree (s2.member s.subject.m).jobs 256 with
      | none => s2.after 8 .copyPacket s.subject
      | some _ => (startJob (parsed s2 s.subject.a s.subject.b dw 1 []) s.subject.m card (fpDwords s2 s.subject.m (card.getD 3 0))
          (.auto (some (packetKey s.subject.a s.subject.b)) [] (parseKey s2.clk))).2) := by
  have hfine : (decide (cardKind card = 3) || cardBad (cardKind card) card (fpDwords s2 s.subject.m (card.getD 3 0)) || cardEpBad (s2.vd s.subject.m.vd) card ||
      (cardMember (s2.vd s.subject.m.vd).params.n card).isSome) = false := by
    rw [hcard, hep, hmember, decide_eq_false hkind]
    rfl
  change execCopyPacket s = _
  simp only [execCopyPacket, hnext, hgood, hread, hfine, hva, ne_eq, not_true_eq_false, if_false, Bool.false_eq_true]
  cases hfree : lowestFree (s2.member s.subject.m).jobs 256 with
  | none => simp only [show lowestFree (s2.member s.subject.m).jobs Config.jobSlots = none from hfree]
  | some h => simp only [show lowestFree (s2.member s.subject.m).jobs Config.jobSlots = some h from hfree]

theorem copyPacket_starts {s s2 : State} {dw card : List Dword} {h : ℕ} (hsub : s2.subject = s.subject) (hq : s.subject.a ≤ 15)
    (hfree : lowestFree (s2.member s.subject.m).jobs 256 = some h) (fp : List Dword) (key : ℕ) :
    let t := (startJob (parsed s2 s.subject.a s.subject.b dw 1 []) s.subject.m card fp (.auto (some (packetKey s.subject.a s.subject.b)) [] key)).2
    t.cores = s2.cores ∧ queuePos t s.subject.m s.subject.a = s.subject.b + 1 ∧
      ∃ j, (t.member s.subject.m).job h = some j ∧ j.card = card ∧ j.packet = some (s.subject.a * 2 ^ 64 + s.subject.b) := by
  have hm := parsed_member hq s2 s.subject.b dw 1 []
  rw [hsub] at hm
  obtain ⟨hsteady, hjob⟩ := startJob_spec (s := parsed s2 s.subject.a s.subject.b dw 1 []) (m := s.subject.m) (h := h) (by rw [hm]; exact hfree) card fp
    (.auto (some (packetKey s.subject.a s.subject.b)) [] key)
  exact ⟨hsteady.cores.trans (parsed_cores hq ..), ((parsed_spec hsub hq dw 1 []).steady hsteady).position, hjob⟩

end Sys2Proof.Machine
end

section
/-!
PROOFS.  O55 holds: each packet type as R361 gives it, completion, the placement of panes and the dispatch of tasks.
-/
namespace Sys2Proof.Machine

/-! ### Doorbells (R358, R359) -/

theorem queueDoorbell_parses {s s1 : State} {bytes : List Byte} {e : Instr} (hq : s.subject.a < 15) (hinit : initFirst s s.subject.m.vd = false)
    (hcan : canParse s s.subject.m s.subject.a = true)
    (hread : vaRead s s.subject.m (packetVa s s.subject.m s.subject.a (queuePos s s.subject.m s.subject.a)) 64 = .ok (bytes, s1))
    (he : packetEvent (bytes.headD 0).toNat = some e) :
    Happens .queueDoorbell s fun t => t.cores = s.cores ∧ t.members = s.members ∧
      ∃ at_, s1.clk ≤ at_ ∧ Coming t at_ e { m := s.subject.m, a := s.subject.a, b := queuePos s s.subject.m s.subject.a } := by
  have hparses : parses s s.subject.m = true := by
    simp only [canParse, Bool.and_eq_true] at hcan
    exact hcan.1.1.1.1
  obtain ⟨hsteady, hmembers⟩ := outside_vaRead hread
  refine ⟨_, (queueDoorbell_eq hparses (by omega)).trans (congrArg _ (lookAt_parse hq hinit hcan hread he)), hsteady.cores, hmembers, _,
    Nat.le_add_right .., coming_after s1.draw ..⟩

theorem queueDoorbell_stops {s : State} {r : ℕ} (hq : s.subject.a < 15) (hinit : initFirst s s.subject.m.vd = false) (hparses : parses s s.subject.m = true)
    (hen : descEn s s.subject.m s.subject.a = true) (hbad : descBad s s.subject.m s.subject.a = some r) :
    Happens .queueDoorbell s fun t => t.cores = s.cores ∧
      Stopped s t s.subject.a (packetVa s s.subject.m s.subject.a (queuePos s s.subject.m s.subject.a)) r :=
  ⟨_, (queueDoorbell_eq hparses (by omega)).trans (congrArg _ (lookAt_bad hq hinit hparses hen hbad)),
    ((Steady.refl s).stopQueue (by omega) ..).cores, stopQueue_stopped rfl (by omega) _ _⟩

/-! ### Packets that act at once (R365) -/

section
variable {s s1 : State} {dw : List Dword}

/-- A parsed packet of one entry stands on the list whole. -/
theorem parsed_whole (hsub : s1.subject = s.subject) (hq : s.subject.a ≤ 15) (hlen : dw.length = 8) (left : ℕ) (sat : List ℕ) :
    Parsed s (parsed s1 s.subject.a s.subject.b dw left sat) dw left sat := by
  have hp := parsed_spec hsub hq dw left sat
  rwa [List.take_of_length_le hlen.le] at hp

theorem strikePacket_happens {vd : ℕ} (hheld : heldPacket s 6 = none) (hnext : nextPacket s 6 = some (dw, s1)) (hsub : s1.subject = s.subject)
    (hgood : commonBad 6 (2 * 2 ^ 16) true dw s.subject.a = none) (hq : s.subject.a ≤ 15) (hlen : dw.length = 8) (hnow : bitN (dw.getD 0 0).toNat 17 = false)
    (htarget : strikeTarget (s.vd s.subject.m.vd) (dw.getD 1 0).toNat = .ok vd) :
    Happens .strikePacket s fun t => t.cores = s1.cores ∧ Parsed s t dw 0 [] ∧ Completes s t ∧ Coming t t.clk .strike { a := vd } := by
  have hvds := (outside_nextPacket hnext).1.vds s.subject.m.vd
  have htarget' (u : State) (hu : (u.vd s.subject.m.vd).timeless = (s1.vd s.subject.m.vd).timeless) :
      strikeTarget (u.vd s.subject.m.vd) (dw.getD 1 0).toNat = .ok vd :=
    (congrArg (strikeTarget · (dw.getD 1 0).toNat) (hu.trans hvds) :).trans htarget
  have hstrike : Steady (parsed s1 s.subject.a s.subject.b dw 0 []) (strikeVd (parsed s1 s.subject.a s.subject.b dw 0 []) vd) := (Steady.refl _).after ..
  exact ⟨_, strikePacket_eq hheld hnext hsub hgood hnow htarget' hq, parsed_cores hq ..,
    (((parsed_whole hsub hq hlen 0 []).steady hstrike).tick _).completeNow, completes_completeNow ((parsed_subject hq ..).trans hsub),
    List.mem_append_left _ (coming_after (parsed s1 s.subject.a s.subject.b dw 0 []) 0 .strike { a := vd })⟩

theorem dimPacket_happens (hheld : heldPacket s 7 = none) (hnext : nextPacket s 7 = some (dw, s1)) (hsub : s1.subject = s.subject)
    (hgood : commonBad 7 0 false dw s.subject.a = none) (hq : s.subject.a ≤ 15) (hlen : dw.length = 8) (hopen : openPackets s1 s.subject.m none = []) :
    Happens .dimPacket s fun t => t.cores = s1.cores ∧ Parsed s t dw 0 [] ∧ Completes s t ∧ (t.member s.subject.m).dimmed = true ∧
      ((s1.vd s.subject.m.vd).params.n = 1 → s.subject.m.member = 0 → (s1.vd s.subject.m.vd).state = .running →
        Coming t t.clk .collapseRequest { a := s.subject.m.vd, b := 1 }) := by
  have hvd := parsed_vd hq s1 s.subject.b dw 0 [] s.subject.m.vd
  have hdim : Steady (parsed s1 s.subject.a s.subject.b dw 0 []) (dimMember (parsed s1 s.subject.a s.subject.b dw 0 []) s.subject.m) := (Steady.refl _).dimMember _
  refine ⟨completeNow (dimMember (parsed s1 s.subject.a s.subject.b dw 0 []) s.subject.m), ?_, hdim.cores.trans (parsed_cores hq ..),
    ((parsed_whole hsub hq hlen 0 []).steady hdim).completeNow, completes_completeNow (hdim.subject.trans ((parsed_subject hq ..).trans hsub)),
    dimMember_dimmed .., fun hn hm hrun => List.mem_append_left _ (dimMember_collapse ?_ hm ?_)⟩
  · rw [dimPacket_eq hheld hnext hgood, hopen, actOrWait_now, hsub]
  · exact (congrArg (fun v : VD => v.params.n) hvd :).trans hn
  · exact (congrArg VD.state hvd :).trans hrun

theorem barrierPacket_happens (hheld : heldPacket s 8 = none) (hnext : nextPacket s 8 = some (dw, s1)) (hsub : s1.subject = s.subject)
    (hgood : commonBad 8 (2 ^ 16) false dw s.subject.a = none) (hq : s.subject.a ≤ 15) (hlen : dw.length = 8) :
    let wait := openPackets s1 s.subject.m (if bitN (dw.getD 0 0).toNat 16 then none else some s.subject.a)
    (wait = [] → Happens .barrierPacket s fun t => t.cores = s1.cores ∧ Parsed s t dw 0 [] ∧ Completes s t) ∧
      (wait ≠ [] → Happens .barrierPacket s fun t => t.cores = s1.cores ∧ Parsed s t dw 1 wait ∧
        t.agenda = s1.agenda ++ [⟨t.clk + 1, .event .queueDoorbell { m := s.subject.m, a := s.subject.a }⟩]) := by
  intro wait
  have hexec : exec .barrierPacket s = .next (actOrWait s1 dw wait id) := barrierPacket_eq hheld hnext hgood
  constructor
  · intro hwait
    rw [hwait, actOrWait_now, hsub] at hexec
    exact ⟨_, hexec, parsed_cores hq .., (parsed_whole hsub hq hlen 0 []).completeNow, completes_completeNow ((parsed_subject hq ..).trans hsub)⟩
  · intro hwait
    rw [actOrWait_wait _ _ hwait, hsub] at hexec
    refine ⟨_, hexec, parsed_cores hq .., parsed_whole hsub hq hlen 1 wait, ?_⟩
    rw [parsed_agenda hq, hsub]

theorem nopPacket_happens (hnext : nextPacket s 9 = some (dw, s1)) (hsub : s1.subject = s.subject) (hgood : commonBad 9 0 false dw s.subject.a = none)
    (hq : s.subject.a ≤ 15) (hlen : dw.length = 8) : Happens .nopPacket s fun t => t.cores = s1.cores ∧ Parsed s t dw 0 [] ∧ Completes s t := by
  refine ⟨completeNow (parsed s1 s.subject.a s.subject.b dw 0 []), ?_, parsed_cores hq .., (parsed_whole hsub hq hlen 0 []).completeNow,
    completes_completeNow ((parsed_subject hq ..).trans hsub)⟩
  rw [nopPacket_eq hnext hgood, actOrWait_now, hsub]
  rfl

end

/-- A malformed packet of a queue stops it. -/
theorem happens_malformed {i : Instr} {s s1 : State} {r : ℕ} (h : exec i s = .next (malformed s1 r)) (hsub : s1.subject = s.subject) (hq : s.subject.a ≤ 15) :
    Happens i s fun t => t.cores = s1.cores ∧ t.members = s1.members ∧
      Stopped s t s.subject.a (packetVa s1 s.subject.m s.subject.a s.subject.b) r :=
  ⟨_, h, malformed_spec hsub hq r⟩

theorem copyPacket_happens {s s1 s2 : State} {dw card : List Dword} (hnext : nextPacket s 3 = some (dw, s1)) (hsub : s2.subject = s.subject)
    (hgood : commonBad 3 0 true dw s.subject.a = none) (hva : (dw.getD 1 0).toNat % 64 = 0)
    (hread : vaDwords s1 s.subject.m (dw.getD 1 0).toNat 8 = .ok (card, s2)) (hq : s.subject.a ≤ 15) (hkind : cardKind card ≠ 3)
    (hcard : cardBad (cardKind card) card (fpDwords s2 s.subject.m (card.getD 3 0)) = false) (hep : cardEpBad (s2.vd s.subject.m.vd) card = false)
    (hmember : cardMember (s2.vd s.subject.m.vd).params.n card = none) :
    (∀ h, lowestFree (s2.member s.subject.m).jobs 256 = some h → Happens .copyPacket s fun t => t.cores = s2.cores ∧
      queuePos t s.subject.m s.subject.a = s.subject.b + 1 ∧
      ∃ j, (t.member s.subject.m).job h = some j ∧ j.card = card ∧ j.packet = some (s.subject.a * 2 ^ 64 + s.subject.b)) ∧
    (lowestFree (s2.member s.subject.m).jobs 256 = none → Happens .copyPacket s fun t => t.cores = s2.cores ∧ t.members = s2.members ∧
      Coming t (s2.clk + 8) .copyPacket s.subject) := by
  have hexec := copyPacket_eq hnext hgood hva hread hkind hcard hep hmember
  constructor
  · intro h hfree
    rw [hfree] at hexec
    exact ⟨_, hexec, copyPacket_starts hsub hq hfree ..⟩
  · intro hfull
    rw [hfull] at hexec
    exact ⟨_, hexec, rfl, rfl, coming_after ..⟩

theorem packetCompletion_happens {s : State} {p : Packet} {l : Loc} (hb : s.subject.b = 0)
    (hp : (s.member s.subject.m).packets.find? (fun p => decide (p.key = s.subject.a)) = some p) (hgw : p.type = 1 → bitN (p.dwn 0) 16 = false)
    (hsig : bitN (p.dwn 0) 8 = true) (ha : p.dwn 6 % 8 = 0) (hs : strikeAt s s.subject.m.vd (p.dwn 6) = none)
    (hl : vaLoc s s.subject.m.vd (p.dwn 6) true = .ok l) (hoff : OffTables s s.subject.m.vd l.key 8) :
    Happens .packetCompletion s fun t => t.cores = s.cores ∧ (∀ x ∈ (t.member s.subject.m).packets, x.key ≠ s.subject.a) ∧
      memNat t.mem l.key 8 = (if p.aborted then 0xFFFFFFFFFFFFFFFE else p.dwn 7) := by
  obtain ⟨hcores, hmem⟩ := packetSignal_spec hsig ha hs hl hoff
  obtain ⟨hgone, hsame⟩ := packetGone_spec (packetSignal s s.subject.m p) s.subject.m s.subject.a
  refine ⟨_, packetCompletion_eq hb hp hgw, hgone.cores.trans hcores, packetGone_packets _ _ _, ?_⟩
  rw [hsame, hmem]

/-! ### Panes and tasks (R31, R33, R39, R215) -/

theorem panePlacement_happens {s : State} {l : Launch} {i : ℕ} (hparses : parses s s.subject.m = true)
    (hl : placeable s (s.member s.subject.m).die [] (s.member s.subject.m).launches = some l) (hpre : l.presets = [])
    (hi : i ∈ rectCores l.x0 l.y0 l.lw l.lh) :
    let d := (s.member s.subject.m).die
    Happens .panePlacement s fun t => t.mem = s.mem ∧
      (∀ k, (∀ j ∈ rectCores l.x0 l.y0 l.lw l.lh, coreKey ⟨d, j⟩ ≠ coreKey k) → t.core k = s.core k) ∧
      ⟨l.packet, l.x0, l.y0, l.lw, l.lh, []⟩ ∈ (t.member s.subject.m).panes ∧ l ∉ (t.member s.subject.m).launches ∧
      Released s l (s.core ⟨d, i⟩) (t.core ⟨d, i⟩) := by
  intro d
  obtain ⟨hmem, hcores, hmember⟩ := placePane_spec (s := s) (m := s.subject.m) hpre
  have hcore (k : CoreId) : (placePane s s.subject.m l).core k = (releaseCores d l s (rectCores l.x0 l.y0 l.lw l.lh)).core k := by
    simp only [State.core, hcores, d]
  refine ⟨_, panePlacement_eq hparses hl, hmem, fun k hk => (hcore k).trans (releaseCores_other hk s), ?_, ?_, ?_⟩
  · rw [hmember]
    exact List.mem_append_right _ (.head _)
  · rw [hmember]
    exact fun h => absurd rfl (of_decide_eq_true (List.mem_filter.mp h).2)
  · rw [hcore]
    exact releaseCores_released d l s hi

theorem taskDispatch_happens {s : State} {b h i : ℕ} {x : Task} (hstop : (s.die (s.member s.subject.m).die).stopped = false)
    (hctx : (s.die (s.member s.subject.m).die).ctx = some s.subject.m) (hrejoins : rejoins s s.subject.m = false)
    (hpop : (s.member s.subject.m).lastPop ≠ s.clk + 1) (hheads : bankHeads s s.subject.m = [(b, h)]) (hx : (s.member s.subject.m).task h = some x)
    (hfree : longestFree s (s.member s.subject.m).die (heldByLaunch (s.member s.subject.m)) = some i) :
    let u := s.modMember s.subject.m (popped s.clk b (lfsrStep (s.member s.subject.m).lfsr))
    let k : CoreId := ⟨(s.member s.subject.m).die, i⟩
    Happens .taskDispatch s fun t => t.mem = s.mem ∧ (∀ k', coreKey k' ≠ coreKey k → t.core k' = s.core k') ∧
      Popped s.clk b (s.member s.subject.m) (t.member s.subject.m) ∧ t.core k = (startTask u k s.subject.m h x).core k := by
  intro u k
  have hstart : (startTask u k s.subject.m h x).mem = s.mem ∧
      (∀ k', coreKey k' ≠ coreKey k → (startTask u k s.subject.m h x).core k' = s.core k') ∧
      Popped s.clk b (s.member s.subject.m) ((startTask u k s.subject.m h x).member s.subject.m) := by
    refine ⟨rfl, fun k' hk => State.core_modCore_other _ _ hk, ?_⟩
    obtain ⟨hlast, hbanks⟩ := popped_spec s.clk b (lfsrStep (s.member s.subject.m).lfsr) (s.member s.subject.m)
    rw [startTask_member, State.member_modMember]
    exact ⟨hlast, hbanks⟩
  obtain ⟨hmem, hothers, hpopped⟩ := hstart
  refine ⟨_, taskDispatch_eq hstop hctx hrejoins hpop hheads hx hfree, ?_⟩
  rcases askDispatch_cases (startTask u k s.subject.m h x) s.subject.m with e | e <;> rw [e]
  · exact ⟨hmem, hothers, hpopped, rfl⟩
  · exact ⟨hmem, hothers, hpopped, rfl⟩

/-- Settles O55: clause by clause, from the lemma of each event. -/
theorem frontEndEvents : Obligations.FrontEndEvents := by
  unfold Obligations.FrontEndEvents
  refine ⟨?doorbell, ?bad, ?poll, ?launch, ?launchBad, ?tasks, ?tasksBad, ?copy, ?fence, ?fencePoll, ?signal, ?strike, ?dim, ?barrier, ?nop, ?completion,
    ?placement, ?dispatch⟩
  case doorbell => exact fun s bytes s1 e => queueDoorbell_parses
  case bad => exact fun s r => queueDoorbell_stops
  case poll => exact fun s => queuePoll_happens
  case launch =>
    intro s s1 s2 dw l o d0 hnext hq hread hlen hsub
    obtain ⟨t, ht, hcores, hparsed, hlaunches, hcomes⟩ := launchPacket_happens hnext hq hread hlen hsub
    exact ⟨t, ht, hcores, hparsed, hlaunches, hcomes, readLaunch_shape hread⟩
  case launchBad => exact fun s s1 dw r hnext hq hread hsub => happens_malformed (launchPacket_malformed hnext hread) hsub hq
  case tasks =>
    intro s s1 s2 dw l h o d0 va hheld hnext hsub hgood hn hrel hva hread hdw hl hq hrec hold hty hfree
    exact tasksPacket_happens hheld hnext hsub hgood hn hrel hva hread hdw hl hq.le hrec hold hty hfree
  case tasksBad =>
    intro s s1 dw o hheld hnext hsub hgood hq hn
    obtain ⟨t, ht, hcores, -, hstopped⟩ := happens_malformed (tasksPacket_empty hheld hnext hgood hn) hsub hq.le
    exact ⟨t, ht, hcores, hstopped⟩
  case copy =>
    intro s s1 s2 dw card o va hnext hsub hgood hva hread hq hkind hcard hep hmember
    exact copyPacket_happens hnext hsub hgood hva hread hq.le hkind hcard hep hmember
  case fence =>
    intro s s1 s2 dw l o n r hnext hsub hgood h1 h12 hq hlen hread hes hok
    exact fencePacket_happens hnext hsub hgood h1 h12 hq hlen hread hes hok
  case fencePoll => exact fun s p => fenceCounterPoll_happens
  case signal =>
    intro s s1 dw l o a hheld hnext hsub hgood hq hlen hty hstore hnow hs hl hoff
    exact signalPacket_happens hheld hnext hsub hgood hq.le hlen hty hstore hnow hs hl hoff
  case strike =>
    intro s s1 dw vd o hheld hnext hsub hgood hq hlen hnow htarget _
    exact strikePacket_happens hheld hnext hsub hgood hq.le hlen hnow htarget
  case dim => exact fun s s1 dw hheld hnext hsub hgood hq hlen hopen => dimPacket_happens hheld hnext hsub hgood hq.le hlen hopen
  case barrier => exact fun s s1 dw => barrierPacket_happens
  case nop => exact fun s s1 dw => nopPacket_happens
  case completion => exact fun s p l => packetCompletion_happens
  case placement =>
    intro s l i m d c hparses hl hpre hi _
    obtain ⟨t, ht, hmem, hothers, hpane, hgone, hrel⟩ := panePlacement_happens hparses hl hpre hi
    obtain ⟨hp, hofS, hofV, hstreams, hfifos, hcq, htags, hhist0, hhist1, hhist2⟩ := hrel.files
    obtain ⟨hnest, hrpa, hrpseq, hwdrawn, hpaneWord⟩ := hrel.control
    exact ⟨t, ht, hmem, hothers, hpane, hgone, hrel.run, hrel.task, hrel.pc, hrel.tl, hrel.next, hrel.x, hp, hofS, hofV, hstreams, hfifos, hcq, htags, hhist0,
      hhist1, hhist2, hnest, hrpa, hrpseq, hwdrawn, hpaneWord, hrel.image, hrel.imem, hrel.views, hrel.ctab, hrel.tvec, hrel.trapen, hrel.tsave1, hrel.tsave2,
      hrel.bank1, hrel.bank2, hrel.rs⟩
  case dispatch =>
    intro s b h i x m d c hstop hctx hrejoins hpop hheads hx hfree
    obtain ⟨t, ht, hmem, hothers, hpopped, hcore⟩ := taskDispatch_happens hstop hctx hrejoins hpop hheads hx hfree
    refine ⟨t, ht, hmem, hothers, hpopped.lastPop, hpopped.banks, ?_⟩
    rw [hcore]
    exact startTask_core ..

end Sys2Proof.Machine
end

section
/-!
PROOFS.  Packets leave their member (R322, R323, R326): what sending leaves as it is, and the packet that is on its way or waits for its window.
-/
namespace Sys2Proof.Machine

/-! ### What sending leaves -/

/-- A member without what it keeps of the packets it sends. -/
def Member.inward (c : Member) : Member := { c with outChain := [], retransmit := [], sent := 0, outWait := [] }

/-- A die without the round-robin of its packets on X. -/
def Die.turnless (d : Die) : Die := { d with xnext := 0 }

/-- Packets have left: memories and cores are the same, members but for what they send, dies but for their round-robin; what was to come is still to come. -/
structure Injects (s t : State) : Prop where
  quiet : Quiet s t
  subject : t.subject = s.subject
  vds : t.vds = s.vds
  dies : ∀ d, (t.die d).turnless = (s.die d).turnless
  members : ∀ m, (t.member m).inward = (s.member m).inward
  waits : ∀ m, (s.member m).outWait ⊆ (t.member m).outWait
  agenda : s.agenda ⊆ t.agenda

namespace Injects
variable {s t u : State}

theorem refl (s : State) : Injects s s := ⟨.refl s, rfl, rfl, fun _ => rfl, fun _ => rfl, fun _ => List.Subset.refl _, List.Subset.refl _⟩

theorem trans (h : Injects s t) (h' : Injects t u) : Injects s u :=
  ⟨h.quiet.trans h'.quiet, h'.subject.trans h.subject, h'.vds.trans h.vds, fun d => (h'.dies d).trans (h.dies d), fun m => (h'.members m).trans (h.members m),
    fun m => List.Subset.trans (h.waits m) (h'.waits m), List.Subset.trans h.agenda h'.agenda⟩

theorem due (h : Injects s t) (at_ : ℕ) (a : Act) : Injects s (t.due at_ a) :=
  h.trans ⟨⟨rfl, rfl, rfl, rfl, rfl⟩, rfl, rfl, fun _ => rfl, fun _ => rfl, fun _ => List.Subset.refl _, List.subset_append_left _ _⟩
theorem after (h : Injects s t) (n : ℕ) (i : Instr) (o : Subject) : Injects s (t.after n i o) := h.due _ _
theorem draw (h : Injects s t) : Injects s t.draw :=
  h.trans ⟨⟨rfl, rfl, rfl, rfl, rfl⟩, rfl, rfl, fun _ => rfl, fun _ => rfl, fun _ => List.Subset.refl _, List.Subset.refl _⟩
theorem mapAccesses (h : Injects s t) (f : Access → Access) : Injects s { t with accesses := t.accesses.map f } :=
  h.trans ⟨⟨rfl, rfl, rfl, rfl, rfl⟩, rfl, rfl, fun _ => rfl, fun _ => rfl, fun _ => List.Subset.refl _, List.Subset.refl _⟩

theorem modDie (h : Injects s t) {d : ℕ} {f : Die → Die} (hf : (f (t.die d)).turnless = (t.die d).turnless := by rfl) : Injects s (t.modDie d f) := by
  refine h.trans ⟨⟨rfl, rfl, rfl, rfl, rfl⟩, rfl, rfl, fun e => ?_, fun _ => rfl, fun _ => List.Subset.refl _, List.Subset.refl _⟩
  by_cases he : e = d
  · rw [he, State.die_modDie]
    exact hf
  · rw [State.die_modDie_other _ _ he]

theorem modMember (h : Injects s t) {m : MemberId} {f : Member → Member} (hf : ∀ c, (f c).inward = c.inward := by exact fun _ => rfl)
    (hw : ∀ c : Member, c.outWait ⊆ (f c).outWait := by exact fun _ => List.Subset.refl _) : Injects s (t.modMember m f) := by
  refine h.trans ⟨⟨rfl, rfl, rfl, rfl, rfl⟩, rfl, rfl, fun _ => rfl, fun n => ?_, fun n => ?_, List.Subset.refl _⟩
  · rcases member_modMember_cases t m n f with e | e <;> rw [e]
    exact hf _
  · rcases member_modMember_cases t m n f with e | e <;> rw [e]
    · exact hw _
    · exact List.Subset.refl _

theorem turnX (h : Injects s t) (p : Pkt) : Injects s (Machine.turnX t p) := by
  unfold Machine.turnX
  split
  · exact h.modDie
  · exact h

theorem sendAt (h : Injects s t) (n : ℕ) (p : Pkt) : Injects s (Machine.sendAt t n p) := (h.draw.turnX p).due ..

theorem launchPkt (h : Injects s t) (m : MemberId) (p : Pkt) (stamp : List (ℕ × ℕ)) : Injects s (Machine.launchPkt t m p stamp) :=
  ((h.modMember.mapAccesses _).sendAt ..).after ..

theorem flushFirst (m : MemberId) (p : Pkt) : ∀ (l : List ℕ) {t : State}, Injects s t → Injects s (Machine.flushFirst t m p l)
  | [], _, h => h
  | _ :: l, _, h => flushFirst m p l (h.launchPkt ..)

theorem sendPkt (h : Injects s t) (m : MemberId) (p : Pkt) : Injects s (Machine.sendPkt t m p) := by
  have hwait {p : Pkt} : Injects s (t.modMember m fun c => { c with outWait := c.outWait ++ [p] }) :=
    h.modMember (hw := by exact fun _ => List.subset_append_left _ _)
  unfold Machine.sendPkt
  extract_lets c v dst p'
  split
  · exact h.modMember.sendAt ..
  · split
    · split
      · exact hwait
      · exact h.modMember.sendAt ..
    · split
      · exact hwait
      · exact (Injects.flushFirst m p' _ h).launchPkt ..

/-! ### What it means of a member -/

theorem chainAt (h : Injects s t) (m : MemberId) (p : Pkt) : Machine.chainAt t m p = Machine.chainAt s m p :=
  (congrArg (fun c : Member => Tab.get Chain.start c.inChain (2 * p.smem + chainOf p.vc)) (h.members m) :)

theorem sends (h : Injects s t) {m : MemberId} {Q : Pkt → Prop} (hs : Sends s m Q) : Sends t m Q := by
  rcases hs with ⟨q, hq, hQ⟩ | ⟨at_, o, q, hat, hcoming, hq⟩
  · exact .inl ⟨q, h.waits m hq, hQ⟩
  · exact .inr ⟨at_, o, q, h.quiet.clk.symm ▸ hat, h.agenda hcoming, hq⟩

end Injects

/-! ### The packet that goes -/

/-- What a packet carries is not changed by its sending: type, destination, address, data and their error mark. -/
structure SameLoad (p q : Pkt) : Prop where
  type : q.type = p.type
  dmem : q.dmem = p.dmem
  rtag : q.rtag = p.rtag
  addr : q.addr = p.addr
  opx : q.opx = p.opx
  data : q.data = p.data
  poison : q.poison = p.poison

theorem sameLoad_payloadLen (p : Pkt) : SameLoad p (payloadLen p) := by
  unfold payloadLen
  split
  · exact ⟨rfl, rfl, rfl, rfl, rfl, rfl, rfl⟩
  · exact ⟨rfl, rfl, rfl, rfl, rfl, rfl, rfl⟩

theorem payloadLen_smem (p : Pkt) : (payloadLen p).smem = p.smem := by
  unfold payloadLen
  split
  · rfl
  · rfl

/-- A packet takes at least 10 clk to its first switch (R318). -/
theorem injectTime_pos (s : State) (p : Pkt) : 0 < injectTime s p := by
  unfold injectTime
  split
  · omega
  · omega

theorem coming_sendAt (s : State) (n : ℕ) (p : Pkt) :
    ∃ o : Subject, o.pkt = some p ∧ Coming (sendAt s n p) n .switchPacketForward o :=
  ⟨_, rfl, List.mem_append_right _ (.head _)⟩

theorem sends_launchPkt (s : State) (m : MemberId) (p : Pkt) (stamp : List (ℕ × ℕ)) :
    ∃ at_ o q, s.clk < at_ ∧ Coming (launchPkt s m p stamp) at_ .switchPacketForward o ∧ o.pkt = some q ∧ q.smem = p.smem ∧ SameLoad p q := by
  unfold launchPkt
  extract_lets c clock key ch n seq t t' src q newStamp s1 s2
  have htime : s.clk < t' := by
    have := injectTime_pos s p
    dsimp only [t', t]
    split <;> omega
  obtain ⟨o, ho, hcoming⟩ := coming_sendAt s2 t' q
  obtain ⟨htype, hdmem, hrtag, haddr, hopx, hdata, hpoison⟩ := sameLoad_payloadLen p
  exact ⟨t', o, q, htime, hcoming.after .., ho, payloadLen_smem p, htype, hdmem, hrtag, haddr, hopx, hdata, hpoison⟩

/-- A packet of a chain waits for its window or is on its way. -/
theorem sends_sendPkt (s : State) (m : MemberId) {p : Pkt} (hack : p.type ≠ 0x06) (hred : p.type ≠ 0x0B) {Q : Pkt → Prop} (hQ : ∀ q, SameLoad p q → Q q) :
    Sends (sendPkt s m p) m Q := by
  unfold sendPkt
  extract_lets c v dst p' ackKey ackCh ackAt reduced key ch ent bases
  rw [if_neg hack, if_neg hred]
  split
  · refine .inl ⟨p', ?_, hQ _ ⟨rfl, rfl, rfl, rfl, rfl, rfl, rfl⟩⟩
    rw [State.member_modMember]
    exact List.mem_append_right _ (.head _)
  · obtain ⟨at_, o, q, hat, hcoming, ho, hsmem, hload⟩ := sends_launchPkt (flushFirst s m p' bases) m p' (if bases.isEmpty then ent else [])
    have hflush := Injects.flushFirst m p' bases (.refl s)
    have hlaunch := (Injects.refl (flushFirst s m p' bases)).launchPkt m p' (if bases.isEmpty then ent else [])
    refine .inr ⟨at_, o, q, ?_, hcoming, ho, hsmem, hQ q ⟨hload.type, hload.dmem, hload.rtag, hload.addr, hload.opx, hload.data, hload.poison⟩⟩
    rw [hlaunch.quiet.clk]
    exact hat

/-! ### Acknowledgements (R321, R322) -/

/-- Nothing but the agenda, the free values drawn and member `m` has changed. -/
structure AtMember (m : MemberId) (s t : State) : Prop where
  quiet : Quiet s t
  subject : t.subject = s.subject
  accesses : t.accesses = s.accesses
  vds : t.vds = s.vds
  dies : t.dies = s.dies
  migrations : t.migrations = s.migrations
  others : ∀ n, memberKey n ≠ memberKey m → t.member n = s.member n
  agenda : s.agenda ⊆ t.agenda

namespace AtMember
variable {m : MemberId} {s t u : State}

theorem refl (m : MemberId) (s : State) : AtMember m s s := ⟨.refl s, rfl, rfl, rfl, rfl, rfl, fun _ _ => rfl, List.Subset.refl _⟩
theorem trans (h : AtMember m s t) (h' : AtMember m t u) : AtMember m s u :=
  ⟨h.quiet.trans h'.quiet, h'.subject.trans h.subject, h'.accesses.trans h.accesses, h'.vds.trans h.vds, h'.dies.trans h.dies, h'.migrations.trans h.migrations,
    fun n hn => (h'.others n hn).trans (h.others n hn), List.Subset.trans h.agenda h'.agenda⟩
theorem modMember (h : AtMember m s t) (f : Member → Member) : AtMember m s (t.modMember m f) :=
  h.trans ⟨⟨rfl, rfl, rfl, rfl, rfl⟩, rfl, rfl, rfl, rfl, rfl, fun _ hn => State.member_modMember_other _ _ hn, List.Subset.refl _⟩
theorem due (h : AtMember m s t) (at_ : ℕ) (a : Act) : AtMember m s (t.due at_ a) :=
  h.trans ⟨⟨rfl, rfl, rfl, rfl, rfl⟩, rfl, rfl, rfl, rfl, rfl, fun _ _ => rfl, List.subset_append_left _ _⟩
theorem after (h : AtMember m s t) (n : ℕ) (i : Instr) (o : Subject) : AtMember m s (t.after n i o) := h.due _ _
theorem draw (h : AtMember m s t) : AtMember m s t.draw :=
  h.trans ⟨⟨rfl, rfl, rfl, rfl, rfl⟩, rfl, rfl, rfl, rfl, rfl, fun _ _ => rfl, List.Subset.refl _⟩
theorem foldl {α : Type} {f : State → α → State} (h : AtMember m s t) (hf : ∀ u x, AtMember m u (f u x)) (l : List α) : AtMember m s (l.foldl f t) :=
  h.trans (foldl_keeps (refl m) trans hf l t)

end AtMember

/-- An ACK to member `dst` has left member `m`: it is on its way, and its chain and the injection counter have gone on. -/
structure AckSent (m : MemberId) (dst : ℕ) (s t : State) : Prop extends AtMember m s t where
  member : ∃ out sent, t.member m = { s.member m with outChain := out, sent := sent }
  gone : ∃ at_ o q, s.clk < at_ ∧ Coming t at_ .switchPacketForward o ∧ o.pkt = some q ∧ q.type = 0x06 ∧ q.dmem = dst

theorem sendPkt_ack (s : State) (m : MemberId) {p : Pkt} (htype : p.type = 0x06) (hvc : p.vc ≠ 3) : AckSent m p.dmem s (sendPkt s m p) := by
  unfold sendPkt
  extract_lets c v dst q key ch at_
  have hturn (u : State) : turnX u q = u := if_neg hvc
  have htime : s.clk < at_ := by
    have := injectTime_pos s q
    dsimp only [at_]
    omega
  rw [if_pos htype]
  unfold sendAt
  rw [hturn]
  exact ⟨(((AtMember.refl m s).modMember _).draw).due ..,
    ⟨_, _, (State.member_due ..).trans ((State.member_draw ..).trans (State.member_modMember ..))⟩,
    at_, _, q, htime, List.mem_append_right _ (.head _), rfl, htype, rfl⟩

theorem ackSent_sendAck (s : State) (m : MemberId) (smem chain : ℕ) (echo : Bool) : AckSent m smem s (sendAck s m smem chain echo) :=
  sendPkt_ack s m (p := { (Pkt.local m.member smem 0x06 _ 0) with vc := 2, echo := echo }) rfl (show (2 : ℕ) ≠ 3 by decide)

end Sys2Proof.Machine
end

section
/-!
PROOFS.  A packet that is next in its chain arrives (R322 to R324): it is taken from the wait buffer at once, applied, counted and acknowledged.
-/
namespace Sys2Proof.Machine

/-! ### Counting and acknowledging (R61, R321, R322) -/

theorem checkHeld_cases (s : State) (m : MemberId) : checkHeld s m = s ∨ checkHeld s m = s.afterM 0 .stampWaitApply m := by
  unfold checkHeld
  split
  · exact .inr rfl
  · exact .inl rfl

theorem AtMember.checkHeld {m : MemberId} {s t : State} (h : AtMember m s t) : AtMember m s (checkHeld t m) := by
  rcases checkHeld_cases t m with e | e <;> rw [e]
  · exact h
  · exact h.after ..

theorem member_checkHeld (s : State) (m n : MemberId) : (checkHeld s m).member n = s.member n := by
  rcases checkHeld_cases s m with e | e <;> rw [e]
  rfl

/-- No packet waits, so none is asked for. -/
theorem checkHeld_none {s : State} {m : MemberId} (h : (s.member m).stampWait = []) : checkHeld s m = s := by
  rw [checkHeld, h]
  rfl

theorem atMember_raiseClock (s : State) (m : MemberId) (j v : ℕ) : AtMember m s (raiseClock s m j v) := ((AtMember.refl m s).modMember _).checkHeld

theorem member_raiseClock (s : State) (m : MemberId) (j v : ℕ) :
    (raiseClock s m j v).member m = { s.member m with clock := Tab.put 0 (s.member m).clock j (clockMax (Tab.get 0 (s.member m).clock j) v) } :=
  (member_checkHeld ..).trans (State.member_modMember ..)

/-- The member that has counted a packet. -/
def Member.count (c : Member) (p : Pkt) : Member := { c with received := c.received + (if p.counted then 0 else 1) }

theorem atMember_countPkt (s : State) (m : MemberId) (p : Pkt) : AtMember m s (countPkt s m p) := by
  have h : AtMember m s (s.modMember m fun c => c.count p) := (AtMember.refl m s).modMember _
  unfold countPkt
  extract_lets s1
  split
  · split
    · exact h.trans (atMember_raiseClock ..)
    · exact h
  · exact h

theorem member_countPkt (s : State) (m : MemberId) (p : Pkt) : ∃ clock, (countPkt s m p).member m = { (s.member m).count p with clock := clock } := by
  have h : (s.modMember m fun c => c.count p).member m = (s.member m).count p := State.member_modMember ..
  unfold countPkt
  extract_lets s1
  split
  · split
    · next e _ =>
      have hraise := member_raiseClock s1 m p.smem e.2
      rw [show s1.member m = (s.member m).count p from h] at hraise
      exact ⟨_, hraise⟩
    · exact ⟨_, h⟩
  · exact ⟨_, h⟩

/-- The chain of a packet at its member. -/
def chainKey (p : Pkt) : ℕ := 2 * p.smem + chainOf p.vc

theorem noteApplied_seq (ch : Chain) (seq : ℕ) : (noteApplied ch seq).seq = ch.seq := by
  cases ch
  rfl

/-- The member whose chain has noted a packet as applied. -/
def Member.note (c : Member) (p : Pkt) : Member :=
  { c with inChain := Tab.put Chain.start c.inChain (chainKey p) (noteApplied (Tab.get Chain.start c.inChain (chainKey p)) p.seq) }

/-- A packet's ACK has left member `m`, whose chain has noted it. -/
structure Acked (m : MemberId) (p : Pkt) (s t : State) : Prop extends AtMember m s t where
  member : ∃ out sent, t.member m = { (s.member m).note p with outChain := out, sent := sent }
  gone : ∃ at_ o q, s.clk < at_ ∧ Coming t at_ .switchPacketForward o ∧ o.pkt = some q ∧ q.type = 0x06 ∧ q.dmem = p.smem

theorem Acked.inbox {m : MemberId} {p : Pkt} {s t : State} (h : Acked m p s t) :
    (t.member m).landing = (s.member m).landing ∧ (t.member m).stampWait = (s.member m).stampWait := by
  obtain ⟨out, sent, hmember⟩ := h.member
  rw [hmember, Member.note]
  exact ⟨rfl, rfl⟩

theorem acked_ackPkt (s : State) (m : MemberId) (p : Pkt) : Acked m p s (ackPkt s m p) := by
  have h : AtMember m s (s.modMember m fun c => c.note p) := (AtMember.refl m s).modMember _
  obtain ⟨hat, ⟨out, sent, hmember⟩, hgone⟩ := ackSent_sendAck (s.modMember m fun c => c.note p) m p.smem (chainOf p.vc) p.mark
  rw [State.member_modMember] at hmember
  exact ⟨h.trans hat, ⟨out, sent, hmember⟩, hgone⟩

/-- A packet has been counted and acknowledged by member `m`. -/
structure CountedAcked (m : MemberId) (p : Pkt) (s t : State) : Prop extends AtMember m s t where
  member : ∃ clock out sent, t.member m = { ((s.member m).count p).note p with clock := clock, outChain := out, sent := sent }
  gone : ∃ at_ o q, s.clk < at_ ∧ Coming t at_ .switchPacketForward o ∧ o.pkt = some q ∧ q.type = 0x06 ∧ q.dmem = p.smem

theorem countedAcked_appliedPkt (s : State) (m : MemberId) (p : Pkt) : CountedAcked m p s (appliedPkt s m p) := by
  have hcount := atMember_countPkt s m p
  obtain ⟨clock, hclock⟩ := member_countPkt s m p
  obtain ⟨hat, ⟨out, sent, hmember⟩, hgone⟩ := acked_ackPkt (countPkt s m p) m p
  rw [hclock] at hmember
  rw [hcount.quiet.clk] at hgone
  exact ⟨hcount.trans hat, ⟨clock, out, sent, hmember⟩, hgone⟩

/-! ### The packet is taken (R110, R322, R323) -/

/-- The stamp that a packet's chain rebuilds for it. -/
@[irreducible] def builtStamp (s : State) (p : Pkt) : Tab ℕ := rebuildStamp (s.vd s.subject.m.vd).params.n (chainAt s s.subject.m p) p

/-- The packet with the stamp its chain rebuilds. -/
def stamped (s : State) (p : Pkt) : Pkt := { p with stamp := builtStamp s p }

/-- The member that has taken a packet of chain `ch` with stamp `st`, with none left that waits. -/
def Member.take (c : Member) (p : Pkt) (ch : Chain) (st : Tab ℕ) : Member :=
  { c with
    unbuilt := [], stampWait := [], inChain := Tab.put Chain.start c.inChain (chainKey p) { ch with seq := p.seq, stamp := st }
    clock := if isResponse p.type then mergeClock c.clock st else c.clock }

/-- A die without the counts of its arriving packets. -/
def Die.calm (d : Die) : Die := { d with ingress := 0, arrivals := 0, marked := 0 }

/-- Packet `p` has arrived and has been taken to be applied: queues and windows have counted it. -/
structure Taken (s s1 : State) (p : Pkt) : Prop where
  quiet : Quiet s s1
  subject : s1.subject = s.subject
  accesses : s1.accesses = s.accesses
  vds : s1.vds = s.vds
  migrations : s1.migrations = s.migrations
  agenda : s.agenda ⊆ s1.agenda
  dies : ∀ d, (s1.die d).calm = (s.die d).calm
  others : ∀ n, memberKey n ≠ memberKey s.subject.m → s1.member n = s.member n
  member : s1.member s.subject.m = (s.member s.subject.m).take p (chainAt s s.subject.m p) (builtStamp s p)

section
variable {s : State} {p : Pkt} {ty : ℕ}

/-- No packet waits, so the wait buffer has room. -/
theorem bufferFull_of_empty {c : Member} (hwait : c.stampWait = []) (hunbuilt : c.unbuilt = []) (p : Pkt) : bufferFull c p = false := by
  simp [bufferFull, hwait, hunbuilt]

/-- Nothing is left to be moved to the wait buffer. -/
theorem drain_done {s : State} {m : MemberId} (h : (s.member m).unbuilt = []) (n key : ℕ) : acceptPkt.drain m n s key = s := by
  cases n with
  | zero => rfl
  | succ n => simp only [acceptPkt.drain, h, List.find?_nil]

/-- The packet that is next in its chain moves to the wait buffer with its stamp rebuilt. -/
theorem drain_next {s : State} {m : MemberId} {e : Pkt × ℕ} (h : (s.member m).unbuilt = [e]) (hseq : e.1.seq = ((chainAt s m e.1).seq + 1) % 2 ^ 32) (n : ℕ) :
    acceptPkt.drain m (n + 1) s (chainKey e.1) = s.modMember m fun c =>
      { c with
        unbuilt := c.unbuilt.filter fun x => decide (x ≠ e)
        inChain := Tab.put Chain.start c.inChain (chainKey e.1)
          { chainAt s m e.1 with seq := e.1.seq, stamp := rebuildStamp (s.vd m.vd).params.n (chainAt s m e.1) e.1 }
        stampWait := c.stampWait ++ [({ e.1 with stamp := rebuildStamp (s.vd m.vd).params.n (chainAt s m e.1) e.1 }, e.2)] } := by
  have hfind : [e].find? (fun x : Pkt × ℕ => decide (2 * x.1.smem + chainOf x.1.vc = chainKey e.1 ∧ x.1.seq = ((chainAt s m e.1).seq + 1) % 2 ^ 32)) = some e := by
    rw [List.find?_cons_of_pos]
    exact decide_eq_true ⟨rfl, hseq⟩
  have hrest : [e].filter (fun x => decide (x ≠ e)) = [] := by simp
  unfold acceptPkt.drain
  extract_lets c ch
  rw [show c.unbuilt = [e] from h, show ch = chainAt s m e.1 from rfl, hfind]
  dsimp only
  rw [drain_done]
  rw [State.member_modMember]
  dsimp only
  rw [h, hrest]

/-- The member with a packet in its wait buffer, its stamp rebuilt. -/
def Member.hold (c : Member) (p : Pkt) (ch : Chain) (st : Tab ℕ) (clk : ℕ) : Member :=
  { c with
    unbuilt := [], inChain := Tab.put Chain.start c.inChain (chainKey p) { ch with seq := p.seq, stamp := st }
    stampWait := [({ p with stamp := st }, clk)] }

theorem acceptPkt_inOrder {m : MemberId} (hlive : (s.member m).live = true) (hwait : (s.member m).stampWait = []) (hunbuilt : (s.member m).unbuilt = [])
    (hseq : p.seq = ((chainAt s m p).seq + 1) % 2 ^ 32) (hseen : seenBefore (chainAt s m p) p.seq = false) :
    ∃ t, acceptPkt s m p = some t ∧ AtMember m s t ∧
      t.member m = (s.member m).hold p (chainAt s m p) (rebuildStamp (s.vd m.vd).params.n (chainAt s m p) p) s.clk := by
  obtain ⟨u, hu⟩ : ∃ u, (s.modMember m fun c => { c with unbuilt := c.unbuilt ++ [(p, s.clk)] }) = u := ⟨_, rfl⟩
  have hmember : u.member m = { s.member m with unbuilt := [(p, s.clk)] } := by
    rw [← hu, State.member_modMember, hunbuilt]
    rfl
  have hchain : chainAt u m p = chainAt s m p := by
    rw [chainAt, hmember]
    rfl
  have hvd : u.vd m.vd = s.vd m.vd := by
    rw [← hu]
    rfl
  have hdrain := drain_next (e := (p, s.clk)) (congrArg Member.unbuilt hmember) (hchain ▸ hseq) 1024
  rw [hchain, hvd] at hdrain
  refine ⟨acceptPkt.drain m 1025 u (chainKey p), ?_, ?_, ?_⟩
  · unfold acceptPkt
    extract_lets c key ch
    rw [show ch = chainAt s m p from rfl, show c.live = true from hlive, show c.unbuilt = [] from hunbuilt, hseen, hu]
    rfl
  · rw [hdrain, ← hu]
    exact ((AtMember.refl m s).modMember _).modMember _
  · rw [hdrain, State.member_modMember, hmember]
    simp [Member.hold, hwait]

/-- What arrives in order may be applied: its stamp is its chain's, which is dominated, and a CFLUSH needs none. -/
theorem mayApply_inOrder (h : InOrder s p ty) (hroom : ty = 0x09 → landingFull (s.member s.subject.m) p = false) (clk : ℕ) :
    mayApply ((s.member s.subject.m).hold p (chainAt s s.subject.m p) (builtStamp s p) clk) (stamped s p) = true := by
  by_cases hflush : p.type = 0x0D
  · simp [mayApply, stamped, hflush]
  · have hstamp : builtStamp s p = (chainAt s s.subject.m p).stamp := by
      rw [builtStamp, rebuildStamp, if_neg hflush, h.stamp]
      rfl
    have hdom : dominated ((s.member s.subject.m).hold p (chainAt s s.subject.m p) (builtStamp s p) clk).clock (stamped s p).stamp (stamped s p).smem = true := by
      change dominated (s.member s.subject.m).clock (builtStamp s p) p.smem = true
      rw [hstamp]
      exact h.dominated
    have hland : (decide ((stamped s p).type = 0x09) &&
        landingFull ((s.member s.subject.m).hold p (chainAt s s.subject.m p) (builtStamp s p) clk) (stamped s p)) = false := by
      change (decide (p.type = 0x09) && landingFull (s.member s.subject.m) p) = false
      by_cases h9 : p.type = 0x09
      · rw [hroom (h.type.symm.trans h9), Bool.and_false]
      · rw [decide_eq_false h9, Bool.false_and]
    simp only [mayApply, hdom, hland, Bool.not_false, Bool.and_self, Bool.true_or]

/-- An arrival without an ECHO counts at the switch and the die only. -/
theorem arriveCommon_eq (s : State) (m : MemberId) (w : ℕ) (hecho : p.echo = false) :
    ∃ f g, arriveCommon s m w p = (s.modSwitch w f).modDie p.ddie g ∧ ∀ d : Die, (g d).calm = d.calm := by
  unfold arriveCommon
  extract_lets n s1
  rw [hecho, if_neg Bool.false_ne_true]
  refine ⟨_, _, rfl, ?_⟩
  exact fun _ => rfl

theorem die_modDie_calm {g : Die → Die} (hg : ∀ d : Die, (g d).calm = d.calm) (s : State) (e d : ℕ) : ((s.modDie e g).die d).calm = (s.die d).calm := by
  by_cases hd : d = e
  · rw [hd, State.die_modDie, hg]
  · rw [State.die_modDie_other _ _ hd]

/-- The packet of the event is taken when it arrives, and all that is left of its arrival is its act. -/
theorem arrival_taken (h : InOrder s p ty) (hroom : ty = 0x09 → landingFull (s.member s.subject.m) p = false) : ∃ s1, Taken s s1 p ∧
    (((applyPkt s1 s.subject.m (stamped s p)).member s.subject.m).stampWait = [] →
      arrival s ty = .next (applyPkt s1 s.subject.m (stamped s p))) := by
  obtain ⟨hwait, hunbuilt⟩ := h.waiting
  obtain ⟨f, g, hcommon, hg⟩ := arriveCommon_eq s s.subject.m s.subject.a h.echo
  obtain ⟨v, hv⟩ : ∃ v, (s.modSwitch s.subject.a f).modDie p.ddie g = v := ⟨_, rfl⟩
  have hvm (n : MemberId) : v.member n = s.member n := hv ▸ rfl
  have hvd (n : ℕ) : v.vd n = s.vd n := hv ▸ rfl
  have hdie (d : ℕ) : (v.die d).calm = (s.die d).calm := hv ▸ die_modDie_calm hg (s.modSwitch s.subject.a f) p.ddie d
  have hchain : chainAt v s.subject.m p = chainAt s s.subject.m p := by rw [chainAt, hvm, chainAt]
  obtain ⟨u, hu, hat, hhold⟩ := acceptPkt_inOrder (s := v) (p := p) (m := s.subject.m) ((hvm _).symm ▸ h.live) ((hvm _).symm ▸ hwait) ((hvm _).symm ▸ hunbuilt)
    (hchain.symm ▸ h.seq) (hchain.symm ▸ h.unseen)
  have hbuilt : rebuildStamp (v.vd s.subject.m.vd).params.n (chainAt v s.subject.m p) p = builtStamp s p := by
    rw [hchain, hvd, builtStamp]
  rw [hbuilt, hchain, hvm] at hhold
  have hctx : (u.die (u.member s.subject.m).die).ctx = some s.subject.m := by
    have hdies (d : ℕ) : u.die d = v.die d := by rw [State.die, hat.dies, State.die]
    rw [hdies, hhold]
    exact (congrArg Die.ctx (hdie _) :).trans h.here
  obtain ⟨s1, hs1⟩ : ∃ s1, u.modMember s.subject.m (fun c =>
      { c with stampWait := c.stampWait.filter (fun x => decide (x ≠ (stamped s p, v.clk))),
               clock := if isResponse p.type then mergeClock c.clock (builtStamp s p) else c.clock }) = s1 := ⟨_, rfl⟩
  have htake : takeDominated u s.subject.m = some (stamped s p, s1) := by
    have hfind := List.find?_cons_of_pos (p := fun e : Pkt × ℕ => mayApply (u.member s.subject.m) e.1) (a := (stamped s p, v.clk)) (l := [])
      (by rw [hhold]; exact mayApply_inOrder h hroom v.clk)
    unfold takeDominated
    extract_lets c
    rw [show c.stampWait = [(stamped s p, v.clk)] from congrArg Member.stampWait hhold, hfind, ← hs1]
    rfl
  refine ⟨s1, ?_, fun hempty => ?_⟩
  · have hlast : AtMember s.subject.m u s1 := hs1 ▸ (AtMember.refl _ u).modMember _
    have hall := hat.trans hlast
    have hv' : Quiet s v ∧ v.subject = s.subject ∧ v.accesses = s.accesses ∧ v.vds = s.vds ∧ v.migrations = s.migrations ∧ s.agenda ⊆ v.agenda :=
      hv ▸ ⟨⟨rfl, rfl, rfl, rfl, rfl⟩, rfl, rfl, rfl, rfl, List.Subset.refl _⟩
    obtain ⟨hquiet, hsubject, haccesses, hvds, hmigrations, hagenda⟩ := hv'
    exact {
      quiet := hquiet.trans hall.quiet
      subject := hall.subject.trans hsubject
      accesses := hall.accesses.trans haccesses
      vds := hall.vds.trans hvds
      dies := fun d => by rw [State.die, hall.dies]; exact hdie d
      others := fun n hn => (hall.others n hn).trans (hvm n)
      migrations := hall.migrations.trans hmigrations
      agenda := List.Subset.trans hagenda hall.agenda
      member := by
        rw [← hs1, State.member_modMember, hhold]
        simp [Member.hold, Member.take, stamped] }
  · have hone : applyOne u s.subject.m = some (applyPkt s1 s.subject.m (stamped s p)) := by
      rw [applyOne, if_neg (not_not_intro hctx), htake, Option.map_some, checkHeld_none hempty]
    have harrive : arrivePkt s s.subject.m s.subject.a p = applyPkt s1 s.subject.m (stamped s p) := by
      unfold arrivePkt
      rw [bufferFull_of_empty hwait hunbuilt, hcommon, hv]
      simp only [Bool.false_eq_true, if_false, h.stamp, List.any_nil, hu, hone, Option.getD_some, hempty]
    unfold arrival
    rw [h.pkt]
    dsimp only
    rw [if_pos ⟨h.type, h.dmem, h.live⟩, harrive]

end

/-! ### The packet is applied -/

/-- What goes on with the member's received counter and chains kept, and nothing taken from the agenda. -/
theorem Applied.mono {s t u : State} {p : Pkt} (h : Applied s t p) (hclk : u.clk = t.clk) (hagenda : t.agenda ⊆ u.agenda)
    (hreceived : (u.member s.subject.m).received = (t.member s.subject.m).received) (hchains : (u.member s.subject.m).inChain = (t.member s.subject.m).inChain)
    (hwait : (u.member s.subject.m).stampWait = (t.member s.subject.m).stampWait) (hunbuilt : (u.member s.subject.m).unbuilt = (t.member s.subject.m).unbuilt) :
    Applied s u p := by
  obtain ⟨hrec, hnext, hgone, at_, o, q, hat, hcoming, hq⟩ := h
  refine ⟨hreceived.trans hrec, ?_, ?_, at_, o, q, hclk.symm ▸ hat, hagenda hcoming, hq⟩
  · rw [chainAt, hchains]
    exact hnext
  · rw [hwait, hunbuilt]
    exact hgone

theorem Applied.steady {s t u : State} {p : Pkt} (h : Applied s t p) (hu : Steady t u) : Applied s u p :=
  h.mono hu.clk hu.agenda (congrArg Member.received (hu.members _) :) (congrArg Member.inChain (hu.members _) :) (congrArg Member.stampWait (hu.members _) :)
    (congrArg Member.unbuilt (hu.members _) :)

namespace Taken
variable {s s1 t : State} {p : Pkt}

theorem die (h : Taken s s1 p) : (s1.member s.subject.m).die = (s.member s.subject.m).die := by
  rw [h.member]
  rfl

theorem inbox (h : Taken s s1 p) : (s1.member s.subject.m).landing = (s.member s.subject.m).landing ∧ (s1.member s.subject.m).stampWait = [] := by
  rw [h.member, Member.take]
  exact ⟨rfl, rfl⟩

theorem seq (h : Taken s s1 p) : (Machine.chainAt s1 s.subject.m p).seq = p.seq := by
  rw [chainAt, h.member]
  exact congrArg Chain.seq (Tab.get_put_same _ _ (chainKey p) _)

end Taken

/-- A packet that member `m` counts and acknowledges, once it has taken it, is applied. -/
theorem CountedAcked.applied {s w t : State} {p : Pkt} (ht : CountedAcked s.subject.m (stamped s p) w t) (hfresh : p.counted = false)
    (hreceived : (w.member s.subject.m).received = (s.member s.subject.m).received) (hseq : (chainAt w s.subject.m p).seq = p.seq)
    (hgone : (w.member s.subject.m).stampWait = [] ∧ (w.member s.subject.m).unbuilt = []) : Applied s t p := by
  obtain ⟨clock, out, sent, hmember⟩ := ht.member
  obtain ⟨at_, o, q, hat, hack⟩ := ht.gone
  refine ⟨?_, ?_, ?_, at_, o, q, ht.quiet.clk.symm ▸ hat, hack⟩
  · have hone : (if (stamped s p).counted then 0 else 1) = 1 := if_neg (by rw [show (stamped s p).counted = p.counted from rfl, hfresh]; exact Bool.false_ne_true)
    rw [hmember, ← hreceived]
    exact congrArg _ hone
  · have hnote (c : Member) : (Tab.get Chain.start (c.note (stamped s p)).inChain (chainKey p)).seq = (Tab.get Chain.start c.inChain (chainKey p)).seq :=
      (congrArg Chain.seq (Tab.get_put_same _ _ (chainKey p) _)).trans (noteApplied_seq ..)
    rw [chainAt, hmember]
    exact (hnote _).trans hseq
  · rw [hmember]
    exact hgone

theorem Taken.applied {s s1 t : State} {p : Pkt} (h : Taken s s1 p) (hfresh : p.counted = false) (ht : CountedAcked s.subject.m (stamped s p) s1 t) : Applied s t p := by
  refine ht.applied hfresh ?_ h.seq ?_ <;> rw [h.member]
  · rfl
  · exact ⟨rfl, rfl⟩

/-- What a packet's arrival does is its act on the state that has taken it. -/
theorem happens_arrival {i : Instr} {s : State} {p : Pkt} {ty : ℕ} (hi : exec i s = arrival s ty) (h : InOrder s p ty)
    (hroom : ty = 0x09 → landingFull (s.member s.subject.m) p = false) {P : State → Prop}
    (hP : ∀ s1, Taken s s1 p → ((applyPkt s1 s.subject.m (stamped s p)).member s.subject.m).stampWait = [] ∧ P (applyPkt s1 s.subject.m (stamped s p))) :
    Happens i s P := by
  obtain ⟨s1, htaken, harrival⟩ := arrival_taken h hroom
  obtain ⟨hempty, hprop⟩ := hP s1 htaken
  exact ⟨_, hi.trans (harrival hempty), hprop⟩

end Sys2Proof.Machine
end

section
/-!
PROOFS.  Memory packets at their member (R107, R320, R324): one to a V-address becomes an access of the die; one to HBM acts there, and answers.
-/
namespace Sys2Proof.Machine

/-! ### What a packet's type makes of it -/

section
variable {s : State} {m : MemberId} {p : Pkt}

theorem applyPkt_memory (h : p.type = 0x01 ∨ p.type = 0x02 ∨ p.type = 0x04) : applyPkt s m p = memoryPkt s m p := by
  rcases h with h | h | h <;> simp only [applyPkt, h]
theorem applyPkt_feop (h : p.type = 0x07) : applyPkt s m p = engineAccess s m (.served p) (p.addr.toNat % 2 ^ 52) (servedSize p) 0 s.clk false := by
  simp only [applyPkt, h]
theorem applyPkt_response (h : p.type = 0x03 ∨ p.type = 0x05) : applyPkt s m p = deliverResponse (appliedPkt s m p) m p := by
  rcases h with h | h <;> simp only [applyPkt, h]
theorem applyPkt_fifo (h : p.type = 0x08) : applyPkt s m p = fifoArrive (appliedPkt s m p) ⟨(s.member m).die, p.addr.toNat⟩ p.opx (vecOf p.data) := by
  simp only [applyPkt, h]
theorem applyPkt_message (h : p.type = 0x09 ∨ p.type = 0x10) :
    applyPkt s m p = pokeColl ((ackPkt s m p).modMember m fun c => { c with landing := c.landing ++ [p] }) m (some p.cid) := by
  rcases h with h | h <;> simp only [applyPkt, h]
theorem applyPkt_flush (h : p.type = 0x0D) : applyPkt s m p = appliedPkt s m p := by simp only [applyPkt, h]
theorem applyPkt_ticket (h : p.type = 0x0E) : applyPkt s m p = takeTicket (appliedPkt s m p) m p := by simp only [applyPkt, h]
theorem applyPkt_call (h : p.type = 0x0F) : applyPkt s m p =
    (List.range 4).foldl (fun s e => s.afterM 0 .chunkIssue m e)
      ((appliedPkt s m p).modMember m fun c => { c with tickets := Tab.put 0 c.tickets p.smem (1 + 65536) }) := by
  simp only [applyPkt, h]

end

/-! ### An access of the die (R324) -/

/-- A packet is an access of its member's die at effective address `ea`, which acts now. -/
def ServedAt (s t : State) (p : Pkt) (ea : ℕ) : Prop :=
  ∃ a ∈ t.accesses, a.k = ⟨(s.member s.subject.m).die, 256⟩ ∧ a.ctx = s.subject.m ∧ a.ea = BitVec.ofNat 64 ea ∧
    (∃ st, a.kind = .served { p with stamp := st }) ∧ ⟨t.clk, .perform a.id⟩ ∈ t.agenda

theorem servedAt_engineAccess {s s1 : State} {p : Pkt} (h : Taken s s1 p) (ea n : ℕ) :
    let t := engineAccess s1 s.subject.m (.served (stamped s p)) ea n 0 s1.clk false
    (t.member s.subject.m).stampWait = [] ∧ Quiet s t ∧ ServedAt s t p ea := by
  have hquiet : Quiet s1 (engineAccess s1 s.subject.m (.served (stamped s p)) ea n 0 s1.clk false) := ⟨rfl, rfl, rfl, rfl, rfl⟩
  refine ⟨?_, h.quiet.trans hquiet, _, List.mem_append_right _ (.head _), ?_, rfl, rfl, ⟨builtStamp s p, rfl⟩, List.mem_append_right _ (.head _)⟩
  · change (s1.member s.subject.m).stampWait = []
    rw [h.member]
    rfl
  · rw [h.die]

theorem servedNow_of_servedAt {s t : State} {p : Pkt} (h : ServedAt s t p (p.addr.toNat % 2 ^ 52)) : ServedNow s t p := by
  obtain ⟨a, ha, hk, hctx, hea, hkind, hdue⟩ := h
  have hnat : a.ea.toNat = p.addr.toNat % 2 ^ 52 := by
    rw [hea, BitVec.toNat_ofNat]
    omega
  refine ⟨a, ha, hk, hctx, ?_, ?_, hkind, hdue⟩
  · rw [eaSpace, hnat]
    omega
  · rw [eaAddr, hnat]
    omega

theorem memoryPkt_vAddress {s : State} {m : MemberId} {p : Pkt} (h : p.addr.toNat / 2 ^ 62 = 0) :
    memoryPkt s m p = engineAccess s m (.served p) (p.addr.toNat % 2 ^ 52) (servedSize p) 0 s.clk false := by
  rw [memoryPkt, if_pos h]

/-- The packet events that a V-address serves. -/
theorem served_happens {s : State} {p : Pkt} {i : Instr} (h : InOrder s p p.type)
    (hi : i = .writePacket ∧ p.type = 0x01 ∧ p.addr.toNat / 2 ^ 62 = 0 ∨ i = .readPacket ∧ p.type = 0x02 ∧ p.addr.toNat / 2 ^ 62 = 0 ∨
      i = .atomicPacket ∧ p.type = 0x04 ∧ p.addr.toNat / 2 ^ 62 = 0 ∨ i = .feop ∧ p.type = 0x07) :
    Happens i s fun t => Quiet s t ∧ ServedNow s t p := by
  have hserve (u : State) (happly : applyPkt u s.subject.m (stamped s p) =
      engineAccess u s.subject.m (.served (stamped s p)) (p.addr.toNat % 2 ^ 52) (servedSize p) 0 u.clk false) (hu : Taken s u p) :
      ((applyPkt u s.subject.m (stamped s p)).member s.subject.m).stampWait = [] ∧
        Quiet s (applyPkt u s.subject.m (stamped s p)) ∧ ServedNow s (applyPkt u s.subject.m (stamped s p)) p := by
    rw [happly]
    obtain ⟨hempty, hquiet, hat⟩ := servedAt_engineAccess hu (p.addr.toNat % 2 ^ 52) (servedSize p)
    exact ⟨hempty, hquiet, servedNow_of_servedAt hat⟩
  rcases hi with ⟨rfl, htype, haddr⟩ | ⟨rfl, htype, haddr⟩ | ⟨rfl, htype, haddr⟩ | ⟨rfl, htype⟩ <;> rw [htype] at h
  · exact happens_arrival rfl h (fun h9 => by cases h9) fun u hu => hserve u ((applyPkt_memory (p := stamped s p) (.inl htype)).trans (memoryPkt_vAddress (p := stamped s p) haddr)) hu
  · exact happens_arrival rfl h (fun h9 => by cases h9) fun u hu => hserve u ((applyPkt_memory (p := stamped s p) (.inr (.inl htype))).trans (memoryPkt_vAddress (p := stamped s p) haddr)) hu
  · exact happens_arrival rfl h (fun h9 => by cases h9) fun u hu => hserve u ((applyPkt_memory (p := stamped s p) (.inr (.inr htype))).trans (memoryPkt_vAddress (p := stamped s p) haddr)) hu
  · exact happens_arrival rfl h (fun h9 => by cases h9) fun u hu => hserve u (applyPkt_feop (p := stamped s p) htype) hu

/-! ### HBM: in parts or held (R100, R107) -/

theorem member_congr {s : State} {m n : MemberId} (h : memberKey n = memberKey m) : s.member n = s.member m := congrArg (Tab.get Member.blank s.members) h

theorem Taken.dies_same {s s1 : State} {p : Pkt} (h : Taken s s1 p) (n : MemberId) : (s1.member n).die = (s.member n).die := by
  by_cases hn : memberKey n = memberKey s.subject.m
  · rw [member_congr hn, member_congr hn, h.die]
  · rw [h.others n hn]

theorem holder_congr {s t : State} (hmigrations : t.migrations = s.migrations) (hdies : ∀ n, (t.member n).die = (s.member n).die) (write : Bool) (k n : ℕ) :
    holder t write k n = holder s write k n := by
  have hsrc (g : Migration) : g.srcKey t = g.srcKey s := by rw [Migration.srcKey, hdies, Migration.srcKey]
  simp only [holder, hmigrations, hsrc]

/-- A memory packet of HBM is of several parts, or a migration holds it. -/
def Deferred (s : State) (p : Pkt) (k : ℕ) : Prop :=
  p.type ≠ 0x04 ∧ 1 < (partsOf k (servedSize p)).length ∨ (holder s (decide (p.type ≠ 0x02)) k (servedSize p)).isSome = true

theorem memoryPkt_deferred {s : State} {m : MemberId} {p : Pkt} (haddr : p.addr.toNat / 2 ^ 62 = 1)
    (h : Deferred s p (hbmKey (s.member m).die (p.addr.toNat % 2 ^ 52))) :
    memoryPkt s m p = engineAccess s m (.served p) (2 * 2 ^ 62 + p.addr.toNat % 2 ^ 52) (servedSize p) 0 s.clk false := by
  rw [memoryPkt, if_neg (by omega)]
  exact if_pos h

theorem memoryPkt_place {s : State} {m : MemberId} {p : Pkt} (haddr : p.addr.toNat / 2 ^ 62 = 1)
    (h : ¬Deferred s p (hbmKey (s.member m).die (p.addr.toNat % 2 ^ 52))) :
    memoryPkt s m p = servePlace s m p (.phys (hbmKey (s.member m).die (p.addr.toNat % 2 ^ 52))) := by
  rw [memoryPkt, if_neg (by omega)]
  exact if_neg h

theorem deferred_stamped {s s1 : State} {p : Pkt} (h : Taken s s1 p) (k : ℕ) : Deferred s1 (stamped s p) k ↔ Deferred s p k := by
  have hholder := holder_congr h.migrations h.dies_same (decide (p.type ≠ 0x02)) k (servedSize p)
  unfold Deferred
  rw [← hholder]
  exact Iff.rfl

theorem deferred_happens {s : State} {p : Pkt} {i : Instr} (h : InOrder s p p.type) (haddr : p.addr.toNat / 2 ^ 62 = 1)
    (hi : i = .writePacket ∧ p.type = 0x01 ∨ i = .readPacket ∧ p.type = 0x02 ∨ i = .atomicPacket ∧ p.type = 0x04)
    (hdefer : Deferred s p (hbmKey (s.member s.subject.m).die (p.addr.toNat % 2 ^ 52))) :
    Happens i s fun t => Quiet s t ∧ ServedAt s t p (2 * 2 ^ 62 + p.addr.toNat % 2 ^ 52) := by
  have hserve (u : State) (htype : p.type = 0x01 ∨ p.type = 0x02 ∨ p.type = 0x04) (hu : Taken s u p) :
      ((applyPkt u s.subject.m (stamped s p)).member s.subject.m).stampWait = [] ∧
        Quiet s (applyPkt u s.subject.m (stamped s p)) ∧ ServedAt s (applyPkt u s.subject.m (stamped s p)) p (2 * 2 ^ 62 + p.addr.toNat % 2 ^ 52) := by
    have happly := (applyPkt_memory (s := u) (m := s.subject.m) (p := stamped s p) htype).trans (memoryPkt_deferred (p := stamped s p) haddr (by
      rw [hu.die]
      exact (deferred_stamped hu _).mpr hdefer))
    rw [happly]
    exact servedAt_engineAccess hu ..
  rcases hi with ⟨rfl, htype⟩ | ⟨rfl, htype⟩ | ⟨rfl, htype⟩ <;> rw [htype] at h
  · exact happens_arrival rfl h (fun h9 => by cases h9) fun u hu => hserve u (.inl htype) hu
  · exact happens_arrival rfl h (fun h9 => by cases h9) fun u hu => hserve u (.inr (.inl htype)) hu
  · exact happens_arrival rfl h (fun h9 => by cases h9) fun u hu => hserve u (.inr (.inr htype)) hu

end Sys2Proof.Machine
end

section
/-!
PROOFS.  Memory packets that act in HBM at once (R275, R294, R324): the bytes they leave, and the responses that go out.
-/
namespace Sys2Proof.Machine

/-! ### A place in HBM whose write queue is empty (R98) -/

theorem hbmKey_die {d a : ℕ} (hd : d < 256) (ha : a < 2 ^ 52) : (Loc.phys (hbmKey d a)).die = d := by
  have hspace : hbmKey d a / 2 ^ 80 = 2 := by
    rw [hbmKey]
    omega
  rw [Loc.die, if_pos hspace, hbmKey]
  omega

theorem drainRange_none {s : State} {d : ℕ} (h : (s.die d).merges = []) (m : MemberId) (k n : ℕ) : drainRange s d m k n = s := by
  rw [drainRange, h]
  rfl

theorem quiet_countHeat (s : State) (l : Loc) (n : ℕ) : Quiet s (countHeat s l n) := by
  cases l with
  | vault d a => exact .refl s
  | phys k =>
    dsimp only [countHeat]
    split
    · exact ⟨rfl, rfl, rfl, rfl, rfl⟩
    · split
      · exact ⟨rfl, rfl, rfl, rfl, rfl⟩
      · exact .refl s

theorem Taken.merges {s s1 : State} {p : Pkt} (h : Taken s s1 p) (d : ℕ) : (s1.die d).merges = (s.die d).merges := (congrArg Die.merges (h.dies d) :)

theorem offTables_congr {s t : State} {vd k n : ℕ} (h : (t.vd vd).tables = (s.vd vd).tables) (hoff : OffTables s vd k n) : OffTables t vd k n :=
  fun p hp => hoff p (h ▸ hp)

theorem poisoned_congr {s t : State} (h : t.poison = s.poison) (k n : ℕ) : poisoned t k n = poisoned s k n := by rw [poisoned, h, poisoned]
theorem vd_congr {s t : State} (h : t.vds = s.vds) (n : ℕ) : t.vd n = s.vd n := by rw [State.vd, h, State.vd]
theorem die_congr {s t : State} (h : t.dies = s.dies) (d : ℕ) : t.die d = s.die d := by rw [State.die, h, State.die]
theorem members_congr {s t : State} (h : t.members = s.members) (m : MemberId) : t.member m = s.member m := by rw [State.member, h, State.member]

/-! ### A write (R294, R324) -/

theorem Steady.jobWrote {s t : State} (h : Steady s t) (m : MemberId) (i q : ℕ) (l : List Byte) : Steady s (Machine.jobWrote t m i q l) := by
  unfold Machine.jobWrote
  refine .after ?_ ..
  split
  · next j hj => exact .ite h (h.setJob hj rfl rfl)
  · exact h

theorem mem_jobWrote (s : State) (m : MemberId) (i q : ℕ) (l : List Byte) : (jobWrote s m i q l).mem = s.mem := by
  unfold jobWrote
  change State.mem (match (s.member m).job i with
    | some j => if l.isEmpty ∨ cardKind j.card = 2 then s else s.modMember m fun c => c.setJob i (some { j with summary := jobSummary j l })
    | none => s) = s.mem
  split
  · split
    · rfl
    · rfl
  · rfl

theorem packetWritten_spec (s : State) (m : MemberId) (p : Pkt) (l : List Byte) : Steady s (packetWritten s m p l) ∧ (packetWritten s m p l).mem = s.mem := by
  unfold packetWritten
  split
  · split
    · exact ⟨(Steady.refl s).jobWrote .., mem_jobWrote ..⟩
    · exact ⟨.refl s, rfl⟩
  · exact ⟨.refl s, rfl⟩

/-- A write that is no reduction leaves its bytes, outside the queue tables. -/
theorem packetWrite_spec {s : State} {m : MemberId} {p : Pkt} {k : ℕ} (hdrain : (s.die (Loc.phys k).die).merges = []) (hplain : p.opx < 128)
    (hoff : OffTables s m.vd k p.data.length) : Steady s (packetWrite s m p (.phys k)) ∧ (packetWrite s m p (.phys k)).mem = memPut s.mem k p.data := by
  have hbytes (old : List Byte) : packetBytes p old p.data = p.data := if_neg (by omega)
  rw [packetWrite, drainRange_none hdrain, hbytes]
  obtain ⟨hsteady, hmem⟩ := packetWritten_spec (countHeat (putAt s m (.phys k) p.data) (.phys k) p.data.length) m p p.data
  exact ⟨(((Steady.refl s).putAt ..).countHeat ..).trans hsteady, hmem.trans ((mem_countHeat ..).trans (mem_putAt_phys hoff))⟩

theorem toBytes_mod (n : ℕ) : ∀ v, toBytes n (v % 256 ^ n) = toBytes n v := by
  induction n with
  | zero => exact fun _ => rfl
  | succ n ih =>
    intro v
    have hdiv : v % 256 ^ (n + 1) / 256 = v / 256 % 256 ^ n := by rw [pow_succ', Nat.mod_mul_right_div_self]
    have hbyte : BitVec.ofNat 8 (v % 256 ^ (n + 1)) = BitVec.ofNat 8 v := by
      apply BitVec.eq_of_toNat_eq
      simp only [BitVec.toNat_ofNat]
      exact Nat.mod_mod_of_dvd _ (Dvd.intro_left (256 ^ n) (pow_succ 256 n).symm)
    rw [toBytes, toBytes, hdiv, hbyte, ih]

/-! ### A response goes out (R324) -/

theorem Sends.mono {t : State} {m : MemberId} {Q R : Pkt → Prop} (h : Sends t m Q) (hQ : ∀ q, Q q → R q) : Sends t m R := by
  rcases h with ⟨q, hq, hQq⟩ | ⟨at_, o, q, hat, hcoming, ho, hsmem, hQq⟩
  · exact .inl ⟨q, hq, hQ q hQq⟩
  · exact .inr ⟨at_, o, q, hat, hcoming, ho, hsmem, hQ q hQq⟩

theorem sends_of_countedAcked {s t : State} {m : MemberId} {p : Pkt} (h : CountedAcked m p s t) {Q : Pkt → Prop} (hs : Sends s m Q) : Sends t m Q := by
  obtain ⟨clock, out, sent, hmember⟩ := h.member
  rcases hs with ⟨q, hq, hQ⟩ | ⟨at_, o, q, hat, hcoming, hq⟩
  · exact .inl ⟨q, by rw [hmember]; exact hq, hQ⟩
  · exact .inr ⟨at_, o, q, h.quiet.clk.symm ▸ hat, h.agenda hcoming, hq⟩

/-- The packet of the event is served at its member in state `w`: what answers it leaves, and it is applied. -/
theorem respond_spec {s w : State} {p : Pkt} {ty : ℕ} {l : List Byte} {poison : Bool} (hty : ty = 0x03 ∨ ty = 0x05) (hfresh : p.counted = false)
    (hreceived : (w.member s.subject.m).received = (s.member s.subject.m).received) (hseq : (chainAt w s.subject.m p).seq = p.seq)
    (hgone : (w.member s.subject.m).stampWait = [] ∧ (w.member s.subject.m).unbuilt = []) :
    let t := respond w s.subject.m (stamped s p) ty l poison
    (t.member s.subject.m).stampWait = [] ∧ Quiet w t ∧ Applied s t p ∧
      Sends t s.subject.m fun q => q.type = ty ∧ q.dmem = p.smem ∧ q.rtag = p.rtag ∧ q.data = l ∧ q.poison = poison := by
  intro t
  obtain ⟨r, hr⟩ : ∃ r : Pkt, { (Pkt.local s.subject.m.member (stamped s p).smem ty 0 0) with
    vc := 2, rtag := (stamped s p).rtag, data := l, poison := poison, echo := (stamped s p).mark } = r := ⟨_, rfl⟩
  have ht : t = appliedPkt (sendPkt w s.subject.m r) s.subject.m (stamped s p) := by rw [← hr]; rfl
  have hr' : r.type = ty ∧ r.dmem = p.smem ∧ r.rtag = p.rtag ∧ r.data = l ∧ r.poison = poison := hr ▸ ⟨rfl, rfl, rfl, rfl, rfl⟩
  obtain ⟨htype, hdmem, hrtag, hdata, hpoison⟩ := hr'
  have hsent : Sends (sendPkt w s.subject.m r) s.subject.m fun q => q.type = ty ∧ q.dmem = p.smem ∧ q.rtag = p.rtag ∧ q.data = l ∧ q.poison = poison :=
    sends_sendPkt w s.subject.m (by omega) (by omega) fun q hq =>
      ⟨hq.type.trans htype, hq.dmem.trans hdmem, hq.rtag.trans hrtag, hq.data.trans hdata, hq.poison.trans hpoison⟩
  have hinj := (Injects.refl w).sendPkt s.subject.m r
  have hinward := hinj.members s.subject.m
  have hacked := countedAcked_appliedPkt (sendPkt w s.subject.m r) s.subject.m (stamped s p)
  have happlied := hacked.applied hfresh ((congrArg Member.received hinward :).trans hreceived) ((congrArg Chain.seq (hinj.chainAt ..)).trans hseq)
    ⟨(congrArg Member.stampWait hinward :).trans hgone.1, (congrArg Member.unbuilt hinward :).trans hgone.2⟩
  rw [ht]
  exact ⟨happlied.gone.1, hinj.quiet.trans hacked.quiet, happlied, sends_of_countedAcked hacked hsent⟩

/-! ### What a memory packet does in HBM -/

section
variable {s : State} {p : Pkt}

/-- The byte of HBM that a memory packet names. -/
def hbmOf (s : State) (p : Pkt) : ℕ := hbmKey (s.member s.subject.m).die (p.addr.toNat % 2 ^ 52)

theorem hbmOf_die (hd : (s.member s.subject.m).die < 256) : (Loc.phys (hbmOf s p)).die = (s.member s.subject.m).die :=
  hbmKey_die hd (Nat.mod_lt _ (by positivity))

/-- A packet that is one part and that no migration holds acts at its place. -/
theorem applyPkt_hbm {s1 : State} (h : Taken s s1 p) (htype : p.type = 0x01 ∨ p.type = 0x02 ∨ p.type = 0x04) (haddr : p.addr.toNat / 2 ^ 62 = 1)
    (hnow : ¬Deferred s p (hbmOf s p)) :
    applyPkt s1 s.subject.m (stamped s p) = servePlace s1 s.subject.m (stamped s p) (.phys (hbmOf s p)) := by
  have hplace := memoryPkt_place (s := s1) (m := s.subject.m) (p := stamped s p) haddr (by
    rw [h.die]
    exact fun hd => hnow ((deferred_stamped h _).mp hd))
  rw [h.die] at hplace
  exact (applyPkt_memory (p := stamped s p) htype).trans hplace

theorem servePlace_write {u : State} {m : MemberId} {q : Pkt} (l : Loc) (h : q.type = 0x01) : servePlace u m q l = packetWrite (appliedPkt u m q) m q l := by
  simp only [servePlace, h]
theorem servePlace_read {u : State} {m : MemberId} {q : Pkt} (l : Loc) (h : q.type = 0x02) : servePlace u m q l = packetRead u m q l := by
  simp only [servePlace, h]
theorem servePlace_atomic {u : State} {m : MemberId} {q : Pkt} (l : Loc) (h : q.type = 0x04) : servePlace u m q l = packetAtomic u m q l := by
  simp only [servePlace, h]

theorem writePacket_hbm (h : InOrder s p 0x01) (haddr : p.addr.toNat / 2 ^ 62 = 1) (hd : (s.member s.subject.m).die < 256)
    (hmerges : (s.die (s.member s.subject.m).die).merges = []) (hplain : p.opx < 128) (hparts : (partsOf (hbmOf s p) p.data.length).length ≤ 1)
    (hheld : holder s true (hbmOf s p) p.data.length = none) (hoff : OffTables s s.subject.m.vd (hbmOf s p) p.data.length) :
    Happens .writePacket s fun t => t.cores = s.cores ∧ Applied s t p ∧ memBytes t.mem (hbmOf s p) p.data.length = p.data ∧
      ∀ x, x < hbmOf s p ∨ hbmOf s p + p.data.length ≤ x → Tab.get 0 t.mem x = Tab.get 0 s.mem x := by
  refine happens_arrival rfl h (fun h9 => by cases h9) fun s1 hs1 => ?_
  have hsize : servedSize p = p.data.length := by simp only [servedSize, h.type]
  have hnow : ¬Deferred s p (hbmOf s p) := by
    rintro (⟨-, hmany⟩ | hsome)
    · rw [hsize] at hmany
      omega
    · rw [hsize, h.type] at hsome
      rw [show holder s (decide ((1 : ℕ) ≠ 2)) (hbmOf s p) p.data.length = none from hheld] at hsome
      cases hsome
  obtain ⟨u, hu⟩ : ∃ u, appliedPkt s1 s.subject.m (stamped s p) = u := ⟨_, rfl⟩
  have hacked : CountedAcked s.subject.m (stamped s p) s1 u := hu ▸ countedAcked_appliedPkt ..
  have hdrain : (u.die (Loc.phys (hbmOf s p)).die).merges = [] := by
    rw [hbmOf_die hd, die_congr hacked.dies, hs1.merges]
    exact hmerges
  have hvds : u.vds = s.vds := hacked.vds.trans hs1.vds
  obtain ⟨hsteady, hmem⟩ := packetWrite_spec (p := stamped s p) (m := s.subject.m) hdrain hplain
    (offTables_congr (congrArg VD.tables (vd_congr hvds _)) hoff)
  have happlied := (hs1.applied h.fresh hacked).steady hsteady
  rw [applyPkt_hbm hs1 (.inl h.type) haddr hnow, servePlace_write _ (show (stamped s p).type = 0x01 from h.type), hu, hmem, hacked.quiet.mem, hs1.quiet.mem]
  exact ⟨happlied.gone.1, hsteady.cores.trans (hacked.quiet.cores.trans hs1.quiet.cores), happlied, memBytes_memPut p.data s.mem _,
    fun x hx => memPut_other p.data s.mem _ x hx⟩

theorem readPacket_hbm (h : InOrder s p 0x02) (haddr : p.addr.toNat / 2 ^ 62 = 1) (hd : (s.member s.subject.m).die < 256)
    (hmerges : (s.die (s.member s.subject.m).die).merges = []) (hparts : (partsOf (hbmOf s p) (p.lenm1 + 1)).length ≤ 1) :
    Happens .readPacket s fun t => Quiet s t ∧ Applied s t p ∧ Sends t s.subject.m fun q =>
      q.type = 0x03 ∧ q.dmem = p.smem ∧ q.rtag = p.rtag ∧ q.data = memBytes s.mem (hbmOf s p) (p.lenm1 + 1) ∧ q.poison = poisoned s (hbmOf s p) (p.lenm1 + 1) := by
  refine happens_arrival rfl h (fun h9 => by cases h9) fun s1 hs1 => ?_
  have hnow : ¬Deferred s p (hbmOf s p) := by
    have hsize : servedSize p = p.lenm1 + 1 := by simp only [servedSize, h.type]
    rintro (⟨-, hmany⟩ | hsome)
    · rw [hsize] at hmany
      omega
    · rw [h.type] at hsome
      cases hsome
  have hdrain : (s1.die (Loc.phys (hbmOf s p)).die).merges = [] := by
    rw [hbmOf_die hd, hs1.merges]
    exact hmerges
  obtain ⟨w, hw⟩ : ∃ w, countHeat s1 (.phys (hbmOf s p)) (p.lenm1 + 1) = w := ⟨_, rfl⟩
  have hquiet : Quiet s1 w := hw ▸ quiet_countHeat ..
  have hmember : w.member s.subject.m = s1.member s.subject.m := members_congr (hw ▸ members_countHeat ..) _
  have hread : packetRead s1 s.subject.m (stamped s p) (.phys (hbmOf s p)) = respond w s.subject.m (stamped s p) 0x03
      (memBytes s1.mem (hbmOf s p) (p.lenm1 + 1)) (poisoned s1 (hbmOf s p) (p.lenm1 + 1)) := by
    rw [packetRead]
    rw [show (stamped s p).lenm1 = p.lenm1 from rfl, drainRange_none hdrain, hw]
    rfl
  obtain ⟨hempty, hq, happlied, hsends⟩ := respond_spec (s := s) (w := w) (p := p) (ty := 0x03) (l := memBytes s1.mem (hbmOf s p) (p.lenm1 + 1))
    (poison := poisoned s1 (hbmOf s p) (p.lenm1 + 1)) (.inl rfl) h.fresh (by rw [hmember, hs1.member]; rfl) (by rw [chainAt, hmember]; exact hs1.seq)
    (by rw [hmember, hs1.member]; exact ⟨rfl, rfl⟩)
  rw [applyPkt_hbm hs1 (.inr (.inl h.type)) haddr hnow, servePlace_read _ (show (stamped s p).type = 0x02 from h.type), hread]
  refine ⟨hempty, (hs1.quiet.trans hquiet).trans hq, happlied, ?_⟩
  rw [poisoned_congr hs1.quiet.poison, hs1.quiet.mem] at hsends ⊢
  exact hsends

/-- An atomic that is no reduction acts on bytes without poison: it leaves the new value and returns the old one. -/
theorem packetAtomic_eq {s1 : State} {m : MemberId} {q : Pkt} {k : ℕ} (hplain : q.opx < 128) (hdrain : (s1.die (Loc.phys k).die).merges = [])
    (hpoison : poisoned s1 k (amoSizeOf q.opx) = false) (hoff : OffTables s1 m.vd k (amoSizeOf q.opx)) :
    ∃ w, packetAtomic s1 m q (.phys k) = respond w m q 0x05 (toBytes 8 (memNat s1.mem k (amoSizeOf q.opx))) false ∧ Outside s1 w ∧
      w.mem = memPut s1.mem k (toBytes (amoSizeOf q.opx) (amoNew (amoOfCode q.opx) (amoSizeOf q.opx) (memNat s1.mem k (amoSizeOf q.opx))
        (ofBytes (q.data.take 8) % 2 ^ 64) (ofBytes (q.data.drop 8) % 2 ^ 64))) := by
  obtain ⟨new, hnew⟩ : ∃ new, toBytes (amoSizeOf q.opx) (amoNew (amoOfCode q.opx) (amoSizeOf q.opx) (memNat s1.mem k (amoSizeOf q.opx))
    (ofBytes (q.data.take 8) % 2 ^ 64) (ofBytes (q.data.drop 8) % 2 ^ 64)) = new := ⟨_, rfl⟩
  have hact : actOn s1 m (packetAgent s1 m q) (.phys k) (.amo (amoOfCode q.opx) (amoSizeOf q.opx) (BitVec.ofNat 64 (ofBytes (q.data.take 8)))
      (BitVec.ofNat 64 (ofBytes (q.data.drop 8))) (decide (128 ≤ q.opx))) =
      some (countHeat (putAt s1 m (.phys k) new) (.phys k) (amoSizeOf q.opx), some (.s (BitVec.ofNat 64 (memNat s1.mem k (amoSizeOf q.opx))))) := by
    rw [decide_eq_false (by omega), ← hnew]
    unfold actOn
    dsimp only
    rw [drainRange_none hdrain, poisonAt]
    simp only [Loc.key, hpoison, Bool.false_eq_true, if_false, BitVec.toNat_ofNat]
    rfl
  refine ⟨countHeat (putAt s1 m (.phys k) new) (.phys k) (amoSizeOf q.opx), ?_, (outside_putAt ..).trans (outside_countHeat ..), ?_⟩
  · have hold : toBytes 8 (BitVec.ofNat 64 (memNat s1.mem k (amoSizeOf q.opx))).toNat = toBytes 8 (memNat s1.mem k (amoSizeOf q.opx)) := by
      rw [BitVec.toNat_ofNat]
      exact toBytes_mod 8 _
    rw [← hold]
    simp only [packetAtomic, hact]
  · rw [mem_countHeat, hnew]
    exact mem_putAt_phys (by rw [← hnew, toBytes_length]; exact hoff)

theorem atomicPacket_hbm (h : InOrder s p 0x04) (haddr : p.addr.toNat / 2 ^ 62 = 1) (hd : (s.member s.subject.m).die < 256)
    (hmerges : (s.die (s.member s.subject.m).die).merges = []) (hplain : p.opx < 128) (hpoison : poisoned s (hbmOf s p) (amoSizeOf p.opx) = false)
    (hheld : holder s true (hbmOf s p) 8 = none) (hoff : OffTables s s.subject.m.vd (hbmOf s p) (amoSizeOf p.opx)) :
    Happens .atomicPacket s fun t => t.cores = s.cores ∧ Applied s t p ∧
      memNat t.mem (hbmOf s p) (amoSizeOf p.opx) = amoNew (amoOfCode p.opx) (amoSizeOf p.opx) (memNat s.mem (hbmOf s p) (amoSizeOf p.opx))
        (ofBytes (p.data.take 8) % 2 ^ 64) (ofBytes (p.data.drop 8) % 2 ^ 64) % 256 ^ amoSizeOf p.opx ∧
      (∀ x, x < hbmOf s p ∨ hbmOf s p + amoSizeOf p.opx ≤ x → Tab.get 0 t.mem x = Tab.get 0 s.mem x) ∧
      Sends t s.subject.m fun q => q.type = 0x05 ∧ q.dmem = p.smem ∧ q.rtag = p.rtag ∧ q.data = toBytes 8 (memNat s.mem (hbmOf s p) (amoSizeOf p.opx)) := by
  refine happens_arrival rfl h (fun h9 => by cases h9) fun s1 hs1 => ?_
  have hnow : ¬Deferred s p (hbmOf s p) := by
    have hsize : servedSize p = 8 := by simp only [servedSize, h.type]
    rintro (⟨hatomic, -⟩ | hsome)
    · exact hatomic h.type
    · rw [hsize, h.type] at hsome
      rw [show holder s (decide ((4 : ℕ) ≠ 2)) (hbmOf s p) 8 = none from hheld] at hsome
      cases hsome
  have hdrain : (s1.die (Loc.phys (hbmOf s p)).die).merges = [] := by
    rw [hbmOf_die hd, hs1.merges]
    exact hmerges
  obtain ⟨w, hatomic, hout, hmem⟩ := packetAtomic_eq (q := stamped s p) (s1 := s1) (m := s.subject.m) (k := hbmOf s p) hplain hdrain
    ((poisoned_congr hs1.quiet.poison ..).trans hpoison)
    (offTables_congr (congrArg VD.tables (vd_congr hs1.vds _)) hoff)
  have hmember : w.member s.subject.m = s1.member s.subject.m := members_congr hout.2 _
  rw [show (stamped s p).opx = p.opx from rfl] at hatomic hmem
  rw [show (stamped s p).data = p.data from rfl, hs1.quiet.mem] at hmem
  obtain ⟨hempty, hq, happlied, hsends⟩ := respond_spec (s := s) (w := w) (p := p) (ty := 0x05) (l := toBytes 8 (memNat s1.mem (hbmOf s p) (amoSizeOf p.opx)))
    (poison := false) (.inr rfl) h.fresh (by rw [hmember, hs1.member]; rfl) (by rw [chainAt, hmember]; exact hs1.seq)
    (by rw [hmember, hs1.member]; exact ⟨rfl, rfl⟩)
  rw [applyPkt_hbm hs1 (.inr (.inr h.type)) haddr hnow, servePlace_atomic _ (show (stamped s p).type = 0x04 from h.type), hatomic]
  refine ⟨hempty, hq.cores.trans (hout.1.cores.trans hs1.quiet.cores), happlied, ?_, fun x hx => ?_, ?_⟩
  · rw [hq.mem, hmem]
    exact memNat_memPut ..
  · rw [hq.mem, hmem]
    exact memPut_other _ s.mem _ x (by rw [toBytes_length]; exact hx)
  · rw [hs1.quiet.mem] at hsends ⊢
    exact hsends.mono fun q ⟨hty, hdmem, hrtag, hdata, _⟩ => ⟨hty, hdmem, hrtag, hdata⟩

end

end Sys2Proof.Machine
end

section
/-!
PROOFS.  The other packets at their member (R284, R304, R323, R324, R327, R330): responses, FIFO elements, collective messages, demand, stamps and tickets.
-/
namespace Sys2Proof.Machine

/-! ### Responses (R324) -/

/-- The access of a member that a response with tag `rtag` answers: it waits for another member. -/
def awaitsTag (m : MemberId) (rtag : ℕ) (a : Access) : Bool :=
  decide (a.vd = m.vd ∧ a.member = m.member ∧ a.id % 65536 = rtag) && (match a.st with | .remote _ _ => true | _ => false)

/-- Of the members nothing has changed but applied clocks, of the machine's memories nothing. -/
structure Answered (s t : State) : Prop where
  clk : t.clk = s.clk
  mem : t.mem = s.mem
  agenda : s.agenda ⊆ t.agenda
  members : ∀ m, ∃ clock, t.member m = { s.member m with clock := clock }

theorem members_tick (s : State) (m n : MemberId) : ∃ clock, (tick s m).member n = { s.member n with clock := clock } := by
  rcases member_modMember_cases s m n _ with e | e
  · exact ⟨_, e⟩
  · exact ⟨_, e⟩

theorem Applied.answered {s t u : State} {p : Pkt} (h : Applied s t p) (hu : Answered t u) : Applied s u p := by
  obtain ⟨clock, hm⟩ := hu.members s.subject.m
  exact h.mono hu.clk hu.agenda (hm ▸ rfl) (hm ▸ rfl) (hm ▸ rfl) (hm ▸ rfl)

theorem mem_setAccess {s : State} {a b : Access} (h : a ∈ s.accesses) (hb : b.id = a.id) : b ∈ (s.setAccess b).accesses :=
  List.mem_map.mpr ⟨a, h, if_pos hb.symm⟩

/-- The value of an access that is no copy's: it is on its way to its result. -/
theorem performedAcc_value {s : State} {a : Access} {v : Val} (hkind : (∃ n x, a.kind = .load n x) ∨ ∃ op n b c x, a.kind = .amo op n b c x)
    (hrid : a.rid = 0) (ha : a ∈ s.accesses) : Answered s (performedAcc s a (some v)) ∧ Stands (performedAcc s a (some v)) a.id (.done v) := by
  obtain ⟨u, hu⟩ : ∃ u, ((if a.rel then tick s a.ctx else s).modCore a.k fun c => c.unwait a.id) = u := ⟨_, rfl⟩
  have heq : performedAcc s a (some v) =
      (u.setAccess { a with st := .done v }).draw.due (u.clk + retTime u a) (.event .taggedResultLand { k := a.k, a := a.id }) := by
    unfold performedAcc
    rcases hkind with ⟨n, x, hk⟩ | ⟨op, n, b, c, x, hk⟩ <;> simp only [hk, hu, hrid, ne_eq, not_true_eq_false, if_false]
  have hmem : u.clk = s.clk ∧ u.mem = s.mem ∧ u.accesses = s.accesses ∧ u.agenda = s.agenda := by
    rw [← hu]
    split
    · exact ⟨rfl, rfl, rfl, rfl⟩
    · exact ⟨rfl, rfl, rfl, rfl⟩
  have hmember (m : MemberId) : ∃ clock, u.member m = { s.member m with clock := clock } := by
    rw [← hu, State.member_modCore]
    split
    · exact members_tick ..
    · exact ⟨_, rfl⟩
  obtain ⟨hclk, hm, hacc, hag⟩ := hmem
  rw [heq]
  exact ⟨⟨hclk, hm, hag ▸ List.subset_append_left _ _, hmember⟩, _, mem_setAccess (a := a) (b := { a with st := .done v }) (hacc ▸ ha) rfl, rfl, rfl⟩

theorem deliverResponse_eq {s : State} {m : MemberId} {p : Pkt} {a : Access} (hfind : s.accesses.find? (awaitsTag m p.rtag) = some a) (hpoison : p.poison = false)
    (hkind : (∃ n, a.kind = .load n false) ∨ ∃ op n b c, a.kind = .amo op n b c false) :
    deliverResponse s m p = performedAcc s a (some (.s (BitVec.ofNat 64 (ofBytes p.data)))) := by
  unfold deliverResponse
  split
  · next hnone => cases hfind.symm.trans hnone
  · next a' ha' =>
    cases hfind.symm.trans ha'
    rcases hkind with ⟨n, hk⟩ | ⟨op, n, b, c, hk⟩ <;> simp only [hpoison, hk, Bool.false_eq_true, if_false]

theorem response_happens {s : State} {p : Pkt} {a : Access} {i : Instr} {ty : ℕ} (hi : exec i s = arrival s ty) (hty : ty = 0x03 ∨ ty = 0x05) (h : InOrder s p ty)
    (hfind : s.accesses.find? (awaitsTag s.subject.m p.rtag) = some a) (hrid : a.rid = 0) (hpoison : p.poison = false)
    (hkind : (∃ n, a.kind = .load n false) ∨ ∃ op n b c, a.kind = .amo op n b c false) :
    Happens i s fun t => t.mem = s.mem ∧ Applied s t p ∧ Stands t a.id (.done (.s (BitVec.ofNat 64 (ofBytes p.data)))) := by
  refine happens_arrival hi h (fun h9 => by omega) fun s1 hs1 => ?_
  obtain ⟨u, hu⟩ : ∃ u, appliedPkt s1 s.subject.m (stamped s p) = u := ⟨_, rfl⟩
  have hacked : CountedAcked s.subject.m (stamped s p) s1 u := hu ▸ countedAcked_appliedPkt ..
  have haccesses : u.accesses = s.accesses := hacked.accesses.trans hs1.accesses
  obtain ⟨hanswered, hstands⟩ := performedAcc_value (s := u) (a := a) (v := .s (BitVec.ofNat 64 (ofBytes p.data)))
    (hkind.imp (fun ⟨n, hk⟩ => ⟨n, _, hk⟩) fun ⟨op, n, b, c, hk⟩ => ⟨op, n, b, c, _, hk⟩) hrid (haccesses ▸ List.mem_of_find?_eq_some hfind)
  have happlied := (hs1.applied h.fresh hacked).answered hanswered
  rw [applyPkt_response (p := stamped s p) (by rw [← h.type] at hty; exact hty), hu,
    deliverResponse_eq (p := stamped s p) (a := a) (haccesses ▸ hfind) hpoison hkind]
  exact ⟨happlied.gone.1, hanswered.mem.trans (hacked.quiet.mem.trans hs1.quiet.mem), happlied, hstands⟩

/-! ### Elements of peer FIFOs (R284, R286) -/

/-- An element is last on the in side of its FIFO. -/
theorem fifo_fifoArrive (s : State) (k : CoreId) (i : ℕ) (v : Vec) : (((fifoArrive s k i v).core k).fifo i).inn = ((s.core k).fifo i).inn ++ [v] := by
  rw [fifoArrive, State.core_modCore]
  exact congrArg Fifo.inn (Tab.get_put_same ..)

theorem answered_fifoArrive (s : State) (k : CoreId) (i : ℕ) (v : Vec) : Answered s (fifoArrive s k i v) :=
  ⟨rfl, rfl, List.Subset.refl _, fun _ => ⟨_, rfl⟩⟩

theorem fifoPacket_remote {s : State} {p : Pkt} (h : InOrder s p 0x08) (hremote : p.seq ≠ 0 ∨ p.smem ≠ p.dmem) :
    let k : CoreId := ⟨(s.member s.subject.m).die, p.addr.toNat⟩
    Happens .fifoPacket s fun t => t.mem = s.mem ∧ Applied s t p ∧ ((t.core k).fifo p.opx).inn = ((s.core k).fifo p.opx).inn ++ [vecOf p.data] := by
  intro k
  have hi : exec .fifoPacket s = arrival s 0x08 := by
    change execFifoPacket s = _
    unfold execFifoPacket
    rw [h.pkt]
    exact if_neg fun ⟨_, hseq, hmem, _⟩ => hremote.elim (absurd hseq) (absurd hmem)
  refine happens_arrival hi h (fun h9 => by cases h9) fun s1 hs1 => ?_
  obtain ⟨u, hu⟩ : ∃ u, appliedPkt s1 s.subject.m (stamped s p) = u := ⟨_, rfl⟩
  have hacked : CountedAcked s.subject.m (stamped s p) s1 u := hu ▸ countedAcked_appliedPkt ..
  have hcores : u.cores = s.cores := hacked.quiet.cores.trans hs1.quiet.cores
  have happly : applyPkt s1 s.subject.m (stamped s p) = fifoArrive u k p.opx (vecOf p.data) := by
    rw [applyPkt_fifo (p := stamped s p) h.type, hu, hs1.die]
    rfl
  have happlied := (hs1.applied h.fresh hacked).answered (answered_fifoArrive u k p.opx (vecOf p.data))
  rw [happly]
  refine ⟨happlied.gone.1, hacked.quiet.mem.trans hs1.quiet.mem, happlied, ?_⟩
  rw [fifo_fifoArrive, State.core, hcores, State.core]

/-- The push of a core that a packet over the own die belongs to. -/
def pushOf (m : MemberId) (rtag : ℕ) (a : Access) : Bool :=
  decide (a.vd = m.vd ∧ a.member = m.member ∧ a.id % 65536 = rtag) && (match a.kind with | .fpush _ => true | _ => false)

theorem pushOf_kind {m : MemberId} {rtag : ℕ} {a : Access} (h : pushOf m rtag a = true) : ∃ n, a.kind = .fpush n := by
  rw [pushOf, Bool.and_eq_true] at h
  obtain ⟨-, hkind⟩ := h
  split at hkind
  · next n hn => exact ⟨n, hn⟩
  · cases hkind

theorem fifoPacket_local_eq {s : State} {p : Pkt} (hpkt : s.subject.pkt = some p) (htype : p.type = 0x08) (hseq : p.seq = 0) (hmem : p.smem = p.dmem)
    (hlive : (s.member s.subject.m).live = true) :
    exec .fifoPacket s = .next (fifoArrive (pushDone s s.subject.m p) ⟨(s.member s.subject.m).die, p.addr.toNat⟩ p.opx (vecOf p.data)) := by
  change execFifoPacket s = _
  unfold execFifoPacket
  rw [hpkt]
  exact if_pos ⟨htype, hseq, hmem, hlive⟩

theorem core_modCore_cases (s : State) (k j : CoreId) (f : Core → Core) : (s.modCore k f).core j = f (s.core j) ∨ (s.modCore k f).core j = s.core j := by
  by_cases hj : coreKey j = coreKey k
  · have hcore (u : State) : u.core j = u.core k := congrArg (Tab.get Core.reset u.cores) hj
    left
    rw [hcore, State.core_modCore, hcore]
  · exact .inr (State.core_modCore_other _ _ hj)

/-- A push that has been performed is gone; only its own core can tell. -/
theorem performedAcc_push {s : State} {a : Access} {n : ℕ} (hkind : a.kind = .fpush n) :
    (performedAcc s a none).mem = s.mem ∧ (performedAcc s a none).clk = s.clk ∧ (∀ b ∈ (performedAcc s a none).accesses, b.id ≠ a.id) ∧
      (∀ j, coreKey j ≠ coreKey a.k → (performedAcc s a none).core j = s.core j) ∧ ∀ j, ((performedAcc s a none).core j).fifos = (s.core j).fifos := by
  obtain ⟨u, hu⟩ : ∃ u, ((if a.rel then tick s a.ctx else s).modCore a.k fun c => c.unwait a.id) = u := ⟨_, rfl⟩
  have hopen : stmOpen (u.dropAccess a.id) a = false := by simp only [stmOpen, hkind]
  have hnext : engineNext (u.dropAccess a.id) a = u.dropAccess a.id := by simp [engineNext, hkind]
  have heq : performedAcc s a none =
      if a.tag = 0 then u.dropAccess a.id else (u.dropAccess a.id).modCore a.k fun c => c.ready a.tag := by
    unfold performedAcc
    simp only [hkind, hu, hnext, hopen, Bool.or_false, decide_eq_true_eq]
  have hfacts : u.mem = s.mem ∧ u.clk = s.clk := by
    rw [← hu]
    split
    · exact ⟨rfl, rfl⟩
    · exact ⟨rfl, rfl⟩
  have hticked (j : CoreId) : (if a.rel then tick s a.ctx else s).core j = s.core j := by
    split
    · rfl
    · rfl
  have hothers (j : CoreId) (hj : coreKey j ≠ coreKey a.k) : u.core j = s.core j := by
    rw [← hu, State.core_modCore_other _ _ hj, hticked]
  have hfifos (j : CoreId) : (u.core j).fifos = (s.core j).fifos := by
    rw [← hticked j, ← hu]
    exact (core_modCore_cases ..).elim (congrArg Core.fifos) (congrArg Core.fifos)
  have hgone : ∀ b ∈ (u.dropAccess a.id).accesses, b.id ≠ a.id := fun b hb => of_decide_eq_true (List.mem_filter.mp hb).2
  rw [heq]
  split
  · exact ⟨hfacts.1, hfacts.2, hgone, hothers, hfifos⟩
  · refine ⟨hfacts.1, hfacts.2, hgone, fun j hj => (State.core_modCore_other _ _ hj).trans (hothers j hj), fun j => ?_⟩
    exact ((core_modCore_cases ..).elim (congrArg Core.fifos) (congrArg Core.fifos)).trans (hfifos j)

theorem onlyAt_modCore (s : State) (k : CoreId) (f : Core → Core) : OnlyAt k s (s.modCore k f) :=
  ⟨⟨rfl, rfl, rfl, rfl, rfl, rfl, rfl, rfl, rfl, rfl, rfl, rfl, rfl, rfl, rfl, fun _ hj => State.core_modCore_other _ _ hj⟩, rfl, rfl⟩

theorem pushDone_none {s : State} {m : MemberId} {p : Pkt} (h : s.accesses.find? (pushOf m p.rtag) = none) : pushDone s m p = s := by
  unfold pushDone
  split
  · next a ha => cases h.symm.trans ha
  · rfl

theorem pushDone_some {s : State} {m : MemberId} {p : Pkt} {a : Access} (h : s.accesses.find? (pushOf m p.rtag) = some a) :
    pushDone s m p = performedAcc s a none := by
  unfold pushDone
  split
  · next a' ha =>
    cases h.symm.trans ha
    rfl
  · next hnone => cases h.symm.trans hnone

theorem fifoPacket_local {s : State} {p : Pkt} (hpkt : s.subject.pkt = some p) (htype : p.type = 0x08) (hseq : p.seq = 0) (hmem : p.smem = p.dmem)
    (hlive : (s.member s.subject.m).live = true) :
    let k : CoreId := ⟨(s.member s.subject.m).die, p.addr.toNat⟩
    (s.accesses.find? (pushOf s.subject.m p.rtag) = none → Happens .fifoPacket s fun t =>
      OnlyAt k s t ∧ ((t.core k).fifo p.opx).inn = ((s.core k).fifo p.opx).inn ++ [vecOf p.data]) ∧
    ∀ a, s.accesses.find? (pushOf s.subject.m p.rtag) = some a → Happens .fifoPacket s fun t => t.mem = s.mem ∧ t.clk = s.clk ∧ (∀ b ∈ t.accesses, b.id ≠ a.id) ∧
      (∀ j, coreKey j ≠ coreKey k → coreKey j ≠ coreKey a.k → t.core j = s.core j) ∧
      ((t.core k).fifo p.opx).inn = ((s.core k).fifo p.opx).inn ++ [vecOf p.data] := by
  intro k
  have hexec := fifoPacket_local_eq hpkt htype hseq hmem hlive
  constructor
  · intro hnone
    rw [pushDone_none hnone] at hexec
    exact ⟨_, hexec, onlyAt_modCore .., fifo_fifoArrive ..⟩
  · intro a hfind
    obtain ⟨n, hkind⟩ := pushOf_kind (List.find?_some hfind)
    obtain ⟨hm, hclk, hgone, hothers, hfifos⟩ := performedAcc_push (s := s) hkind
    rw [pushDone_some hfind] at hexec
    refine ⟨_, hexec, hm, hclk, hgone, fun j hk ha => (State.core_modCore_other _ _ hk).trans (hothers j ha), ?_⟩
    rw [fifo_fifoArrive, Core.fifo, hfifos, Core.fifo]

/-! ### Collective messages (R330) -/

/-- Only events have been asked for. -/
def AsksOnly (s t : State) : Prop := ∃ l, t = { s with agenda := s.agenda ++ l }

theorem AsksOnly.refl (s : State) : AsksOnly s s := ⟨[], by rw [List.append_nil]⟩
theorem AsksOnly.trans {s t u : State} (h : AsksOnly s t) (h' : AsksOnly t u) : AsksOnly s u := by
  obtain ⟨l, rfl⟩ := h
  obtain ⟨l', rfl⟩ := h'
  exact ⟨l ++ l', by simp only [List.append_assoc]⟩
theorem asksOnly_after (s : State) (n : ℕ) (i : Instr) (o : Subject) : AsksOnly s (s.after n i o) := ⟨_, rfl⟩
theorem AsksOnly.foldl {α : Type} {f : State → α → State} (hf : ∀ s x, AsksOnly s (f s x)) (l : List α) (s : State) : AsksOnly s (l.foldl f s) :=
  foldl_keeps refl trans hf l s
theorem AsksOnly.quiet {s t : State} (h : AsksOnly s t) : Quiet s t := by obtain ⟨l, rfl⟩ := h; exact ⟨rfl, rfl, rfl, rfl, rfl⟩
theorem AsksOnly.member {s t : State} (h : AsksOnly s t) (m : MemberId) : t.member m = s.member m := by obtain ⟨l, rfl⟩ := h; rfl
theorem AsksOnly.agenda {s t : State} (h : AsksOnly s t) : s.agenda ⊆ t.agenda := by obtain ⟨l, rfl⟩ := h; exact List.subset_append_left _ _
theorem AsksOnly.accesses {s t : State} (h : AsksOnly s t) : t.accesses = s.accesses := by obtain ⟨l, rfl⟩ := h; rfl
theorem AsksOnly.dies {s t : State} (h : AsksOnly s t) : t.dies = s.dies := by obtain ⟨l, rfl⟩ := h; rfl

theorem asksOnly_pokeColl (s : State) (m : MemberId) (cid : Option ℕ) : AsksOnly s (pokeColl s m cid) := by
  unfold pokeColl
  refine .foldl (fun u e => ?_) _ s
  split
  · split
    · unfold askOnce
      split
      · exact .refl u
      · exact asksOnly_after ..
    · exact .refl u
  · exact .refl u

theorem message_happens {s : State} {p : Pkt} {i : Instr} (h : InOrder s p p.type)
    (hi : i = .cdata ∧ p.type = 0x09 ∧ landingFull (s.member s.subject.m) p = false ∨ i = .bartok ∧ p.type = 0x10) :
    Happens i s fun t => Quiet s t ∧ ∃ st, (t.member s.subject.m).landing = (s.member s.subject.m).landing ++ [{ p with stamp := st }] := by
  have hland (s1 : State) (htype : p.type = 0x09 ∨ p.type = 0x10) (hs1 : Taken s s1 p) :
      ((applyPkt s1 s.subject.m (stamped s p)).member s.subject.m).stampWait = [] ∧ Quiet s (applyPkt s1 s.subject.m (stamped s p)) ∧
        ∃ st, ((applyPkt s1 s.subject.m (stamped s p)).member s.subject.m).landing = (s.member s.subject.m).landing ++ [{ p with stamp := st }] := by
    have hacked := acked_ackPkt s1 s.subject.m (stamped s p)
    obtain ⟨hlanding, hwait⟩ := hacked.inbox
    obtain ⟨htaken, hempty⟩ := hs1.inbox
    obtain ⟨u, hu⟩ : ∃ u, (ackPkt s1 s.subject.m (stamped s p)).modMember s.subject.m (fun c => { c with landing := c.landing ++ [stamped s p] }) = u := ⟨_, rfl⟩
    have hasks := asksOnly_pokeColl u s.subject.m (some (stamped s p).cid)
    have hquiet : Quiet (ackPkt s1 s.subject.m (stamped s p)) u := hu ▸ ((AtMember.refl s.subject.m _).modMember _).quiet
    rw [applyPkt_message (p := stamped s p) htype, hu, hasks.member, ← hu, State.member_modMember, hu, hlanding, hwait, htaken]
    refine ⟨hempty, ((hs1.quiet.trans hacked.quiet).trans hquiet).trans hasks.quiet, builtStamp s p, ?_⟩
    rw [stamped]
  rcases hi with ⟨rfl, htype, hroom⟩ | ⟨rfl, htype⟩ <;> rw [htype] at h
  · exact happens_arrival rfl h (fun _ => hroom) fun s1 hs1 => hland s1 (.inl htype) hs1
  · exact happens_arrival rfl h (fun h9 => by cases h9) fun s1 hs1 => hland s1 (.inr htype) hs1

end Sys2Proof.Machine
end

section
/-!
PROOFS.  Stamps, tickets and demand at a member (R304, R323, R327).
-/
namespace Sys2Proof.Machine

/-! ### CFLUSH (R323) -/

theorem noteApplied_stamp (ch : Chain) (seq : ℕ) : (noteApplied ch seq).stamp = ch.stamp := by
  cases ch
  rfl

theorem CountedAcked.stamp {m : MemberId} {p q : Pkt} {s t : State} (h : CountedAcked m q s t) (hq : chainKey q = chainKey p) :
    (chainAt t m p).stamp = (chainAt s m p).stamp := by
  obtain ⟨clock, out, sent, hmember⟩ := h.member
  have hnote (c : Member) : (Tab.get Chain.start (c.note q).inChain (chainKey p)).stamp = (Tab.get Chain.start c.inChain (chainKey p)).stamp := by
    rw [← hq]
    exact (congrArg Chain.stamp (Tab.get_put_same _ _ (chainKey q) _)).trans (noteApplied_stamp ..)
  rw [chainAt, hmember]
  exact hnote _

theorem Taken.stamp {s s1 : State} {p : Pkt} (h : Taken s s1 p) : (chainAt s1 s.subject.m p).stamp = builtStamp s p := by
  rw [chainAt, h.member]
  exact congrArg Chain.stamp (Tab.get_put_same _ _ (chainKey p) _)

/-- The entries of a CFLUSH stand in the stamp from its base on, but those that no member has. -/
theorem get_flushInto (n base : ℕ) (val : ℕ → ℕ) (stamp : Tab ℕ) {i : ℕ} (hi : i < 64) :
    Tab.get 0 (flushInto n base val stamp) (base + i) = if base + i < n then val i else Tab.get 0 stamp (base + i) := by
  suffices h : ∀ k, Tab.get 0 ((List.range k).foldl (fun a i => if base + i < n then Tab.put 0 a (base + i) (val i) else a) stamp) (base + i) =
      if i < k ∧ base + i < n then val i else Tab.get 0 stamp (base + i) by
    rw [flushInto, h 64]
    simp [hi]
  intro k
  induction k with
  | zero => simp
  | succ k ih =>
    rw [List.range_succ, List.foldl_append, List.foldl_cons, List.foldl_nil]
    by_cases hk : base + k < n
    · rw [if_pos hk, Tab.get_put, ih]
      by_cases hik : i = k
      · subst hik
        simp [hk]
      · rw [if_neg (by omega)]
        exact if_congr (by omega) rfl rfl
    · rw [if_neg hk, ih]
      exact if_congr (by omega) rfl rfl

theorem cflush_happens {s : State} {p : Pkt} (h : InOrder s p 0x0D) :
    Happens .cflush s fun t => Quiet s t ∧ Applied s t p ∧ ∀ i < 64, Tab.get 0 (chainAt t s.subject.m p).stamp (p.addr.toNat % 256 + i) =
      if p.addr.toNat % 256 + i < (s.vd s.subject.m.vd).params.n then ofBytes ((p.data.drop (4 * i)).take 4)
      else Tab.get 0 (chainAt s s.subject.m p).stamp (p.addr.toNat % 256 + i) := by
  refine happens_arrival rfl h (fun h9 => by cases h9) fun s1 hs1 => ?_
  have hacked := countedAcked_appliedPkt s1 s.subject.m (stamped s p)
  have happlied := hs1.applied h.fresh hacked
  rw [applyPkt_flush (p := stamped s p) h.type]
  refine ⟨happlied.gone.1, hs1.quiet.trans hacked.quiet, happlied, fun i hi => ?_⟩
  rw [hacked.stamp (p := p) rfl, hs1.stamp, builtStamp, rebuildStamp, if_pos h.type]
  exact get_flushInto _ _ (fun i => ofBytes ((p.data.drop (4 * i)).take 4)) _ hi

/-! ### Tickets (R327) -/

theorem tkreq_happens {s : State} {p : Pkt} (h : InOrder s p 0x0E) :
    let d := (s.member s.subject.m).die
    Happens .tkreq s fun t => Quiet s t ∧ Applied s t p ∧ Tab.get 0 (t.die d).tickets (s.die d).ticketNext = memberKey ⟨s.subject.m.vd, p.smem⟩ + 1 ∧
      (t.die d).ticketNext = (s.die d).ticketNext + 1 ∧ Coming t s.clk .ticketCall { a := d } := by
  intro d
  refine happens_arrival rfl h (fun h9 => by cases h9) fun s1 hs1 => ?_
  obtain ⟨u, hu⟩ : ∃ u, appliedPkt s1 s.subject.m (stamped s p) = u := ⟨_, rfl⟩
  have hacked : CountedAcked s.subject.m (stamped s p) s1 u := hu ▸ countedAcked_appliedPkt ..
  have happlied := hs1.applied h.fresh hacked
  have hnext : (u.die d).ticketNext = (s.die d).ticketNext := (congrArg Die.ticketNext (die_congr hacked.dies d)).trans (congrArg Die.ticketNext (hs1.dies d) :)
  have hclk : u.clk = s.clk := hacked.quiet.clk.trans hs1.quiet.clk
  have hdie : (u.member s.subject.m).die = d := by
    obtain ⟨clock, out, sent, hmember⟩ := hacked.member
    rw [hmember]
    exact hs1.die
  obtain ⟨v, hv⟩ : ∃ v, (u.modDie d fun t => { t with tickets := Tab.put 0 t.tickets t.ticketNext (memberKey ⟨s.subject.m.vd, p.smem⟩ + 1), ticketNext := t.ticketNext + 1 }) = v :=
    ⟨_, rfl⟩
  have htake : applyPkt s1 s.subject.m (stamped s p) = v.after 0 .ticketCall { a := d } := by
    rw [applyPkt_ticket (p := stamped s p) h.type, hu, takeTicket]
    rw [hdie, ← hv]
    rfl
  have hquiet : Quiet u v := hv ▸ ⟨rfl, rfl, rfl, rfl, rfl⟩
  have hvdie : v.die d = { u.die d with
    tickets := Tab.put 0 (u.die d).tickets (u.die d).ticketNext (memberKey ⟨s.subject.m.vd, p.smem⟩ + 1), ticketNext := (u.die d).ticketNext + 1 } := by
    rw [← hv, State.die_modDie]
  have hvmember : v.member s.subject.m = u.member s.subject.m := by rw [← hv, State.member_modDie]
  have hagenda : u.agenda = v.agenda := by rw [← hv]; rfl
  have happlied' : Applied s (v.after 0 .ticketCall { a := d }) p :=
    happlied.mono hquiet.clk (hagenda ▸ List.subset_append_left _ _) (congrArg Member.received hvmember) (congrArg Member.inChain hvmember)
      (congrArg Member.stampWait hvmember) (congrArg Member.unbuilt hvmember)
  have hcoming := coming_after v 0 .ticketCall { a := d }
  rw [Nat.add_zero, hquiet.clk, hclk] at hcoming
  rw [htake]
  refine ⟨happlied'.gone.1, ((hs1.quiet.trans hacked.quiet).trans hquiet).trans ⟨rfl, rfl, rfl, rfl, rfl⟩, happlied', ?_, ?_, hcoming⟩
  · rw [State.die_after, hvdie, ← hnext]
    exact Tab.get_put_same 0 (u.die d).tickets (u.die d).ticketNext (memberKey ⟨s.subject.m.vd, p.smem⟩ + 1)
  · rw [State.die_after, hvdie, ← hnext]

/-- Events asked for at once, one after another. -/
theorem coming_foldl_after {α : Type} (i : Instr) (o : α → Subject) {x : α} (l : List α) (s : State) (hx : x ∈ l) :
    Coming (l.foldl (fun s x => s.after 0 i (o x)) s) s.clk i (o x) := by
  induction l generalizing s with
  | nil => cases hx
  | cons y l ih =>
    rw [List.foldl_cons]
    rcases List.mem_cons.mp hx with rfl | hx
    · exact (AsksOnly.foldl (fun u _ => asksOnly_after u ..) l _).agenda (coming_after s 0 i (o x))
    · exact ih (s.after 0 i (o y)) hx

theorem tkcall_happens {s : State} {p : Pkt} (h : InOrder s p 0x0F) :
    Happens .tkcall s fun t => Quiet s t ∧ Applied s t p ∧ Tab.get 0 (t.member s.subject.m).tickets p.smem = 1 + 65536 ∧
      ∀ e < 4, Coming t s.clk .chunkIssue { m := s.subject.m, a := e } := by
  refine happens_arrival rfl h (fun h9 => by cases h9) fun s1 hs1 => ?_
  obtain ⟨u, hu⟩ : ∃ u, appliedPkt s1 s.subject.m (stamped s p) = u := ⟨_, rfl⟩
  have hacked : CountedAcked s.subject.m (stamped s p) s1 u := hu ▸ countedAcked_appliedPkt ..
  obtain ⟨v, hv⟩ : ∃ v, (u.modMember s.subject.m fun c => { c with tickets := Tab.put 0 c.tickets p.smem (1 + 65536) }) = v := ⟨_, rfl⟩
  have hmember : v.member s.subject.m = { u.member s.subject.m with tickets := Tab.put 0 (u.member s.subject.m).tickets p.smem (1 + 65536) } := by
    rw [← hv, State.member_modMember]
  have hat : AtMember s.subject.m u v := hv ▸ (AtMember.refl _ u).modMember _
  have hcall : applyPkt s1 s.subject.m (stamped s p) = (List.range 4).foldl (fun t e => t.after 0 .chunkIssue { m := s.subject.m, a := e }) v := by
    rw [applyPkt_call (p := stamped s p) h.type, hu, ← hv]
    rfl
  have hasks : AsksOnly v ((List.range 4).foldl (fun t e => t.after 0 .chunkIssue { m := s.subject.m, a := e }) v) := .foldl (fun u _ => asksOnly_after u ..) _ v
  have hclk : v.clk = s.clk := (hacked.toAtMember.trans hat).quiet.clk.trans hs1.quiet.clk
  have happlied : Applied s ((List.range 4).foldl (fun t e => t.after 0 .chunkIssue { m := s.subject.m, a := e }) v) p :=
    (hs1.applied h.fresh hacked).mono (hasks.quiet.clk.trans hat.quiet.clk) (List.Subset.trans hat.agenda hasks.agenda)
      (by rw [hasks.member, hmember]) (by rw [hasks.member, hmember]) (by rw [hasks.member, hmember]) (by rw [hasks.member, hmember])
  rw [hcall]
  refine ⟨happlied.gone.1, ((hs1.quiet.trans hacked.quiet).trans hat.quiet).trans hasks.quiet, happlied, ?_, fun e he => ?_⟩
  · rw [hasks.member, hmember]
    exact Tab.get_put_same 0 (u.member s.subject.m).tickets p.smem (1 + 65536)
  · rw [← hclk]
    exact coming_foldl_after .chunkIssue (fun e => { m := s.subject.m, a := e }) (List.range 4) v (List.mem_range.mpr he)

/-! ### Demand (R48, R304) -/

/-- A demand for a word whose task has not fired raises the task's count. -/
theorem demand_local {s : State} {p : Pkt} {q : Producer} {h : ℕ} {x : Task} (hpkt : s.subject.pkt = some p) (htype : p.type = 0x0A) (hseq : p.seq = 0)
    (hdmem : p.dmem = s.subject.m.member) (hlive : (s.member s.subject.m).live = true) (hmem : p.smem = p.dmem) (hinc : p.opx = 1)
    (hfind : (s.member s.subject.m).producers.find? (fun q => decide (q.word = p.addr.toNat ∧ q.member = s.subject.m.member)) = some q) (howner : q.owner = .task h)
    (hx : (s.member s.subject.m).task h = some x) :
    Happens .demand s fun t => Quiet s t ∧ t.agenda = s.agenda ∧
      (t.member s.subject.m).task h = some { x with demand := if x.demand = 255 then 255 else x.demand + 1 } := by
  have hstep : demandStep x.demand true = if x.demand = 255 then 255 else x.demand + 1 := by simp [demandStep]
  have hpos : ¬(demandStep x.demand true = 0 ∧ x.demand ≠ 0) := by
    rw [hstep]
    split <;> omega
  have hself : (⟨s.subject.m.vd, p.smem⟩ : MemberId) = s.subject.m := by rw [hmem, hdmem]
  have hact : demandAct s s.subject.m p.smem p.addr.toNat (decide (p.opx = 1)) =
      s.modMember s.subject.m fun c => c.setTask h (some { x with demand := demandStep x.demand true }) := by
    unfold demandAct
    rw [hself, hfind, hinc]
    simp only [howner, hx, decide_true, if_neg hpos]
  have hexec : exec .demand s = .next (demandAct s s.subject.m p.smem p.addr.toNat (decide (p.opx = 1))) := by
    change execDemand s = _
    unfold execDemand
    rw [hpkt]
    simp only [hseq, htype, hdmem, hlive, hmem, ne_eq, not_true_eq_false, if_false, if_true, Bool.not_true, Bool.false_eq_true, or_self]
  refine ⟨_, hexec, ?_⟩
  rw [hact]
  refine ⟨⟨rfl, rfl, rfl, rfl, rfl⟩, rfl, ?_⟩
  rw [State.member_modMember, ← hstep]
  exact Tab.get_put_same none (s.member s.subject.m).pool h (some { x with demand := demandStep x.demand true })

theorem demand_remote {s : State} {p : Pkt} (hpkt : s.subject.pkt = some p) (htype : p.type = 0x0A) (hseq : p.seq = 0) (hdmem : p.dmem = s.subject.m.member)
    (hlive : (s.member s.subject.m).live = true) (hmem : p.smem ≠ p.dmem) :
    Happens .demand s fun t => Quiet s t ∧ Sends t ⟨s.subject.m.vd, p.smem⟩ fun q => q.type = 0x0A ∧ q.dmem = p.dmem ∧ q.addr = p.addr ∧ q.opx = p.opx := by
  have hexec : exec .demand s = .next (sendPkt s ⟨s.subject.m.vd, p.smem⟩ p) := by
    change execDemand s = _
    unfold execDemand
    rw [hpkt]
    simp [hseq, htype, hdmem, hlive, hdmem ▸ hmem]
  exact ⟨_, hexec, ((Injects.refl s).sendPkt ..).quiet, sends_sendPkt s _ (by omega) (by omega) fun q hq =>
    ⟨hq.type.trans htype, hq.dmem, hq.addr, hq.opx⟩⟩

end Sys2Proof.Machine
end

section
/-!
PROOFS.  Switches, beacons, rate limiters and ticket windows (R110, R317, R324 to R327, R414, R454).
-/
namespace Sys2Proof.Machine

/-! ### SWITCH_PACKET_FORWARD (R317, R325, R414) -/

section
variable {s : State} {p : Pkt}

theorem switchPacketForward_eq (hpkt : s.subject.pkt = some p) : exec .switchPacketForward s = .next (switchForward s s.subject.a p) := by
  change execSwitchPacketForward s = _
  unfold execSwitchPacketForward
  rw [hpkt]

/-- The package whose switches a packet goes to. -/
def homeOf (s : State) (p : Pkt) : ℕ := if p.type = 0x0B then pkgOf (s.member ⟨vdOfGang s p.gang, 0⟩).die else pkgOf p.ddie

theorem switchForward_lost {w : ℕ} (h : 4096 ≤ w ∨ (s.switch w).down = true) :
    switchForward s w p = if p.type = 0x0B then s.after 42500 .switchPacketForward { a := switchPos s p, pkt := some p } else s :=
  if_pos (by simpa using h)

theorem switchForward_up {w : ℕ} (hw : w < 4096) (hup : (s.switch w).down = false) : switchForward s w p =
    if pktBad p then dropPkt s w p
    else if homeOf s p ≠ switchPkg w then
      if reachUp s (switchPkg w) (homeOf s p) (w % 16) then s.after 260 .switchPacketForward { a := 16 * homeOf s p + w % 16, pkt := some p } else s
    else if p.type = 0x0B then s.after 0 .sredPacket { a := w, pkt := some p }
    else if p.type = 0x20 ∨ p.type = 0x22 ∨ p.type = 0x23 then s
    else switchOut s w p :=
  if_neg (by simp [hup, hw])

theorem dropPkt_spec (s : State) (w : ℕ) (p : Pkt) : Quiet s (dropPkt s w p) ∧ (dropPkt s w p).agenda = s.agenda ∧
    Tab.get 0 ((dropPkt s w p).switch w).drops p.gang = Tab.get 0 (s.switch w).drops p.gang + 1 ∧
    Tab.get 0 ((dropPkt s w p).switch w).received p.gang = Tab.get 0 (s.switch w).received p.gang + 1 := by
  have hswitch : (dropPkt s w p).switch w = { s.switch w with
      received := Tab.put 0 (s.switch w).received p.gang (Tab.get 0 (s.switch w).received p.gang + 1)
      drops := Tab.put 0 (s.switch w).drops p.gang (Tab.get 0 (s.switch w).drops p.gang + 1) } := by
    rw [dropPkt, countDrop, telemetry, State.switch_report, State.switch_modSwitch, State.switch_modSwitch]
  refine ⟨⟨rfl, rfl, rfl, rfl, rfl⟩, rfl, ?_, ?_⟩
  · rw [hswitch]
    exact Tab.get_put_same 0 (s.switch w).drops p.gang (Tab.get 0 (s.switch w).drops p.gang + 1)
  · rw [hswitch]
    exact Tab.get_put_same 0 (s.switch w).received p.gang (Tab.get 0 (s.switch w).received p.gang + 1)

theorem switchOut_spec (s : State) (w : ℕ) (p : Pkt) : Quiet s (switchOut s w p) ∧ (switchOut s w p).members = s.members ∧
    Coming (switchOut s w p) (s.clk + 30) (arrivalEvent p.type) 
      { m := ⟨vdOfGang s p.gang, p.dmem⟩, a := w, pkt := some { p with mark := p.mark || decide (32768 < Tab.get 0 (s.switch w).outQueue p.ddie) } } :=
  ⟨⟨rfl, rfl, rfl, rfl, rfl⟩, rfl, List.mem_append_right _ (.head _)⟩

theorem switchPacketForward_happens (hpkt : s.subject.pkt = some p) :
    let w := s.subject.a
    (4096 ≤ w ∨ (s.switch w).down = true → p.type ≠ 0x0B → Happens .switchPacketForward s fun t => t = s) ∧
    (4096 ≤ w ∨ (s.switch w).down = true → p.type = 0x0B → Happens .switchPacketForward s fun t => Quiet s t ∧ t.members = s.members ∧
      Coming t (s.clk + 42500) .switchPacketForward { a := switchPos s p, pkt := some p }) ∧
    (w < 4096 → (s.switch w).down = false → pktBad p = false → homeOf s p ≠ switchPkg w →
      (reachUp s (switchPkg w) (homeOf s p) (w % 16) = true → Happens .switchPacketForward s fun t => Quiet s t ∧ t.members = s.members ∧
        Coming t (s.clk + 260) .switchPacketForward { a := 16 * homeOf s p + w % 16, pkt := some p }) ∧
      (reachUp s (switchPkg w) (homeOf s p) (w % 16) = false → Happens .switchPacketForward s fun t => t = s)) ∧
    (w < 4096 → (s.switch w).down = false → pktBad p = false → homeOf s p = switchPkg w → p.type = 0x0B →
      Happens .switchPacketForward s fun t => Quiet s t ∧ t.members = s.members ∧ Coming t s.clk .sredPacket { a := w, pkt := some p }) ∧
    (w < 4096 → (s.switch w).down = false → pktBad p = true → Happens .switchPacketForward s fun t => Quiet s t ∧ t.agenda = s.agenda ∧
      Tab.get 0 (t.switch w).drops p.gang = Tab.get 0 (s.switch w).drops p.gang + 1 ∧ Tab.get 0 (t.switch w).received p.gang = Tab.get 0 (s.switch w).received p.gang + 1) ∧
    (w < 4096 → (s.switch w).down = false → pktBad p = false → homeOf s p = switchPkg w → p.type ∈ [0x20, 0x22, 0x23] →
      Happens .switchPacketForward s fun t => t = s) ∧
    (w < 4096 → (s.switch w).down = false → pktBad p = false → homeOf s p = switchPkg w → p.type ∉ [0x0B, 0x20, 0x22, 0x23] →
      Happens .switchPacketForward s fun t => Quiet s t ∧ t.members = s.members ∧ Coming t (s.clk + 30) (arrivalEvent p.type)
        { m := ⟨vdOfGang s p.gang, p.dmem⟩, a := w, pkt := some { p with mark := p.mark || decide (32768 < Tab.get 0 (s.switch w).outQueue p.ddie) } }) := by
  intro w
  have hexec := switchPacketForward_eq hpkt
  have hasked (n : ℕ) (i : Instr) (o : Subject) : Quiet s (s.after n i o) ∧ (s.after n i o).members = s.members ∧ Coming (s.after n i o) (s.clk + n) i o :=
    ⟨⟨rfl, rfl, rfl, rfl, rfl⟩, rfl, coming_after ..⟩
  refine ⟨fun hlost hty => ?_, fun hlost hty => ?_, fun hw hup hgood hhome => ⟨fun hreach => ?_, fun hreach => ?_⟩, fun hw hup hgood hhome hty => ?_,
    fun hw hup hbad => ?_, fun hw hup hgood hhome hty => ?_, fun hw hup hgood hhome hty => ?_⟩
  · rw [switchForward_lost hlost, if_neg hty] at hexec
    exact ⟨s, hexec, rfl⟩
  · rw [switchForward_lost hlost, if_pos hty] at hexec
    exact ⟨_, hexec, hasked ..⟩
  · rw [switchForward_up hw hup, hgood, if_neg Bool.false_ne_true, if_pos hhome, if_pos hreach] at hexec
    exact ⟨_, hexec, hasked ..⟩
  · rw [switchForward_up hw hup, hgood, if_neg Bool.false_ne_true, if_pos hhome, hreach, if_neg Bool.false_ne_true] at hexec
    exact ⟨s, hexec, rfl⟩
  · rw [switchForward_up hw hup, hgood, if_neg Bool.false_ne_true, if_neg (not_not_intro hhome), if_pos hty] at hexec
    exact ⟨_, hexec, hasked ..⟩
  · rw [switchForward_up hw hup, hbad, if_pos rfl] at hexec
    exact ⟨_, hexec, dropPkt_spec ..⟩
  · simp only [List.mem_cons, List.not_mem_nil, or_false] at hty
    rw [switchForward_up hw hup, hgood, if_neg Bool.false_ne_true, if_neg (not_not_intro hhome), if_neg (by omega), if_pos hty] at hexec
    exact ⟨s, hexec, rfl⟩
  · simp only [List.mem_cons, List.not_mem_nil, or_false, not_or] at hty
    rw [switchForward_up hw hup, hgood, if_neg Bool.false_ne_true, if_neg (not_not_intro hhome), if_neg hty.1, if_neg (by tauto)] at hexec
    exact ⟨_, hexec, switchOut_spec ..⟩

end

/-! ### Beacons (R110, R324) -/

theorem DrawsOnly.quiet {s t : State} (h : DrawsOnly s t) : Quiet s t := by
  obtain ⟨n, l, rfl⟩ := h
  exact ⟨rfl, rfl, rfl, rfl, rfl⟩
theorem DrawsOnly.agenda {s t : State} (h : DrawsOnly s t) : s.agenda ⊆ t.agenda := by
  obtain ⟨n, l, rfl⟩ := h
  exact List.subset_append_left _ _

/-- The beacon of a member to member `j`. -/
def beaconTo (m : MemberId) (gang v : ℕ) (j : ℕ) : Pkt := { (Pkt.local m.member j 0x21 (BitVec.ofNat 64 v) 0) with vc := 0, gang := gang }

/-- One beacon has left. -/
def sendBeacon (m : MemberId) (v : ℕ) (s : State) (j : ℕ) : State :=
  s.draw.after (39 + s.delay) .beacon { m := ⟨m.vd, j⟩, pkt := some (beaconTo m (s.vd m.vd).gang v j) }

theorem drawsOnly_sendBeacon (m : MemberId) (v : ℕ) (s : State) (j : ℕ) : DrawsOnly s (sendBeacon m v s j) := ⟨_, _, rfl⟩

theorem coming_sendBeacons (m : MemberId) (v : ℕ) {j : ℕ} (l : List ℕ) (s : State) (hj : j ∈ l) :
    ∃ at_ gang, s.clk < at_ ∧ Coming (l.foldl (sendBeacon m v) s) at_ .beacon { m := ⟨m.vd, j⟩, pkt := some (beaconTo m gang v j) } := by
  induction l generalizing s with
  | nil => cases hj
  | cons i l ih =>
    rw [List.foldl_cons]
    rcases List.mem_cons.mp hj with rfl | hj
    · exact ⟨s.clk + (39 + s.delay), _, by omega, (DrawsOnly.foldl (drawsOnly_sendBeacon m v) l _).agenda (coming_after s.draw ..)⟩
    · exact ih (sendBeacon m v s i) hj

theorem beaconTimer_happens {s : State} (hctx : (s.die (s.member s.subject.m).die).ctx = some s.subject.m) :
    let m := s.subject.m
    Happens .beaconTimer s fun t => Quiet s t ∧ t.members = s.members ∧ Coming t (s.clk + 1700) .beaconTimer { m := m } ∧
      ∀ j < (s.vd m.vd).params.n, j ≠ m.member → ∃ at_ q, s.clk < at_ ∧ Coming t at_ .beacon { m := ⟨m.vd, j⟩, pkt := some q } ∧
        q.type = 0x21 ∧ q.smem = m.member ∧ q.addr = BitVec.ofNat 64 (Tab.get 0 (s.member m).clock m.member) := by
  intro m
  obtain ⟨u, hu⟩ : ∃ u, sendBeacons s m = u := ⟨_, rfl⟩
  have hfold : ((List.range (s.vd m.vd).params.n).filter fun j => decide (j ≠ m.member)).foldl
      (sendBeacon m (Tab.get 0 (s.member m).clock m.member)) s = u := hu
  have hdraws : DrawsOnly s u := hfold ▸ .foldl (drawsOnly_sendBeacon m _) _ s
  have hexec : exec .beaconTimer s = .next (u.afterM 1700 .beaconTimer m) := by
    change execBeaconTimer s = _
    unfold execBeaconTimer
    rw [if_pos hctx, hu]
  have htimer := coming_after u 1700 .beaconTimer { m := m }
  rw [hdraws.quiet.clk] at htimer
  refine ⟨_, hexec, hdraws.quiet.trans ⟨rfl, rfl, rfl, rfl, rfl⟩, hdraws.members, htimer, fun j hj hne => ?_⟩
  obtain ⟨at_, gang, hat, hcoming⟩ := coming_sendBeacons m (Tab.get 0 (s.member m).clock m.member) (j := j)
    ((List.range (s.vd m.vd).params.n).filter fun j => decide (j ≠ m.member)) s (List.mem_filter.mpr ⟨List.mem_range.mpr hj, decide_eq_true hne⟩)
  rw [hfold] at hcoming
  exact ⟨at_, _, hat, hcoming.after .., rfl, rfl, rfl⟩

theorem beacon_happens {s : State} {p : Pkt} (hpkt : s.subject.pkt = some p) (htype : p.type = 0x21) (hlive : (s.member s.subject.m).live = true) :
    let m := s.subject.m
    Happens .beacon s fun t => Quiet s t ∧ Tab.get 0 (t.member m).clock p.smem = clockMax (Tab.get 0 (s.member m).clock p.smem) p.addr.toNat ∧
      ∀ j, j ≠ p.smem → Tab.get 0 (t.member m).clock j = Tab.get 0 (s.member m).clock j := by
  intro m
  have hexec : exec .beacon s = .next (raiseClock s m p.smem p.addr.toNat) := by
    change execBeacon s = _
    unfold execBeacon
    rw [hpkt]
    exact if_pos ⟨htype, hlive⟩
  have hclock : ((raiseClock s m p.smem p.addr.toNat).member m).clock =
      Tab.put 0 (s.member m).clock p.smem (clockMax (Tab.get 0 (s.member m).clock p.smem) p.addr.toNat) := congrArg Member.clock (member_raiseClock ..)
  refine ⟨_, hexec, (atMember_raiseClock ..).quiet, ?_, fun j hj => ?_⟩
  · rw [hclock]
    exact Tab.get_put_same ..
  · rw [hclock, Tab.get_put, if_neg hj]

end Sys2Proof.Machine
end

section
/-!
PROOFS.  Rate limiters, ticket windows and calls (R326, R327), retransmission (R446, R447) and the report of a packet that still waits (R454).
-/
namespace Sys2Proof.Machine

/-! ### Rate limiters (R326) -/

/-- A rate below line rate that a rise does not bring there is still below it. -/
theorem rateRise_ne {r : ℕ × ℕ} (h : ¬r.2 ≤ r.1 + r.2 / 32) : rateRise r ≠ lineRate := by
  rw [rateRise, if_neg h]
  intro heq
  obtain ⟨h1, h2⟩ := Prod.mk.inj heq
  rw [h1, h2] at h
  exact h (Nat.le_refl _)

theorem rateLimitRise_happens {s : State} :
    let o := s.subject
    let r := Tab.get lineRate (s.member o.m).rate o.a
    let top := decide (r.2 ≤ r.1 + r.2 / 32)
    Tab.get 0 (s.member o.m).echoAt o.a + 3400 ≤ s.clk → r ≠ lineRate →
    Happens .rateLimitRise s fun t => Quiet s t ∧
      Tab.get lineRate (t.member o.m).rate o.a = (if top then lineRate else (r.1 + r.2 / 32, r.2)) ∧ Tab.get 0 (t.member o.m).echoAt o.a = s.clk ∧
      (top = false → Coming t (s.clk + 3400) .rateLimitRise o) := by
  intro o r top hecho hr
  obtain ⟨u, hu⟩ : ∃ u, (s.modMember o.m fun c =>
    { c with rate := Tab.put lineRate c.rate o.a (rateRise r), echoAt := Tab.put 0 c.echoAt o.a s.clk }) = u := ⟨_, rfl⟩
  have hquiet : Quiet s u := hu ▸ ⟨rfl, rfl, rfl, rfl, rfl⟩
  have hrate : Tab.get lineRate (u.member o.m).rate o.a = rateRise r := by
    rw [← hu, State.member_modMember]
    exact Tab.get_put_same lineRate (s.member o.m).rate o.a (rateRise r)
  have hat : Tab.get 0 (u.member o.m).echoAt o.a = s.clk := by
    rw [← hu, State.member_modMember]
    exact Tab.get_put_same 0 (s.member o.m).echoAt o.a s.clk
  have hexec : exec .rateLimitRise s = .next (if rateRise r ≠ lineRate then u.after 3400 .rateLimitRise o else u) := by
    change execRateLimitRise s = _
    unfold execRateLimitRise
    rw [← hu]
    exact if_pos ⟨hecho, hr⟩
  have hrise : rateRise r = if top then lineRate else (r.1 + r.2 / 32, r.2) := by
    simp only [rateRise, top, decide_eq_true_eq]
  rw [← hrise]
  refine ⟨_, hexec, ?_⟩
  split
  · next hbelow =>
    have hcoming := coming_after u 3400 .rateLimitRise o
    rw [hquiet.clk] at hcoming
    exact ⟨hquiet.trans ⟨rfl, rfl, rfl, rfl, rfl⟩, hrate, hat, fun _ => hcoming⟩
  · next hline => exact ⟨hquiet, hrate, hat, fun htop => absurd (rateRise_ne (of_decide_eq_false htop)) hline⟩

/-! ### Ticket windows and calls (R327) -/

theorem ticketWindowEnd_happens (s : State) :
    let i := s.subject.a
    let d := s.die i
    Happens .ticketWindowEnd s fun t => Quiet s t ∧ (t.die i).arrivals = 0 ∧ (t.die i).marked = 0 ∧ Coming t (s.clk + 13600) .ticketWindowEnd s.subject ∧
      (t.die i).ticketMode = if d.arrivals < 2 * d.marked then true else if 8 * d.marked ≤ d.arrivals ∧ d.tickets = [] then false else d.ticketMode := by
  intro i d
  refine ⟨_, rfl, ⟨rfl, rfl, rfl, rfl, rfl⟩, ?_, ?_, coming_after (State.modDie ..) 13600 .., ?_⟩
  · rw [State.die_after, State.die_modDie]
  · rw [State.die_after, State.die_modDie]
  · rw [State.die_after, State.die_modDie]
    simp only [List.isEmpty_iff]
    rfl

theorem ticketCall_waits {s : State} {n key : ℕ} {rest : Tab ℕ} {m : MemberId} (htickets : (s.die s.subject.a).tickets = (n, key) :: rest)
    (hctx : (s.die s.subject.a).ctx = some m) (hwait : 16384 ≤ (s.die s.subject.a).ingress ∨ s.clk < (s.die s.subject.a).lastCall + 850) :
    Happens .ticketCall s fun t => Quiet s t ∧ t.dies = s.dies ∧ Coming t (s.clk + 850) .ticketCall s.subject := by
  have hexec : exec .ticketCall s = .next (s.after 850 .ticketCall s.subject) := by
    change execTicketCall s = _
    unfold execTicketCall
    simp only [htickets, hctx]
    exact if_pos hwait
  exact ⟨_, hexec, ⟨rfl, rfl, rfl, rfl, rfl⟩, rfl, coming_after ..⟩

theorem ticketCall_calls {s : State} {n key : ℕ} {rest : Tab ℕ} {m : MemberId} (htickets : (s.die s.subject.a).tickets = (n, key) :: rest)
    (hctx : (s.die s.subject.a).ctx = some m) (hroom : (s.die s.subject.a).ingress < 16384) (hlast : (s.die s.subject.a).lastCall + 850 ≤ s.clk) :
    Happens .ticketCall s fun t => Quiet s t ∧ (t.die s.subject.a).tickets = rest ∧ (t.die s.subject.a).lastCall = s.clk ∧
      Sends t m fun q => q.type = 0x0F ∧ q.dmem = (key - 1) % 256 := by
  obtain ⟨u, hu⟩ : ∃ u, s.modDie s.subject.a (fun x => { x with tickets := rest, ticketCall := n + 1, lastCall := s.clk }) = u := ⟨_, rfl⟩
  obtain ⟨p, hp⟩ : ∃ p : Pkt, { (Pkt.local m.member ((key - 1) % 256) 0x0F 0 0) with vc := 2 } = p := ⟨_, rfl⟩
  have hexec : exec .ticketCall s = .next (if rest.isEmpty then sendPkt u m p else (sendPkt u m p).after 850 .ticketCall s.subject) := by
    change execTicketCall s = _
    unfold execTicketCall
    simp only [htickets, hctx]
    have hsubject : (sendPkt u m p).subject = s.subject := ((Injects.refl u).sendPkt ..).subject.trans (hu ▸ rfl)
    rw [if_neg (by rw [Config.us]; omega), hu, hp, hsubject]
    rfl
  have hquiet : Quiet s u := hu ▸ ⟨rfl, rfl, rfl, rfl, rfl⟩
  have hdie : (u.die s.subject.a).tickets = rest ∧ (u.die s.subject.a).lastCall = s.clk := by
    rw [← hu, State.die_modDie]
    exact ⟨rfl, rfl⟩
  have hinj : Injects u (if rest.isEmpty then sendPkt u m p else (sendPkt u m p).after 850 .ticketCall s.subject) := by
    split
    · exact (Injects.refl u).sendPkt ..
    · exact ((Injects.refl u).sendPkt ..).after ..
  have hsends : Sends (sendPkt u m p) m fun q => q.type = 0x0F ∧ q.dmem = (key - 1) % 256 := by
    have htype : p.type = 0x0F := hp ▸ rfl
    have hdmem : p.dmem = (key - 1) % 256 := hp ▸ rfl
    exact sends_sendPkt u m (by omega) (by omega) fun q hq => ⟨hq.type.trans htype, hq.dmem.trans hdmem⟩
  refine ⟨_, hexec, hquiet.trans hinj.quiet, (congrArg Die.tickets (hinj.dies _) :).trans hdie.1, (congrArg Die.lastCall (hinj.dies _) :).trans hdie.2, ?_⟩
  split
  · exact hsends
  · exact ((Injects.refl (sendPkt u m p)).after ..).sends hsends

/-! ### Waiting for a stamp (R454) -/

theorem stampWaitTimeout_happens {s : State} {e : Pkt × ℕ}
    (h : (s.member s.subject.m).stampWait.find? (fun e => decide (e.1.smem = s.subject.a ∧ e.1.seq = s.subject.b ∧ chainOf e.1.vc = s.subject.c)) = some e) :
    Happens .stampWaitTimeout s fun t => Quiet s t ∧ t.members = s.members ∧
      Told t 1 0x0B s.subject.m.vd [s.subject.a, s.subject.b, (s.clk - e.2) / 850] := by
  have hexec : exec .stampWaitTimeout s =
      .next (fabricEvent s 0x0B s.subject.m.vd s.subject.m.member [s.subject.a, s.subject.b, (s.clk - e.2) / 850]) := by
    change execStampWaitTimeout s = _
    unfold execStampWaitTimeout
    extract_lets o
    rw [show (s.member o.m).stampWait.find? _ = some e from h]
    rfl
  exact ⟨_, hexec, ⟨rfl, rfl, rfl, rfl, rfl⟩, rfl, told_fabricEvent ..⟩

/-! ### Retransmission (R446, R447) -/

/-- The packet of the timeout: the one of a chain to a member that has had no ACK for 50 µs. -/
def overdue (s : State) : Option Sent := (s.member s.subject.m).retransmit.find? fun x =>
  decide (x.pkt.dmem = s.subject.a ∧ chainOf x.pkt.vc = s.subject.b ∧ x.pkt.seq = s.subject.c ∧ x.at_ + 42500 ≤ s.clk)

theorem retransmit_again {s : State} {x : Sent} (hx : overdue s = some x) (htries : x.tries < 8) :
    Happens .retransmitTimeout s fun t => Quiet s t ∧ { x with tries := x.tries + 1, at_ := s.clk } ∈ (t.member s.subject.m).retransmit ∧
      (∃ at_ w, s.clk < at_ ∧ Coming t at_ .switchPacketForward { a := w, pkt := some x.pkt }) ∧ Coming t (s.clk + 42500) .retransmitTimeout s.subject := by
  obtain ⟨u, hu⟩ : ∃ u, (s.modMember s.subject.m fun c =>
    { c with retransmit := c.retransmit.map fun y => if y = x then { y with tries := y.tries + 1, at_ := s.clk } else y }) = u := ⟨_, rfl⟩
  obtain ⟨n, hn⟩ : ∃ n, s.clk + injectTime u x.pkt = n := ⟨_, rfl⟩
  have hexec : exec .retransmitTimeout s = .next ((sendAt u n x.pkt).after 42500 .retransmitTimeout s.subject) := by
    change execRetransmitTimeout s = _
    unfold execRetransmitTimeout
    extract_lets o
    rw [show (s.member o.m).retransmit.find? _ = some x from hx]
    dsimp only
    rw [if_neg (by omega), hu, ← hn, ← hu]
    rfl
  have hquiet : Quiet s u := hu ▸ ⟨rfl, rfl, rfl, rfl, rfl⟩
  have hsend : Quiet u (sendAt u n x.pkt) := ((Injects.refl u).sendAt ..).quiet
  have hmember : (sendAt u n x.pkt).member s.subject.m = u.member s.subject.m := by
    unfold sendAt turnX
    split
    · rfl
    · rfl
  have hcoming := coming_after (sendAt u n x.pkt) 42500 .retransmitTimeout s.subject
  rw [hsend.clk, hquiet.clk] at hcoming
  refine ⟨_, hexec, (hquiet.trans hsend).trans ⟨rfl, rfl, rfl, rfl, rfl⟩, ?_, ⟨n, switchPos u x.pkt, ?_, ?_⟩, hcoming⟩
  · rw [State.member_after, hmember, ← hu, State.member_modMember]
    exact List.mem_map.mpr ⟨x, List.mem_of_find?_eq_some hx, if_pos rfl⟩
  · have := injectTime_pos u x.pkt
    omega
  · exact List.mem_append_left _ (List.mem_append_right _ (.head _))

/-- Memory, members and what has been told are the same: accesses may fail, and events are asked for. -/
structure FailsOnly (s t : State) : Prop where
  clk : t.clk = s.clk
  mem : t.mem = s.mem
  members : t.members = s.members
  reports : t.reports = s.reports

namespace FailsOnly
variable {s t u : State}

theorem refl (s : State) : FailsOnly s s := ⟨rfl, rfl, rfl, rfl⟩
theorem trans (h : FailsOnly s t) (h' : FailsOnly t u) : FailsOnly s u :=
  ⟨h'.clk.trans h.clk, h'.mem.trans h.mem, h'.members.trans h.members, h'.reports.trans h.reports⟩
theorem foldl {α : Type} {f : State → α → State} (hf : ∀ s x, FailsOnly s (f s x)) (l : List α) (s : State) : FailsOnly s (l.foldl f s) :=
  foldl_keeps refl trans hf l s

end FailsOnly

theorem failsOnly_stmFinish (s : State) (g : ℕ) (e : Dword) : FailsOnly s (stmFinish s g e) := by
  unfold stmFinish
  dsimp only
  split
  · exact .refl s
  · split
    · exact .refl s
    · exact ⟨rfl, rfl, rfl, rfl⟩

theorem failsOnly_stmFail (s : State) (a : Access) : FailsOnly s (stmFail s a) := by
  unfold stmFail
  split
  · have hset (b : Access) : FailsOnly s (s.setAccess b) := ⟨rfl, rfl, rfl, rfl⟩
    exact (hset _).trans (failsOnly_stmFinish ..)
  · exact .refl s

theorem failsOnly_failRemote (s : State) (m : MemberId) (dst : ℕ) : FailsOnly s (failRemote s m dst) := by
  unfold failRemote
  refine .foldl (fun u a => ?_) _ s
  split
  · exact failsOnly_stmFail u a
  · exact ⟨rfl, rfl, rfl, rfl⟩

theorem failsOnly_abortTo (s : State) (m : MemberId) (dst : ℕ) (l : List Pkt) : FailsOnly s (abortTo s m dst l) := by
  unfold abortTo
  refine .foldl (fun u e => ?_) _ s
  split
  · split
    · exact ⟨rfl, rfl, rfl, rfl⟩
    · exact .refl u
  · exact .refl u

/-- After the eighth send the member is unreachable, its packets are given up, and the fabric event is told. -/
theorem declareUnreachable_spec (s : State) (m : MemberId) (dst seq tries : ℕ) :
    let t := declareUnreachable s m dst seq tries
    t.mem = s.mem ∧ dst ∈ (t.member m).unreachable ∧ (∀ y ∈ (t.member m).retransmit, y.pkt.dmem ≠ dst) ∧ Told t 1 0x06 m.vd [dst, seq, tries - 1] := by
  unfold declareUnreachable
  extract_lets lost u
  have hfails : FailsOnly (fabricEvent u 0x06 m.vd m.member [dst, seq, tries - 1])
      (abortTo (failRemote (fabricEvent u 0x06 m.vd m.member [dst, seq, tries - 1]) m dst) m dst lost) :=
    (failsOnly_failRemote ..).trans (failsOnly_abortTo ..)
  have hu : (fabricEvent u 0x06 m.vd m.member [dst, seq, tries - 1]).member m = { s.member m with
      retransmit := (s.member m).retransmit.filter (fun x => decide (x.pkt.dmem ≠ dst)), unreachable := (s.member m).unreachable ++ [dst] } :=
    (State.member_report ..).trans (State.member_modMember ..)
  have hmember := (members_congr hfails.members m).trans hu
  refine ⟨hfails.mem, ?_, fun y hy => ?_, (told_fabricEvent ..).mono hfails.clk (hfails.reports ▸ List.Subset.refl _)⟩
  · rw [hmember]
    exact List.mem_append_right _ (.head _)
  · rw [hmember] at hy
    exact of_decide_eq_true (List.mem_filter.mp hy).2

theorem retransmit_gives_up {s : State} {x : Sent} (hx : overdue s = some x) (htries : 8 ≤ x.tries) :
    let o := s.subject
    Happens .retransmitTimeout s fun t => t.mem = s.mem ∧ o.a ∈ (t.member o.m).unreachable ∧ (∀ y ∈ (t.member o.m).retransmit, y.pkt.dmem ≠ o.a) ∧
      Told t 1 0x06 o.m.vd [o.a, o.c, x.tries - 1] := by
  intro o
  have hexec : exec .retransmitTimeout s = .next (declareUnreachable s o.m o.a o.c x.tries) := by
    change execRetransmitTimeout s = _
    unfold execRetransmitTimeout
    extract_lets
    rw [show (s.member o.m).retransmit.find? _ = some x from hx]
    dsimp only
    rw [if_pos htries]
  exact ⟨_, hexec, declareUnreachable_spec ..⟩

end Sys2Proof.Machine
end

section
/-!
PROOFS.  An ACK at its member (R322): the packets it covers leave the retransmit buffer, and the accesses they carried are complete.
-/
namespace Sys2Proof.Machine

/-! ### What the accesses that an ACK completes leave -/

theorem Steady.retire {s t : State} (h : Steady s t) (m : MemberId) (o : Owner) : Steady s (Machine.retire t m o) := h.modMember.settle m

theorem Steady.fillDone {s t : State} (h : Steady s t) (m : MemberId) (owner : ℕ) : Steady s (Machine.fillDone t m owner) :=
  .ite h (.ite (h.retire ..) (h.after ..))

/-- What a member keeps of its packets under way: what it has received, sent and not had acknowledged, and has waiting. -/
def Member.sending (c : Member) : ℕ × List Sent × List Pkt := (c.received, c.retransmit, c.outWait)

/-- No packet has been sent or acknowledged, and no access has begun. -/
structure AckKeeps (s t : State) : Prop where
  members : ∀ m, (t.member m).sending = (s.member m).sending
  accesses : t.accesses ⊆ s.accesses

namespace AckKeeps
variable {s t u : State}

theorem refl (s : State) : AckKeeps s s := ⟨fun _ => rfl, List.Subset.refl _⟩
theorem trans (h : AckKeeps s t) (h' : AckKeeps t u) : AckKeeps s u :=
  ⟨fun m => (h'.members m).trans (h.members m), List.Subset.trans h'.accesses h.accesses⟩
theorem of_steady (h : Steady s t) : AckKeeps s t := ⟨fun m => (congrArg Member.sending (h.members m) :), h.accesses ▸ List.Subset.refl _⟩
theorem tick (h : AckKeeps s t) (m : MemberId) : AckKeeps s (Machine.tick t m) :=
  h.trans ⟨fun n => (member_modMember_cases t m n _).elim (congrArg Member.sending) (congrArg Member.sending), List.Subset.refl _⟩
theorem modCore (h : AckKeeps s t) (k : CoreId) (f : Core → Core) : AckKeeps s (t.modCore k f) := h.trans ⟨fun _ => rfl, List.Subset.refl _⟩
theorem dropAccess (h : AckKeeps s t) (id : ℕ) : AckKeeps s (t.dropAccess id) := h.trans ⟨fun _ => rfl, List.filter_sublist.subset⟩
theorem after (h : AckKeeps s t) (n : ℕ) (i : Instr) (o : Subject) : AckKeeps s (t.after n i o) := h.trans ⟨fun _ => rfl, List.Subset.refl _⟩

theorem engineNext (h : AckKeeps s t) (a : Access) : AckKeeps s (Machine.engineNext t a) := by
  unfold Machine.engineNext
  split
  · split
    · exact h.after ..
    · exact h.after ..
    · exact h
  · exact h

theorem stmFinish (h : AckKeeps s t) (g : ℕ) (e : Dword) : AckKeeps s (Machine.stmFinish t g e) := by
  unfold Machine.stmFinish
  dsimp only
  split
  · exact h
  · split
    · exact h
    · have hfilter (p : Access → Bool) : AckKeeps t { t with accesses := t.accesses.filter p } := ⟨fun _ => rfl, List.filter_sublist.subset⟩
      exact (h.trans (hfilter _)).after ..

end AckKeeps

/-- An access without a value to return has been performed: it is gone. -/
theorem performedAcc_gone (s : State) (a : Access) : AckKeeps s (performedAcc s a none) ∧ ∀ b ∈ (performedAcc s a none).accesses, b.id ≠ a.id := by
  have hdrop (t : State) : ∀ b ∈ (t.dropAccess a.id).accesses, b.id ≠ a.id := fun b hb => of_decide_eq_true (List.mem_filter.mp hb).2
  have hfrom {t u : State} (ht : ∀ b ∈ t.accesses, b.id ≠ a.id) (hu : AckKeeps t u) : ∀ b ∈ u.accesses, b.id ≠ a.id := fun b hb => ht b (hu.accesses hb)
  have hwrote (h q : ℕ) (l : List Byte) : AckKeeps (s.dropAccess a.id) (jobWrote (s.dropAccess a.id) a.ctx h q l) := .of_steady ((Steady.refl _).jobWrote ..)
  unfold performedAcc
  split
  · exact ⟨((AckKeeps.refl s).dropAccess _).trans (hwrote ..), hfrom (hdrop s) (hwrote ..)⟩
  · exact ⟨((AckKeeps.refl s).dropAccess _).trans (hwrote ..), hfrom (hdrop s) (hwrote ..)⟩
  · dsimp -zeta only
    extract_lets s1 s2 s3 s4
    have h2 : AckKeeps s s2 := .modCore (by
      dsimp only [s1]
      split
      · exact (AckKeeps.refl s).tick _
      · exact .refl s) ..
    have h4 : AckKeeps (s2.dropAccess a.id) s4 := by
      have h3 : AckKeeps (s2.dropAccess a.id) s3 := (AckKeeps.refl _).engineNext a
      dsimp only [s4]
      split
      · exact h3.stmFinish ..
      · exact h3
    have hlast : AckKeeps (s2.dropAccess a.id) (if decide (a.tag = 0) || stmOpen s4 a then s4 else s4.modCore a.k fun c => c.ready a.tag) := by
      split
      · exact h4
      · exact h4.modCore ..
    exact ⟨(h2.dropAccess _).trans hlast, hfrom (hdrop s2) hlast⟩

theorem ackKeeps_ackedAccess (s : State) (a : Access) : AckKeeps s (ackedAccess s a) := by
  unfold ackedAccess
  split
  · exact (AckKeeps.of_steady ((Steady.refl s).fillDone ..)).trans (performedAcc_gone ..).1
  · exact .refl s
  · exact .refl s
  · exact .refl s
  · exact .refl s
  · split
    · exact (performedAcc_gone ..).1
    · exact .refl s
  · exact (performedAcc_gone ..).1

/-- A store that its ACK covers is gone once it and the others have been completed. -/
theorem acked_store_gone {a : Access} {b : List Byte} (hkind : a.kind = .store b) {l : List Access} (ha : a ∈ l) (s : State) :
    ∀ c ∈ (l.foldl ackedAccess s).accesses, c.id ≠ a.id := by
  obtain ⟨l1, l2, rfl⟩ := List.append_of_mem ha
  have hrest : AckKeeps (ackedAccess (l1.foldl ackedAccess s) a) ((l1 ++ a :: l2).foldl ackedAccess s) := by
    rw [List.foldl_append, List.foldl_cons]
    exact foldl_keeps AckKeeps.refl AckKeeps.trans ackKeeps_ackedAccess l2 _
  have hstep : ackedAccess (l1.foldl ackedAccess s) a = performedAcc (l1.foldl ackedAccess s) a none := by simp only [ackedAccess, hkind]
  exact fun c hc => (performedAcc_gone _ a).2 c (hstep ▸ hrest.accesses hc)

/-! ### ACK_PACKET (R322) -/

/-- The member that an ACK has reached, before the accesses it completes. -/
def Member.ack (c : Member) (p : Pkt) : Member :=
  let chain := p.addr.toNat / 2 ^ 32 % 2
  let seq := p.addr.toNat % 2 ^ 32
  let ch := Tab.get Chain.start c.outChain (2 * p.smem + chain)
  let mine (x : Sent) : Bool := decide (x.pkt.dmem = p.smem ∧ chainOf x.pkt.vc = chain)
  { c with
    received := c.received + (if p.counted then 0 else 1)
    outChain := Tab.put Chain.start c.outChain (2 * p.smem + chain) { ch with acked := clockMax ch.acked seq }
    retransmit := (c.retransmit.filter fun x => !(mine x && (decide (x.pkt.seq ≠ 0) && clockGe seq x.pkt.seq))).map fun x => if mine x then { x with tries := 1 } else x }

/-- The accesses of the member that an ACK completes. -/
def ackedBy (s : State) (m : MemberId) (p : Pkt) : List Access :=
  if p.addr.toNat / 2 ^ 32 % 2 = 1 then [] else s.accesses.filter fun a => decide (a.vd = m.vd ∧ a.member = m.member) && (match a.st with
    | .remote dm q => decide (dm = p.smem) && (decide (q ≠ 0) && clockGe (p.addr.toNat % 2 ^ 32) q)
    | _ => false)

theorem ackArrive_eq (s : State) (m : MemberId) (p : Pkt) :
    ackArrive s m p = pokeColl (pumpOut ((ackedBy s m p).foldl ackedAccess (s.modMember m fun c => c.ack p)) m) m none := rfl

/-- No packet waits for its window, so none leaves. -/
theorem pumpOut_none {s : State} {m : MemberId} (h : (s.member m).outWait = []) : pumpOut s m = s.modMember m fun c => { c with outWait := [] } := by
  rw [pumpOut, h]
  rfl

theorem ackPacket_away {s : State} {p : Pkt} (hpkt : s.subject.pkt = some p) (htype : p.type = 0x06) (hdmem : p.dmem = s.subject.m.member)
    (hlive : (s.member s.subject.m).live = true) (hctx : (s.die (s.member s.subject.m).die).ctx ≠ some s.subject.m) :
    Happens .ackPacket s fun t => Quiet s t ∧ t.members = s.members ∧ Coming t (s.clk + 8) .ackPacket s.subject := by
  have hexec : exec .ackPacket s = .next (s.after 8 .ackPacket s.subject) := by
    change execAckPacket s = _
    unfold execAckPacket
    rw [hpkt]
    dsimp only
    rw [if_pos ⟨htype, hdmem, hlive⟩, if_pos hctx]
  exact ⟨_, hexec, ⟨rfl, rfl, rfl, rfl, rfl⟩, rfl, coming_after ..⟩

theorem ackPacket_here {s : State} {p : Pkt} (hpkt : s.subject.pkt = some p) (htype : p.type = 0x06) (hdmem : p.dmem = s.subject.m.member)
    (hlive : (s.member s.subject.m).live = true) (hctx : (s.die (s.member s.subject.m).die).ctx = some s.subject.m) (hecho : p.echo = false)
    (hwait : (s.member s.subject.m).outWait = []) :
    let m := s.subject.m
    Happens .ackPacket s fun t => (t.member m).received = ((s.member m).ack p).received ∧ (t.member m).retransmit = ((s.member m).ack p).retransmit ∧
      ∀ a ∈ ackedBy s m p, (∃ l, a.kind = .store l) → ∀ b ∈ t.accesses, b.id ≠ a.id := by
  intro m
  obtain ⟨f, g, hcommon, -⟩ := arriveCommon_eq (p := p) s m s.subject.a hecho
  obtain ⟨v, hv⟩ : ∃ v, (s.modSwitch s.subject.a f).modDie p.ddie g = v := ⟨_, rfl⟩
  have hvm : v.member m = s.member m := hv ▸ rfl
  have hvacc : v.accesses = s.accesses := hv ▸ rfl
  obtain ⟨u, hu⟩ : ∃ u, (ackedBy v m p).foldl ackedAccess (v.modMember m fun c => c.ack p) = u := ⟨_, rfl⟩
  have hkeeps : AckKeeps (v.modMember m fun c => c.ack p) u := hu ▸ foldl_keeps AckKeeps.refl AckKeeps.trans ackKeeps_ackedAccess _ _
  have hsending : (u.member m).sending = ((s.member m).ack p).sending := by
    rw [hkeeps.members, State.member_modMember, hvm]
  obtain ⟨hreceived, hretransmit, hout⟩ := Prod.mk.inj hsending |>.imp_right Prod.mk.inj
  have hpump := pumpOut_none (hout.trans hwait)
  have hasks := asksOnly_pokeColl (pumpOut u m) m none
  have hexec : exec .ackPacket s = .next (pokeColl (pumpOut u m) m none) := by
    change execAckPacket s = _
    unfold execAckPacket
    rw [hpkt]
    dsimp only
    rw [if_pos ⟨htype, hdmem, hlive⟩, if_neg (not_not_intro hctx), hcommon, hv, ackArrive_eq, hu]
  refine ⟨_, hexec, ?_, ?_, fun a ha ⟨l, hkind⟩ b hb => ?_⟩
  · rw [hasks.member, hpump, State.member_modMember]
    exact hreceived
  · rw [hasks.member, hpump, State.member_modMember]
    exact hretransmit
  · rw [hasks.accesses, hpump] at hb
    have hacked : a ∈ ackedBy v m p := by
      rw [ackedBy, hvacc]
      exact ha
    exact acked_store_gone hkind hacked _ b (hu ▸ hb)

end Sys2Proof.Machine
end

section
/-!
PROOFS.  The wait buffers hold only what has arrived (R110): no act of a packet puts one there.
-/
namespace Sys2Proof.Machine

/-! ### What leaves the wait buffers as they are -/

/-- Every member's wait buffer is the same. -/
structure WaitKept (s t : State) : Prop where
  waits : ∀ m, (t.member m).stampWait = (s.member m).stampWait

namespace WaitKept
variable {s t u : State}

theorem refl (s : State) : WaitKept s s := ⟨fun _ => rfl⟩
theorem trans (h : WaitKept s t) (h' : WaitKept t u) : WaitKept s u := ⟨fun m => (h'.waits m).trans (h.waits m)⟩
/-- A state with the same members. -/
theorem same (h : WaitKept s t) (hu : u.members = t.members := by rfl) : WaitKept s u :=
  ⟨fun m => (congrArg Member.stampWait (members_congr hu m)).trans (h.waits m)⟩
theorem modMember (h : WaitKept s t) {m : MemberId} {f : Member → Member} (hf : ∀ c, (f c).stampWait = c.stampWait := by exact fun _ => rfl) :
    WaitKept s (t.modMember m f) := by
  refine ⟨fun n => ?_⟩
  rcases member_modMember_cases t m n f with e | e <;> rw [e]
  · exact (hf _).trans (h.waits n)
  · exact h.waits n
theorem modDie (h : WaitKept s t) (d : ℕ) (f : Die → Die) : WaitKept s (t.modDie d f) := h.same
theorem modCore (h : WaitKept s t) (k : CoreId) (f : Core → Core) : WaitKept s (t.modCore k f) := h.same
theorem modVd (h : WaitKept s t) (n : ℕ) (f : VD → VD) : WaitKept s (t.modVd n f) := h.same
theorem due (h : WaitKept s t) (n : ℕ) (a : Act) : WaitKept s (t.due n a) := h.same
theorem after (h : WaitKept s t) (n : ℕ) (i : Instr) (o : Subject) : WaitKept s (t.after n i o) := h.same
theorem afterM (h : WaitKept s t) (n : ℕ) (i : Instr) (m : MemberId) (a : ℕ) : WaitKept s (t.afterM n i m a) := h.same
theorem draw (h : WaitKept s t) : WaitKept s t.draw := h.same
theorem ite {p : Prop} [Decidable p] (ht : WaitKept s t) (hu : WaitKept s u) : WaitKept s (if p then t else u) := by
  split
  · exact ht
  · exact hu
theorem foldl {α : Type} {f : State → α → State} (h : WaitKept s t) (hf : ∀ u x, WaitKept u (f u x)) (l : List α) : WaitKept s (l.foldl f t) :=
  h.trans (foldl_keeps refl trans hf l t)
theorem steady (h : WaitKept s t) (hu : Steady t u) : WaitKept s u := h.trans ⟨fun m => (congrArg Member.stampWait (hu.members m) :)⟩
theorem injects (h : WaitKept s t) (hu : Injects t u) : WaitKept s u := h.trans ⟨fun m => (congrArg Member.stampWait (hu.members m) :)⟩
theorem asks (h : WaitKept s t) (hu : AsksOnly t u) : WaitKept s u := h.trans ⟨fun m => congrArg Member.stampWait (hu.member m)⟩

theorem acked {m : MemberId} {p : Pkt} (h : WaitKept s t) (hu : Acked m p t u) : WaitKept s u := by
  refine h.trans ⟨fun n => ?_⟩
  by_cases hn : memberKey n = memberKey m
  · rw [member_congr hn, member_congr hn, hu.inbox.2]
  · rw [hu.others n hn]

theorem appliedPkt (h : WaitKept s t) (m : MemberId) (p : Pkt) : WaitKept s (Machine.appliedPkt t m p) := by
  refine (h.trans ⟨fun n => ?_⟩).acked (acked_ackPkt (countPkt t m p) m p)
  by_cases hn : memberKey n = memberKey m
  · obtain ⟨clock, hclock⟩ := member_countPkt t m p
    rw [member_congr hn, member_congr hn, hclock]
    rfl
  · rw [(atMember_countPkt t m p).others n hn]

/-! ### Memory packets -/

theorem respond (h : WaitKept s t) (m : MemberId) (p : Pkt) (ty : ℕ) (l : List Byte) (poison : Bool) : WaitKept s (Machine.respond t m p ty l poison) :=
  (h.injects ((Injects.refl t).sendPkt ..)).appliedPkt m p

theorem mergeReduction_openEntry {m : MemberId} {op : AmoOp} {n : ℕ} {b : Dword} {agent : ℕ} (h : WaitKept s t) (d line off : ℕ) :
    WaitKept s (Machine.mergeReduction.openEntry m op n b agent t d line off) := by
  unfold Machine.mergeReduction.openEntry
  dsimp only
  refine .after (.modDie ?_ ..) ..
  split
  · exact .ite (h.steady ((Steady.refl t).drainEntry ..)) h
  · exact h

theorem mergeReduction (h : WaitKept s t) (m : MemberId) (l : Loc) (op : AmoOp) (n : ℕ) (b : Dword) (agent : ℕ) :
    WaitKept s (Machine.mergeReduction t m l op n b agent) := by
  unfold Machine.mergeReduction
  dsimp only
  split
  · exact .ite ((h.modDie ..).after ..) ((h.steady ((Steady.refl t).drainEntry ..)).mergeReduction_openEntry ..)
  · exact h.mergeReduction_openEntry ..

theorem actOn_amo (h : WaitKept s t) {m : MemberId} {agent : ℕ} {l : Loc} {op : AmoOp} {n : ℕ} {b c : Dword} {red : Bool} {r : State × Option Val}
    (hr : actOn t m agent l (.amo op n b c red) = some r) : WaitKept s r.1 := by
  unfold actOn at hr
  cases red
  case true =>
    cases hr
    exact (h.mergeReduction ..).steady ((Steady.refl _).countHeat ..)
  case false =>
    dsimp only at hr
    rw [if_neg Bool.false_ne_true] at hr
    split at hr
    · cases hr
    · cases hr
      exact h.steady ((((Steady.refl t).drainRange ..).putAt ..).countHeat ..)

theorem packetAtomic (h : WaitKept s t) (m : MemberId) (p : Pkt) (l : Loc) : WaitKept s (Machine.packetAtomic t m p l) := by
  unfold Machine.packetAtomic
  dsimp only
  split
  · next hact => exact (h.actOn_amo hact).respond ..
  · next hact => exact (h.actOn_amo hact).appliedPkt ..
  · exact h.respond ..

theorem packetWrite (h : WaitKept s t) (m : MemberId) (p : Pkt) (l : Loc) : WaitKept s (Machine.packetWrite t m p l) :=
  (h.steady ((((Steady.refl t).drainRange ..).putAt ..).countHeat ..)).steady (packetWritten_spec ..).1

theorem packetRead (h : WaitKept s t) (m : MemberId) (p : Pkt) (l : Loc) : WaitKept s (Machine.packetRead t m p l) :=
  (h.steady (((Steady.refl t).drainRange ..).countHeat ..)).respond ..

theorem engineAccess (h : WaitKept s t) (m : MemberId) (kind : AccKind) (ea n pc at_ : ℕ) (rel : Bool) :
    WaitKept s (Machine.engineAccess t m kind ea n pc at_ rel) := h.same

theorem memoryPkt (h : WaitKept s t) (m : MemberId) (p : Pkt) : WaitKept s (Machine.memoryPkt t m p) := by
  unfold Machine.memoryPkt
  dsimp only
  refine .ite (h.engineAccess ..) (.ite (h.engineAccess ..) ?_)
  unfold servePlace
  split
  · exact (h.appliedPkt ..).packetWrite ..
  · exact h.packetRead ..
  · exact h.packetAtomic ..

/-! ### Responses -/

theorem performedAcc_value (h : WaitKept s t) (a : Access) (v : Val) : WaitKept s (performedAcc t a (some v)) := by
  have hdrop : WaitKept s (t.dropAccess a.id) := h.same
  unfold performedAcc
  split
  · exact hdrop.steady ((Steady.refl _).jobWrote ..)
  · exact hdrop.steady ((Steady.refl _).jobWrote ..)
  · dsimp only
    have htick : WaitKept s (if a.rel then tick t a.ctx else t) := .ite h.modMember h
    exact .ite htick.same htick.same

theorem deliverResponse (h : WaitKept s t) (m : MemberId) (p : Pkt) : WaitKept s (Machine.deliverResponse t m p) := by
  unfold Machine.deliverResponse
  split
  · exact h
  · dsimp only
    refine .ite (h.after ..) ?_
    split
    · exact h.performedAcc_value ..
    · exact h.performedAcc_value ..
    · exact h.performedAcc_value ..
    · exact h.performedAcc_value ..
    · exact h.performedAcc_value ..
    · exact h

/-! ### Demand -/

theorem packetPart (h : WaitKept s t) (m : MemberId) (key : ℕ) : WaitKept s (Machine.packetPart t m key) := by
  unfold Machine.packetPart
  dsimp only
  split
  · exact .ite (h.modMember.afterM ..) h.modMember
  · exact h.modMember

theorem startAt (h : WaitKept s t) (k : CoreId) (sl : ℕ) (kind : AccKind) (ea : Dword) (size : ℕ) (dest : Dest) (tag rid at_ : ℕ) (rel : Bool) :
    WaitKept s (Machine.startAt t k sl kind ea size dest tag rid at_ rel) :=
  .due (.ite h.same ((h.same).modCore ..)) ..

theorem releaseTask (h : WaitKept s t) (m : MemberId) (i : ℕ) (x : Task) (v : Dword) (at_ : ℕ) : WaitKept s (Machine.releaseTask t m i x v at_) := by
  unfold Machine.releaseTask
  extract_lets i' s1 s2
  have h1 : WaitKept s s1 := h.modMember
  have h2 : WaitKept s s2 := by
    dsimp only [s2]
    split
    · exact h1.packetPart ..
    · exact h1
  split
  · exact h2.startAt ..
  · exact h2.steady ((Steady.refl s2).retire ..)

theorem withdrawTask (h : WaitKept s t) (m : MemberId) (i : ℕ) (x : Task) : WaitKept s (Machine.withdrawTask t m i x) := by
  unfold Machine.withdrawTask
  split
  · exact h.modCore ..
  · dsimp only
    refine .ite h.modMember (.releaseTask (.ite (.foldl h.modMember (fun u w => (refl u).steady ((Steady.refl u).sendDemand ..)) _) h.modMember) ..)

theorem scramble (m : MemberId) (c : List Dword) : ∀ (n off : ℕ) {t : State}, WaitKept s t → WaitKept s (Machine.scramble m c n off t) := by
  intro n
  induction n with
  | zero => exact fun _ _ h => h
  | succ n ih =>
    intro off t h
    unfold Machine.scramble
    refine ih _ ?_
    split
    · exact h.same
    · exact h

theorem finishJob (h : WaitKept s t) (m : MemberId) (i : ℕ) : WaitKept s (Machine.finishJob t m i) := by
  unfold Machine.finishJob
  dsimp only
  split
  · exact h
  · refine .afterM (.ite (.scramble _ _ _ _ (.ite (.modMember ?_) (.afterM (.modMember ?_) ..))) (.ite (.modMember ?_) (.afterM (.modMember ?_) ..))) ..
    all_goals
      split
      · exact h.modDie ..
      · exact h

theorem sendDgram (h : WaitKept s t) (vd i : ℕ) (d : Dgram) : WaitKept s (Machine.sendDgram t vd i d) := by
  have hout {u : State} {d : Dgram} (hu : WaitKept s u) : WaitKept s (dgramOut u vd i d) := by
    unfold dgramOut
    split
    · exact hu
    · split
      · exact hu
      · exact hu.same
  unfold Machine.sendDgram
  split
  · exact h
  · next e _ =>
    have hpsn : WaitKept s (takePsn t vd i e).2 := .ite ((h.modVd ..).after ..) (h.modVd ..)
    exact .ite ((hpsn.modVd ..).after ..) (.ite ((hpsn.modVd ..).after ..) ((hout (hpsn.modVd ..)).after ..))

theorem jobCheckEnd (h : WaitKept s t) (m : MemberId) (i : ℕ) : WaitKept s (Machine.jobCheckEnd t m i) := by
  unfold Machine.jobCheckEnd
  split
  · exact h
  · exact .ite h (.ite (.ite (h.sendDgram ..).modMember h) (.ite h (h.finishJob ..)))

theorem withdrawJob (h : WaitKept s t) (m : MemberId) (i : ℕ) (j : Job) : WaitKept s (Machine.withdrawJob t m i j) := by
  unfold Machine.withdrawJob
  split
  · exact h
  · exact .ite h (h.modMember.jobCheckEnd ..)
  · exact h.modMember.finishJob ..

theorem demandAct (h : WaitKept s t) (m : MemberId) (wm word : ℕ) (inc : Bool) : WaitKept s (Machine.demandAct t m wm word inc) := by
  unfold Machine.demandAct
  split
  · exact h
  · split
    · split
      · exact .ite (h.modMember.withdrawTask ..) h.modMember
      · exact h
    · split
      · exact .ite (h.modMember.withdrawJob ..) h.modMember
      · exact h

/-! ### Any packet -/

theorem applyPkt (h : WaitKept s t) (m : MemberId) (p : Pkt) : WaitKept s (Machine.applyPkt t m p) := by
  have happlied : WaitKept s (Machine.appliedPkt t m p) := h.appliedPkt m p
  have hmessage : WaitKept s (pokeColl ((ackPkt t m p).modMember m fun c => { c with landing := c.landing ++ [p] }) m (some p.cid)) :=
    (h.acked (acked_ackPkt ..)).modMember.asks (asksOnly_pokeColl ..)
  unfold Machine.applyPkt
  split
  · exact h.memoryPkt ..
  · exact h.memoryPkt ..
  · exact h.memoryPkt ..
  · exact h.engineAccess ..
  · exact happlied.deliverResponse ..
  · exact happlied.deliverResponse ..
  · exact happlied.modCore ..
  · exact hmessage
  · exact hmessage
  · exact happlied.demandAct ..
  · exact (happlied.modDie ..).after ..
  · exact .foldl happlied.modMember (fun u e => (refl u).afterM ..) _
  · exact happlied

end WaitKept

end Sys2Proof.Machine
end

section
/-!
PROOFS.  O56 holds: each packet event from the lemma of what it does.
-/
namespace Sys2Proof.Machine

/-! ### STAMP_WAIT_APPLY (R110) -/

theorem quiet_checkHeld (s : State) (m : MemberId) : Quiet s (checkHeld s m) := ((AtMember.refl m s).checkHeld).quiet

/-- A collective message that is applied stands last in the landing buffer. -/
theorem landing_applyPkt (s : State) (m : MemberId) {p : Pkt} (h : p.type = 0x09) :
    Quiet s (applyPkt s m p) ∧ ((applyPkt s m p).member m).landing = (s.member m).landing ++ [p] := by
  have hacked := acked_ackPkt s m p
  have hland : AtMember m (ackPkt s m p) ((ackPkt s m p).modMember m fun c => { c with landing := c.landing ++ [p] }) := (AtMember.refl m _).modMember _
  have hasks := asksOnly_pokeColl ((ackPkt s m p).modMember m fun c => { c with landing := c.landing ++ [p] }) m (some p.cid)
  rw [applyPkt_message (.inl h), hasks.member, State.member_modMember, hacked.inbox.1]
  exact ⟨(hacked.quiet.trans hland.quiet).trans hasks.quiet, rfl⟩

theorem stampWaitApply_happens {s : State} {e : Pkt × ℕ} (hctx : (s.die (s.member s.subject.m).die).ctx = some s.subject.m)
    (hfind : (s.member s.subject.m).stampWait.find? (fun e => mayApply (s.member s.subject.m) e.1) = some e) :
    let m := s.subject.m
    Happens .stampWaitApply s fun t => e ∉ (t.member m).stampWait ∧
      (e.1.type = 0x09 → Quiet s t ∧ (t.member m).landing = (s.member m).landing ++ [e.1]) := by
  intro m
  obtain ⟨u, hu⟩ : ∃ u, s.modMember m (fun c =>
      { c with stampWait := c.stampWait.filter (fun x => decide (x ≠ e)),
               clock := if isResponse e.1.type then mergeClock c.clock e.1.stamp else c.clock }) = u := ⟨_, rfl⟩
  have htake : takeDominated s m = some (e.1, u) := by
    unfold takeDominated
    extract_lets c
    rw [show c.stampWait.find? _ = some e from hfind, ← hu]
  have hexec : exec .stampWaitApply s = .next (checkHeld (applyPkt u m e.1) m) := by
    change execStampWaitApply s = _
    unfold execStampWaitApply
    rw [applyOne, if_neg (not_not_intro hctx), htake, Option.map_some]
  have hat : AtMember m s u := hu ▸ (AtMember.refl m s).modMember _
  have hmember : (u.member m).stampWait = (s.member m).stampWait.filter (fun x => decide (x ≠ e)) ∧ (u.member m).landing = (s.member m).landing := by
    rw [← hu, State.member_modMember]
    exact ⟨rfl, rfl⟩
  refine ⟨_, hexec, ?_, fun htype => ?_⟩
  · rw [member_checkHeld, ((WaitKept.refl u).applyPkt m e.1).waits, hmember.1]
    exact fun h => of_decide_eq_true (List.mem_filter.mp h).2 rfl
  · obtain ⟨hquiet, hlanding⟩ := landing_applyPkt u m htype
    rw [member_checkHeld, hlanding, hmember.2]
    exact ⟨(hat.quiet.trans hquiet).trans (quiet_checkHeld ..), rfl⟩

/-! ### What an ACK leaves of the retransmit buffer (R322) -/

/-- Nothing that the ACK covers is left. -/
theorem retransmit_ack {c : Member} {p : Pkt} {x : Sent} (hx : x ∈ (c.ack p).retransmit) :
    ¬(x.pkt.dmem = p.smem ∧ chainOf x.pkt.vc = p.addr.toNat / 2 ^ 32 % 2 ∧ x.pkt.seq ≠ 0 ∧ clockGe (p.addr.toNat % 2 ^ 32) x.pkt.seq = true) := by
  rintro ⟨hdmem, hchain, hseq, hge⟩
  obtain ⟨y, hy, hyx⟩ := List.mem_map.mp hx
  have hpkt : y.pkt = x.pkt := by
    rw [← hyx]
    split
    · rfl
    · rfl
  have hkept := (List.mem_filter.mp hy).2
  rw [← hpkt] at hdmem hchain hseq hge
  simp only [hdmem, hchain, ne_eq, hseq, not_false_eq_true, hge, and_self, decide_true, Bool.and_self, Bool.not_true, Bool.false_eq_true] at hkept

/-- What goes to another member is. -/
theorem mem_retransmit_ack {c : Member} {p : Pkt} {x : Sent} (hx : x ∈ c.retransmit) (h : x.pkt.dmem ≠ p.smem) : x ∈ (c.ack p).retransmit := by
  have hother : decide (x.pkt.dmem = p.smem ∧ chainOf x.pkt.vc = p.addr.toNat / 2 ^ 32 % 2) = false := decide_eq_false fun hm => h hm.1
  refine List.mem_map.mpr ⟨x, List.mem_filter.mpr ⟨hx, ?_⟩, ?_⟩
  · simp only [hother, Bool.false_and, Bool.not_false]
  · simp only [hother, Bool.false_eq_true, if_false]

theorem mem_ackedBy {s : State} {m : MemberId} {p : Pkt} {a : Access} (ha : a ∈ s.accesses) {q : ℕ} (hchain : p.addr.toNat / 2 ^ 32 % 2 = 0) (hctx : a.ctx = m)
    (hst : a.st = .remote p.smem q) (hq : q ≠ 0) (hge : clockGe (p.addr.toNat % 2 ^ 32) q = true) : a ∈ ackedBy s m p := by
  have hm : a.vd = m.vd ∧ a.member = m.member := by
    rw [← hctx]
    exact ⟨rfl, rfl⟩
  rw [ackedBy, if_neg (by omega)]
  exact List.mem_filter.mpr ⟨ha, by simp only [hm, hst, hge]; simpa using hq⟩

/-- Settles O56: clause by clause, from the lemma of each event. -/
theorem fabricEvents : Obligations.FabricEvents := by
  unfold Obligations.FabricEvents
  refine ⟨?switch, ?served, ?hbm, ?parts, ?responses, ?fifo, ?messages, ?demand, ?flush, ?tkreq, ?tkcall, ?ack, ?retransmit, ?apply, ?timeout, ?beaconTimer,
    ?beacon, ?rate, ?window, ?call⟩
  case switch => exact fun s p => switchPacketForward_happens
  case served => exact fun s p i h hi => served_happens h hi
  case hbm =>
    intro s p m k haddr hd hmerges
    refine ⟨fun h hplain hparts hheld hoff => ?_, fun h hparts => ?_, fun h hplain _ hpoison hheld hoff => ?_⟩
    · exact writePacket_hbm h haddr hd hmerges hplain hparts hheld hoff
    · exact readPacket_hbm h haddr hd hmerges hparts
    · exact atomicPacket_hbm h haddr hd hmerges hplain hpoison hheld hoff
  case parts => exact fun s p i h haddr hi hdefer => deferred_happens h haddr hi hdefer
  case responses =>
    intro s p a m hfind hrid hpoison
    exact ⟨fun h n hkind => response_happens rfl (.inl rfl) h hfind hrid hpoison (.inl ⟨n, hkind⟩),
      fun h op n b c hkind => response_happens rfl (.inr rfl) h hfind hrid hpoison (.inr ⟨op, n, b, c, hkind⟩)⟩
  case fifo =>
    intro s p m k
    exact ⟨fifoPacket_remote, fun hpkt htype hseq hmem hlive => fifoPacket_local hpkt htype hseq hmem hlive⟩
  case messages => exact fun s p i h hi => message_happens h hi
  case demand =>
    intro s p m hpkt htype hseq hdmem hlive
    exact ⟨fun q h x hmem hinc hfind howner hx => demand_local hpkt htype hseq hdmem hlive hmem hinc hfind howner hx,
      fun hmem => demand_remote hpkt htype hseq hdmem hlive hmem⟩
  case flush => exact fun s p => cflush_happens
  case tkreq => exact fun s p => tkreq_happens
  case tkcall => exact fun s p => tkcall_happens
  case ack =>
    intro s p m seq chain hpkt htype hdmem hlive
    refine ⟨ackPacket_away hpkt htype hdmem hlive, fun hctx hecho hwait => ?_⟩
    obtain ⟨t, ht, hreceived, hretransmit, hgone⟩ := ackPacket_here hpkt htype hdmem hlive hctx hecho hwait
    refine ⟨t, ht, hreceived, fun x hx => retransmit_ack (hretransmit ▸ hx), fun x hx h => hretransmit ▸ mem_retransmit_ack hx h, ?_⟩
    exact fun a ha l q hchain hctx hkind hst hq hge => hgone a (mem_ackedBy ha hchain hctx hst hq hge) ⟨l, hkind⟩
  case retransmit => exact fun s x hx => ⟨retransmit_again hx, retransmit_gives_up hx⟩
  case apply => exact fun s e => stampWaitApply_happens
  case timeout => exact fun s e => stampWaitTimeout_happens
  case beaconTimer => exact fun s => beaconTimer_happens
  case beacon => exact fun s p => beacon_happens
  case rate => exact fun s => rateLimitRise_happens
  case window => exact ticketWindowEnd_happens
  case call => exact fun s n key rest m htickets hctx => ⟨ticketCall_waits htickets hctx, ticketCall_calls htickets hctx⟩

end Sys2Proof.Machine
end

section
/-!
PROOFS.  O52 fails: the bounds of its clause on the end of a migration's first step leave room for a source and a destination that overlap, and there a sector
that is copied first changes one that is copied later.
-/
namespace Sys2Proof.Machine

/-- A page on its way from the tier, in its first step, whose sectors 0 and 1 have been written since.  Its place `dst` lies past every byte of HBM: the key
there is that of a byte of the tier, 256 bytes above the source. -/
def overlapM : Migration :=
  { vd := 1, member := 0, va := 0, size := 4096, toTier := false, src := 0x8000, dst := 2 ^ 80 + 0x8100, waiting := [], step := 1, holdAt := 0, retried := false,
    dirty := [0, 1], held := [] }

/-- A machine with that migration and one VD, which maps the page at its source; the page's first byte is 1, and every other byte of memory is 0. -/
def overlapS : State :=
  { State.reset with
    agenda := [], subject := { m := ⟨1, 0⟩, b := 1 }, migrations := [overlapM], mem := [(tierKey 0x8000, 1)]
    vds := [(1, { VD.blank with live := true, pt := [(ptKey 1 0, 2), (ptKey 2 0, 2), (ptKey 3 0, 2), (ptKey 4 0, 0x8101)] })] }

/-- Sector 1 is copied from where sector 0 has just been copied to. -/
theorem overlapS_sector1 : ∃ t, exec .migrationComplete overlapS = .next t ∧ Tab.get 0 t.mem (tierKey 0x8200) = 1 :=
  ⟨_, rfl, by decide +kernel⟩

/-- Refutes O52: as step 1 of `overlapM` ends, its sector 1 leaves at the destination the byte 1, where the statement has what stood at the source, a 0. -/
theorem not_memoryEvents : ¬Obligations.MemoryEvents := by
  unfold Obligations.MemoryEvents
  rintro ⟨-, -, -, -, -, -, -, -, -, hrecopy, -⟩
  obtain ⟨t, hexec, -, -, -, -, hmem⟩ := hrecopy overlapS overlapM (by decide +kernel) rfl rfl (by decide +kernel) (by decide +kernel) (by decide +kernel)
    (by decide +kernel) (by decide +kernel) (by decide +kernel) (by decide +kernel) fun _ => rfl
  obtain ⟨t', hexec', hbyte⟩ := overlapS_sector1
  obtain rfl : t = t' := Host.Outcome.next.inj (hexec.symm.trans hexec')
  have hzero : Tab.get 0 t.mem (tierKey 0x8200) = 0 := (hmem 256 (by decide)).trans (by decide +kernel)
  exact absurd (hbyte.symm.trans hzero) (by decide)

end Sys2Proof.Machine
end

section
/-!
PROOFS.  The messages of a vote (R59 to R63): when they come, and what sending SNUFF, ABORT and RELIGHT leaves of the gang controller.
-/
namespace Sys2Proof.Machine

/-! ### Events that come within a time -/

section
variable {s t u : State} {bound : ℕ} {i : Instr} {o : Subject}

/-- What was to come within a time is still to come when the agenda has only grown. -/
theorem ComesWithin.mono (h : ComesWithin s t bound i o) (hagenda : t.agenda ⊆ u.agenda) : ComesWithin s u bound i o :=
  let ⟨at_, hlate, hbound, hcoming⟩ := h
  ⟨at_, hlate, hbound, hagenda hcoming⟩

/-- The same, from another state of that time. -/
theorem ComesWithin.from (h : ComesWithin s t bound i o) (hclk : u.clk = s.clk) : ComesWithin u t bound i o := by
  unfold ComesWithin
  rwa [hclk]

theorem ComesWithin.later (h : ComesWithin s t bound i o) : ∃ at_, s.clk < at_ ∧ Coming t at_ i o :=
  let ⟨at_, hlate, _, hcoming⟩ := h
  ⟨at_, hlate, hcoming⟩

end

/-- A chimney message leaves. -/
def sendChimney (i : Instr) (o : Subject) (s : State) : State := s.draw.after (chimney s) i o

theorem drawsOnly_sendChimney (i : Instr) (o : Subject) (s : State) : DrawsOnly s (sendChimney i o s) := ⟨_, _, rfl⟩

/-- It arrives within 400 clk. -/
theorem comesWithin_sendChimney (i : Instr) (o : Subject) (s : State) : ComesWithin s (sendChimney i o s) 400 i o :=
  comesWithin_after rfl (Config.freeDelay s.fresh) (by decide) i o

/-- A fold whose every step sends its element a message sends one to each element of its list. -/
theorem comesWithin_foldl {α : Type} {f : State → α → State} {bound : ℕ} {i : Instr} {o : α → Subject} (hdraws : ∀ u x, DrawsOnly u (f u x))
    (hcomes : ∀ u x, ComesWithin u (f u x) bound i (o x)) {x : α} (l : List α) (s : State) (hx : x ∈ l) : ComesWithin s (l.foldl f s) bound i (o x) := by
  induction l generalizing s with
  | nil => cases hx
  | cons y l ih =>
    rw [List.foldl_cons]
    rcases List.mem_cons.mp hx with rfl | hx
    · exact (hcomes s x).mono (DrawsOnly.foldl hdraws l (f s x)).agenda
    · exact (ih (f s y) hx).from (hdraws s y).quiet.clk.symm

/-! ### Memory and cores under the updates of a vote -/

namespace Quiet
variable {s t : State}

theorem setVote (h : Quiet s t) (f : Vote → Vote) : Quiet s (Machine.setVote t f) := h.trans ⟨rfl, rfl, rfl, rfl, rfl⟩
theorem after (h : Quiet s t) (n : ℕ) (i : Instr) (o : Subject) : Quiet s (t.after n i o) := h.trans ⟨rfl, rfl, rfl, rfl, rfl⟩
theorem draw (h : Quiet s t) : Quiet s t.draw := h.trans ⟨rfl, rfl, rfl, rfl, rfl⟩
theorem modDie (h : Quiet s t) (d : ℕ) (f : Die → Die) : Quiet s (t.modDie d f) := h.trans ⟨rfl, rfl, rfl, rfl, rfl⟩
theorem modMember (h : Quiet s t) (m : MemberId) (f : Member → Member) : Quiet s (t.modMember m f) := h.trans ⟨rfl, rfl, rfl, rfl, rfl⟩
theorem setGc (h : Quiet s t) (g : GC) : Quiet s { t with gc := g } := h.trans ⟨rfl, rfl, rfl, rfl, rfl⟩

end Quiet

theorem DrawsOnly.gc {s t : State} (h : DrawsOnly s t) : t.gc = s.gc := by obtain ⟨n, l, rfl⟩ := h; rfl
theorem DrawsOnly.vds {s t : State} (h : DrawsOnly s t) : t.vds = s.vds := by obtain ⟨n, l, rfl⟩ := h; rfl
theorem DrawsOnly.reports {s t : State} (h : DrawsOnly s t) : t.reports = s.reports := by obtain ⟨n, l, rfl⟩ := h; rfl

/-! ### SNUFF (R60, R63) -/

/-- The gang controller once the SNUFF of vote `v` has gone out, with drain deadline `dl`. -/
def snuffGc (s : State) (v : Vote) (dl : ℕ) : GC :=
  { s.gc with
    voteNo := (s.gc.voteNo + 1) % 2 ^ 32
    vote := { v with st := .snuffing, v := (s.gc.voteNo + 1) % 2 ^ 32, round := 0, sentAt := s.clk, askedAt := s.clk, deadline := dl, counts := [], reported := [],
                     hold := [], overflow := false } }

/-- SNUFF of vote `n` leaves for a member. -/
def snuffMember (n : ℕ) (s : State) (e : MemberId × ℕ) : State := s.draw.after (1 + Config.freeDelay s.fresh % 800) .snuff { m := e.1, a := n }

theorem drawsOnly_snuffMember (n : ℕ) (s : State) (e : MemberId × ℕ) : DrawsOnly s (snuffMember n s e) := ⟨_, _, rfl⟩

theorem sendSnuff_spec (s : State) (v : Vote) : (∃ dl, DrawsOnly { s with gc := snuffGc s v dl } (sendSnuff s v)) ∧
    ∀ e ∈ votersOf s v.leaving, ComesWithin s (sendSnuff s v) 800 .snuff { m := e.1, a := (s.gc.voteNo + 1) % 2 ^ 32 } := by
  unfold sendSnuff
  extract_lets n dl v' g s1 s2
  have hdraws : DrawsOnly s1 s2 := .foldl (drawsOnly_snuffMember n) _ s1
  refine ⟨⟨dl, ?_⟩, fun e he => ?_⟩
  · obtain ⟨k, l, hs2⟩ := hdraws
    rw [hs2]
    exact ⟨k, _, by simp only [watch, setVote, State.after, State.due, List.append_assoc]; rfl⟩
  · have hcomes : ComesWithin s1 s2 800 .snuff { m := e.1, a := n } :=
      comesWithin_foldl (drawsOnly_snuffMember n) (fun u e => comesWithin_after rfl (Config.freeDelay u.fresh) (by decide) ..) _ s1 he
    exact (hcomes.from rfl).mono fun x hx => by simp [watch, setVote, hx]

/-! ### ABORT (R63) -/

theorem sendAbort_spec (s : State) : DrawsOnly (setVote s fun v => { v with st := .backoff }) (sendAbort s) ∧
    Coming (sendAbort s) (s.clk + 42500) .backoffEnd { a := s.gc.vote.v } := by
  unfold sendAbort
  extract_lets v s1 s2
  have hdraws : DrawsOnly s1 s2 := .foldl (fun u e => drawsOnly_sendChimney ..) _ s1
  have hcoming := coming_after s2 (50 * Config.us) .backoffEnd { a := v.v }
  rw [hdraws.quiet.clk] at hcoming
  exact ⟨hdraws.trans ⟨_, _, rfl⟩, hcoming⟩

/-! ### RELIGHT (R63) -/

theorem makeChanges_eq (s : State) : ∃ cells, makeChanges s = { s with gc := { s.gc with cells := cells, vote := { s.gc.vote with changes := [] } } } := by
  have hfold : ∃ cells, s.gc.vote.changes.foldl (fun (s : State) (e : ℕ × Cell × Cell) =>
      if Tab.get Cell.empty s.gc.cells e.1 = e.2.1 then { s with gc := { s.gc with cells := Tab.put Cell.empty s.gc.cells e.1 e.2.2 } } else s) s =
        { s with gc := { s.gc with cells := cells } } :=
    List.foldlRecOn (motive := fun t : State => ∃ cells, t = { s with gc := { s.gc with cells := cells } }) _ _ ⟨s.gc.cells, rfl⟩ (by
      rintro _ ⟨cells, rfl⟩ e -
      dsimp only
      split
      · exact ⟨_, rfl⟩
      · exact ⟨cells, rfl⟩)
  obtain ⟨cells, hfold⟩ := hfold
  exact ⟨cells, by simp only [makeChanges, setVote, hfold]⟩

/-- The gang controller once RELIGHT has gone out to dies `ds`. -/
def relightGc (s : State) (cells : Tab Cell) (ds : List ℕ) : GC :=
  { s.gc with cells := cells, vote := { s.gc.vote with changes := [], st := .relighting, reported := [], dies := ds, askedAt := s.clk } }

theorem sendRelight_spec (s : State) : ∃ cells ds, DrawsOnly { s with gc := relightGc s cells ds } (sendRelight s) := by
  obtain ⟨cells, hchanges⟩ := makeChanges_eq s
  unfold sendRelight
  extract_lets s1 v ds s2 s3
  have hdraws : DrawsOnly s2 s3 := .foldl (fun u d => drawsOnly_sendChimney ..) _ s2
  refine ⟨cells, ds, ?_⟩
  obtain ⟨k, l, hs3⟩ := hdraws
  rw [hs3]
  refine ⟨k, l, ?_⟩
  simp only [s2, s1, hchanges, setVote]
  rfl

/-- RELIGHT brings the vote to RELIGHTING, with its counts as they were. -/
theorem sendRelight_voteAt (s : State) : VoteAt s (sendRelight s) .relighting ∧ (sendRelight s).gc.vote.counts = s.gc.vote.counts := by
  obtain ⟨cells, ds, hdraws⟩ := sendRelight_spec s
  have hquiet : Quiet s (sendRelight s) := ((Quiet.refl s).setGc _).trans hdraws.quiet
  exact ⟨⟨hquiet, by rw [hdraws.gc, relightGc]⟩, by rw [hdraws.gc, relightGc]⟩

end Sys2Proof.Machine
end

section
/-!
PROOFS.  The rounds of a vote (R60 to R63, R425): quantum end, SNUFF, COUNT, REFUSE, SUMREQ, the drain deadline and the end of a backoff.
-/
namespace Sys2Proof.Machine

variable {s : State}

/-! ### SLOT_QUANTUM_END (R55) -/

theorem slotQuantumEnd_busy (hrun : s.gc.running = true) (hend : s.gc.quantumEnd ≤ s.clk) (hvote : s.gc.vote.st ≠ .idle) :
    Happens .slotQuantumEnd s fun t => Quiet s t ∧ t.gc = s.gc ∧ Coming t (s.clk + 850) .slotQuantumEnd {} :=
  ⟨_, (if_neg (by simp [hrun, hend])).trans (if_pos hvote), ⟨rfl, rfl, rfl, rfl, rfl⟩, rfl, coming_after ..⟩

theorem beginVote_voters {leaving : List ℕ} (h : (votersOf s leaving).isEmpty = false) (coming : List ℕ) (slot : ℕ) (kill restricted : Bool)
    (changes : List (ℕ × Cell × Cell)) : beginVote s leaving coming slot kill restricted changes =
      sendSnuff s { Vote.none with leaving := leaving, coming := coming, slot := slot, kill := kill, restricted := restricted, changes := changes } :=
  if_neg (by simp [h])

theorem takePending_none (h : s.gc.pending = none) : takePending s = s := by rw [takePending, h]

theorem slotQuantumEnd_votes {s' : State} {i : ℕ} (hrun : s.gc.running = true) (hend : s.gc.quantumEnd ≤ s.clk) (hidle : s.gc.vote.st = .idle)
    (hpending : s.gc.pending = none)
    (hslot : findSlot (resetCells s s.gc.cur) s.gc.slots (if s.gc.cur + 1 < s.gc.slots then s.gc.cur + 1 else 0) = some (i, s')) :
    let here := slotVds s' i
    let on := (s.vds.map (·.1)).filter fun n => onDies s n; let out := on.filter fun n => !here.contains n
    (votersOf s out).isEmpty = false →
    Happens .slotQuantumEnd s fun t => VoteAt s t .snuffing ∧ t.gc.vote.leaving = out ∧ t.gc.vote.slot = i ∧ t.gc.cells = s.gc.cells ∧
      t.gc.vote.changes = cellChanges s s' ∧
      t.gc.vote.coming = (here.filter fun n => canRun s' n && !onDies s' n) ∧ t.gc.voteNo = (s.gc.voteNo + 1) % 2 ^ 32 ∧ t.gc.vote.v = t.gc.voteNo ∧
      ∀ e ∈ votersOf s out, ComesWithin s t 800 .snuff { m := e.1, a := t.gc.voteNo } := by
  intro here on out hvoters
  have hexec : exec .slotQuantumEnd s = .next (beginVote s out (here.filter fun n => canRun s' n && !onDies s' n) i false false (cellChanges s s')) := by
    change execSlotQuantumEnd s = _
    simp only [execSlotQuantumEnd, takePending_none hpending, hslot]
    exact (if_neg (by simp [hrun, hend])).trans (if_neg (not_not_intro hidle))
  rw [beginVote_voters hvoters] at hexec
  obtain ⟨⟨dl, hdraws⟩, hsnuff⟩ := sendSnuff_spec s { Vote.none with
    leaving := out, coming := here.filter fun n => canRun s' n && !onDies s' n, slot := i, kill := false, restricted := false, changes := cellChanges s s' }
  have hgc := hdraws.gc
  refine ⟨_, hexec, ⟨((Quiet.refl s).setGc _).trans hdraws.quiet, congrArg (·.vote.st) hgc⟩, congrArg (·.vote.leaving) hgc, congrArg (·.vote.slot) hgc,
    congrArg (·.cells) hgc, congrArg (·.vote.changes) hgc, congrArg (·.vote.coming) hgc, congrArg (·.voteNo) hgc, ?_, fun e he => ?_⟩
  · rw [hgc]
    rfl
  · rw [hgc]
    exact hsnuff e he

/-! ### SNUFF (R60) -/

section
variable (hvotes : votes s s.subject.m = true) (hst : s.gc.vote.st = .snuffing)
include hvotes hst

theorem snuff_arrives (hb : s.subject.b = 0) : Happens .snuff s fun t =>
    Quiet s t ∧ t.gc = s.gc ∧ t.members = s.members ∧ t.dies = s.dies ∧ Coming t (s.clk + 1) .snuff { s.subject with b := 1 } :=
  ⟨_, (if_neg (by simp [hvotes, hst])).trans (if_pos hb), ⟨rfl, rfl, rfl, rfl, rfl⟩, rfl, rfl, rfl, coming_after ..⟩

/-- The test of a member's windows is made on its die, which has been snuffed. -/
theorem execSnuff_test (hb : s.subject.b ≠ 0) : let m := s.subject.m; let s1 := s.modDie (s.member m).die fun d => { d with snuffing := true }
    execSnuff s = match (if (s.vd m.vd).state = .killed then none else openWindow s m) with
      | some i => .next (sendChimney .refuse { m := m, a := s.gc.vote.v, b := i } s1)
      | none => .next (s1.modMember m fun c => { c with
          snuffed := true, outside := s1.accesses.filter fun a => decide (a.ctx = m) && outsideBound s1 a && !a.kind.write && !a.performed }) :=
  (if_neg (by simp [hvotes, hst])).trans ((if_neg hb).trans (if_neg (not_not_intro hst)))

theorem snuff_tests (hb : s.subject.b ≠ 0) : let m := s.subject.m; let d := (s.member m).die
    Happens .snuff s fun t => Quiet s t ∧ t.gc = s.gc ∧ (t.die d).snuffing = true ∧
      (∀ i, openWindow s m = some i → (s.vd m.vd).state ≠ .killed → (t.member m).snuffed = (s.member m).snuffed ∧
        ComesWithin s t 400 .refuse { m := m, a := s.gc.vote.v, b := i }) ∧
      (openWindow s m = none ∨ (s.vd m.vd).state = .killed → (t.member m).snuffed = true) := by
  intro m d
  obtain ⟨s1, hs1⟩ : ∃ s1, s.modDie d (fun d => { d with snuffing := true }) = s1 := ⟨_, rfl⟩
  have hquiet : Quiet s s1 := hs1 ▸ (Quiet.refl s).modDie ..
  have hgc : s1.gc = s.gc := hs1 ▸ rfl
  have hdie : (s1.die d).snuffing = true := by rw [← hs1, State.die_modDie]
  have hmember : s1.member m = s.member m := hs1 ▸ rfl
  have hexec : exec .snuff s = _ := execSnuff_test hvotes hst hb
  rw [hs1] at hexec
  split at hexec
  · next i hwindow =>
    have hlive : (s.vd m.vd).state ≠ .killed := fun hkilled => by simp [m, hkilled] at hwindow
    rw [if_neg hlive] at hwindow
    have hdraws := drawsOnly_sendChimney .refuse { m := m, a := s.gc.vote.v, b := i } s1
    refine ⟨_, hexec, hquiet.trans hdraws.quiet, hdraws.gc.trans hgc, hdie, fun j hj _ => ?_, fun h => ?_⟩
    · obtain rfl : i = j := Option.some.inj (hwindow.symm.trans hj)
      exact ⟨congrArg Member.snuffed hmember, (comesWithin_sendChimney ..).from hquiet.clk.symm⟩
    · exact absurd h (by simp [hlive, m, hwindow])
  · next hwindow =>
    refine ⟨_, hexec, hquiet.modMember .., hgc, hdie, fun i hi hlive => ?_, fun _ => by rw [State.member_modMember]⟩
    rw [if_neg hlive, hi] at hwindow
    cases hwindow

end

/-! ### COUNT_LATCH (R62) -/

/-- A member with its counters latched. -/
def Member.latch (c : Member) : Member := { c with latched := (c.sent, c.received) }

/-- The COUNT of round `b` of vote `v` from a member's die. -/
def countOf (s : State) (v : Vote) (b : ℕ) (e : MemberId × ℕ) : Subject :=
  { a := v.v, b := b, c := e.2, l := [(s.vd e.1.vd).gang, (s.member e.1).sent, (s.member e.1).received] }

/-- A member latches its counters and sends them; a failed die is silent. -/
def latchMember (v : Vote) (b : ℕ) (s : State) (e : MemberId × ℕ) : State :=
  if (s.die e.2).failed then s else sendChimney .count (countOf s v b e) (s.modMember e.1 Member.latch)

/-- Members have latched their counters, and events are asked for. -/
structure Latches (s t : State) : Prop where
  quiet : Quiet s t
  gc : t.gc = s.gc
  vds : t.vds = s.vds
  dies : t.dies = s.dies
  agenda : s.agenda ⊆ t.agenda
  members : ∀ m, t.member m = s.member m ∨ t.member m = (s.member m).latch

namespace Latches
variable {t u : State}

theorem refl (s : State) : Latches s s := ⟨.refl s, rfl, rfl, rfl, List.Subset.refl _, fun _ => .inl rfl⟩
theorem trans (h : Latches s t) (h' : Latches t u) : Latches s u where
  quiet := h.quiet.trans h'.quiet
  gc := h'.gc.trans h.gc
  vds := h'.vds.trans h.vds
  dies := h'.dies.trans h.dies
  agenda := List.Subset.trans h.agenda h'.agenda
  members m := by
    rcases h.members m with e | e <;> rcases h'.members m with e' | e' <;> simp [e', e, Member.latch]

theorem counters (h : Latches s t) (m : MemberId) : (t.member m).sent = (s.member m).sent ∧ (t.member m).received = (s.member m).received := by
  rcases h.members m with e | e <;> rw [e] <;> exact ⟨rfl, rfl⟩

theorem countOf (h : Latches s t) (v : Vote) (b : ℕ) (e : MemberId × ℕ) : Machine.countOf t v b e = Machine.countOf s v b e := by
  obtain ⟨hsent, hreceived⟩ := h.counters e.1
  rw [Machine.countOf, hsent, hreceived, State.vd, h.vds, ← State.vd, Machine.countOf]

/-- What has been latched stays so. -/
theorem latched (h : Latches s t) {m : MemberId} (hm : (s.member m).latched = ((s.member m).sent, (s.member m).received)) :
    (t.member m).latched = ((s.member m).sent, (s.member m).received) := by
  rcases h.members m with e | e <;> rw [e]
  · exact hm
  · rfl

theorem latchMember (v : Vote) (b : ℕ) (s : State) (e : MemberId × ℕ) : Latches s (Machine.latchMember v b s e) := by
  unfold Machine.latchMember
  split
  · exact refl s
  · exact ⟨⟨rfl, rfl, rfl, rfl, rfl⟩, rfl, rfl, rfl, List.subset_append_left _ _, fun m => (member_modMember_cases s e.1 m Member.latch).symm⟩

end Latches

/-- Every member whose die has not failed latches its counters and sends them. -/
theorem latchMember_foldl (v : Vote) (b : ℕ) {e : MemberId × ℕ} (l : List (MemberId × ℕ)) (s : State) (he : e ∈ l) (hup : (s.die e.2).failed = false) :
    ((l.foldl (latchMember v b) s).member e.1).latched = ((s.member e.1).sent, (s.member e.1).received) ∧
      ComesWithin s (l.foldl (latchMember v b) s) 400 .count (countOf s v b e) := by
  induction l generalizing s with
  | nil => cases he
  | cons x l ih =>
    rw [List.foldl_cons]
    have hstep := Latches.latchMember v b s x
    obtain ⟨u, hu⟩ : ∃ u, latchMember v b s x = u := ⟨_, rfl⟩
    rw [hu] at hstep ⊢
    obtain ⟨hsent, hreceived⟩ := hstep.counters e.1
    rcases List.mem_cons.mp he with rfl | he
    · have hrest : Latches u (l.foldl (latchMember v b) u) := foldl_keeps Latches.refl Latches.trans (Latches.latchMember v b) l u
      rw [latchMember, hup, if_neg Bool.false_ne_true] at hu
      have hmember : u.member e.1 = (s.member e.1).latch := by
        rw [← hu]
        exact State.member_modMember ..
      refine ⟨?_, ComesWithin.mono (t := u) ?_ hrest.agenda⟩
      · rw [hrest.latched (by rw [hmember]; rfl), hsent, hreceived]
      · rw [← hu]
        exact (comesWithin_sendChimney ..).from rfl
    · obtain ⟨hlatched, hcount⟩ := ih u he (by rwa [State.die, hstep.dies])
      rw [hsent, hreceived] at hlatched
      rw [hstep.countOf] at hcount
      exact ⟨hlatched, hcount.from hstep.quiet.clk.symm⟩

theorem countLatch_happens {o : Subject} (ho : s.subject = o) (hv : s.gc.vote.v = o.a) (hround : s.gc.vote.round = o.b)
    (hst : s.gc.vote.st = .snuffing ∨ s.gc.vote.st = .summing) (htime : s.gc.vote.sentAt + 1700 + 850 * o.b ≤ s.clk) :
    Happens .countLatch s fun t => VoteAt s t s.gc.vote.st ∧ Coming t (s.clk + 850) .sumreq { a := s.gc.vote.v, b := o.b + 1 } ∧
      ∀ e ∈ votersOf s s.gc.vote.leaving, (s.die e.2).failed = false → (t.member e.1).latched = ((s.member e.1).sent, (s.member e.1).received) ∧
        ComesWithin s t 400 .count (countOf s s.gc.vote o.b e) := by
  subst ho
  obtain ⟨u, hu⟩ : ∃ u, (votersOf s s.gc.vote.leaving).foldl (latchMember s.gc.vote s.subject.b) s = u := ⟨_, rfl⟩
  have hlatches : Latches s u := hu ▸ foldl_keeps Latches.refl Latches.trans (Latches.latchMember s.gc.vote s.subject.b) _ s
  obtain ⟨w, hw, hdraws⟩ : ∃ w, exec .countLatch s = .next (w.after 850 .sumreq { a := s.gc.vote.v, b := s.subject.b + 1 }) ∧ DrawsOnly u w := by
    refine ⟨_, if_neg (by simp [hv, hround, hst, htime]), ?_⟩
    rw [← hu]
    exact .foldl (fun u w => drawsOnly_sendChimney ..) _ _
  have hcoming := coming_after w 850 .sumreq { a := s.gc.vote.v, b := s.subject.b + 1 }
  have hquiet := hlatches.quiet.trans hdraws.quiet
  rw [hquiet.clk] at hcoming
  refine ⟨_, hw, ⟨hquiet.after .., ?_⟩, hcoming, fun e he hup => ?_⟩
  · rw [State.after_gc, hdraws.gc, hlatches.gc]
  · obtain ⟨hlatched, hcount⟩ := hu ▸ latchMember_foldl s.gc.vote s.subject.b _ s he hup
    rw [State.member_after, members_congr hdraws.members]
    exact ⟨hlatched, hcount.mono (List.subset_append_of_subset_left _ hdraws.agenda)⟩

/-! ### REFUSE (R63, R425) -/

theorem refuse_happens (hvotes : votes s s.subject.m = true) (hst : s.gc.vote.st = .snuffing) : let m := s.subject.m
    Happens .refuse s fun t => VoteAt s t .backoff ∧ (t.vd m.vd).refusals = (s.vd m.vd).refusals + 1 ∧ t.gc.cells = s.gc.cells ∧
      Coming t (s.clk + 42500) .backoffEnd { a := s.gc.vote.v } ∧
      (((s.vd m.vd).refusals + 1) % 4 = 0 → ∃ r ∈ t.reports, r.kind = 0 ∧ r.code = 2 ∧ r.vd = m.vd ∧ r.member = m.member ∧ r.core = s.subject.b) := by
  intro m
  obtain ⟨s1, hs1⟩ : ∃ s1, s.modVd m.vd (fun v => { v with refusals := (s.vd m.vd).refusals + 1 }) = s1 := ⟨_, rfl⟩
  obtain ⟨s2, hs2⟩ : ∃ s2, (if ((s.vd m.vd).refusals + 1) % 4 = 0 then
    gangEvent s1 0x02 m.vd m.member s.subject.b [(s.vd m.vd).refusals + 1, ((s1.core ⟨(s1.member m).die, s.subject.b⟩).nsw).getD 0, s.subject.a] else s1) = s2 := ⟨_, rfl⟩
  have hexec : exec .refuse s = .next (sendAbort s2) := (if_neg (by simp [hvotes, hst])).trans (by rw [← hs2, ← hs1])
  have hreports : ∃ rs, s2 = { s1 with reports := rs } := by
    rw [← hs2]
    split
    · exact ⟨_, rfl⟩
    · exact ⟨_, rfl⟩
  obtain ⟨hdraws, hcoming⟩ := sendAbort_spec s2
  have hquiet : Quiet s s2 := by
    obtain ⟨rs, hrs⟩ := hreports
    rw [hrs, ← hs1]
    exact ⟨rfl, rfl, rfl, rfl, rfl⟩
  have hrefusals : (s2.vd m.vd).refusals = (s.vd m.vd).refusals + 1 := by
    obtain ⟨rs, hrs⟩ := hreports
    have hvd : s2.vd m.vd = s1.vd m.vd := by rw [hrs]; rfl
    rw [hvd, ← hs1, State.vd_modVd]
  have hgc : s2.gc = s.gc := by
    obtain ⟨rs, hrs⟩ := hreports
    rw [hrs, ← hs1]
    rfl
  rw [hquiet.clk, hgc] at hcoming
  refine ⟨_, hexec, ⟨(hquiet.setVote _).trans hdraws.quiet, congrArg (·.vote.st) hdraws.gc⟩, ?_, ?_, hcoming, fun hfourth => ?_⟩
  · exact (congrArg (fun l => (Tab.get VD.blank l m.vd).refusals) hdraws.vds).trans hrefusals
  · exact (congrArg (·.cells) hdraws.gc).trans (congrArg (·.cells) hgc)
  · rw [if_pos hfourth] at hs2
    rw [hdraws.reports, ← hs2]
    exact ⟨_, List.mem_append_right _ (.head _), rfl, rfl, rfl, rfl, rfl⟩

/-! ### COUNT and SUMREQ (R63) -/

section
variable {o : Subject} (ho : s.subject = o) (hv : s.gc.vote.v = o.a) (hst : s.gc.vote.st = .snuffing ∨ s.gc.vote.st = .summing)
include ho hv hst

theorem count_happens (hround : s.gc.vote.round = o.b) (hnew : ∀ r ∈ s.gc.vote.counts, r.1 ≠ o.c) : let v := s.gc.vote; let rows := v.counts ++ countRows o.c o.l
    let s1 : State := { s with gc := { s.gc with vote := { v with counts := rows } } }
    Happens .count s fun t => t.gc.vote.counts = rows ∧ VoteAt s t (if v.leaving.all (gangEqual s1) then .relighting else v.st) := by
  subst ho
  intro v rows s1
  have hquiet : Quiet s s1 := (Quiet.refl s).setGc _
  have hexec : exec .count s = .next (if v.leaving.all (gangEqual s1) then sendRelight s1 else s1) :=
    if_neg (by simp [hv, hround, hst, List.any_eq_false.mpr fun r hr => decide_eq_true_iff.not.mpr (hnew r hr)])
  refine ⟨_, hexec, ?_⟩
  split
  · obtain ⟨⟨hrelight, hrelighting⟩, hcounts⟩ := sendRelight_voteAt s1
    exact ⟨hcounts, hquiet.trans hrelight, hrelighting⟩
  · exact ⟨rfl, hquiet, rfl⟩

theorem sumreq_happens (hround : s.gc.vote.round + 1 = o.b) :
    Happens .sumreq s fun t => VoteAt s t .summing ∧ t.gc.vote.round = o.b ∧ t.gc.vote.counts = [] ∧ Coming t s.clk .countLatch { a := o.a, b := o.b } := by
  subst ho
  exact ⟨_, if_neg (by simp [hv, hround, hst]), ⟨⟨rfl, rfl, rfl, rfl, rfl⟩, rfl⟩, rfl, rfl, coming_after _ 0 ..⟩

/-! ### DRAIN_DEADLINE (R62, R63) -/

theorem drainDeadline_happens (htime : s.gc.vote.sentAt + s.gc.vote.deadline ≤ s.clk) : let v := s.gc.vote
    Happens .drainDeadline s fun t => VoteAt s t .holding ∧ t.gc.vote.hold = (v.leaving.filter fun n => !gangEqual s n) ∧ t.gc.vote.reported = [] ∧
      ∀ p ∈ parties s, ComesWithin s t 400 .hold { a := v.v, b := p } := by
  subst ho
  intro v
  obtain ⟨s1, hs1⟩ : ∃ s1, setVote s (fun v => { v with st := .holding, hold := v.leaving.filter fun n => !gangEqual s n, reported := [] }) = s1 := ⟨_, rfl⟩
  obtain ⟨n, hn⟩ : ∃ n, chimney s1 = 1 + n % 400 := ⟨_, rfl⟩
  obtain ⟨s2, hs2⟩ : ∃ s2, (parties s).foldl (fun s p => s.after (1 + n % 400) .hold { a := v.v, b := p }) s1.draw = s2 := ⟨_, rfl⟩
  have hparties : parties s1 = parties s := hs1 ▸ rfl
  have hexec : exec .drainDeadline s = .next (watch s2) := by
    change execDrainDeadline s = _
    rw [← hs2, ← hn, ← hparties, ← hs1]
    exact if_neg (by simp [hv, hst, htime])
  have hdraws : DrawsOnly s1 s2 := .trans (t := s1.draw) ⟨_, [], by rw [List.append_nil]; rfl⟩ (hs2 ▸ .foldl (fun _ _ => ⟨_, _, rfl⟩) _ s1.draw)
  have hquiet : Quiet s s2 := Quiet.trans (hs1 ▸ (Quiet.refl s).setVote _) hdraws.quiet
  have hgc : s2.gc = s1.gc := hdraws.gc
  refine ⟨_, hexec, ⟨(hquiet.setVote _).after .., ?_⟩, ?_, ?_, fun p hp => ?_⟩
  · exact (congrArg (fun g => g.vote.st) hgc :).trans (hs1 ▸ rfl)
  · exact (congrArg (fun g => g.vote.hold) hgc :).trans (hs1 ▸ rfl)
  · exact (congrArg (fun g => g.vote.reported) hgc :).trans (hs1 ▸ rfl)
  · have hhold : ComesWithin s1.draw s2 400 .hold { a := v.v, b := p } := hs2 ▸
      comesWithin_foldl (f := fun s p => s.after (1 + n % 400) .hold { a := v.v, b := p }) (o := fun p => { a := v.v, b := p }) (fun _ _ => ⟨_, _, rfl⟩)
        (fun u _ => comesWithin_after rfl n (by decide) ..) _ s1.draw hp
    exact (hhold.from (hs1 ▸ rfl)).mono (List.subset_append_left _ _)

end

/-! ### BACKOFF_END (R63) -/

theorem backoffEnd_happens (hv : s.gc.vote.v = s.subject.a) (hst : s.gc.vote.st = .backoff) (hvoters : (votersOf s s.gc.vote.leaving).isEmpty = false) :
    Happens .backoffEnd s fun t => VoteAt s t .snuffing ∧ t.gc.vote.v = (s.gc.voteNo + 1) % 2 ^ 32 ∧ t.gc.vote.leaving = s.gc.vote.leaving := by
  have hexec : exec .backoffEnd s = .next (sendSnuff s s.gc.vote) := (if_neg (by simp [hv, hst])).trans (if_neg (by simp [hvoters]))
  obtain ⟨⟨dl, hdraws⟩, -⟩ := sendSnuff_spec s s.gc.vote
  have hgc := hdraws.gc
  exact ⟨_, hexec, ⟨((Quiet.refl s).setGc _).trans hdraws.quiet, congrArg (·.vote.st) hgc⟩, congrArg (·.vote.v) hgc, congrArg (·.vote.leaving) hgc⟩

end Sys2Proof.Machine
end

section
/-!
PROOFS.  Capture of packets at the drain deadline (R59, R64, R426): HOLD at a die whose member holds one packet, and HELD.
-/
namespace Sys2Proof.Machine

variable {s : State}

/-! ### One packet is captured (R64) -/

/-- The member whose network save area has taken a packet. -/
def Member.saveNet (c : Member) (p : Pkt) : Member :=
  { c with netSave := netInsert { p with counted := true } c.netSave, received := c.received + (if p.counted then 0 else 1) }

theorem captureAll_single {m : MemberId} {p : Pkt} (hfits : captureFits s m p = true) (w : Option ℕ) : captureAll s w [(m, p)] = ([], capture s w m p) :=
  if_neg (by simp [hfits])

theorem member_capture (m : MemberId) (p : Pkt) : (capture s none m p).member m = (s.member m).saveNet p := by
  dsimp only [capture]
  rw [State.member_modMember, State.member_modMember, Member.saveNet]

/-- Member `m` has captured packet `p`, the only one it held. -/
structure CapturedOne (m : MemberId) (p : Pkt) (s t : State) : Prop where
  quiet : Quiet s t
  gc : t.gc = s.gc
  vds : t.vds = s.vds
  member : t.member m = { (s.member m).saveNet p with landing := [] }
  others : ∀ n, memberKey n ≠ memberKey m → t.member n = s.member n

section
variable {m : MemberId} {p : Pkt} (hlanding : (s.member m).landing = [p]) (hwait : (s.member m).stampWait = []) (hunbuilt : (s.member m).unbuilt = [])
  (hserved : servedPkts s m = []) (hdue : ∀ x ∈ s.agenda, duePkt s x = none) (hfits : captureFits s m p = true)
include hlanding hwait hunbuilt hserved hdue hfits

theorem captureNi_single : (captureNi s m false).1 = [] ∧ CapturedOne m p s (captureNi s m false).2 := by
  unfold captureNi
  extract_lets sel c served due l r stays gone s1 s2
  have hnone : s.agenda.filterMap due = [] := List.filterMap_eq_nil_iff.mpr fun x hx => by simp only [due, hdue x hx, Option.filter_none, ite_self]
  have hpackets : l = [p] := by
    simp only [l, hnone, served, hserved, c, hlanding, hwait, hunbuilt]
    rfl
  have hcaptured : r = ([], capture s none m p) := by
    rw [← captureAll_single hfits]
    exact congrArg (fun l : List Pkt => captureAll s none (l.map fun p => (m, p))) hpackets
  have hgoes : stays p = false := by
    simp only [stays, hcaptured]
    rfl
  have hs1 : s1 = (capture s none m p).modMember m fun c =>
      { c with landing := c.landing.filter stays, stampWait := c.stampWait.filter fun e => stays e.1, unbuilt := c.unbuilt.filter fun e => stays e.1 } := by
    simp only [s1, hcaptured]
  clear_value s1
  have hcapture : Quiet s (capture s none m p) := by
    dsimp only [capture]
    exact ((Quiet.refl s).modMember ..).modMember ..
  have hquiet : Quiet s s1 := hs1 ▸ hcapture.modMember ..
  have hsame : s1.gc = s.gc ∧ s1.vds = s.vds := hs1 ▸ ⟨rfl, rfl⟩
  refine ⟨by rw [hcaptured], hquiet.trans ⟨rfl, rfl, rfl, rfl, rfl⟩, hsame.1, hsame.2, ?_, fun n hn => ?_⟩
  · change s1.member m = _
    rw [hs1, State.member_modMember, member_capture]
    simp [Member.saveNet, hlanding, hwait, hunbuilt, hgoes]
  · change s1.member n = _
    rw [hs1, State.member_modMember_other _ _ hn]
    dsimp only [capture]
    rw [State.member_modMember_other _ _ hn, State.member_modMember_other _ _ hn]

end

/-! ### What HELD says (R59) -/

theorem netInsert_length (p : Pkt) (l : List Pkt) : (netInsert p l).length = l.length + 1 := by
  induction l with
  | nil => rfl
  | cons q l ih =>
    rw [netInsert]
    split
    · rfl
    · rw [List.length_cons, ih, List.length_cons]

/-- A sum one of whose terms has grown by one. -/
theorem sum_map_range_succ_one {f g : ℕ → ℕ} {n i : ℕ} (hi : i < n) (hsame : ∀ j, j ≠ i → g j = f j) (hone : g i = f i + 1) :
    ((List.range n).map g).sum = ((List.range n).map f).sum + 1 := by
  induction n with
  | zero => cases hi
  | succ n ih =>
    simp only [List.range_succ, List.map_append, List.map_cons, List.map_nil, List.sum_append, List.sum_cons, List.sum_nil]
    by_cases hn : i = n
    · subst hn
      rw [List.map_congr_left fun j hj => hsame j (List.mem_range.mp hj).ne, hone]
      omega
    · rw [ih (by omega), hsame n (Ne.symm hn)]
      omega

theorem CapturedOne.savedCount {m : MemberId} {p : Pkt} {t : State} (h : CapturedOne m p s t) (hm : m.member < (s.vd m.vd).params.n) :
    savedCount t m.vd = savedCount s m.vd + 1 := by
  unfold Machine.savedCount
  rw [show t.vd m.vd = s.vd m.vd by rw [State.vd, h.vds, State.vd]]
  refine sum_map_range_succ_one hm (fun j hj => ?_) ?_
  · rw [h.others ⟨m.vd, j⟩ (by simp only [memberKey]; omega)]
  · rw [h.member]
    exact netInsert_length ..

theorem heldContent_one {m : MemberId} {p : Pkt} {t : State} (h : CapturedOne m p s t) (hm : m.member < (s.vd m.vd).params.n) :
    heldContent s t [m.vd] [] = [(s.vd m.vd).gang, 1] := by
  simp [heldContent, h.savedCount hm]

/-! ### HOLD (R64) -/

/-- HELD leaves for the gang controller. -/
def sendHeld (s : State) (v : Vote) (b : ℕ) (m : MemberId) (r : List (MemberId × Pkt) × State) : State :=
  sendChimney .held { m := m, a := v.v, b := b, c := r.1.length, l := heldContent s r.2 v.hold r.1 } r.2

section
variable {o : Subject} {m : MemberId} (ho : s.subject = o) (hv : s.gc.vote.v = o.a) (hst : s.gc.vote.st = .holding) (hparty : (parties s).contains o.b = true)
  (hdie : o.b < 1000) (hup : (s.die o.b).failed = false) (hctx : (s.die o.b).ctx = some m)
include ho hv hst hparty hdie hup hctx

theorem execHold_die : exec .hold s = .next (sendHeld s s.gc.vote o.b m (if s.gc.vote.hold.contains m.vd then captureNi s m false else ([], s))) := by
  subst ho
  change execHold s = _
  simp only [execHold, hctx]
  exact (if_neg (by simp only [hv, hst, hparty]; simp)).trans ((if_pos hdie).trans (if_neg (by simp [hup])))

theorem hold_captures {p : Pkt} (hhold : m.vd ∈ s.gc.vote.hold) (hlanding : (s.member m).landing = [p]) (hwait : (s.member m).stampWait = [])
    (hunbuilt : (s.member m).unbuilt = []) (hserved : servedPkts s m = []) (hdue : ∀ x ∈ s.agenda, duePkt s x = none) (hfits : captureFits s m p = true) :
    Happens .hold s fun t => VoteAt s t .holding ∧ (t.member m).landing = [] ∧ (t.member m).netSave = netInsert { p with counted := true } (s.member m).netSave ∧
      (t.member m).received = (s.member m).received + (if p.counted then 0 else 1) ∧
      ∃ at_ l, s.clk < at_ ∧ Coming t at_ .held { m := m, a := s.gc.vote.v, b := o.b, c := 0, l := l } ∧
        (s.gc.vote.hold = [m.vd] → m.member < (s.vd m.vd).params.n → l = [(s.vd m.vd).gang, 1]) := by
  obtain ⟨hleft, hone⟩ := captureNi_single hlanding hwait hunbuilt hserved hdue hfits
  have hexec := execHold_die ho hv hst hparty hdie hup hctx
  rw [if_pos (List.contains_iff_mem.mpr hhold), sendHeld, hleft] at hexec
  obtain ⟨at_, hlate, -, hcoming⟩ := (comesWithin_sendChimney .held
    { m := m, a := s.gc.vote.v, b := o.b, c := 0, l := heldContent s (captureNi s m false).2 s.gc.vote.hold [] } (captureNi s m false).2).from hone.quiet.clk.symm
  refine ⟨_, hexec, ⟨(hone.quiet.draw).after .., (congrArg (·.vote.st) hone.gc).trans hst⟩, congrArg Member.landing hone.member, congrArg Member.netSave hone.member,
    congrArg Member.received hone.member, at_, _, hlate, hcoming, fun hhold hm => ?_⟩
  rw [hhold, heldContent_one hone hm]

theorem hold_notNamed (hhold : m.vd ∉ s.gc.vote.hold) : Happens .hold s fun t => VoteAt s t .holding ∧ t.members = s.members ∧
    ComesWithin s t 400 .held { m := m, a := s.gc.vote.v, b := o.b, l := heldContent s s s.gc.vote.hold [] } := by
  have hexec := execHold_die ho hv hst hparty hdie hup hctx
  rw [if_neg (List.contains_iff_mem.not.mpr hhold)] at hexec
  exact ⟨_, hexec, ⟨⟨rfl, rfl, rfl, rfl, rfl⟩, hst⟩, rfl, comesWithin_sendChimney ..⟩

end

/-! ### HELD (R63) -/

/-- Records of full queues are reports. -/
theorem overflowRecords_eq : ∀ (l : List ℕ) (s : State), ∃ rs, overflowRecords s l = { s with reports := rs }
  | k :: i :: left :: l, s => by
    obtain ⟨rs, hrs⟩ := overflowRecords_eq l (gangEvent s 0x04 (k / 256) (k % 256) 0xFFFF [i, left, (s.vd (k / 256)).overflows + 1])
    exact ⟨rs, hrs⟩
  | [], s => ⟨s.reports, rfl⟩
  | [_], s => ⟨s.reports, rfl⟩
  | [_, _], s => ⟨s.reports, rfl⟩

theorem held_happens {o : Subject} (ho : s.subject = o) (hv : s.gc.vote.v = o.a) (hst : s.gc.vote.st = .holding) (hnew : o.b ∉ s.gc.vote.reported) (hc : o.c = 0)
    (hoverflow : s.gc.vote.overflow = false) : let rep := s.gc.vote.reported ++ [o.b]
    Happens .held s fun t => VoteAt s t (if (parties s).all rep.contains then .relighting else .holding) ∧
      ((parties s).all rep.contains = false → t.gc.vote.reported = rep) := by
  subst ho
  intro rep
  obtain ⟨s1, hs1⟩ : ∃ s1, setVote s (fun v => { v with reported := v.reported ++ [s.subject.b], overflow := v.overflow || decide (s.subject.c ≠ 0) }) = s1 := ⟨_, rfl⟩
  obtain ⟨rs, hrs⟩ := overflowRecords_eq (s.subject.l.drop (2 * s.gc.vote.hold.length)) s1
  obtain ⟨s2, hs2⟩ : ∃ s2 : State, { s1 with reports := rs } = s2 := ⟨_, rfl⟩
  have hquiet : Quiet s s2 := by
    rw [← hs2, ← hs1]
    exact ⟨rfl, rfl, rfl, rfl, rfl⟩
  have hparties : parties s2 = parties s := by
    rw [← hs2, ← hs1]
    rfl
  have hreported : s2.gc.vote.reported = rep := by
    rw [← hs2, ← hs1]
    rfl
  have hrelight : heldAll s2 = sendRelight s2 := by
    refine if_neg ?_
    rw [← hs2, ← hs1]
    simp [setVote, hoverflow, hc]
  have hexec : exec .held s = .next (if (parties s).all rep.contains then sendRelight s2 else s2) := by
    change execHeld s = _
    simp only [execHeld, hs1, hrs, hs2, hparties, hreported, hrelight]
    exact if_neg (by simp [hv, hst, hnew])
  refine ⟨_, hexec, ?_⟩
  split
  · next hall =>
    obtain ⟨⟨hsent, hrelighting⟩, -⟩ := sendRelight_voteAt s2
    exact ⟨⟨hquiet.trans hsent, hrelighting⟩, fun hnot => absurd hall (by simp [hnot])⟩
  · refine ⟨⟨hquiet, ?_⟩, fun _ => hreported⟩
    rw [← hs2, ← hs1]
    exact hst

end Sys2Proof.Machine
end

section
/-!
PROOFS.  What goes on when injection and work resume (R63, R66): captured packets are delivered, waiting packets leave, and engines look again; ABORT.
-/
namespace Sys2Proof.Machine

/-! ### The relation -/

/-- Memories, cores and VDs are the same, and every die has its context and is stopped or not as before. -/
structure Resumes (s t : State) : Prop where
  quiet : Quiet s t
  vds : t.vds = s.vds
  ctx : ∀ d, (t.die d).ctx = (s.die d).ctx
  stopped : ∀ d, (t.die d).stopped = (s.die d).stopped

namespace Resumes
variable {s t u : State}

theorem refl (s : State) : Resumes s s := ⟨.refl s, rfl, fun _ => rfl, fun _ => rfl⟩
theorem trans (h : Resumes s t) (h' : Resumes t u) : Resumes s u :=
  ⟨h.quiet.trans h'.quiet, h'.vds.trans h.vds, fun d => (h'.ctx d).trans (h.ctx d), fun d => (h'.stopped d).trans (h.stopped d)⟩
/-- What changes neither memories nor cores, VDs or dies. -/
theorem same (h : Resumes s t) (hquiet : Quiet t u := by exact ⟨rfl, rfl, rfl, rfl, rfl⟩) (hvds : u.vds = t.vds := by rfl) (hdies : u.dies = t.dies := by rfl) :
    Resumes s u := h.trans ⟨hquiet, hvds, fun d => by rw [State.die, hdies, State.die], fun d => by rw [State.die, hdies, State.die]⟩
theorem after (h : Resumes s t) (n : ℕ) (i : Instr) (o : Subject) : Resumes s (t.after n i o) := h.same
theorem afterM (h : Resumes s t) (n : ℕ) (i : Instr) (m : MemberId) (a : ℕ) : Resumes s (t.afterM n i m a) := h.same
theorem modMember (h : Resumes s t) (m : MemberId) (f : Member → Member) : Resumes s (t.modMember m f) := h.same
theorem modSwitch (h : Resumes s t) (n : ℕ) (f : Switch → Switch) : Resumes s (t.modSwitch n f) := h.same
theorem report (h : Resumes s t) (r : Report) : Resumes s (t.report r) := h.same
theorem modDie (h : Resumes s t) {d : ℕ} {f : Die → Die} (hctx : (f (t.die d)).ctx = (t.die d).ctx := by rfl)
    (hstopped : (f (t.die d)).stopped = (t.die d).stopped := by rfl) : Resumes s (t.modDie d f) := by
  refine h.trans ⟨⟨rfl, rfl, rfl, rfl, rfl⟩, rfl, fun e => ?_, fun e => ?_⟩ <;> by_cases he : e = d
  · rw [he, State.die_modDie, hctx]
  · rw [State.die_modDie_other _ _ he]
  · rw [he, State.die_modDie, hstopped]
  · rw [State.die_modDie_other _ _ he]
theorem foldl {α : Type} {f : State → α → State} (h : Resumes s t) (hf : ∀ u x, Resumes u (f u x)) (l : List α) : Resumes s (l.foldl f t) :=
  h.trans (foldl_keeps refl trans hf l t)
theorem ite {p : Prop} [Decidable p] (ht : Resumes s t) (hu : Resumes s u) : Resumes s (if p then t else u) := by
  split
  · exact ht
  · exact hu
theorem injects (h : Resumes s t) (hu : Injects t u) : Resumes s u :=
  h.trans ⟨hu.quiet, hu.vds, fun d => (congrArg Die.ctx (hu.dies d) :), fun d => (congrArg Die.stopped (hu.dies d) :)⟩
theorem asks (h : Resumes s t) (hu : AsksOnly t u) : Resumes s u := by
  obtain ⟨l, rfl⟩ := hu
  exact h.same
theorem draws (h : Resumes s t) (hu : DrawsOnly t u) : Resumes s u := by
  obtain ⟨n, l, rfl⟩ := hu
  exact h.same
theorem checkHeld (h : Resumes s t) (m : MemberId) : Resumes s (Machine.checkHeld t m) := by
  rcases checkHeld_cases t m with e | e <;> rw [e]
  · exact h
  · exact h.afterM ..

end Resumes

/-- The same, and every member injects or not, and keeps its network save area, as before. -/
structure Delivers (s t : State) : Prop extends Resumes s t where
  snuffed : ∀ m, (t.member m).snuffed = (s.member m).snuffed
  netSave : ∀ m, (t.member m).netSave = (s.member m).netSave

namespace Delivers
variable {s t u : State}

theorem refl (s : State) : Delivers s s := ⟨.refl s, fun _ => rfl, fun _ => rfl⟩
theorem trans (h : Delivers s t) (h' : Delivers t u) : Delivers s u :=
  ⟨h.toResumes.trans h'.toResumes, fun m => (h'.snuffed m).trans (h.snuffed m), fun m => (h'.netSave m).trans (h.netSave m)⟩
/-- What resumes with the same members. -/
theorem same (h : Delivers s t) (hu : Resumes t u) (hmembers : u.members = t.members := by rfl) : Delivers s u :=
  h.trans ⟨hu, fun m => by rw [members_congr hmembers], fun m => by rw [members_congr hmembers]⟩
theorem after (h : Delivers s t) (n : ℕ) (i : Instr) (o : Subject) : Delivers s (t.after n i o) := h.same ((Resumes.refl t).after ..)
theorem modMember (h : Delivers s t) {m : MemberId} {f : Member → Member} (hf : ∀ c, (f c).snuffed = c.snuffed ∧ (f c).netSave = c.netSave := by exact fun _ => ⟨rfl, rfl⟩) :
    Delivers s (t.modMember m f) := by
  refine h.trans ⟨(Resumes.refl t).modMember .., fun n => ?_, fun n => ?_⟩ <;> rcases member_modMember_cases t m n f with e | e <;> rw [e]
  · exact (hf _).1
  · exact (hf _).2
theorem foldl {α : Type} {f : State → α → State} (h : Delivers s t) (hf : ∀ u x, Delivers u (f u x)) (l : List α) : Delivers s (l.foldl f t) :=
  h.trans (foldl_keeps refl trans hf l t)
theorem injects (h : Delivers s t) (hu : Injects t u) : Delivers s u :=
  h.trans ⟨(Resumes.refl t).injects hu, fun m => (congrArg Member.snuffed (hu.members m) :), fun m => (congrArg Member.netSave (hu.members m) :)⟩
theorem asks (h : Delivers s t) (hu : AsksOnly t u) : Delivers s u :=
  h.trans ⟨(Resumes.refl t).asks hu, fun m => congrArg Member.snuffed (hu.member m), fun m => congrArg Member.netSave (hu.member m)⟩

/-! ### Packets that go on -/

theorem checkHeld (h : Delivers s t) (m : MemberId) : Delivers s (Machine.checkHeld t m) := by
  rcases checkHeld_cases t m with e | e <;> rw [e]
  · exact h
  · exact h.after ..

theorem redeliver (h : Delivers s t) (m : MemberId) (p : Pkt) : Delivers s (Machine.redeliver m t p) := by
  unfold Machine.redeliver
  dsimp only
  split_ifs
  · exact h.after ..
  · exact h.after ..
  · exact h.modMember
  · exact h.modMember.checkHeld m
  · exact (h.same ((Resumes.refl t).modDie)).after ..

/-- Captured packets have left the network save area of their member. -/
theorem deliverNet (s : State) (m : MemberId) : Delivers (s.modMember m fun c => { c with netSave := [] }) (Machine.deliverNet s m) :=
  (refl _).foldl (fun u p => (refl u).redeliver m p) _

theorem pumpOut (h : Delivers s t) (m : MemberId) : Delivers s (Machine.pumpOut t m) :=
  h.modMember.foldl (fun u p => (refl u).injects ((Injects.refl u).sendPkt m p)) _

theorem wakeEngines (h : Delivers s t) (m : MemberId) : Delivers s (Machine.wakeEngines t m) :=
  Delivers.asks (((h.pumpOut m).foldl (fun u _ => (refl u).after ..) _).after ..) (asksOnly_pokeColl ..)

end Delivers

/-! ### ABORT (R63, R426) -/

theorem abort_happens {s : State} (hvotes : votes s s.subject.m = true) (hst : s.gc.vote.st = .backoff) : let m := s.subject.m
    Happens .abort s fun t => Quiet s t ∧ (t.member m).snuffed = false ∧ (t.member m).netSave = [] := by
  intro m
  obtain ⟨s1, hs1⟩ : ∃ s1, s.modMember m (fun c => { c with snuffed := false, outside := [] }) = s1 := ⟨_, rfl⟩
  have hexec : exec .abort s = .next (wakeEngines (deliverNet s1 m) m) := (if_neg (by simp [hvotes, hst])).trans (by rw [← hs1])
  have hmember : s1.member m = { s.member m with snuffed := false, outside := [] } := by rw [← hs1, State.member_modMember]
  have hquiet : Quiet s s1 := hs1 ▸ (Quiet.refl s).modMember ..
  obtain ⟨s2, hs2⟩ : ∃ s2, s1.modMember m (fun c => { c with netSave := [] }) = s2 := ⟨_, rfl⟩
  have hdelivers : Delivers s2 (wakeEngines (deliverNet s1 m) m) := (hs2 ▸ Delivers.deliverNet s1 m).wakeEngines m
  have hmember2 : s2.member m = { s1.member m with netSave := [] } := by rw [← hs2, State.member_modMember]
  refine ⟨_, hexec, (hs2 ▸ hquiet.modMember .. : Quiet s s2).trans hdelivers.quiet, ?_, ?_⟩
  · rw [hdelivers.snuffed, hmember2, hmember]
  · rw [hdelivers.netSave, hmember2]

end Sys2Proof.Machine
end

section
/-!
PROOFS.  RELIGHT (R63, R66, R68 to R70): a die stops, its context is saved once nothing of it must still end, and the incoming context is loaded.
-/
namespace Sys2Proof.Machine

variable {s : State}

/-! ### What a save leaves as it is -/

/-- The clk and every core are the same. -/
structure SameCores (s t : State) : Prop where
  clk : t.clk = s.clk
  cores : t.cores = s.cores

namespace SameCores
variable {t u : State}

theorem refl (s : State) : SameCores s s := ⟨rfl, rfl⟩
theorem trans (h : SameCores s t) (h' : SameCores t u) : SameCores s u := ⟨h'.clk.trans h.clk, h'.cores.trans h.cores⟩
theorem foldl {α : Type} {f : State → α → State} (h : SameCores s t) (hf : ∀ u x, SameCores u (f u x)) (l : List α) : SameCores s (l.foldl f t) :=
  h.trans (foldl_keeps refl trans hf l t)

theorem drains (h : SameCores s t) (d : ℕ) (m : MemberId) (l : List Merge) : SameCores s (l.foldl (fun s e => drainEntry s d m e) t) :=
  h.foldl (fun u e => let hu := (Steady.refl u).drainEntry d m e; ⟨hu.clk, hu.cores⟩) l

theorem capture (s : State) (w : Option ℕ) (m : MemberId) (p : Pkt) : SameCores s (Machine.capture s w m p) := by
  cases w
  · exact ⟨rfl, rfl⟩
  · exact ⟨rfl, rfl⟩

theorem captureAll (h : SameCores s t) (w : Option ℕ) (l : List (MemberId × Pkt)) : SameCores s (Machine.captureAll t w l).2 :=
  List.foldlRecOn (motive := fun acc : List (MemberId × Pkt) × State => SameCores s acc.2) _ _ h fun acc hacc e _ => by
    split
    · exact hacc
    · exact hacc.trans (capture ..)

theorem sweepGang (h : SameCores s t) (vd : ℕ) : SameCores s (Machine.sweepGang t vd) := (h.captureAll ..).trans ⟨rfl, rfl⟩

theorem captureNi (h : SameCores s t) (m : MemberId) (marked : Bool) : SameCores s (Machine.captureNi t m marked).2 := by
  unfold Machine.captureNi
  extract_lets sel c served due l r stays gone s1 s2
  have hr : SameCores s r.2 := h.captureAll none _
  clear_value r
  exact hr.trans ⟨rfl, rfl⟩

theorem saveSlots (h : SameCores s t) (vd : ℕ) : SameCores s (Machine.saveSlots t vd) := by
  unfold Machine.saveSlots
  extract_lets g recs s1
  have hs1 : SameCores s s1 := List.foldlRecOn (motive := SameCores s) _ _ h fun u hu w _ => ⟨hu.clk, hu.cores⟩
  clear_value s1
  exact hs1.trans ⟨rfl, rfl⟩

end SameCores

/-! ### Save (R68 to R70) -/

/-- The context of member `m` has been saved from die `d`. -/
structure SavedCtx (d : ℕ) (m : MemberId) (s t : State) : Prop where
  ctx : (t.die d).ctx = none
  offAt : (t.member m).offAt = s.clk
  saved : (t.member m).cores = (Tab.slice s.cores (512 * d) (512 * d + 256)).map fun e => (e.1 - 512 * d, e.2)
  cores : ∀ e ∈ t.cores, e.1 / 512 ≠ d
  accesses : ∀ a ∈ t.accesses, a.ctx ≠ m

theorem savedCtx_saveCtx (s : State) (d : ℕ) (m : MemberId) : SavedCtx d m s (saveCtx s d m) := by
  unfold saveCtx
  extract_lets s1 s2 s3 s4 mine gone as s5 cs s6 s7
  have hs4 : SameCores s s4 := ((((SameCores.refl s).drains d m _).sweepGang m.vd).captureNi m true).saveSlots m.vd
  clear_value s4
  have hmember : (s7.modDie d fun t => { t with ctx := none, queues := [], walks := [], seqs := [], engines := [], snuffing := false }).member m = s7.member m := rfl
  refine ⟨?_, ?_, ?_, fun e he => ?_, fun a ha => ?_⟩
  · rw [State.die_modDie]
  · rw [hmember, State.member_modMember]
    exact hs4.clk
  · rw [hmember, State.member_modMember]
    exact congrArg (fun l : Tab Core => (l.slice (512 * d) (512 * d + 256)).map fun e => (e.1 - 512 * d, e.2)) hs4.cores
  · exact of_decide_eq_true (List.mem_filter.mp he).2
  · exact of_decide_eq_true (List.mem_filter.mp ha).2

/-! ### Load (R66, R68, R70) -/

namespace Resumes
variable {t : State}

theorem reissue (h : Resumes s t) (a : Access) : Resumes s (Machine.reissue t a) := by
  unfold Machine.reissue
  dsimp only
  split
  · exact h.same
  · exact h.same
  · exact h.same
  · exact h.same
  · split
    · exact h.same
    · exact h.same
    · exact h.same
  · exact h.same

theorem sendSres (h : Resumes s t) (w : ℕ) (m : MemberId) (cid tag : ℕ) (word : Dword) (data : List Byte) (stamp : Tab ℕ) :
    Resumes s (Machine.sendSres t w m cid tag word data stamp) := by
  unfold Machine.sendSres
  extract_lets d p g s1
  split
  · exact (((h.modSwitch ..).modSwitch ..).modDie).after ..
  · exact (h.modSwitch ..).after ..

theorem loseSlot (h : Resumes s t) (w : ℕ) (r : RedSlot) : Resumes s (Machine.loseSlot t w r) :=
  (h.foldl (fun u _ => (refl u).sendSres ..) _).report _

theorem reinstallSlot (h : Resumes s t) (vd : ℕ) (r : RedSlot) : Resumes s (Machine.reinstallSlot t vd r) := by
  unfold Machine.reinstallSlot
  dsimp only
  split
  · exact h.loseSlot ..
  · split
    · exact (h.modSwitch ..).after ..
    · exact (h.modSwitch ..).after ..

theorem reinstallSlots (h : Resumes s t) (vd : ℕ) : Resumes s (Machine.reinstallSlots t vd) := by
  unfold Machine.reinstallSlots
  exact (h.foldl (fun u r => (refl u).reinstallSlot vd r) _).modMember ..

theorem deliverNet (h : Resumes s t) (m : MemberId) : Resumes s (Machine.deliverNet t m) := (h.modMember ..).trans (Delivers.deliverNet t m).toResumes

theorem sendBeacons (h : Resumes s t) (m : MemberId) : Resumes s (Machine.sendBeacons t m) :=
  h.draws (.foldl (drawsOnly_sendBeacon m (Tab.get 0 (t.member m).clock m.member)) _ t)

theorem resumeDue (h : Resumes s t) (m : MemberId) (n : ℕ) : Resumes s (Machine.resumeDue t m n) := by
  unfold Machine.resumeDue
  exact h.same

theorem askDispatch (h : Resumes s t) (m : MemberId) : Resumes s (Machine.askDispatch t m) := by
  unfold Machine.askDispatch
  exact .ite (h.after ..) h

theorem wakeEngines (h : Resumes s t) (m : MemberId) : Resumes s (Machine.wakeEngines t m) := h.trans ((Delivers.refl t).wakeEngines m).toResumes

end Resumes

/-- The cores of a saved context as they stand on die `d` at its load. -/
def loadedCores (s : State) (m : MemberId) : Tab Core :=
  (s.member m).cores.foldl (fun t e => Tab.put Core.reset t (512 * (s.member m).die + e.1) (resumeCore (s.clk - (s.member m).offAt) e.2)) s.cores

/-- The context of member `m` stands on its die `d`. -/
structure LoadedCtx (d : ℕ) (m : MemberId) (s t : State) : Prop where
  ctx : (t.die d).ctx = some m
  stopped : (t.die d).stopped = false
  clk : t.clk = s.clk
  mem : t.mem = s.mem
  vds : t.vds = s.vds
  cores : t.cores = loadedCores s m

theorem LoadedCtx.after {d : ℕ} {m : MemberId} {t : State} (h : LoadedCtx d m s t) (n : ℕ) (i : Instr) (o : Subject) : LoadedCtx d m s (t.after n i o) :=
  ⟨h.ctx, h.stopped, h.clk, h.mem, h.vds, h.cores⟩

theorem loadedCtx_loadCtx (s : State) (m : MemberId) : LoadedCtx (s.member m).die m s (loadCtx s m) := by
  unfold loadCtx
  extract_lets c d n s1 s2 s3 s4 s5 s6 s7 s8 s9 s10
  have hs5 : Resumes s2 s5 := Resumes.deliverNet (((((Resumes.refl s2).modMember ..).foldl (fun u _ => (Resumes.refl u).reissue _) _)).reinstallSlots m.vd) m
  have hs8 : Resumes s2 s8 := ((hs5.resumeDue m n).sendBeacons m).afterM ..
  have hs9 : Resumes s2 s9 := .ite hs8 (hs8.foldl (fun u q => (Resumes.refl u).after ..) _)
  have hfinal : Resumes s2 (wakeEngines (checkHeld (askDispatch (s10.afterM 0 .panePlacement m) m) m) m) :=
    ((((hs9.afterM ..).afterM ..).askDispatch m).checkHeld m).wakeEngines m
  have hdie : (s2.die d).ctx = some m ∧ (s2.die d).stopped = false := by
    rw [State.die_modDie]
    exact ⟨rfl, rfl⟩
  exact ⟨(hfinal.ctx d).trans hdie.1, (hfinal.stopped d).trans hdie.2, hfinal.quiet.clk, hfinal.quiet.mem, hfinal.vds, hfinal.quiet.cores⟩

theorem bringIn_loads {d : ℕ} {m : MemberId} (hincoming : incoming s d = some m) (hdie : (s.member m).die = d) (hlive : (s.vd m.vd).state ≠ .killed) :
    LoadedCtx d m s (bringIn s d) := by
  have hload := loadedCtx_loadCtx s m
  rw [hdie] at hload
  have hstate : ((loadCtx s m).vd m.vd).state ≠ .killed := by rwa [State.vd, hload.vds]
  simp only [bringIn, hincoming, if_neg hstate]
  split
  · split
    · exact hload.after ..
    · exact hload
  · exact hload

/-! ### RELIGHT (R68) -/

section
variable {o : Subject} (ho : s.subject = o) (hv : s.gc.vote.v = o.c) (hst : s.gc.vote.st = .relighting) (hdie : o.a ∈ s.gc.vote.dies)
  (hup : (s.die o.a).failed = false)
include ho hv hst hdie hup

theorem relight_stops (hb : o.b = 0) :
    Happens .relight s fun t => Quiet s t ∧ (t.die o.a).stopped = true ∧ Coming t (s.clk + 1) .relight { o with b := 1 } := by
  subst ho
  have hexec : exec .relight s = .next ((s.modDie s.subject.a fun t => { t with stopped := true }).after 1 .relight { s.subject with b := 1 }) := by
    change execRelight s = _
    simp only [execRelight, hb]
    exact if_neg (by simp [hv, hst, hdie, hup])
  exact ⟨_, hexec, ⟨rfl, rfl, rfl, rfl, rfl⟩, by rw [State.die_after, State.die_modDie], coming_after ..⟩

section
variable {m : MemberId} (hb : o.b = 1) (hctx : (s.die o.a).ctx = some m)
include hb hctx

theorem execRelight_save : exec .relight s =
    if stopBusy s o.a m then .next (s.after 1 .relight o)
    else .next ((saveCtx s o.a m).draw.after (relightClk (saveCtx s o.a m) o.a (moveBytes ((saveCtx s o.a m).member m) + incomingBytes (saveCtx s o.a m) o.a)) .relight
      { o with b := 2 }) := by
  subst ho
  change execRelight s = _
  simp only [execRelight, hb, hctx]
  exact if_neg (by simp [hv, hst, hdie, hup])

theorem relight_waits (hbusy : stopBusy s o.a m = true) :
    Happens .relight s fun t => Quiet s t ∧ t.dies = s.dies ∧ Coming t (s.clk + 1) .relight o :=
  ⟨_, (execRelight_save ho hv hst hdie hup hb hctx).trans (if_pos hbusy), ⟨rfl, rfl, rfl, rfl, rfl⟩, rfl, coming_after ..⟩

theorem relight_saves (hidle : stopBusy s o.a m = false) : Happens .relight s fun t => (t.die o.a).ctx = none ∧ (t.member m).offAt = s.clk ∧
    (t.member m).cores = (Tab.slice s.cores (512 * o.a) (512 * o.a + 256)).map (fun e => (e.1 - 512 * o.a, e.2)) ∧
    (∀ e ∈ t.cores, e.1 / 512 ≠ o.a) ∧ ∀ a ∈ t.accesses, a.ctx ≠ m := by
  obtain ⟨hnone, hoff, hsaved, hcores, haccesses⟩ := savedCtx_saveCtx s o.a m
  have hexec := (execRelight_save ho hv hst hdie hup hb hctx).trans (if_neg (by simp [hidle]))
  generalize saveCtx s o.a m = u at *
  exact ⟨_, hexec, hnone, hoff, hsaved, hcores, haccesses⟩

end

theorem execRelight_load (hb : o.b = 2) (hnew : (s.die o.a).newPosition = none) : exec .relight s = .next (sendChimney .lit { a := o.a, b := o.c } (bringIn s o.a)) := by
  subst ho
  have htake : takePosition s s.subject.a = s := by rw [takePosition, hnew]
  change execRelight s = _
  simp only [execRelight, hb, htake]
  exact if_neg (by simp [hv, hst, hdie, hup])

theorem relight_loads {m : MemberId} {i : ℕ} {c : Core} (hb : o.b = 2) (hnew : (s.die o.a).newPosition = none) (hincoming : incoming s o.a = some m)
    (hhome : (s.member m).die = o.a) (hlive : (s.vd m.vd).state ≠ .killed) (hsaved : (s.member m).cores = [(i, c)]) :
    Happens .relight s fun t => (t.die o.a).ctx = some m ∧ (t.die o.a).stopped = false ∧ t.mem = s.mem ∧ (t.core ⟨o.a, i⟩).x = c.x ∧ (t.core ⟨o.a, i⟩).pc = c.pc ∧
      (t.core ⟨o.a, i⟩).next = c.next ∧ (t.core ⟨o.a, i⟩).frozen = c.frozen + (s.clk - (s.member m).offAt) ∧
      ∃ at_, s.clk < at_ ∧ Coming t at_ .lit { a := o.a, b := o.c } := by
  obtain ⟨hctx, hstopped, hclk, hmem, -, hcores⟩ := bringIn_loads hincoming hhome hlive
  have hcore : (sendChimney .lit { a := o.a, b := o.c } (bringIn s o.a)).core ⟨o.a, i⟩ = resumeCore (s.clk - (s.member m).offAt) c := by
    change Tab.get Core.reset (bringIn s o.a).cores (512 * o.a + i) = _
    rw [hcores, loadedCores, hsaved, hhome]
    exact Tab.get_put_same ..
  refine ⟨_, execRelight_load ho hv hst hdie hup hb hnew, hctx, hstopped, hmem, ?_⟩
  rw [hcore]
  exact ⟨rfl, rfl, rfl, rfl, ((comesWithin_sendChimney ..).from hclk.symm).later⟩

end

end Sys2Proof.Machine
end

section
/-!
PROOFS.  The end of a vote (R56, R61, R63, R427): LIT, the next quantum and the dies that are gated, and parties that owe a message for 100 µs.
-/
namespace Sys2Proof.Machine

variable {s t u : State}

/-! ### What the end of a vote leaves as it is -/

/-- The clk, every core, the gang controller but for its cells, and whether a die has failed are the same, and what was to come is still to come. -/
structure Settles (s t : State) : Prop where
  clk : t.clk = s.clk
  cores : t.cores = s.cores
  agenda : s.agenda ⊆ t.agenda
  gc : { t.gc with cells := [] } = { s.gc with cells := [] }
  failed : ∀ d, (t.die d).failed = (s.die d).failed

namespace Settles

theorem refl (s : State) : Settles s s := ⟨rfl, rfl, List.Subset.refl _, rfl, fun _ => rfl⟩
theorem trans (h : Settles s t) (h' : Settles t u) : Settles s u :=
  ⟨h'.clk.trans h.clk, h'.cores.trans h.cores, List.Subset.trans h.agenda h'.agenda, h'.gc.trans h.gc, fun d => (h'.failed d).trans (h.failed d)⟩
/-- What changes nothing of it. -/
theorem same (h : Settles s t) (hclk : u.clk = t.clk := by rfl) (hcores : u.cores = t.cores := by rfl) (hagenda : u.agenda = t.agenda := by rfl)
    (hgc : u.gc = t.gc := by rfl) (hdies : u.dies = t.dies := by rfl) : Settles s u :=
  h.trans ⟨hclk, hcores, hagenda ▸ List.Subset.refl _, hgc ▸ rfl, fun d => by rw [State.die, hdies, State.die]⟩
theorem due (h : Settles s t) (at_ : ℕ) (a : Act) : Settles s (t.due at_ a) := h.trans ⟨rfl, rfl, List.subset_append_left _ _, rfl, fun _ => rfl⟩
theorem after (h : Settles s t) (n : ℕ) (i : Instr) (o : Subject) : Settles s (t.after n i o) := h.due ..
theorem draw (h : Settles s t) : Settles s t.draw := h.same
theorem modMember (h : Settles s t) (m : MemberId) (f : Member → Member) : Settles s (t.modMember m f) := h.same
theorem modVd (h : Settles s t) (n : ℕ) (f : VD → VD) : Settles s (t.modVd n f) := h.same
theorem modDie (h : Settles s t) {d : ℕ} {f : Die → Die} (hf : (f (t.die d)).failed = (t.die d).failed := by rfl) : Settles s (t.modDie d f) :=
  h.trans ⟨rfl, rfl, List.Subset.refl _, rfl, fun e => by
    by_cases he : e = d
    · rw [he, State.die_modDie, hf]
    · rw [State.die_modDie_other _ _ he]⟩
theorem foldl {α : Type} {f : State → α → State} (h : Settles s t) (hf : ∀ u x, Settles u (f u x)) (l : List α) : Settles s (l.foldl f t) :=
  h.trans (foldl_keeps refl trans hf l t)
theorem ite {p : Prop} [Decidable p] (ht : Settles s t) (hu : Settles s u) : Settles s (if p then t else u) := by
  split
  · exact ht
  · exact hu

/-! ### Reductions that drain, and dies that are gated (R56, R97, R377) -/

theorem checkTriggers (h : Settles s t) (m : MemberId) (a n : ℕ) : Settles s (Machine.checkTriggers t m a n) := by
  refine h.foldl (fun u e => ?_) _
  split
  · exact .ite (((refl u).modMember ..).after ..) (refl u)
  · exact refl u

theorem checkDoorbell (h : Settles s t) (vd k n : ℕ) : Settles s (Machine.checkDoorbell t vd k n) :=
  h.foldl (fun u _ => .ite ((refl u).foldl (fun v _ => (refl v).foldl (fun w _ => (refl w).draw.after ..) _) _) (refl u)) _

theorem pokeQueues (h : Settles s t) (d a n : ℕ) : Settles s (Machine.pokeQueues t d a n) := by
  refine h.foldl (fun u e => ?_) _
  split
  · exact .ite ((refl u).due ..) (refl u)
  · exact refl u

theorem dirty (h : Settles s t) (d a : ℕ) : Settles s (t.dirty d a) := .ite h.modDie h

theorem putAt (h : Settles s t) (m : MemberId) (l : Loc) (b : List Byte) : Settles s (Machine.putAt t m l b) := by
  cases l with
  | vault d a => exact ((((h.same (u := t.store (vaultKey d a) b)).dirty ..).dirty ..).checkTriggers ..).pokeQueues ..
  | phys k =>
    have hrung := (h.same (u := t.store k (keepRptr t m.vd k b))).checkDoorbell m.vd k b.length
    exact .ite hrung hrung.same

theorem drainEntry (h : Settles s t) (d : ℕ) (m : MemberId) (e : Merge) : Settles s (Machine.drainEntry t d m e) := by
  unfold Machine.drainEntry Machine.drainMerge
  split
  · exact h.modDie.foldl (fun u _ => (refl u).putAt ..) _
  · exact h.modDie.foldl (fun u _ => (refl u).putAt ..) _

theorem drainRange (h : Settles s t) (d : ℕ) (m : MemberId) (key n : ℕ) : Settles s (Machine.drainRange t d m key n) :=
  h.foldl (fun u e => (refl u).drainEntry d m e) _

theorem spillDie (h : Settles s t) (d : ℕ) (sel : MemberId → Bool) : Settles s (Machine.spillDie t d sel) := by
  refine h.foldl (fun u e => ?_) _
  split
  · exact .ite ((((refl u).drainRange ..).same.modMember ..).modDie) (refl u)
  · exact refl u

theorem gateDies (h : Settles s t) : Settles s (Machine.gateDies t) :=
  h.foldl (fun u d => .ite (.ite (refl u).modDie ((refl u).modDie.spillDie ..).modDie) (refl u)) _

/-! ### VDs that come and go (R71, R75) -/

theorem wakeDone (h : Settles s t) (vd : ℕ) : Settles s (Machine.wakeDone t vd) := by
  have hcell (v : State) (i d : ℕ) (c : Cell) : Settles v (setCell v i d c) := ⟨rfl, rfl, List.Subset.refl _, rfl, fun _ => rfl⟩
  unfold Machine.wakeDone homeCells
  refine .ite ?_ h
  split
  · exact (h.modVd ..).foldl (fun u d => hcell u ..) _
  · exact h.modVd ..

theorem resumeIdle (h : Settles s t) (vd : ℕ) : Settles s (Machine.resumeIdle t vd) := by
  unfold Machine.resumeIdle
  split
  · exact (h.modVd ..).due ..
  · rcases noteIdle_cases t vd with e | ⟨n, e⟩ <;> rw [e]
    · exact h
    · exact (h.modVd ..).after ..

end Settles

/-! ### The vote ends (R61, R63) -/

/-- The vote is over, and the next quantum has begun unless the vote was restricted to some VDs. -/
structure VoteEnded (s t : State) : Prop where
  clk : t.clk = s.clk
  cores : t.cores = s.cores
  failed : ∀ d, (t.die d).failed = (s.die d).failed
  idle : t.gc.vote.st = .idle
  next : s.gc.vote.restricted = false → t.gc.cur = s.gc.vote.slot ∧ t.gc.quantumEnd = s.clk + quantumOf s s.gc.vote.slot ∧
    Coming t (s.clk + quantumOf s s.gc.vote.slot) .slotQuantumEnd {}
  stays : s.gc.vote.restricted = true → t.gc.cur = s.gc.cur ∧ t.gc.quantumEnd = s.gc.quantumEnd

theorem voteEnded_voteDone (s : State) : VoteEnded s (voteDone s) := by
  unfold voteDone
  extract_lets v g blank s1 s2 s3 q g3 s4
  have hs2 : Settles s1 s2 := by
    refine (Settles.refl s1).foldl (fun u n => ?_) _
    extract_lets u1
    have hwaits : Settles u u1 := (Settles.refl u).modVd ..
    split
    · exact hwaits.draw.after ..
    · exact hwaits.after ..
    · exact hwaits
  have hs3 : Settles s1 s3 := hs2.foldl (fun u n => (Settles.ite (Settles.refl u) ((Settles.refl u).wakeDone n)).resumeIdle n) _
  have hq : q = quantumOf s v.slot := (congrArg (fun g : GC => let q := Tab.get 0 g.quanta v.slot; if q = 0 then 2000 * Config.us else q) hs3.gc :)
  clear_value s2 s3 q
  have hgate : Settles s4 (gateDies s4) := (Settles.refl s4).gateDies
  generalize gateDies s4 = t at hgate
  have hclk : s3.clk = s.clk := hs3.clk
  cases hr : v.restricted with
  | true =>
    have hs4 : s4 = s3 := if_pos hr
    rw [hs4] at hgate
    have hend := hs3.trans hgate
    exact ⟨hend.clk, hend.cores, hend.failed, (congrArg (fun g : GC => g.vote.st) hend.gc :), fun h => absurd (hr.symm.trans h) (by decide),
      fun _ => ⟨(congrArg GC.cur hend.gc :), (congrArg GC.quantumEnd hend.gc :)⟩⟩
  | false =>
    have hs4 : s4 = { s3 with gc := { s3.gc with cur := v.slot, quantumEnd := s3.clk + q } }.after q .slotQuantumEnd {} := if_neg (by simp [hr])
    have hcoming := coming_after { s3 with gc := { s3.gc with cur := v.slot, quantumEnd := s3.clk + q } } q .slotQuantumEnd {}
    rw [← hs4] at hcoming
    clear_value s4
    subst hs4
    refine ⟨hgate.clk.trans hclk, hgate.cores.trans hs3.cores, fun d => (hgate.failed d).trans (hs3.failed d),
      (congrArg (fun g : GC => g.vote.st) hgate.gc :).trans (congrArg (fun g : GC => g.vote.st) hs3.gc :), fun _ => ⟨(congrArg GC.cur hgate.gc :), ?_, ?_⟩,
      fun h => absurd (hr.symm.trans h) (by decide)⟩
    · rw [← hq, ← hclk]
      exact (congrArg GC.quantumEnd hgate.gc :)
    · rw [← hq, ← hclk]
      exact hgate.agenda hcoming

/-! ### LIT (R63) -/

/-- LIT of die `d` is noted. -/
def noteLit (s : State) (d : ℕ) : State := setVote s fun v => { v with reported := v.reported ++ [d] }

section
variable {o : Subject} (ho : s.subject = o) (hv : s.gc.vote.v = o.b) (hst : s.gc.vote.st = .relighting) (hnew : o.a ∉ s.gc.vote.reported)
include ho hv hst hnew

/-- LIT of a die is noted, and with the last one the vote is over. -/
theorem execLit_eq : exec .lit s =
    .next (if s.gc.vote.dies.all (s.gc.vote.reported ++ [o.a]).contains then voteDone (noteLit s o.a) else noteLit s o.a) := by
  subst ho
  exact if_neg (by simp [hv, hst, hnew])

theorem lit_notes (hmore : s.gc.vote.dies.all (s.gc.vote.reported ++ [o.a]).contains = false) :
    Happens .lit s fun t => VoteAt s t .relighting ∧ t.gc.vote.reported = s.gc.vote.reported ++ [o.a] :=
  ⟨noteLit s o.a, by rw [execLit_eq ho hv hst hnew, hmore, if_neg Bool.false_ne_true], ⟨(Quiet.refl s).setVote _, hst⟩, rfl⟩

theorem lit_ends (hlast : s.gc.vote.dies.all (s.gc.vote.reported ++ [o.a]).contains = true) : let v := s.gc.vote
    Happens .lit s fun t => t.clk = s.clk ∧ t.cores = s.cores ∧ t.gc.vote.st = .idle ∧
      (v.restricted = false → t.gc.cur = v.slot ∧ t.gc.quantumEnd = s.clk + quantumOf s v.slot ∧
        Coming t (s.clk + quantumOf s v.slot) .slotQuantumEnd {}) ∧ (v.restricted = true → t.gc.cur = s.gc.cur ∧ t.gc.quantumEnd = s.gc.quantumEnd) := by
  have hend := voteEnded_voteDone (noteLit s o.a)
  exact ⟨_, by rw [execLit_eq ho hv hst hnew, if_pos hlast], hend.clk, hend.cores, hend.idle, hend.next, hend.stays⟩

end

/-! ### VOTE_PARTY_TIMEOUT (R427) -/

/-- A die has failed, and no core of it is left. -/
structure FailedDie (d : ℕ) (t : State) : Prop where
  failed : (t.die d).failed = true
  cores : ∀ e ∈ t.cores, e.1 / 512 ≠ d

namespace FailedDie
variable {d : ℕ}

theorem voteDone (h : FailedDie d t) : FailedDie d (Machine.voteDone t) :=
  have hend := voteEnded_voteDone t
  ⟨(hend.failed d).trans h.failed, hend.cores ▸ h.cores⟩

theorem stopCores (h : FailedDie d t) (e : ℕ) : FailedDie d (Machine.stopCores t e) where
  failed := h.failed
  cores := List.forall_mem_map.mpr fun x hx => by
    split
    · exact h.cores x hx
    · exact h.cores x hx

end FailedDie

theorem gc_killVd (s : State) (vd : ℕ) : (killVd s vd).gc = s.gc := by
  unfold killVd
  split
  · rfl
  · exact List.foldlRecOn (motive := fun u : State => u.gc = s.gc) _ (fun u (e : MemberId × ℕ) => stopCores u e.2) rfl fun u hu e _ => hu

theorem failedDie_killVd {d : ℕ} (h : FailedDie d s) (vd : ℕ) : FailedDie d (killVd s vd) := by
  unfold killVd
  split
  · exact h
  · have hstopped : FailedDie d ((votersOf s [vd]).foldl (fun s e => stopCores s e.2) s) :=
      List.foldlRecOn (motive := FailedDie d) _ _ h fun u hu e _ => hu.stopCores e.2
    exact ⟨hstopped.failed, hstopped.cores⟩

theorem gc_loseGranules (s : State) (d : ℕ) : (loseGranules s d).gc = s.gc :=
  List.foldlRecOn (motive := fun u : State => u.gc = s.gc) _ _ rfl fun u hu e _ => by
    split
    · exact hu
    · exact hu

theorem dieFailed_spec (s : State) (d : ℕ) : FailedDie d (dieFailed s d) ∧ (dieFailed s d).gc = s.gc := by
  unfold dieFailed
  extract_lets vds s1 was s2 s3 s4
  have hs1 : s1.gc = s.gc := List.foldlRecOn (motive := fun u : State => u.gc = s.gc) _ _ rfl fun u hu n _ => hu
  have hs2 : s2.gc = s.gc := (gc_loseGranules s1 d).trans hs1
  clear_value s2 was
  have hs4 : FailedDie d s4 := ⟨by rw [State.die_modDie], fun e he => of_decide_eq_true (List.mem_filter.mp he).2⟩
  cases was
  case none => exact ⟨hs4, hs2⟩
  case some m =>
    have hm : FailedDie d { s4 with accesses := s4.accesses.filter fun (a : Access) => decide (a.ctx ≠ m) } := ⟨hs4.failed, hs4.cores⟩
    exact ⟨failedDie_killVd hm m.vd, (gc_killVd ..).trans hs2⟩

theorem votePartyTimeout_fails {d : ℕ} {o : Subject} (ho : s.subject = o) (hv : s.gc.vote.v = o.a) (hasked : s.gc.vote.askedAt = o.b) (hlate : o.b + 85000 ≤ s.clk)
    (hst : s.gc.vote.st = .relighting) (hmissing : (s.gc.vote.dies.filter fun x => !s.gc.vote.reported.contains x) = [d]) (hd : d < 1000) :
    Happens .votePartyTimeout s fun t => (t.die d).failed = true ∧ ∀ e ∈ t.cores, e.1 / 512 ≠ d := by
  subst ho
  obtain ⟨u, hu⟩ : ∃ u, dieFailed (setVote s fun v => { v with failed := v.failed ++ [d] }) d = u := ⟨_, rfl⟩
  obtain ⟨hfailed, hgc⟩ := hu ▸ dieFailed_spec (setVote s fun v => { v with failed := v.failed ++ [d] }) d
  have hst' : u.gc.vote.st = .relighting := by rw [hgc]; exact hst
  have hexec : exec .votePartyTimeout s = .next (if u.gc.vote.dies.all fun d => u.gc.vote.reported.contains d || u.gc.vote.failed.contains d then voteDone u else u) := by
    change execVotePartyTimeout s = _
    unfold execVotePartyTimeout
    extract_lets o v missing t v'
    have hdue : ¬(v.v ≠ o.a ∨ v.askedAt ≠ o.b ∨ s.clk < o.b + 100 * Config.us) := by
      rintro (h | h | h)
      · exact h hv
      · exact h hasked
      · exact absurd hlate (not_le.mpr h)
    rw [if_neg hdue]
    have hone : missing = [d] := by
      simp only [missing, v, hst]
      exact hmissing
    have ht : t = u := by
      simp only [t, hone, List.foldl_cons, List.foldl_nil]
      exact hu
    simp [hone, hd, v', ht, hst']
  refine ⟨_, hexec, ?_⟩
  split
  · exact ⟨hfailed.voteDone.failed, hfailed.voteDone.cores⟩
  · exact ⟨hfailed.failed, hfailed.cores⟩

end Sys2Proof.Machine
end

section
/-!
PROOFS.  O53: the events of the vote, each clause from the theorem about its event.
-/
namespace Sys2Proof.Machine

/-- Settles O53: each event is one row of the state table of R63, and its theorem says what that row does. -/
theorem voteEvents : Obligations.VoteEvents := by
  unfold Obligations.VoteEvents
  refine ⟨?quantumBusy, ?quantumEnd, ?snuffArrives, ?snuffTests, ?countLatch, ?refuse, ?count, ?sumreq, ?deadline, ?holdNamed, ?holdOther, ?held, ?abort, ?backoff,
    ?relight, ?lit, ?timeout⟩
  case quantumBusy => exact fun s => slotQuantumEnd_busy
  case quantumEnd => exact fun s s' i => slotQuantumEnd_votes
  case snuffArrives => exact fun s => snuff_arrives
  case snuffTests => exact fun s => snuff_tests
  case countLatch =>
    intro s o v hv hround hst htime
    obtain ⟨t, hexec, hvote, hsumreq, hmembers⟩ := countLatch_happens rfl hv hround hst htime
    exact ⟨t, hexec, hvote, hsumreq, fun e he hup => ⟨(hmembers e he hup).1, (hmembers e he hup).2.later⟩⟩
  case refuse => exact fun s => refuse_happens
  case count => exact fun s hv hround hst hnew => count_happens rfl hv hst hround hnew
  case sumreq => exact fun s hv hround hst => sumreq_happens rfl hv hst hround
  case deadline =>
    intro s v hv hst htime
    obtain ⟨t, hexec, hvote, hhold, hreported, hparties⟩ := drainDeadline_happens rfl hv hst htime
    exact ⟨t, hexec, hvote, hhold, hreported, fun p hp => (hparties p hp).later⟩
  case holdNamed =>
    exact fun s m p hv hst hparty hdie hup hctx => hold_captures rfl hv hst hparty hdie hup hctx
  case holdOther =>
    intro s m o v hv hst hparty hdie hup hctx hother
    obtain ⟨t, hexec, hvote, hmembers, hheld⟩ := hold_notNamed rfl hv hst hparty hdie hup hctx hother
    exact ⟨t, hexec, hvote, hmembers, hheld.later⟩
  case held => exact fun s => held_happens rfl
  case abort => exact fun s => abort_happens
  case backoff => exact fun s => backoffEnd_happens
  case relight =>
    exact fun s hv hst hdie hup => ⟨relight_stops rfl hv hst hdie hup, fun m => relight_waits rfl hv hst hdie hup, fun m => relight_saves rfl hv hst hdie hup,
      fun m i c hb hnew hincoming hhome hlive hsaved _ => relight_loads rfl hv hst hdie hup hb hnew hincoming hhome hlive hsaved⟩
  case lit => exact fun s hv hst hnew => ⟨lit_notes rfl hv hst hnew, lit_ends rfl hv hst hnew⟩
  case timeout => exact fun s d => votePartyTimeout_fails rfl

end Sys2Proof.Machine
end
